-- ==== Sys2Proof/Word.lean ====
section
/-!
DEFINITION. Word.lean: the widths the manual uses (R7) and nothing else. What is read out of a word, and every
arithmetic rule a test could show wrong, stands in Sys2Proof/Machine/Bits.lean.
-/
namespace Sys2Proof

/-- One byte. -/
abbrev Byte := BitVec 8
/-- One 32-bit register, descriptor word or general register. -/
abbrev Word := BitVec 32
/-- One 64-bit quantity the manual treats as bits. -/
abbrev DWord := BitVec 64

end Sys2Proof
end

