-- ==== Sys2Proof/Syntax.lean ====
section
/-!
DEFINITION. Syntax.lean: the commands the block takes (spec/opcode_table.json), and the plain data they carry.

Conventions, all logged in notes/assumptions: `dt` is the number of CK_TIME ticks since the command before (a command
that an outside agent issues has none: it acts at the present instant); `ring` is a ring number; `data` is what host
memory answers to the reads the command makes (`none`: a PCI Express completion error); an outcome the spec leaves to
the physical world (a test's verdict, a received frame, a measured voltage) is an operand.
-/
namespace Sys2Proof

/-- Who makes a register write (ORIGIN of R384). -/
inductive Origin where
  | host
  | firmware
  | peer (addr : Nat)
  | debug
  deriving DecidableEq, Repr

/-- An outcome of the physical world in a render frame: an integrity failure the checks of R364 to R369 find, or a
block that came too late. -/
inductive FrameFault where
  /-- A seal failure on a block: STREAM, CHANNEL. -/
  | seal (stream channel : Nat)
  /-- A residue failure: unit code of R371, node in service, and the blocks the failing operation contributed to, each by STREAM and
  CHANNEL: they carry RESIDUE_FAIL (R368). -/
  | residue (unit node : Nat) (blocks : List (Nat × Nat))
  /-- SRAM parity: memory code of R371, byte offset, and the blocks that hold the word: they carry PARITY_FAIL. -/
  | sram (mem offset : Nat) (blocks : List (Nat × Nat))
  /-- Queue storage parity: owner class, queue number. -/
  | queue (owner inst : Nat)
  /-- DRAM parity: requesting master, data address, and the blocks that hold the word: they carry PARITY_FAIL. -/
  | dram (master addr : Nat) (blocks : List (Nat × Nat))
  /-- An object block not in its differential line when the path fabric window opens (R61). -/
  | lateObject (obj : Nat)
  /-- A tail of segment 0 to 2 not ready, or the input (3) late (R84): output. -/
  | convOverrun (out seg : Nat)
  /-- A failing FDL spectrum, `age` super-blocks old, or a failing filter spectrum (R87): output, segment. The output's block of the frame is
  flagged and counted with it, beside the memory failure's own event. -/
  | fdl (out seg age : Nat)
  | filterSpectrum (out seg : Nat)
  /-- Program memory parity: the core that fetches, and the byte offset of its line. -/
  | program (core offset : Nat)
  deriving DecidableEq, Repr

/-- A gain point of the mix fabric (R97): a live crosspoint, a fading one by its place in the pool, a bus master, a
membership's input gain, contribution or return scale, a bridge scale, a destination's route, or a falling one. -/
inductive GainRef where
  | xpoint (bus slot : Nat)
  | fading (i : Nat)
  | master (bus : Nat)
  | input (chan bridge : Nat)
  | contribution (chan bridge : Nat)
  | returnScale (chan bridge : Nat)
  | bridge (b : Nat)
  | dest (d : Nat)
  | destOld (d i : Nat)
  deriving DecidableEq, Repr

/-- How a per-bank refresh comes about (R236): it falls due, on an idle or best-effort channel or in a real-time burst; it is
pulled in ahead of time; or an owed one is inserted at a cut. -/
inductive RefreshKind where
  | due (burst : Bool)
  | early
  | insert
  deriving DecidableEq, Repr

/-- What the tone detectors of a voice channel measure in the frame of a voice tick (R133, R134): frequencies in mHz, levels in 0.01 dBm0.
Whether a measure between what a detector accepts and what it rejects is taken is an operand. -/
inductive VoiceObs where
  /-- A pair of tones has lasted `ms`: the lower and the higher, each with its level; the estimated onset. -/
  | dtmf (chan lo hi : Nat) (lvlLo lvlHi : Int) (ms onset : Nat) (accept : Bool)
  /-- A digit of `ms` has been broken off for `gap` ms. -/
  | dtmfBreak (chan gap ms : Nat) (ended : Bool)
  /-- One tone (`f2` = 0) or a pair has lasted `ms`, at a level. -/
  | cpt (chan f1 f2 : Nat) (level : Int) (ms : Nat)
  | cptEnd (chan ms : Nat)
  /-- Onset of a tone near 2,100 Hz on Rin (false) or Sin (true); its phase reversals in degrees and their interval in ms, 0 for none. -/
  | answer (chan : Nat) (sin : Bool) (freq : Nat) (level : Int) (phase interval : Nat)
  deriving DecidableEq, Repr

/-- Conditions of VCMP (R177). -/
inductive VCond where
  | eq | ne | lt | le
  deriving DecidableEq, Repr

/-- Conditions of BR (R177). -/
inductive BCond where
  | eq | ne | lt | ge | ltu | geu | always
  deriving DecidableEq, Repr

/-- A register that MOV can name (R173, R177). -/
inductive CoreReg where
  | g (n : Fin 32)
  | p (n : Fin 8)
  | m (n : Fin 8)
  | cb (n : Fin 8)
  | cn (n : Fin 8)
  | lc (n : Fin 2)
  | ls (n : Fin 2)
  | le (n : Fin 2)
  | cst | crs | ipc | icst | ivec | tcmp | cid
  deriving DecidableEq, Repr

/-- The commands the block takes: one constructor per row of spec/opcode_table.json. -/
inductive Instr where
  /-- REGISTER_WRITE (R8): A BAR0 write to a register field with no row of its own acts under its access code; a write that misses its window, its byte enables or its lock is ignored or discarded. -/
  | registerWrite (off : Nat) (be : BitVec 4) (v : Word) (origin : Origin)
  /-- PLANE_SPLIT_WRITE (R15): A write to MGT_PLANE_SPLIT.RENDER_CLUSTERS is accepted only while the module is stopped and the value is 0 to 16; otherwise it is discarded and SPLIT_REFUSED is set. -/
  | planeSplitWrite (v : Word) (origin : Origin)
  /-- PLANE_START (R23): Ring 0 opcode 0x90 validates the graphs and starts the named planes cold at boundary F. -/
  | planeStart
  /-- PLANE_STOP (R23): Ring 0 opcode 0x91 ramps every egress of the named planes to zero from F over 1.0 ms. -/
  | planeStop
  /-- PLANES_STOPPED (R23): At the first render frame boundary after the stop ramp ends, the named planes stop, their voice channels become IDLE and their egresses hold zero. -/
  | planesStopped
  /-- REMOVE (R24): CTL_ACTION ACTION 1 takes a block from service under R21. -/
  | remove
  /-- RESTORE (R24): CTL_ACTION ACTION 2 runs the on-demand Vigil test of a held-out block and returns it if the test passes. -/
  | restore
  /-- RESET (R24): CTL_ACTION ACTION 3 removes a block, resets its logic and state, then restores it. -/
  | reset
  /-- RETIRE_BANK (R24): CTL_ACTION ACTION 4 retires physical tile bank ARG by copy and exchange. -/
  | retireBank
  /-- ROTATE (R24): CTL_ACTION ACTION 5 starts a spare rotation of a tile at once. -/
  | rotate
  /-- CONTROL_ACTION_EXECUTE (R20): An accepted control action executes on its block at boundary F, or at once when the block carries no live data. -/
  | controlActionExecute (dt target : Nat)
  /-- FRAME_TICK (R36): The render frame tick commits ingress blocks and drives every per-frame stage of render, output, mix and scheduling. -/
  | frameTick (dt : Nat) (stepPct : Nat) (faults : List FrameFault)
  /-- OBJ_POS (R41): Opcode 0x01 on rings 8 to 11 supplies one timestamped object position. -/
  | objPos (ring : Nat)
  /-- OBJ_BATCH (R41): Opcode 0x02 on rings 8 to 11 supplies a batch of 32-byte state records from host memory. -/
  | objBatch (ring : Nat) (data : Option (List Byte))
  /-- SEGMENT_RESTORE (R86): After CNV_RESTORE clean frames, 32 shed segments are restored in reverse shedding order. -/
  | segmentRestore
  /-- FLT_LOAD (R81): Opcode 0x10 on rings 14 and 15 reads, validates and converts a filter image into the inactive bank and arms the output. -/
  | fltLoad (ring : Nat) (data : Option (List Byte))
  /-- FLT_UNITY (R78): Opcode 0x11 makes the inactive bank the identity and arms the output. -/
  | fltUnity (ring : Nat)
  /-- FLT_DISARM (R78): Opcode 0x12 disarms the output and leaves its inactive bank unchanged. -/
  | fltDisarm (ring : Nat)
  /-- FILTER_LOAD_DONE (R81): A filter conversion ends: the inactive bank is written, the output is armed, and the load completes. -/
  | filterLoadDone (dt : Nat) (ring : Nat)
  /-- FILTER_CROSSFADE_END (R83): After 4,096 samples a room-filter crossfade ends and the old filter stops. -/
  | filterCrossfadeEnd (dt : Nat) (out : Nat)
  /-- PSET_LOAD (R107): Opcode 0x20 stages and validates a parameter payload and writes it into the inactive bank of one domain. -/
  | psetLoad (ring : Nat) (data : Option (List Byte))
  /-- PSET_LOAD_DONE (R106): A staged parameter load finishes writing the inactive bank and completes. -/
  | psetLoadDone (dt : Nat) (ring : Nat)
  /-- PSET_COPY (R106): Opcode 0x21 copies a domain's live bank into its inactive bank at the next frame boundary. -/
  | psetCopy (ring : Nat)
  /-- SWAP (R109): Opcode 0x22 checks the named domains and makes them pending for the swap sample j. -/
  | swap (ring : Nat)
  /-- SWAP_ACT (R110): At sample j all named domains exchange banks together, and ramps, fades and crossfades start from j. -/
  | swapAct (dt : Nat)
  /-- ZC_TIMEOUT (R99): A voice gain point with no zero crossing within ZC_MS steps anyway, and MIX_ZC_TIMEOUT counts it. -/
  | zcTimeout (dt : Nat) (point : GainRef)
  /-- TAPER_RAMP_END (R98): A Taper ramp reaches its target after RAMP_MS. -/
  | taperRampEnd (dt : Nat) (point : GainRef)
  /-- SNUFFER (R411): The fault mute path latches its cause, ramps all egresses to zero, writes a MUTE entry and flushes the journal. -/
  | snuffer (dt : Nat)
  /-- SNUFFER_END (R407): At step 6 of Snuffer the action for the latched cause begins: boot, rails off or hold. -/
  | snufferEnd (dt : Nat)
  /-- VOX_OPEN (R123): Opcode 0x30 admits a channel record and makes the channel STARTING until its effective tick. -/
  | voxOpen (ring : Nat) (data : Option (List Byte))
  /-- VOX_MODIFY (R124): Opcode 0x31 replaces the record of an active channel at its effective tick. -/
  | voxModify (ring : Nat) (data : Option (List Byte))
  /-- VOX_CLOSE (R119): Opcode 0x32 makes a channel CLOSING and ends its processing at the effective tick. -/
  | voxClose (ring : Nat)
  /-- VOX_KEY (R135): Opcode 0x33 sets the host talk key of a channel. -/
  | voxKey (ring : Nat)
  /-- VOX_QUERY (R137): Opcode 0x34 writes the channel's 64-byte statistics result at its next processing tick. -/
  | voxQuery (ring : Nat)
  /-- VOICE_TICK (R116): A voice tick drives jitter-buffer playout, echo cancellation, detection, codec tasks and packet transmission for the channels that process at it. -/
  | voiceTick (obs : List VoiceObs)
  /-- CHANNEL_IDLE (R119): A CLOSING channel becomes IDLE once its last Rout sample has been presented, and VOX_CLOSE completes. -/
  | channelIdle (dt chan : Nat)
  /-- RX_TIMEOUT (R129): No packet for RX_TIMEOUT_MS writes one RX_TIMEOUT event. -/
  | rxTimeout (dt chan : Nat)
  /-- CONCEALMENT_LIMIT (R129): After 60 ms of unbroken concealment the output fades to zero over 10 ms. -/
  | concealmentLimit (dt chan : Nat)
  /-- TALK_OFF (R134): A level below TD_THRESH − 3 dB held for TD_HANG_MS clears the talk state. -/
  | talkOff (dt chan : Nat)
  /-- EC_ENABLED (R133): After 250 ms of Rin and Sin below −36 dBm0 the bypassed canceller returns. -/
  | ecEnabled (dt chan : Nat)
  /-- NLP_FORCE_END (R141): Strong NLP forcing ends 2 s after a cold start. -/
  | nlpForceEnd (dt chan : Nat)
  /-- KEY_CHANGE (R135): A host or operator key change acts at its frame boundary and writes KEY_CHANGE. -/
  | keyChange (chan : Nat)
  /-- CODEC_TASK_MISSED (R139): A codec task not done 8 ms after its tick is concealed, its packet is not sent, and degradation may follow. -/
  | codecTaskMissed (dt chan : Nat)
  /-- ENGINE_COMPLETION (R146): An engine reports a completion, which creates an item for RELEASE 2 nodes. -/
  | engineCompletion (dt engine key : Nat)
  /-- DISPATCH (R150): Wick grants the highest eligible item to an asking core or engine. -/
  | dispatch (dt res : Nat)
  /-- EXPIRE (R147): An item not granted by its deadline is removed and counted in WCK_EXPIRED. -/
  | expire (dt : Nat)
  /-- AGING_SCAN (R158): Every 1,024 cycles waiting items promote one level after WCK_AGE_NS, up to their class ceiling. -/
  | agingScan (dt : Nat)
  /-- POST_ADMIT (R155): A blocked POST is admitted when an entry of its level or a join counter frees, and a RELEASE record is written. -/
  | postAdmit
  /-- POST_TIMEOUT (R155): A POST blocked for WCK_POST_TIMEOUT_NS returns result 1. -/
  | postTimeout (dt : Nat)
  /-- LEVEL_CAP_WRITE (R149): A write of WCK_LEVEL.CAP is accepted only with both planes stopped and a valid sum; otherwise CAP_REFUSED is set. -/
  | levelCapWrite (l : Nat) (v : Word) (origin : Origin)
  /-- TASK_WATCHDOG (R190): A task exceeding FACTOR × COST cycles faults with cause WATCHDOG. -/
  | taskWatchdog (dt core cycles : Nat)
  /-- SELF_TEST_DONE (R393): A Vigil self-test or on-demand test ends and returns the unit at the next boundary, or keeps it held out. -/
  | selfTestDone (dt target : Nat) (fail : Option Nat)
  /-- LD_W (R177): The core loads a 32-bit word through a pointer with post-modify. -/
  | ldW (core : Nat) (fin : Bool) (d : Fin 32) (k : Fin 8) (m : Option (Fin 8))
  /-- LD_H (R177): The core loads a sign-extended 16-bit value shifted to the upper half. -/
  | ldH (core : Nat) (fin : Bool) (d : Fin 32) (k : Fin 8) (m : Option (Fin 8))
  /-- LD_V (R177): The core loads four 32-bit elements, one per lane. -/
  | ldV (core : Nat) (fin : Bool) (d : Fin 8) (k : Fin 8) (m : Option (Fin 8))
  /-- LD_VB (R177): The core loads one word broadcast to all lanes. -/
  | ldVb (core : Nat) (fin : Bool) (d : Fin 8) (k : Fin 8) (m : Option (Fin 8))
  /-- ST_W (R177): The core stores a 32-bit word. -/
  | stW (core : Nat) (fin : Bool) (a : Fin 32) (k : Fin 8) (m : Option (Fin 8))
  /-- ST_V (R177): The core stores four lane elements. -/
  | stV (core : Nat) (fin : Bool) (a : Fin 8) (k : Fin 8) (m : Option (Fin 8))
  /-- PADD (R170): The core post-modifies a pointer without an access. -/
  | padd (core : Nat) (fin : Bool) (k : Fin 8) (m : Option (Fin 8))
  /-- MOVP (R177): The core loads a pointer from a general register. -/
  | movp (core : Nat) (fin : Bool) (k : Fin 8) (a : Fin 32)
  /-- VADD (R177): Lane-wise add, wrapping or saturating. -/
  | vadd (core : Nat) (fin : Bool) (sat : Bool) (d a b : Fin 8)
  /-- VSUB (R177): Lane-wise subtract, wrapping or saturating. -/
  | vsub (core : Nat) (fin : Bool) (sat : Bool) (d a b : Fin 8)
  /-- VNEG (R177): Lane-wise negate. -/
  | vneg (core : Nat) (fin : Bool) (sat : Bool) (d a : Fin 8)
  /-- VABS (R177): Lane-wise absolute value. -/
  | vabs (core : Nat) (fin : Bool) (sat : Bool) (d a : Fin 8)
  /-- VSHL (R177): Lane-wise left shift. -/
  | vshl (core : Nat) (fin : Bool) (sat : Bool) (d a : Fin 8) (n : Fin 64)
  /-- VSRA (R177): Lane-wise rounding right shift. -/
  | vsra (core : Nat) (fin : Bool) (d a : Fin 8) (n : Fin 64)
  /-- VAND (R177): Lane-wise bitwise AND. -/
  | vand (core : Nat) (fin : Bool) (d a b : Fin 8)
  /-- VOR (R177): Lane-wise bitwise OR. -/
  | vor (core : Nat) (fin : Bool) (d a b : Fin 8)
  /-- VXOR (R177): Lane-wise bitwise XOR. -/
  | vxor (core : Nat) (fin : Bool) (d a b : Fin 8)
  /-- VMIN (R177): Lane-wise signed minimum. -/
  | vmin (core : Nat) (fin : Bool) (d a b : Fin 8)
  /-- VMAX (R177): Lane-wise signed maximum. -/
  | vmax (core : Nat) (fin : Bool) (d a b : Fin 8)
  /-- VCMP (R177): Lane-wise compare setting the predicates P. -/
  | vcmp (core : Nat) (fin : Bool) (cc : VCond) (a b : Fin 8)
  /-- VSEL (R177): Lane-wise select by the predicates. -/
  | vsel (core : Nat) (fin : Bool) (d a b : Fin 8)
  /-- VMAXI (R180): Running maximum with index per lane. -/
  | vmaxi (core : Nat) (fin : Bool) (d a : Fin 8) (b : Fin 32)
  /-- VMINI (R180): Running minimum with index per lane. -/
  | vmini (core : Nat) (fin : Bool) (d a : Fin 8) (b : Fin 32)
  /-- RMAXI (R180): Reduces four lanes to the maximum and its index. -/
  | rmaxi (core : Nat) (fin : Bool) (d : Fin 32) (a : Fin 8)
  /-- RMINI (R180): Reduces four lanes to the minimum and its index. -/
  | rmini (core : Nat) (fin : Bool) (d : Fin 32) (a : Fin 8)
  /-- VMUL (R177): Lane-wise fractional multiply. -/
  | vmul (core : Nat) (fin : Bool) (sat : Bool) (d a b : Fin 8)
  /-- VMAC (R179): Lane-wise multiply-accumulate into an accumulator set under the guard rule. -/
  | vmac (core : Nat) (fin : Bool) (sat : Bool) (e : Fin 2) (a b : Fin 8)
  /-- VMSU (R179): Lane-wise multiply-subtract into an accumulator set. -/
  | vmsu (core : Nat) (fin : Bool) (sat : Bool) (e : Fin 2) (a b : Fin 8)
  /-- VMACB (R179): Multiply-accumulate of lanes by a broadcast scalar. -/
  | vmacb (core : Nat) (fin : Bool) (sat : Bool) (e : Fin 2) (a : Fin 8) (b : Fin 32)
  /-- VMSUB (R179): Multiply-subtract of lanes by a broadcast scalar. -/
  | vmsub (core : Nat) (fin : Bool) (sat : Bool) (e : Fin 2) (a : Fin 8) (b : Fin 32)
  /-- ACLR (R177): Clears an accumulator set and its clamps. -/
  | aclr (core : Nat) (fin : Bool) (e : Fin 2)
  /-- AMOV (R177): Loads an accumulator set from a vector with a shift. -/
  | amov (core : Nat) (fin : Bool) (e : Fin 2) (a : Fin 8) (n : Fin 64)
  /-- AEXT (R177): Extracts rounded accumulator values into a vector. -/
  | aext (core : Nat) (fin : Bool) (sat : Bool) (d : Fin 8) (e : Fin 2) (n : Fin 64)
  /-- ASUM (R179): Sums the four accumulators of a set into one. -/
  | asum (core : Nat) (fin : Bool) (sat : Bool) (e : Fin 2)
  /-- ADD (R177): Scalar add. -/
  | add (core : Nat) (fin : Bool) (sat : Bool) (d a b : Fin 32)
  /-- SUB (R177): Scalar subtract. -/
  | sub (core : Nat) (fin : Bool) (sat : Bool) (d a b : Fin 32)
  /-- AND (R177): Scalar AND. -/
  | and (core : Nat) (fin : Bool) (d a b : Fin 32)
  /-- OR (R177): Scalar OR. -/
  | or (core : Nat) (fin : Bool) (d a b : Fin 32)
  /-- XOR (R177): Scalar XOR. -/
  | xor (core : Nat) (fin : Bool) (d a b : Fin 32)
  /-- SHL (R177): Scalar left shift. -/
  | shl (core : Nat) (fin : Bool) (sat : Bool) (d a : Fin 32) (n : Fin 64)
  /-- SHR (R177): Scalar logical right shift. -/
  | shr (core : Nat) (fin : Bool) (d a : Fin 32) (n : Fin 64)
  /-- ASR (R177): Scalar arithmetic right shift. -/
  | asr (core : Nat) (fin : Bool) (d a : Fin 32) (n : Fin 64)
  /-- MIN (R177): Scalar signed minimum. -/
  | min (core : Nat) (fin : Bool) (d a b : Fin 32)
  /-- MAX (R177): Scalar signed maximum. -/
  | max (core : Nat) (fin : Bool) (d a b : Fin 32)
  /-- CMP (R177): Sets FLAGS from a subtraction. -/
  | cmp (core : Nat) (fin : Bool) (a b : Fin 32)
  /-- MOVI (R175): Loads an immediate, extended by EXT to 32 bits. -/
  | movi (core : Nat) (fin : Bool) (d : Fin 32) (imm : BitVec 16) (ext : Option (BitVec 28))
  /-- MOV (R177): Moves between a general register and another core register. -/
  | mov (core : Nat) (fin : Bool) (d src : CoreReg)
  /-- BR (R182): Conditional PC-relative branch after two delay bundles. -/
  | br (core : Nat) (fin : Bool) (cc : BCond) (off : Int) (ext : Bool)
  /-- CALL (R182): Branch writing the return address to g31. -/
  | call (core : Nat) (fin : Bool) (off : Int) (ext : Bool)
  /-- JMP_R (R182): Register-relative jump. -/
  | jmpR (core : Nat) (fin : Bool) (a : Fin 32)
  /-- RET (R182): Jump to g31. -/
  | ret (core : Nat) (fin : Bool)
  /-- LOOP (R185): Starts a hardware loop with a count and an end bundle. -/
  | loop (core : Nat) (fin : Bool) (k : Fin 2) (a : Fin 32) (stop : Int) (ext : Bool)
  /-- NI (R184): Opens a no-interrupt window of n bundles. -/
  | ni (core : Nat) (fin : Bool) (n : Fin 64)
  /-- RTI (R177): Returns from an interrupt handler, restoring PC and cst. -/
  | rti (core : Nat) (fin : Bool)
  /-- CORE_NOP (R177): The core operation that does nothing. -/
  | coreNop (core : Nat) (fin : Bool)
  /-- WAIT_TASK (R152): Completes the current task and blocks until Wick grants a new one. -/
  | waitTask (core : Nat) (fin : Bool) (pass : Bool)
  /-- POST (R187): Posts an item to a successor or host mailbox node and returns a result code. -/
  | post (core : Nat) (fin : Bool) (d a b : Fin 32)
  /-- DMA_RD (R189): Queues a transfer from a remote address into local tile memory. -/
  | dmaRd (core : Nat) (fin : Bool) (k : Fin 8) (b n : Fin 32)
  /-- DMA_WR (R189): Queues a transfer from local tile memory to a remote address. -/
  | dmaWr (core : Nat) (fin : Bool) (k : Fin 8) (b n : Fin 32)
  /-- DMA_TRD (R189): Queues a read from another tile memory. -/
  | dmaTrd (core : Nat) (fin : Bool) (k : Fin 8) (b n : Fin 32)
  /-- DMA_TWR (R189): Queues a write to another tile memory. -/
  | dmaTwr (core : Nat) (fin : Bool) (k : Fin 8) (b n : Fin 32)
  /-- DMA_WAIT (R189): Freezes until at most n of the core's transfers remain outstanding. -/
  | dmaWait (core : Nat) (fin : Bool) (n : Nat)
  /-- DMA_TRANSFER_DONE (R189): A queued cluster DMA transfer completes and may raise the DMA interrupt. -/
  | dmaTransferDone (dt core : Nat)
  /-- FFT_RUN (R171): Submits an FFT job record to the cluster FFT queue. -/
  | fftRun (core : Nat) (fin : Bool) (a : Fin 32)
  /-- FFT_WAIT (R172): Freezes until the named job's STATUS is no longer 0. -/
  | fftWait (core : Nat) (fin : Bool) (a : Fin 32)
  /-- FFT_JOB_DONE (R171): The FFT unit finishes a job and writes EXP and STATUS, or reports a residue failure. -/
  | fftJobDone (dt cluster : Nat) (residue : Bool)
  /-- CRC_I (R177): Initialises the CRC state from an 8-byte seal header. -/
  | crcI (core : Nat) (fin : Bool) (a : Fin 32)
  /-- CRC_W (R177): Folds 16 bytes of lanes into the CRC state. -/
  | crcW (core : Nat) (fin : Bool) (a : Fin 8)
  /-- CRC_F (R177): Writes the final CRC-32C. -/
  | crcF (core : Nat) (fin : Bool) (d : Fin 32)
  /-- TIME (R177): Reads TIME64 into two general registers. -/
  | time (core : Nat) (fin : Bool) (d : Fin 32)
  /-- TCMP (R177): Sets the time-compare value of the timer interrupt. -/
  | tcmp (core : Nat) (fin : Bool) (a : Fin 32)
  /-- INTERRUPT_ENTRY (R183): A pending, enabled timer or DMA interrupt drains the pipeline, saves PC and cst, and enters the handler. -/
  | interruptEntry (dt core src : Nat)
  /-- IMG_LOAD (R379): Opcode 0x70 on rings 6 and 7 verifies, decrypts and holds a firmware or kernel image. -/
  | imgLoad (ring : Nat) (head body : Option (List Byte)) (cut : Option Nat)
  /-- MBX_POST (R197): Opcode 0x80 on rings 56 to 59 posts a host message into a customer node of Wick. -/
  | mbxPost (ring : Nat)
  /-- DOORBELL_POLL (R210): The module reads the doorbell page, checks entries and fetches descriptors from running rings. -/
  | doorbellPoll (page : Option (List DWord)) (fetch : List (Nat × Option (List Word)))
  /-- NOP (R206): Opcode 0x00 on any host-to-device ring completes with OK and no effect. -/
  | nop (ring : Nat)
  /-- ABORT (R223): Ring 0 opcode 0xA1 withdraws the named descriptor if it has not reached its commit point. -/
  | abort (fetch : List (Option (List Word)))
  /-- RING_SETUP (R219): Ring 0 opcode 0xA2 writes a stopped ring's registers and optionally starts it. -/
  | ringSetup
  /-- RING_STOP (R220): Ring 0 opcode 0xA3 stops fetching and aborts fetched descriptors not yet committed. -/
  | ringStop
  /-- RING_STOPPED (R218): A STOPPING ring writes its last outstanding completion and enters STOPPED or ERROR. -/
  | ringStopped (ring : Nat)
  /-- RUN (R218): A write of HIF_CTRL.RUN starts polling or stops every ring. -/
  | run (v : Word)
  /-- ENABLE (R218): A write of HIF_RING_CFG.ENABLE starts a ring at index 0 or disables a stopped one. -/
  | enable (ring : Nat) (v : Word)
  /-- D2H_RING_DRAIN (R205): Waiting completions and device-to-host records are written once their ring has room. -/
  | d2hRingDrain (ring : Nat)
  /-- STATUS_PAGE_WRITE (R217): The module writes the status page on change and at least every 1 ms. -/
  | statusPageWrite (dt : Nat)
  /-- HOLDOFF_END (R221): At the end of a source's holdoff one MSI-X message covers the firings held. -/
  | holdoffEnd (dt : Nat) (src : Nat)
  /-- FUNCTION_LEVEL_RESET (R203): FLR resets the host interface and rings while the planes keep running, and is logged. -/
  | functionLevelReset
  /-- PERST_N (R203): Assertion of PERST_n resets the host interface alone. -/
  | perstN
  /-- LINK_DOWN (R203): Bus Master Enable clear or link down stops polls and write-backs without resetting rings. -/
  | linkDown (linkUp bme : Bool)
  /-- LOCK_BROKEN (R230): A locked sequence whose write does not arrive within MTX_LOCK_MAX is broken. -/
  | lockBroken (dt master target addr : Nat)
  /-- REFRESH (R236): A per-bank refresh falls due and is issued, pulled in or postponed. -/
  | refresh (dt ch : Nat) (kind : RefreshKind)
  /-- FORCED_REFRESH (R236): With 8 refreshes owed, the controller issues them at the next 2 KiB boundary. -/
  | forcedRefresh (dt ch : Nat)
  /-- REFRESH_RATE_CHECK (R237): Every 16 ms the controller reads the refresh requirement and sets or clears HOT. -/
  | refreshRateCheck (dt req : Nat)
  /-- POWER_DOWN_ENTRY (R238): An idle channel enters power-down after PD_IDLE cycles. -/
  | powerDownEntry (dt ch : Nat)
  /-- SELF_REFRESH_ENTRY (R239): In standby a channel enters self-refresh once every master is idle. -/
  | selfRefreshEntry (dt ch : Nat) (arrives : Bool)
  /-- SPARE_ROTATION (R243): Vigil march-tests the spare, mirrors and copies the next bank, and exchanges roles at a boundary. -/
  | spareRotation (dt c : Nat) (pass : Bool)
  /-- BANK_COPY_DONE (R243): The bank copy completes and the Memory controller exchanges the two banks as a control action. -/
  | bankCopyDone (dt c : Nat)
  /-- BANK_RETIRE (R244): RETIRE_N parity-failing words or a failed test retire a serving bank into the spare. -/
  | bankRetire (dt c bank : Nat) (failed : Bool)
  /-- SCRUB_PASS (R245): Each SRAM is read in full once per SCRUB_CFG.PERIOD_MS. -/
  | scrubPass (dt mem : Nat) (fails : List Nat)
  /-- QUEUE_WORD (R247): A producer word enters an elastic queue, committing, rewinding or discarding as the item state demands. -/
  | queueWord (owner inst x : Nat) (soi eoi bad : Bool)
  /-- QUEUE_SWAP (R248): The fill and drain banks swap when the drain bank is empty and the fill bank is full or committed. -/
  | queueSwap (owner inst : Nat)
  /-- QUEUE_READ (R249): A consumer read returns the next unread word, or repeats the last and sets UNDERRUN when empty. -/
  | queueRead (owner inst : Nat) (parity : Bool)
  /-- FLUSH (R251): A write of Q_CTRL.FLUSH discards committed words and rewinds an open item. -/
  | flush (owner inst : Nat) (v : Word)
  /-- FLUSH_DONE (R251): A flush completes at the next start of item or when the producer stops. -/
  | flushDone (owner inst : Nat)
  /-- NET_ENABLE (R259): A write of NETn_CTRL.ENABLE enables or disables the MAC as a mode change. -/
  | netEnable (mac : Nat) (v : Word) (origin : Origin)
  /-- NET_SPEED (R259): A write of NETn_CTRL.SPEED passes the MAC through DISABLED to the new speed. -/
  | netSpeed (mac : Nat) (v : Word) (origin : Origin)
  /-- BLOCK_LOCK (R258): Block lock, or synchronisation with auto-negotiation, takes the MAC to UP. -/
  | blockLock (mac : Nat) (an : Bool)
  /-- MAC_LOCK_LOSS (R258): Loss of lock returns the MAC to ACQUIRING and truncates a frame in flight. -/
  | macLockLoss (mac : Nat) (rx : Option Nat)
  /-- MAC_FAULT (R258): Clause 46 fault sequences take the MAC to FAULT. -/
  | macFault (mac : Nat) (localF remoteF : Bool) (rx : Option Nat)
  /-- MAC_FAULT_CLEAR (R258): A fault clear for 1 ms returns the MAC to UP. -/
  | macFaultClear (dt mac : Nat)
  /-- MDIO_START (R260): A write of NET0_MDIO_CMD.START sends an MDIO frame. -/
  | mdioStart (v : Word) (origin : Origin)
  /-- MDIO_DONE (R260): The MDIO frame ends, START clears and read data is stored. -/
  | mdioDone (dt : Nat) (data : Option (BitVec 16))
  /-- FRAME_RECEIVE (R262): A received frame is filtered, checked and classified to the stream engine, voice engine or a host queue. -/
  | frameReceive (dt mac : Nat) (f : List Byte) (fcsOk align : Bool) (stamp : Nat) (parity : Bool) (sync : Option Int)
  /-- RX_BUF (R265): Opcode 0x48 makes a host buffer available to its receive ring. -/
  | rxBuf (ring : Nat)
  /-- RX_DMA_DELIVER (R266): The head frame of a host queue is written into a reserved set of buffers once they are available. -/
  | rxDmaDeliver (dt mac : Nat) (high parity : Bool)
  /-- RX_HOLD_EXPIRY (R266): A head frame waiting RX_HOLD_NS for buffers is dropped and counted. -/
  | rxHoldExpiry (dt mac : Nat) (high : Bool)
  /-- DA_LO (R261): A write of NETn_DA_LO is held until the entry's DA_HI write. -/
  | daLo (mac e : Nat) (v : Word) (origin : Origin)
  /-- DA_HI (R261): A write of NETn_DA_HI commits the whole filter entry. -/
  | daHi (mac e : Nat) (v : Word) (origin : Origin)
  /-- TX_FRAME (R270): Opcode 0x40 reads a host frame whole and commits it to a class queue or the launch queue. -/
  | txFrame (ring : Nat) (data : Option (List Byte))
  /-- TX_SSO (R275): Opcode 0x41 builds and commits a series of frames from a template and payload. -/
  | txSso (ring : Nat) (record payload : Option (List Byte))
  /-- TRANSMIT_SELECTION (R272): When the line is free the MAC selects the highest eligible class and starts its head frame. -/
  | transmitSelection (dt mac : Nat)
  /-- FRAME_TRANSMITTED (R277): A frame ends on the wire and its descriptor completes with its timestamp. -/
  | frameTransmitted (dt mac : Nat) (parity : Bool)
  /-- GATE_CHANGE (R274): A write of NETn_GATE_CTRL.CHANGE computes the change time of the admin list. -/
  | gateChange (mac : Nat) (v : Word) (origin : Origin)
  /-- GATE_LIST_SWITCH (R274): At the change time the admin gate list becomes operational. -/
  | gateListSwitch (dt mac : Nat)
  /-- GATE_ENTRY_ADVANCE (R273): The gate list moves to its next entry or starts a new cycle. -/
  | gateEntryAdvance (dt mac : Nat)
  /-- LAUNCH (R290): At its launch time the head of the launch queue enters transmit selection. -/
  | launch (dt mac : Nat)
  /-- LATE_DROP (R290): A head not started by L + LATE_NS without LATE_SEND is dropped. -/
  | lateDrop (dt mac : Nat)
  /-- LPI_ENTRY (R279): After IDLE_US with no eligible frame the MAC signals low-power idle. -/
  | lpiEntry (dt mac : Nat)
  /-- LPI_WAKE (R279): The MAC leaves LPI for an eligible frame or TW_US before a launch time. -/
  | lpiWake (dt mac : Nat)
  /-- TIM_INCR_FRAC (R282): A write of the increment fraction is held. -/
  | timIncrFrac (v : Word) (origin : Origin)
  /-- TIM_INCR_NS (R282): A write of the integer increment commits the pair, clamped to the range. -/
  | timIncrNs (v : Word) (origin : Origin)
  /-- GO (R283): A write of TIM_STEP_CTRL.GO applies the signed step, or refuses a backward one while a plane runs. -/
  | go (v : Word) (origin : Origin)
  /-- TIM_NOW_READ (R281): A read of TIM_NOW_LO returns TIME64 bits and latches the high word and the fraction. -/
  | timNowRead
  /-- SYNC_RECEIPT_TIMEOUT (R284): The firmware servo clears MNT_PTP_VALID when Sync times out or no PTP arrives for 3 s. -/
  | syncReceiptTimeout (dt : Nat) (expired : Bool)
  /-- TRIGGER_ENABLE (R291): A write of TIM_TRIG_CTRL.EN starts a time trigger series. -/
  | triggerEnable (t : Nat) (v : Word) (origin : Origin)
  /-- TRIGGER_FIRE (R291): A time trigger fires, writes source 31 and pulses GPIOt. -/
  | triggerFire (dt t : Nat)
  /-- TRIGGER_PULSE_END (R291): A GPIOt pulse ends WIDTH_US after the last firing. -/
  | triggerPulseEnd (dt t : Nat)
  /-- PPS_OUT (R292): PPS_OUT rises at each second plus offset and falls after WIDTH_MS. -/
  | ppsOut (dt : Nat)
  /-- PPS_IN (R292): A PPS_IN edge is captured, or ignored as a glitch. -/
  | ppsIn (dt : Nat)
  /-- SERVO_TICK (R292): Source 30 fires at every multiple of SERVO_MS. -/
  | servoTick (dt : Nat)
  /-- STR_START (R294): Ring 0 opcode 0xB1 admits a stream record and makes it ARMED until F. -/
  | strStart (data : Option (List Byte))
  /-- STR_STOP (R294): Ring 0 opcode 0xB2 stops a stream at F. -/
  | strStop
  /-- STREAM_STATE_CHANGE (R304): At F a stream becomes RUNNING or IDLE. -/
  | streamStateChange (stream : Nat)
  /-- STREAM_PACKET_LAUNCH (R299): A stream packet is built from media numbers and launched. -/
  | streamPacketLaunch (dt stream : Nat)
  /-- CANDIDATE_MEASUREMENT (R307): Every 100 ms Mantle measures each candidate's offset and updates its qualification state. -/
  | candidateMeasurement (dt : Nat) (offs : List (Nat × Int)) (out : Int)
  /-- CANDIDATE_FAULT (R308): A candidate fault disqualifies it at once and may start a pull or holdover. -/
  | candidateFault (dt c cause : Nat)
  /-- PULL_UPDATE (R312): Every 1 ms the profile controller moves the output toward the target and hands over to the loop when done. -/
  | pullUpdate (dt : Nat)
  /-- REVERTIVE_SWITCH (R310): A better qualified candidate starts a pull once the holdoff has passed. -/
  | revertiveSwitch (dt : Nat)
  /-- FORCE (R311): A write of MNT_CTRL.FORCE selects or pulls to a candidate, or returns to automatic selection. -/
  | force (v : Word) (origin : Origin)
  /-- RETURN_TO_NOMINAL (R315): After MNT_HOLD_S in holdover Mantle pulls to nominal and then free-runs. -/
  | returnToNominal (dt : Nat)
  /-- MANTLE_FAULT (R316): Synthesiser lock loss or oscillator failure takes Mantle to FAULT and runs Snuffer. -/
  | mantleFault (dt : Nat)
  /-- FAMILY (R319): A write of MNT_CTRL.FAMILY retunes the synthesiser while stopped, or is refused. -/
  | family (v : Word) (origin : Origin)
  /-- RATE (R319): A write of MNT_CTRL.RATE sets the frame tick divider while stopped, or is refused. -/
  | rate (v : Word) (origin : Origin)
  /-- PORT_ENABLE (R324): A write of TDMpp_CFG.ENABLE to 1 is checked and starts the port. -/
  | portEnable (port : Nat) (v : Word) (origin : Origin)
  /-- PORT_DISABLE (R324): A write of TDMpp_CFG.ENABLE to 0 disables the port at a frame boundary. -/
  | portDisable (port : Nat) (v : Word) (origin : Origin)
  /-- PORT_CFG_WRITE (R324): A write to port configuration while enabled is discarded with CFG_REFUSED. -/
  | portCfgWrite (port r : Nat) (v : Word) (origin : Origin)
  /-- TDM_FRAME (R326): A port frame is shifted in and out, with mask changes, slips and glitches handled at its start. -/
  | tdmFrame (dt port : Nat) (sdi : List Nat) (len : Nat)
  /-- MASK_WRITE (R329): A write of a slot mask is shadowed until the next frame start. -/
  | maskWrite (port : Nat) (tx : Bool) (v : Word) (last : Bool) (origin : Origin)
  /-- RATE_WINDOW (R332): Every 10 ms the meter reports the frame rate and rate class. -/
  | rateWindow (dt port edges span : Nat)
  /-- PORT_LOST (R334): No frame start for 2 frame periods takes a slave port to LOST. -/
  | portLost (dt port : Nat)
  /-- SAR_SAMPLE (R338): Each ms an operator channel is sampled for jack state and button indications. -/
  | sarSample (dt c code : Nat) (jack : Bool)
  /-- ACCESSORY_CLASSIFY (R337): 200 ms after insertion the accessory is classified from the median code. -/
  | accessoryClassify (dt c : Nat)
  /-- LINK_PORT_ENABLE (R344): A write of LNK_PORT_CFG.ENABLE enables or disables a link port. -/
  | linkPortEnable (port : Nat) (v : Word) (origin : Origin)
  /-- LANE_LOCK (R344): Block lock on a lane takes the port to MEASURING. -/
  | laneLock (port lane : Nat)
  /-- MARKER_RECEIVE (R351): A received marker updates hop delay, boundary alignment, address and topology. -/
  | markerReceive (dt port : Nat) (m : List Byte)
  /-- MARKER_LOSS (R344): Two missed markers take a port to ACQUIRING and may switch the primary path. -/
  | markerLoss (dt port : Nat)
  /-- LINK_FRAME_RECEIVE (R343): A link frame is received, checked and forwarded or consumed by its class. -/
  | linkFrameReceive (dt port : Nat) (f : List Byte) (errs : Nat)
  /-- GROUP_CAPTURE (R346): The head captures and broadcasts each 4-sample chain channel group. -/
  | groupCapture (dt : Nat)
  /-- READDRESS (R353): A write of LNK_CTRL.READDRESS drops the module address. -/
  | readdress (v : Word)
  /-- ACCEPT (R354): A write of LNK_CTRL.ACCEPT clears conflict 1. -/
  | accept (v : Word)
  /-- LNK_CFG_WRITE (R352): A write of LNK_CFG, LNK_RX or LNK_BCAST is checked for TIME_FOLLOW, TWIN_EN and feeder rules. -/
  | lnkCfgWrite (r : Nat) (v : Word) (origin : Origin)
  /-- LNK_SLICE_APPLY (R360): Ring 0 opcode 0xC1 makes the shadow slice map live at F. -/
  | lnkSliceApply
  /-- TUN_SEND (R361): Opcode 0x50 floods a tunnel message on the link. -/
  | tunSend (ring : Nat) (data : Option (List Byte))
  /-- TUNNEL_RECEIVE (R362): A tunnel message for this module is written to ring 54 or 55 or executed as a remote command. -/
  | tunnelReceive (dt port : Nat)
  /-- CV_RUN (R375): Opcode 0x60 computes a check value over a job. -/
  | cvRun (ring : Nat) (record src : Option (List Byte)) (parity : Bool)
  /-- COPY (R375): Opcode 0x68 copies data while computing a check value. -/
  | copy (ring : Nat) (record src : Option (List Byte)) (parity : Bool)
  /-- SCAN (R375): Opcode 0x69 scans data and compares its check value. -/
  | scan (ring : Nat) (record src : Option (List Byte)) (parity : Bool)
  /-- SEC_SET_OWNER (R377): Ring 0 opcode 0xD2 programs the owner key hash once. -/
  | secSetOwner (data : Option (List Byte))
  /-- SEC_COMMIT_SVN (R377): Ring 0 opcode 0xD1 advances an SVN minimum. -/
  | secCommitSvn
  /-- BYPASS (R380): The JTAG BYPASS instruction. -/
  | bypass
  /-- IDCODE (R380): The JTAG IDCODE instruction. -/
  | idcode
  /-- SAMPLE_PRELOAD (R380): The JTAG SAMPLE/PRELOAD instruction. -/
  | samplePreload (pins : List Byte)
  /-- EXTEST (R380): EXTEST takes the pins, is logged and fires source 47. -/
  | extest (pins : List Byte)
  /-- EXTEST_PULSE (R380): The IEEE 1149.6 EXTEST_PULSE instruction on AC-coupled lanes. -/
  | extestPulse (pins : List Byte)
  /-- EXTEST_TRAIN (R380): The IEEE 1149.6 EXTEST_TRAIN instruction. -/
  | extestTrain (pins : List Byte)
  /-- DBG_CHALLENGE (R380): Yields a fresh 48-byte debug challenge. -/
  | dbgChallenge (dt : Nat)
  /-- DBG_RESPONSE (R380): A signed response grants a debug level or counts a failure. -/
  | dbgResponse (level : Nat) (sig : List Byte)
  /-- GLITCH (R381): A voltage or clock glitch detection latches its cause and resets the module at once. -/
  | glitch (dt cause : Nat)
  /-- CHECKPOINT (R385): Every 256 entries the management complex signs a checkpoint. -/
  | checkpoint
  /-- AUDIT_SPACE_RETURN (R387): When audit buffer space returns, a waiting descriptor or control action is accepted. -/
  | auditSpaceReturn
  /-- STA_EPOCH_WRITE (R399): A write of STA_EPOCH.N forces a boundary at the next tick. -/
  | staEpochWrite (v : Word) (origin : Origin)
  /-- STA_CUR_EPOCH_READ (R401): A read of STA_CUR_EPOCH_LO latches the high word. -/
  | staCurEpochRead
  /-- MGT_AUD_INDEX_READ (R384): A read of MGT_AUD_INDEX_LO latches the high word. -/
  | mgtAudIndexRead
  /-- OCTET_COUNTER_READ (R280): A read of an octet counter LO latches its HI word. -/
  | octetCounterRead (mac : Nat) (tx : Bool)
  /-- DRAM_SCRUB (R395): Vigil scrubs DRAM in 2 KiB units and tests the pattern window after each pass. -/
  | dramScrub (dt : Nat) (parity : Option Nat) (pages : List Nat)
  /-- POWER_UP_START (R403): VIN at or above 35.0 V for 100 ms starts the power-up sequence. -/
  | powerUpStart (dt mv strap : Nat)
  /-- VIN_LOW_WARNING (R403): VIN below 34.0 V for 100 µs fires source 56 and sets VIN_LOW. -/
  | vinLowWarning (dt mv : Nat)
  /-- VIN_RECOVER (R403): VIN back at 35.0 V for 100 ms clears VIN_LOW. -/
  | vinRecover (dt mv : Nat)
  /-- UNDERVOLTAGE (R403): VIN below 32.0 V for 20 µs runs Snuffer. -/
  | undervoltage (dt mv : Nat)
  /-- OVERVOLTAGE_WARNING (R403): VIN above 77.0 V for 100 µs fires source 56. -/
  | overvoltageWarning (dt mv : Nat)
  /-- OVERVOLTAGE (R403): VIN above 80.0 V for more than 100 ms runs Snuffer. -/
  | overvoltage (dt mv : Nat)
  /-- RAIL_FAULT (R405): A rail out of ±5 % for 50 µs is a fatal fault. -/
  | railFault (dt : Nat)
  /-- AUX_FAULT (R405): AUX3V3_OUT current limit sets AUX_FAULT and fires source 56. -/
  | auxFault (dt : Nat)
  /-- TEMPERATURE_ESTIMATE (R408): Each ms the case estimate is updated and thermal sources fire at thresholds. -/
  | temperatureEstimate (dt : Nat) (t : Int)
  /-- THERMAL (R407): The case estimate at 135 °C, or at 130 °C for 1 s, runs Snuffer and shuts down. -/
  | thermal (dt : Nat)
  /-- WATCHDOG_WARNING (R409): 50 ms without service fires source 62. -/
  | watchdogWarning (dt : Nat)
  /-- WATCHDOG (R409): 100 ms without service is a fatal fault. -/
  | watchdog (dt : Nat)
  /-- RESET_N (R407): RESET_n low for 1 µs runs Snuffer and boots. -/
  | resetN (dt : Nat) (low : Bool)
  /-- MOD_RESET (R410): Ring 0 opcode 0xE1 resets the module after its completion. -/
  | modReset
  /-- BOOT (R415): After PG or a reset the boot ROM samples straps, trains DRAM, verifies the image and raises READY. -/
  | boot (dt : Nat) (head : Bool) (sel addr : Nat) (okA okB : Bool) (chain : Option (List Byte)) (chainOk : Bool)
  /-- PWR_STANDBY (R418): Ring 0 opcode 0xE2 powers down compute and puts DRAM in self-refresh. -/
  | pwrStandby
  /-- PWR_WAKE (R419): Ring 0 opcode 0xE3 leaves standby. -/
  | pwrWake
  /-- SMB_READ_VIN (R432): SMBus command 0x01 returns VIN. -/
  | smbReadVin
  /-- SMB_READ_TEMP (R432): SMBus command 0x02 returns the case estimate. -/
  | smbReadTemp
  /-- SMB_READ_CAUSE (R432): SMBus command 0x03 returns the reset cause. -/
  | smbReadCause
  /-- SMB_READ_STATUS (R432): SMBus command 0x04 returns the status flags. -/
  | smbReadStatus
  /-- ALERT_RESPONSE (R432): A read of the Alert Response Address returns the module address and releases SMB_ALERT_n. -/
  | alertResponse
  /-- LANE_LOCK_LOSS (R344): A link port lane loses block lock: with both lanes lost the port returns to ACQUIRING and a primary-port loss is found within 1 µs and routed around; with one lane left the port sets ONE_LANE. -/
  | laneLockLoss (port lane : Nat)
  /-- AUX_FAULT_RECOVERY (R405): Once the overload on AUX3V3_OUT is removed, the output recovers by itself and AUX_FAULT clears, which changes SMBus status bit 5 and drives SMB_ALERT_n. -/
  | auxFaultRecovery (dt : Nat)
  /-- OVERVOLTAGE_RECOVERY (R407): After an OVERVOLTAGE shutdown, power-up starts once VIN stays at or below 75 V for 100 ms. -/
  | overvoltageRecovery (dt mv strap : Nat)
  /-- WATCHDOG_SERVICE (R409): A service of the management watchdog restarts its timers, and a service after the 50 ms warning fires source 62 with word 1 = 2. -/
  | watchdogService (dt : Nat)
  /-- LPI_RECEIVE (R279): The link partner signals or ends low-power idle, which sets or clears NETn_STATUS.LPI_RX and counts NETn_LPI_RX. -/
  | lpiReceive (mac : Nat) (on : Bool)
  /-- PCIE_LINK_RESTORED (R203): When Bus Master Enable is set again or the link returns, polls resume and the write-backs that were waiting are written. -/
  | pcieLinkRestored (width speed : Nat)
  /-- MSIX_VECTOR_UNMASK (R221): A host write that unmasks an MSI-X vector in BAR2 whose pending bit is set sends the pending message, as PCI Express defines. -/
  | msixVectorUnmask (vec : Nat)
  /-- SMB_WRITE (R432): An SMBus write, or a command byte other than 0x01 to 0x04, is NACKed. -/
  | smbWrite
  deriving DecidableEq, Repr

end Sys2Proof
end

