-- ==== Sys2Proof/Decode.lean ====
section
/-!
DEFINITION. Decode.lean: the commands a word spells by the bits of spec/opcode_table.json. The table gives no row any bits: the block
takes its commands through the host interface, its pins and its links, and none is spelled by a word. Every word is refused.
-/
namespace Sys2Proof

/-- The command that the `nbits` bits of `w` spell: no row of the table has bits, so no word spells one. -/
def decodeTableWord (nbits w : Nat) : Option Instr :=
  match nbits, w with
  | _, _ => none

end Sys2Proof
end

