-- ==== Sys2Proof/Machine/Bits.lean ====
section
/-!
DEFINITION. Machine/Bits.lean: bit fields, little-endian byte order (R7), sign extension, saturation and the
rounding shift that the signal-processing chapters use.
-/
namespace Sys2Proof.Machine

/-- Field NAME[hi:lo] of a word, as a number (R7). -/
def field (w : Word) (hi lo : Nat) : Nat := (w.toNat >>> lo) % 2 ^ (hi + 1 - lo)

/-- The word with field [hi:lo] replaced by the low bits of `v`. -/
def setField (w : Word) (hi lo v : Nat) : Word :=
  BitVec.ofNat 32 (w.toNat - (field w hi lo <<< lo) + ((v % 2 ^ (hi + 1 - lo)) <<< lo))

/-- Bit NAME[n] of a word. -/
def bitOf (w : Word) (n : Nat) : Bool := w.toNat.testBit n

/-- The word with bit `n` set to `b`. -/
def setBitOf (w : Word) (n : Nat) (b : Bool) : Word := setField w n n (if b then 1 else 0)

/-- The number a field of `bits` bits holds in two's complement. -/
def signed (bits v : Nat) : Int :=
  let m := v % 2 ^ bits
  if m < 2 ^ (bits - 1) then (m : Int) else (m : Int) - (2 ^ bits : Nat)

/-- The `bits`-bit two's complement pattern of an integer. -/
def pattern (bits : Nat) (v : Int) : Nat := (v % ((2 ^ bits : Nat) : Int)).toNat

/-- Saturation to a signed `bits`-bit number. -/
def satS (bits : Nat) (v : Int) : Int :=
  let hi : Int := (2 ^ (bits - 1) : Nat) - 1
  let lo : Int := - ((2 ^ (bits - 1) : Nat) : Int)
  if v > hi then hi else if v < lo then lo else v

/-- Saturation to an unsigned `bits`-bit number. -/
def satU (bits : Nat) (v : Nat) : Nat := min v (2 ^ bits - 1)

/-- Right shift with rounding, halves up: floor((v + 2^(n−1)) ÷ 2^n). -/
def roundShift (v : Int) (n : Nat) : Int :=
  if n = 0 then v else (v + ((2 ^ (n - 1) : Nat) : Int)).fdiv ((2 ^ n : Nat) : Int)

/-- The signed value of a word. -/
def sint (w : Word) : Int := signed 32 w.toNat

/-- The word of an integer, modulo 2^32. -/
def toWord (v : Int) : Word := BitVec.ofNat 32 (pattern 32 v)

/-- `n` bytes of a number, least significant first (R7). -/
def leBytes : Nat → Nat → List Byte
  | 0, _ => []
  | n + 1, v => BitVec.ofNat 8 (v % 256) :: leBytes n (v / 256)

/-- The number a little-endian byte sequence holds. -/
def leNat : List Byte → Nat
  | [] => 0
  | b :: bs => b.toNat + 256 * leNat bs

/-- `n` bytes of a number, most significant first (wire order). -/
def beBytes (n v : Nat) : List Byte := (leBytes n v).reverse

/-- The number a big-endian byte sequence holds. -/
def beNat (bs : List Byte) : Nat := leNat bs.reverse

/-- `n` bytes of a record from byte `i`, little-endian; bytes past the end count as 0. -/
def leAt (bs : List Byte) (i n : Nat) : Nat := leNat ((bs.drop i).take n)

/-- As `leAt`, for a field in wire order. -/
def beAt (bs : List Byte) (i n : Nat) : Nat := beNat ((bs.drop i).take n)

/-- A 32-bit little-endian word of a record. -/
def wordAt (bs : List Byte) (i : Nat) : Word := BitVec.ofNat 32 (leAt bs i 4)

/-- True where every byte of the sequence is zero. -/
def allZero (bs : List Byte) : Bool := bs.all (· == 0)

/-- Apply a function `n` times. -/
def iter (n : Nat) (f : α → α) (a : α) : α := (List.range n).foldl (fun x _ => f x) a

/-- A list with its entry `i` replaced; unchanged where `i` is past its end. -/
def setAt (l : List α) (i : Nat) (v : α) : List α := l.set i v

/-- Quotient rounded up. -/
def ceilDiv (a b : Nat) : Nat := (a + b - 1) / b

end Sys2Proof.Machine
end

