-- ==== Sys2Proof/Machine/Crc.lean ====
section
/-!
DEFINITION. Machine/Crc.lean: the check values of R207 and R373, and the hashes of R384 (SHA-256) and R379
(SHA-384), written from their published definitions.
-/
namespace Sys2Proof.Machine

/-- One bit of a reflected CRC. -/
def crcBitR (poly c : Nat) : Nat := if c % 2 = 1 then (c / 2) ^^^ poly else c / 2
/-- One byte of a reflected CRC. -/
def crcByteR (poly c : Nat) (b : Byte) : Nat := iter 8 (crcBitR poly) (c ^^^ b.toNat)
/-- A reflected CRC register run over bytes from a running register value. -/
def crcRunR (poly c : Nat) (bs : List Byte) : Nat := bs.foldl (crcByteR poly) c
/-- One bit of a left-shifting CRC of width `w`. -/
def crcBitL (w poly c : Nat) : Nat :=
  let t := (c * 2) % 2 ^ w
  if c.testBit (w - 1) then t ^^^ poly else t
/-- One byte of a left-shifting CRC of width `w`. -/
def crcByteL (w poly c : Nat) (b : Byte) : Nat := iter 8 (crcBitL w poly) (c ^^^ (b.toNat <<< (w - 8)))
/-- A left-shifting CRC register run over bytes. -/
def crcRunL (w poly c : Nat) (bs : List Byte) : Nat := bs.foldl (crcByteL w poly) c

/-- CRC-32C (Castagnoli, reflected, initial all ones, final exclusive-or all ones): R207. -/
def crc32c (bs : List Byte) : Nat := crcRunR 0x82F63B78 0xFFFFFFFF bs ^^^ 0xFFFFFFFF

/-! ### SHA-256 and SHA-384 (FIPS 180-4) -/

/-- Rotate right within `w` bits. -/
def rotr (w n x : Nat) : Nat := (x >>> n) ||| ((x <<< (w - n)) % 2 ^ w)

/-- A number of `n` digits of `w` bits each, most significant first, as the list of its digits. -/
def digits (w n x : Nat) : List Nat := (List.range n).map (fun i => (x >>> (w * (n - 1 - i))) % 2 ^ w)

/-- What tells SHA-256 from SHA-384: word width, the constants of the rounds, the initial hash as one number whose digits are its words,
and the amounts of the four sigma functions, the last of the first two a shift. -/
structure ShaKind where
  width : Nat
  keys : List Nat
  init : Nat
  sched0 : List Nat
  sched1 : List Nat
  big0 : List Nat
  big1 : List Nat
  deriving DecidableEq, Repr

/-- The first 64 bits of the fractions of the cube roots of the first 80 primes, sixteen roots a row. -/
def cubeRoots : List Nat :=
  ([0x428A2F98D728AE227137449123EF65CDB5C0FBCFEC4D3B2FE9B5DBA58189DBBC3956C25BF348B53859F111F1B605D019923F82A4AF194F9BAB1C5ED5DA6D8118D807AA98A303024212835B0145706FBE243185BE4EE4B28C550C7DC3D5FFB4E272BE5D74F27B896F80DEB1FE3B1696B19BDC06A725C71235C19BF174CF692694,
   0xE49B69C19EF14AD2EFBE4786384F25E30FC19DC68B8CD5B5240CA1CC77AC9C652DE92C6F592B02754A7484AA6EA6E4835CB0A9DCBD41FBD476F988DA831153B5983E5152EE66DFABA831C66D2DB43210B00327C898FB213FBF597FC7BEEF0EE4C6E00BF33DA88FC2D5A79147930AA72506CA6351E003826F142929670A0E6E70,
   0x27B70A8546D22FFC2E1B21385C26C9264D2C6DFC5AC42AED53380D139D95B3DF650A73548BAF63DE766A0ABB3C77B2A881C2C92E47EDAEE692722C851482353BA2BFE8A14CF10364A81A664BBC423001C24B8B70D0F89791C76C51A30654BE30D192E819D6EF5218D69906245565A910F40E35855771202A106AA07032BBD1B8,
   0x19A4C116B8D2D0C81E376C085141AB532748774CDF8EEB9934B0BCB5E19B48A8391C0CB3C5C95A634ED8AA4AE3418ACB5B9CCA4F7763E373682E6FF3D6B2B8A3748F82EE5DEFB2FC78A5636F43172F6084C87814A1F0AB728CC702081A6439EC90BEFFFA23631E28A4506CEBDE82BDE9BEF9A3F7B2C67915C67178F2E372532B,
   0xCA273ECEEA26619CD186B8C721C0C207EADA7DD6CDE0EB1EF57D4F7FEE6ED17806F067AA72176FBA0A637DC5A2C898A6113F9804BEF90DAE1B710B35131C471B28DB77F523047D8432CAAB7B40C724933C9EBE0A15C9BEBC431D67C49C100D4C4CC5D4BECB3E42B6597F299CFC657E2A5FCB6FAB3AD6FAEC6C44198C4A475817].map (digits 64 16)).flatten

def sha384Kind : ShaKind :=
  { width := 64, keys := cubeRoots
    init := 0xCBBB9D5DC1059ED8629A292A367CD5079159015A3070DD17152FECD8F70E593967332667FFC00B318EB44A8768581511DB0C2E0D64F98FA747B5481DBEFA4FA4
    sched0 := [1, 8, 7], sched1 := [19, 61, 6], big0 := [28, 34, 39], big1 := [14, 18, 41] }
/-- Its keys are the upper halves of the first 64 of those roots. -/
def sha256Kind : ShaKind :=
  { width := 32, keys := (cubeRoots.take 64).map (fun x => x / 2 ^ 32)
    init := 0x6A09E667BB67AE853C6EF372A54FF53A510E527F9B05688C1F83D9AB5BE0CD19
    sched0 := [7, 18, 3], sched1 := [17, 19, 10], big0 := [2, 13, 22], big1 := [6, 11, 25] }

/-- A sigma function of the schedule: two rotations and a shift; and one of the rounds: three rotations. -/
def ShaKind.small (k : ShaKind) (r : List Nat) (x : Nat) : Nat :=
  rotr k.width (r.getD 0 0) x ^^^ rotr k.width (r.getD 1 0) x ^^^ (x >>> r.getD 2 0)
def ShaKind.big (k : ShaKind) (r : List Nat) (x : Nat) : Nat := r.foldl (fun a n => a ^^^ rotr k.width n x) 0

/-- The message schedule grows by one word; newest first. -/
def ShaKind.grow (k : ShaKind) (ws : List Nat) : List Nat :=
  (ws.getD 15 0 + k.small k.sched0 (ws.getD 14 0) + ws.getD 6 0 + k.small k.sched1 (ws.getD 1 0)) % 2 ^ k.width :: ws

/-- The working words of a round. -/
structure ShaWork where
  a : Nat
  b : Nat
  c : Nat
  d : Nat
  e : Nat
  f : Nat
  g : Nat
  h : Nat
  deriving DecidableEq, Repr

/-- One round: `x` is the sum of its constant and its schedule word. -/
def ShaKind.round (k : ShaKind) (v : ShaWork) (x : Nat) : ShaWork :=
  let choice := v.g ^^^ (v.e &&& (v.f ^^^ v.g))
  let major := (v.a &&& (v.b ||| v.c)) ||| (v.b &&& v.c)
  let t := v.h + k.big k.big1 v.e + choice + x
  { a := (t + k.big k.big0 v.a + major) % 2 ^ k.width, b := v.a, c := v.b, d := v.c
    e := (v.d + t) % 2 ^ k.width, f := v.e, g := v.f, h := v.g }

/-- One block of sixteen words folded into the hash. -/
def ShaKind.block (k : ShaKind) (h ws : List Nat) : List Nat :=
  match h with
  | [a, b, c, d, e, f, g, q] =>
    let sched := (iter (k.keys.length - 16) k.grow ws.reverse).reverse
    let v := (List.zipWith (fun x y => x + y) k.keys sched).foldl k.round ⟨a, b, c, d, e, f, g, q⟩
    List.zipWith (fun x y => (x + y) % 2 ^ k.width) h [v.a, v.b, v.c, v.d, v.e, v.f, v.g, v.h]
  | _ => h

/-- Big-endian words of `n` bytes each, `count` of them. -/
def beWords (n : Nat) : Nat → List Byte → List Nat
  | 0, _ => []
  | c + 1, bs => beNat (bs.take n) :: beWords n c (bs.drop n)

/-- The message with its padding: 0x80, zeros, and the bit length. -/
def shaPad (k : ShaKind) (bs : List Byte) : List Byte :=
  let blk := 2 * k.width
  let tail := k.width / 4
  let used := (bs.length + 1 + tail) % blk
  let zeros := if used = 0 then 0 else blk - used
  bs ++ [0x80] ++ List.replicate zeros 0 ++ beBytes tail (8 * bs.length)

/-- The hash of a message, as words. -/
def ShaKind.hash (k : ShaKind) (bs : List Byte) : List Nat :=
  let p := shaPad k bs
  (List.range (p.length / (2 * k.width))).foldl
    (fun h i => k.block h (beWords (k.width / 8) 16 (p.drop (i * 2 * k.width)))) (digits k.width 8 k.init)

/-- SHA-256 as 32 bytes. -/
def sha256 (bs : List Byte) : List Byte := ((sha256Kind.hash bs).map (beBytes 4)).flatten
/-- SHA-384 as 48 bytes: the first six of the eight words. -/
def sha384 (bs : List Byte) : List Byte := (((sha384Kind.hash bs).take 6).map (beBytes 8)).flatten

end Sys2Proof.Machine
end

