-- ==== Sys2Proof/Config.lean ====
section
/-!
DEFINITION. Config.lean: what one part holds that the manual does not fix, and the free values. Each is opaque: no
proof can see what it is, so a claim holds whatever it is.
-/
namespace Sys2Proof.Config

/-- The identity serial number (MGT_SERIAL, unique per part). -/
opaque serial : BitVec 64
/-- A free value: one number for each use of the counter `State.free`. -/
opaque freeNat : Nat → Nat
/-- A free byte sequence of a length, for each use of the counter `State.free`. -/
opaque freeBytes : Nat → Nat → List Byte
/-- The error of one segment's super-block against the exact convolution, in Q5.27, from its taps and the input windows of its FDL, and how
much of the bound of R77 segments A and B may use, in percent; R77 bounds the segmented part as a whole and fixes nothing else. -/
opaque convError : List Int → List (Option (List Int)) → List Int
opaque convShare : Nat × Nat

/-- The audio one codec task decodes, conceals and adjusts (R128, R129, R131): channel record, decoder state, the held
packets as (start less the playout position, payload), RTP units to play and samples to make; answers the next decoder state
and the samples. -/
opaque voxDecode : List Byte → Nat → List (Int × List Byte) → Int → Nat → Nat × List Int
/-- The payload one codec task encodes (R131): channel record, reduced effort, encoder state, samples; none: a frame the Opus
encoder marks for discontinuous transmission. -/
opaque voxEncode : List Byte → Bool → Nat → List Int → Nat × Option (List Byte)
/-- The taps of the polyphase filters of R118 in Q2.30: to the render rate (true) or from it, render rate, channel rate, and the distance
between input and output sample in units of 1 ÷ (render rate × channel rate) s. A tap depends on the distance alone, so the phase is linear. -/
opaque voxTap : Bool → Nat → Nat → Nat → Int
/-- The parts of the canceller of R132 that the manual leaves to the implementation, each over a block of 10 ms: the echo its coefficients
(4,096 bytes, R115) predict from the far-end history; the coefficients adapted to the residual, with the largest step or not; whether
near-end speech is found; whether Rin is active; the enhancement in 0.01 dB from the one before, Sin and the residual. -/
opaque echoPredict : List Byte → List Int → Nat → List Int
opaque echoAdapt : Bool → List Byte → List Int → List Int → List Byte
opaque echoNear : List Int → List Int → List Int → Bool
opaque echoActive : List Int → Bool
opaque echoEnhance : Nat → List Int → List Int → Nat
/-- The residual as the non-linear processor suppresses it, and its Q1.15 gain in double talk before the 10 dB limit. -/
opaque echoSuppress : List Int → List Int
opaque echoDuck : List Int → List Int → Nat
/-- The background of Sin in 16 bands as a block with Rin silent leaves it, and comfort noise of that background: state, samples. -/
opaque echoBackground : List Nat → List Int → List Nat
opaque echoNoise : List Nat → Nat → List Int

/-- Where firmware places an image among the images of a plane (R196): the gap it leaves before its tile region and before its
code, by IMAGE_ID and plane. -/
opaque tileGap : Nat → Nat → Nat
opaque codeGap : Nat → Nat → Nat
/-- Where Gualbin's reservations lie in the lowest 2 GiB (R234): the gap before each. -/
opaque regionGap : Nat → Nat
/-- Where the DRAM region of an image begins inside the 4 GiB of R234: by IMAGE_ID. -/
opaque dramSlot : Nat → Nat
/-- The graph that Gualbin builds for a plane from the loaded configuration (R143), whose records the manual does not give: plane,
objects and outputs in use; answers node records and edges. -/
opaque gualbinGraph : Nat → Nat → Nat → List (List Byte) × List (Nat × Nat)
/-- The Gualbin node of a cluster's Vigil items (R391). -/
opaque vigilNode : Nat → Nat
/-- The transform of R171, where the manual fixes that every step has one result and not its twiddle words: INVERSE, REAL,
LOG2N and the input words; answers EXP and the output words. -/
opaque fft : Bool → Bool → Nat → List Int → Int × List Int
/-- Whether FLAGS.C after a CMP is the borrow of the subtraction or its complement: the manual gives the conditions that read
it (ltu, geu) and not its polarity. -/
opaque carryIsBorrow : Bool

/-- The checks of R175 on a bundle of code that need the values of OP and the immediate widths, which the manual does not give:
a reserved OP, or an EXT payload that is no sign extension. -/
opaque codeIllegal : List Word → Bool
/-- SHA-384 of Gualbin's signing key, in the boot ROM (R379), and the certificates of R377 and R444. -/
opaque rootHash : List Byte
opaque attCert : List Byte
opaque decCert : List Byte
/-- The firmware image in flash slot A, from which the module booted (R414). -/
opaque firmware : List Byte
/-- What the attestation key and the decryption key are derived from (R377). -/
opaque attSeed : Nat
opaque decSeed : Nat
/-- The codes of the JTAG instructions, by their number in `Sec`, and the identification code. -/
opaque jtagCode : Nat → Nat
opaque idcode : Nat
/-- TARGET of a KEY entry of the audit log: the manual gives the field no codes. 0 the owner hash, 1 and 2 the minima. -/
opaque keyField : Nat → Nat
/-- MGT_FW_VERSION of a firmware image: the manual does not say where the image holds it. -/
opaque fwVersion : List Byte → Nat

end Sys2Proof.Config
end

