-- ==== Sys2Proof/Machine/Cells.lean ====
section
/-!
DEFINITION. Machine/Cells.lean: sparse data by number, in one canonical form: keys strictly rising, and no entry
equal to what an unlisted key reads as. The register file, the memories and the tables of channels, objects, rings
and ports are all held so.
-/
namespace Sys2Proof.Machine

/-- A sparse table: (key, value) pairs. -/
abbrev Cells (β : Type) := List (Nat × β)

/-- What key `k` reads as; `d` says what an unlisted key reads as. -/
def Cells.get (d : Nat → β) : Cells β → Nat → β
  | [], k => d k
  | (j, v) :: r, k => if j = k then v else Cells.get d r k

/-- The table with an entry for key `k`, at its place. -/
def Cells.enter : Cells β → Nat → β → Cells β
  | [], k, v => [(k, v)]
  | (j, w) :: r, k, v =>
    if k < j then (k, v) :: (j, w) :: r else if k = j then (k, v) :: r else (j, w) :: Cells.enter r k v

/-- The table with key `k` holding `v`: listed in order, or not at all where an unlisted key reads as `v`. -/
def Cells.put [DecidableEq β] (d : Nat → β) (m : Cells β) (k : Nat) (v : β) : Cells β :=
  if v = d k then m.filter (fun p => p.1 != k) else Cells.enter m k v

/-- Every key of the table is above `b`, the keys rise, and no entry holds the unlisted value. -/
def Cells.wfFrom [DecidableEq β] (d : Nat → β) : Option Nat → Cells β → Bool
  | _, [] => true
  | b, (k, v) :: r =>
    (match b with | none => true | some x => decide (x < k)) && decide (v ≠ d k) && Cells.wfFrom d (some k) r

/-- The canonical form. -/
def Cells.wf [DecidableEq β] (d : Nat → β) (m : Cells β) : Bool := Cells.wfFrom d none m

/-- Store a sequence of values from key `k` on. -/
def Cells.putList [DecidableEq β] (d : Nat → β) : Cells β → Nat → List β → Cells β
  | m, _, [] => m
  | m, k, v :: vs => Cells.putList d (Cells.put d m k v) (k + 1) vs

/-- `n` values from key `k` on. -/
def Cells.getList (d : Nat → β) (m : Cells β) (k : Nat) : Nat → List β
  | 0 => []
  | n + 1 => Cells.get d m k :: Cells.getList d m (k + 1) n

/-- Byte memory: an unlisted address reads as zero (R415 zeroes DRAM and every SRAM at boot). -/
abbrev Memory := Cells Byte

/-- What an unlisted byte of memory reads as. -/
def Memory.empty (_ : Nat) : Byte := 0
/-- One byte. -/
def Memory.byte (m : Memory) (a : Nat) : Byte := Cells.get Memory.empty m a
/-- Store bytes from address `a` on. -/
def Memory.store (m : Memory) (a : Nat) (bs : List Byte) : Memory := Cells.putList Memory.empty m a bs
/-- Read `n` bytes from address `a` on. -/
def Memory.load (m : Memory) (a n : Nat) : List Byte := Cells.getList Memory.empty m a n
/-- The canonical form of a memory. -/
def Memory.wf (m : Memory) : Bool := Cells.wf Memory.empty m

end Sys2Proof.Machine
end

