-- ==== Sys2Proof/Machine/Float.lean ====
section
/-!
DEFINITION. Machine/Float.lean: the binary32 arithmetic of R45, R97, R100 and R456: every operation is computed exactly
and rounded once to nearest, ties to even; square root and the elementary functions are correctly rounded, from values
carried to 2^-200. A value is held as m × 2^e; e is 128 for the infinities (m is 1 or −1) and for a value that is not a number (m is 0).
Zero has no sign (notes/assumptions).
-/
namespace Sys2Proof.Machine

/-- A binary32 value m × 2^e, in the one form `F32.round` gives it. -/
structure F32 where
  m : Int
  e : Int
  deriving DecidableEq, Repr

def F32.zero : F32 := ⟨0, 0⟩

/-- The values that are no number, and the infinities of IEEE 754. -/
def F32.nan : F32 := ⟨0, 128⟩
def F32.inf (neg : Bool) : F32 := ⟨if neg then -1 else 1, 128⟩
def F32.special (x : F32) : Bool := x.e == 128
def F32.isNan (x : F32) : Bool := x.e == 128 && x.m == 0

/-- Quotient rounded to nearest, ties to even. -/
def divEven (a b : Nat) : Nat :=
  let q := a / b
  let r := a % b
  if 2 * r < b then q else if 2 * r > b then q + 1 else if q % 2 = 0 then q else q + 1

/-- Quotient rounded to nearest, ties away from zero. -/
def divAway (a b : Nat) : Nat := (2 * a + b) / (2 * b)

/-- 2^e as a ratio. -/
def pow2Ratio (e : Int) : Nat × Nat := if 0 ≤ e then (2 ^ e.toNat, 1) else (1, 2 ^ (-e).toNat)

/-- The nearest binary32 value to a / b (b > 0), ties to even. -/
def F32.ofRatio (a : Int) (b : Nat) : F32 :=
  let n := a.natAbs
  if n = 0 then .zero
  else
    let e0 : Int := (Nat.log2 n : Int) - (Nat.log2 b : Int) - 24
    let scale (e : Int) : Nat :=
      let p := pow2Ratio (-e)
      divEven (n * p.1) (b * p.2)
    -- the exponent at which the quotient has 24 bits
    let fits (e : Int) : Bool :=
      let p := pow2Ratio (-e)
      (n * p.1) / (b * p.2) < 2 ^ 24
    let e := if fits e0 then e0 else e0 + 1
    let e := max e (-149)
    let q := scale e
    let (q, e) := if q = 2 ^ 24 then (2 ^ 23, e + 1) else (q, e)
    if q = 0 then .zero
    else if 104 < e then .inf (decide (a < 0))
    else ⟨if a < 0 then -(q : Int) else q, e⟩

/-- The value as a ratio. -/
def F32.num (x : F32) : Int := if 0 ≤ x.e then x.m * 2 ^ x.e.toNat else x.m
def F32.den (x : F32) : Nat := if 0 ≤ x.e then 1 else 2 ^ (-x.e).toNat

def F32.ofInt (a : Int) : F32 := F32.ofRatio a 1
def F32.ofNat (a : Nat) : F32 := F32.ofRatio a 1
def F32.neg (x : F32) : F32 := ⟨-x.m, x.e⟩
def F32.abs (x : F32) : F32 := ⟨x.m.natAbs, x.e⟩
def F32.add (x y : F32) : F32 :=
  if x.special || y.special then
    (if x.isNan || y.isNan || (x.special && y.special && x.m != y.m) then .nan else if x.special then x else y)
  else F32.ofRatio (x.num * y.den + y.num * x.den) (x.den * y.den)
def F32.sub (x y : F32) : F32 := F32.add x y.neg
def F32.mul (x y : F32) : F32 :=
  if x.special || y.special then (if x.m = 0 ∨ y.m = 0 then .nan else .inf (decide (x.m * y.m < 0)))
  else F32.ofRatio (x.num * y.num) (x.den * y.den)
/-- Quotient; a zero divisor gives an infinity, or no number where the dividend is zero too. -/
def F32.div (x y : F32) : F32 :=
  if x.isNan || y.isNan || (x.special && y.special) then .nan
  else if y.special then .zero
  else if y.m = 0 then (if x.m = 0 then .nan else .inf (decide (x.m < 0)))
  else if x.special then .inf (decide (x.m * y.m < 0))
  else F32.ofRatio (x.num * y.den * (if y.m < 0 then -1 else 1)) (x.den * y.num.natAbs)
def F32.lt (x y : F32) : Bool := !x.isNan && !y.isNan && decide (x.num * y.den < y.num * x.den)
def F32.le (x y : F32) : Bool := !x.isNan && !y.isNan && decide (x.num * y.den ≤ y.num * x.den)
def F32.max (x y : F32) : F32 := if F32.lt x y then y else x
def F32.min (x y : F32) : F32 := if F32.lt y x then y else x
def F32.isZero (x : F32) : Bool := x.m == 0 && x.e != 128

/-- Nearest integer to x × 2^k, ties to even. -/
def F32.toIntEven (x : F32) (k : Nat) : Int :=
  let q := divEven (x.num.natAbs * 2 ^ k) x.den
  if x.m < 0 then -(q : Int) else q
/-- Nearest integer to x × 2^k, ties away from zero. -/
def F32.toIntAway (x : F32) (k : Nat) : Int :=
  let q := divAway (x.num.natAbs * 2 ^ k) x.den
  if x.m < 0 then -(q : Int) else q

/-- One bit of an integer square root, from bit `i` down. -/
def isqrtGo (n : Nat) : Nat → Nat → Nat
  | 0, r => if (r + 1) * (r + 1) ≤ n then r + 1 else r
  | i + 1, r =>
    let t := r + 2 ^ (i + 1)
    isqrtGo n i (if t * t ≤ n then t else r)
/-- Integer square root, rounded down. -/
def isqrt (n : Nat) : Nat := isqrtGo n (Nat.log2 n / 2 + 1) 0

/-- Square root, correctly rounded. -/
def F32.sqrt (x : F32) : F32 :=
  if x.isNan ∨ x.m < 0 then .nan
  else if x.special then x
  else if x.m = 0 then .zero
  else
    let a := x.num.natAbs * x.den * 2 ^ 400
    let r := isqrt a
    -- root of num/den = sqrt(num*den)/den; one sticky bit keeps the rounding right
    let r2 := 2 * r + (if r * r = a then 0 else 1)
    F32.ofRatio r2 (2 * x.den * 2 ^ 200)

/-! ### Fixed point with 240 fraction bits, for the elementary functions -/

def fxBits : Nat := 240
def fxOne : Int := 2 ^ fxBits
def fxMul (a b : Int) : Int := (a * b).fdiv fxOne
def fxDiv (a b : Int) : Int := (a * fxOne).fdiv b
def F32.toFx (x : F32) : Int := (x.num * fxOne).fdiv x.den
def F32.ofFx (a : Int) : F32 := F32.ofRatio a (2 ^ fxBits)

/-- Sum of a series: `n` further terms, each from the one before. -/
def fxSeries (next : Nat → Int → Int) : Nat → Nat → Int → Int → Int
  | 0, _, _, acc => acc
  | n + 1, i, t, acc =>
    let t' := next i t
    fxSeries next n (i + 1) t' (acc + t')

/-- arctan of 1/k (Gregory's series). -/
def fxAtanInv (k : Nat) : Int :=
  let p0 : Int := fxOne.fdiv k
  ((List.range 120).foldl (fun (s : Int × Int) (i : Nat) =>
    let t := s.2.fdiv (2 * (i : Int) + 1)
    ((if i % 2 = 0 then s.1 + t else s.1 - t), s.2.fdiv ((k : Int) * k))) ((0 : Int), p0)).1
/-- π (Machin's formula). -/
def fxPi : Int := 16 * fxAtanInv 5 - 4 * fxAtanInv 239

/-- 2 × artanh of a / b, small ratios. -/
def fxLogRatio (a b : Int) : Int :=
  let z := fxDiv a b
  let z2 := fxMul z z
  2 * ((List.range 130).foldl (fun (s : Int × Int) (i : Nat) => (s.1 + s.2.fdiv (2 * (i : Int) + 1), fxMul s.2 z2)) ((0 : Int), z)).1
/-- ln 2. -/
def fxLn2 : Int := fxLogRatio 1 3
/-- ln 10 = 3 ln 2 + ln(5/4). -/
def fxLn10 : Int := 3 * fxLn2 + fxLogRatio 1 9

/-- ln of a positive ratio. -/
def fxLn (n d : Nat) : Int :=
  let k : Int := (Nat.log2 n : Int) - (Nat.log2 d : Int)
  let p := pow2Ratio (-k)
  let n' : Int := n * p.1
  let d' : Int := d * p.2
  k * fxLn2 + fxLogRatio (n' - d') (n' + d')

/-- exp of a fixed-point number, as (fraction in 240 bits, power of two). -/
def fxExp (x : Int) : Int × Int :=
  let k := x.fdiv fxLn2
  let r := x - k * fxLn2
  (fxSeries (fun i t => (fxMul t r).fdiv i) 70 1 fxOne fxOne, k)

/-- A fixed-point number times 2^k, rounded once. -/
def F32.ofFxPow (a k : Int) : F32 :=
  let p := pow2Ratio k
  F32.ofRatio (a * p.1) (2 ^ fxBits * p.2)

/-- 10^(a / b), correctly rounded. -/
def F32.exp10Ratio (a : Int) (b : Nat) : F32 :=
  if a = 0 then F32.ofInt 1
  else
    let p := fxExp ((fxLn10 * a).fdiv b)
    F32.ofFxPow p.1 p.2
def F32.exp10 (x : F32) : F32 :=
  if x.special then (if x.isNan then x else if x.m < 0 then .zero else x) else F32.exp10Ratio x.num x.den
/-- log10 of a positive value, correctly rounded. -/
def F32.log10 (x : F32) : F32 :=
  if x.isNan ∨ x.m < 0 then .nan
  else if x.special then x
  else if x.m = 0 then .inf true
  else if x.num = x.den then .zero
  else F32.ofFx (fxDiv (fxLn x.num.natAbs x.den) fxLn10)
/-- x^y for x > 0, correctly rounded. -/
def F32.pow (x y : F32) : F32 :=
  if x.special ∨ y.special ∨ x.m ≤ 0 then .nan
  else if y.m = 0 ∨ x.num = x.den then F32.ofInt 1
  else
    let p := fxExp ((fxLn x.num.natAbs x.den * y.num).fdiv y.den)
    F32.ofFxPow p.1 p.2

/-- cos and sin of a fixed-point angle of moderate size, by their series. -/
def fxCos (x : Int) : Int :=
  let x2 := fxMul x x
  fxSeries (fun i t => -((fxMul t x2).fdiv ((2 * i - 1) * (2 * i)))) 60 1 fxOne fxOne
def fxSin (x : Int) : Int :=
  let x2 := fxMul x x
  fxSeries (fun i t => -((fxMul t x2).fdiv ((2 * i) * (2 * i + 1)))) 60 1 x x
def F32.cos (x : F32) : F32 := F32.ofFx (fxCos x.toFx)
def F32.sin (x : F32) : F32 := F32.ofFx (fxSin x.toFx)

/-- arctan of a fixed-point number in 0 to 1: the angle is halved four times, then the series. -/
def fxSqrt (a : Int) : Int := (isqrt (a.toNat * 2 ^ fxBits) : Nat)
def fxHalve (z : Int) : Int := fxDiv z (fxOne + fxSqrt (fxOne + fxMul z z))
def fxAtan01 (z : Int) : Int :=
  let w := fxHalve (fxHalve (fxHalve (fxHalve z)))
  let w2 := fxMul w w
  16 * ((List.range 45).foldl (fun (s : Int × Int) (i : Nat) =>
    let t := s.2.fdiv (2 * (i : Int) + 1)
    ((if i % 2 = 0 then s.1 + t else s.1 - t), fxMul s.2 w2)) ((0 : Int), w)).1
/-- Angle of (x, y), y ≥ 0, in fixed point. -/
def fxAtan2 (y x : Int) : Int :=
  if x = 0 ∧ y = 0 then 0
  else if 0 ≤ x then
    (if y ≤ x then fxAtan01 (fxDiv y x) else fxPi.fdiv 2 - fxAtan01 (fxDiv x y))
  else (if y ≤ -x then fxPi - fxAtan01 (fxDiv y (-x)) else fxPi.fdiv 2 + fxAtan01 (fxDiv (-x) y))
/-- atan2 for non-negative arguments, correctly rounded. -/
def F32.atan2 (y x : F32) : F32 := F32.ofFx (fxAtan2 (y.num * x.den) (x.num * y.den))
/-- acos of a value in −1 to 1, correctly rounded. -/
def F32.acos (x : F32) : F32 :=
  let z := x.toFx
  let s := fxSqrt (fxOne - fxMul z z)
  F32.ofFx (fxAtan2 s z)
/-- The binary32 value of π ÷ 180. -/
def F32.degree : F32 := F32.ofFx (fxPi.fdiv 180)

/-- A vector of three values (R456). -/
structure Vec where
  x : F32
  y : F32
  z : F32
  deriving DecidableEq, Repr

def Vec.zero : Vec := ⟨.zero, .zero, .zero⟩
def Vec.ofInts (a b c : Int) : Vec := ⟨.ofInt a, .ofInt b, .ofInt c⟩
def Vec.add (a b : Vec) : Vec := ⟨a.x.add b.x, a.y.add b.y, a.z.add b.z⟩
def Vec.sub (a b : Vec) : Vec := ⟨a.x.sub b.x, a.y.sub b.y, a.z.sub b.z⟩
def Vec.scale (k : F32) (a : Vec) : Vec := ⟨k.mul a.x, k.mul a.y, k.mul a.z⟩
def Vec.divBy (a : Vec) (k : F32) : Vec := ⟨a.x.div k, a.y.div k, a.z.div k⟩
/-- x × x + y × y + z × z, summed in that order. -/
def Vec.dot (a b : Vec) : F32 := ((a.x.mul b.x).add (a.y.mul b.y)).add (a.z.mul b.z)
def Vec.len (a : Vec) : F32 := (a.dot a).sqrt
def Vec.normalise (a : Vec) : Vec := a.divBy a.len
def Vec.cross (a b : Vec) : Vec :=
  ⟨(a.y.mul b.z).sub (a.z.mul b.y), (a.z.mul b.x).sub (a.x.mul b.z), (a.x.mul b.y).sub (a.y.mul b.x)⟩

/-- The value of a binary32 bit pattern; none for an infinity or a NaN. -/
def F32.ofBits (w : Word) : Option F32 :=
  let ex := field w 30 23
  let fr := field w 22 0
  let neg := bitOf w 31
  if ex = 255 then none
  else
    let m : Nat := if ex = 0 then fr else 2 ^ 23 + fr
    let e : Int := if ex = 0 then -149 else (ex : Int) - 150
    some (if m = 0 then .zero else ⟨if neg then -(m : Int) else m, e⟩)

end Sys2Proof.Machine
end

