-- ==== Sys2Proof/Machine/RegMap.lean ====
section
/-!
DEFINITION. Machine/RegMap.lean: the register map of BAR0 (R437, R438, R447 and the register maps of every chapter):
for each register or array, its offset, which of its bits take a written value (RW, SL), clear on a 1 (W1C) or act on a
1 (W1S), its reset value, and whether a write of it is logged (R10, R445). Bits in no mask are RO or reserved (R8, R9).
-/
namespace Sys2Proof.Machine

/-- One row of the map: `count` registers `stride` bytes apart from `base`. -/
structure RegRow where
  base : Nat
  count : Nat
  stride : Nat
  rw : Nat
  w1c : Nat
  w1s : Nat
  /-- The reset value. PWR_VIN, which is live, holds 48.00 V (DESIGN CHOICE), and PWR_RESET_CAUSE that of a first power-up. -/
  reset : Nat
  logged : Bool
  /-- A counter of R71: saturates, and restarts at each statistics epoch. -/
  counter : Bool
  /-- How many registers the row adds to the count of R438. -/
  counts : Nat
  deriving DecidableEq, Repr

def regsMgt0 : List RegRow :=
  [⟨0x0, 1, 0x4, 0x0, 0x0, 0x0, 0x9601F7C, false, false, 1⟩,
   ⟨0x4, 1, 0x4, 0x0, 0x0, 0x0, 0x10, false, false, 1⟩,
   ⟨0x8, 2, 0x4, 0x0, 0x0, 0x0, 0x0, false, false, 2⟩,
   ⟨0x10, 1, 0x4, 0x0, 0x0, 0x0, 0x10101010, false, false, 1⟩,
   ⟨0x14, 1, 0x4, 0x0, 0x0, 0x0, 0x824, false, false, 1⟩,
   ⟨0x18, 2, 0x4, 0x0, 0x0, 0x0, 0x0, false, false, 2⟩,
   ⟨0x40, 1, 0x4, 0x0, 0x0, 0x0, 0x0, false, false, 1⟩,
   ⟨0x80, 1, 0x4, 0x1F, 0x100, 0x0, 0xC, true, false, 1⟩,
   ⟨0x200, 1, 0x4, 0x0, 0x40000000, 0x0, 0x0, false, false, 1⟩,
   ⟨0x204, 2, 0x4, 0x0, 0x0, 0x0, 0x0, false, false, 2⟩,
   ⟨0x210, 2, 0x4, 0xFFFFFFFF, 0x0, 0x0, 0x0, true, false, 2⟩,
   ⟨0x300, 3, 0x4, 0x0, 0x0, 0x0, 0x0, false, true, 3⟩]
/-- Window MGT_. -/
def regsMgt : List RegRow := regsMgt0

def regsHif0 : List RegRow :=
  [⟨0x10000, 1, 0x4, 0x1, 0x0, 0x0, 0x0, true, false, 1⟩,
   ⟨0x10004, 1, 0x4, 0x0, 0x1C, 0x0, 0x0, false, false, 1⟩,
   ⟨0x10008, 1, 0x4, 0xFFFFFFFF, 0x0, 0x0, 0x0, true, false, 1⟩,
   ⟨0x10010, 1, 0x4, 0xFFFFFE00, 0x0, 0x0, 0x0, true, false, 1⟩,
   ⟨0x10014, 1, 0x4, 0xFFFFFFFF, 0x0, 0x0, 0x0, true, false, 1⟩,
   ⟨0x10018, 1, 0x4, 0xFFFFFE00, 0x0, 0x0, 0x0, true, false, 1⟩,
   ⟨0x1001C, 1, 0x4, 0xFFFFFFFF, 0x0, 0x0, 0x0, true, false, 1⟩,
   ⟨0x10020, 1, 0x4, 0xFFFFFE00, 0x0, 0x0, 0x0, true, false, 1⟩,
   ⟨0x10024, 1, 0x4, 0xFFFFFFFF, 0x0, 0x0, 0x0, true, false, 1⟩,
   ⟨0x10100, 10, 0x4, 0x0, 0x0, 0x0, 0x0, false, true, 10⟩,
   ⟨0x11000, 64, 0x20, 0xFFFFFE00, 0x0, 0x0, 0x0, true, false, 0⟩,
   ⟨0x11004, 64, 0x20, 0xFFFFFFFF, 0x0, 0x0, 0x0, true, false, 0⟩,
   ⟨0x11008, 1, 0x20, 0x8000FF9F, 0x0, 0x0, 0x2088, true, false, 0⟩,
   ⟨0x11028, 63, 0x20, 0x8000FF9F, 0x0, 0x0, 0x2008, true, false, 0⟩,
   ⟨0x1100C, 64, 0x20, 0xFFFF, 0x0, 0x0, 0x0, true, false, 0⟩,
   ⟨0x11010, 64, 0x20, 0x0, 0x0, 0x0, 0x0, false, false, 1⟩]
/-- Window HIF_. -/
def regsHif : List RegRow := regsHif0

def regsInt0 : List RegRow :=
  [⟨0x20000, 2, 0x4, 0xFFFFFFFF, 0x0, 0x0, 0xFFFFFFFF, true, false, 2⟩,
   ⟨0x20008, 2, 0x4, 0x0, 0xFFFFFFFF, 0x0, 0x0, false, false, 2⟩,
   ⟨0x20010, 2, 0x4, 0x0, 0x0, 0x0, 0x0, false, false, 2⟩,
   ⟨0x20100, 64, 0x4, 0x3FF, 0x0, 0x0, 0x0, true, false, 1⟩]
/-- Window INT_. -/
def regsInt : List RegRow := regsInt0

def regsMtx0 : List RegRow :=
  [⟨0x30000, 1, 0x4, 0x1F, 0x0, 0x0, 0x10, true, false, 1⟩,
   ⟨0x30004, 1, 0x4, 0x1FFF, 0x0, 0x0, 0x100, true, false, 1⟩,
   ⟨0x30008, 1, 0x4, 0x0, 0x80000000, 0x0, 0x0, false, false, 1⟩,
   ⟨0x3000C, 2, 0x4, 0x0, 0x0, 0x0, 0x0, false, false, 2⟩,
   ⟨0x30040, 1, 0x4, 0xF, 0x0, 0x0, 0x2, true, false, 1⟩,
   ⟨0x30044, 1, 0x4, 0xF, 0x0, 0x0, 0x2, true, false, 1⟩,
   ⟨0x30048, 1, 0x4, 0xF, 0x0, 0x0, 0x4, true, false, 1⟩,
   ⟨0x3004C, 1, 0x4, 0xF, 0x0, 0x0, 0x4, true, false, 1⟩,
   ⟨0x30050, 1, 0x4, 0xF, 0x0, 0x0, 0x4, true, false, 1⟩,
   ⟨0x30054, 1, 0x4, 0xF, 0x0, 0x0, 0x4, true, false, 1⟩,
   ⟨0x30058, 1, 0x4, 0xF, 0x0, 0x0, 0x8, true, false, 1⟩,
   ⟨0x3005C, 1, 0x4, 0xF, 0x0, 0x0, 0x8, true, false, 1⟩,
   ⟨0x30060, 1, 0x4, 0xF, 0x0, 0x0, 0x4, true, false, 1⟩,
   ⟨0x30064, 1, 0x4, 0xF, 0x0, 0x0, 0x4, true, false, 1⟩,
   ⟨0x30068, 1, 0x4, 0xF, 0x0, 0x0, 0x4, true, false, 1⟩,
   ⟨0x3006C, 1, 0x4, 0xF, 0x0, 0x0, 0x1, true, false, 1⟩,
   ⟨0x30070, 1, 0x4, 0xF, 0x0, 0x0, 0x1, true, false, 1⟩,
   ⟨0x30074, 1, 0x4, 0xF, 0x0, 0x0, 0x2, true, false, 1⟩,
   ⟨0x30100, 2, 0x4, 0x0, 0x0, 0x0, 0x0, false, true, 2⟩]
/-- Window MTX_. -/
def regsMtx : List RegRow := regsMtx0

def regsDmc0 : List RegRow :=
  [⟨0x40000, 1, 0x4, 0xFFFF, 0x0, 0x0, 0x40, true, false, 1⟩,
   ⟨0x40004, 1, 0x4, 0x0, 0x0, 0x0, 0x0, false, false, 1⟩,
   ⟨0x40100, 5, 0x4, 0x0, 0x0, 0x0, 0x0, false, true, 5⟩]
/-- Window DMC_. -/
def regsDmc : List RegRow := regsDmc0

def regsWck0 : List RegRow :=
  [⟨0x50000, 1, 0x4, 0x0, 0xE0000, 0x0, 0x0, false, false, 1⟩,
   ⟨0x50004, 1, 0x4, 0xFFFFFFFF, 0x0, 0x0, 0x186A0, true, false, 1⟩,
   ⟨0x50008, 1, 0x4, 0xFFFFFFFF, 0x0, 0x0, 0x186A0, true, false, 1⟩,
   ⟨0x5000C, 1, 0x4, 0x9FFF03FE, 0x0, 0x0, 0x80003FE, true, false, 1⟩,
   ⟨0x50010, 3, 0x4, 0x0, 0x0, 0x0, 0x0, false, false, 3⟩,
   ⟨0x50040, 14, 0x4, 0x1FFF, 0x0, 0x0, 0x140, true, false, 14⟩,
   ⟨0x50078, 2, 0x4, 0x1FFF, 0x0, 0x0, 0x640, true, false, 2⟩,
   ⟨0x50080, 8, 0x4, 0xF, 0x0, 0x0, 0xD, true, false, 8⟩,
   ⟨0x50100, 12, 0x4, 0x0, 0x0, 0x0, 0x0, false, true, 12⟩]
/-- Window WCK_. -/
def regsWck : List RegRow := regsWck0

def regsLan0 : List RegRow :=
  [⟨0x60200, 12, 0x1000, 0x0, 0x0, 0x0, 0x101FF00, false, false, 12⟩,
   ⟨0x6C200, 4, 0x1000, 0x0, 0x0, 0x0, 0x201FF00, false, false, 4⟩,
   ⟨0x60800, 16, 0x1000, 0x0, 0x80000000, 0x0, 0x0, false, false, 16⟩,
   ⟨0x60804, 16, 0x1000, 0x0, 0x0, 0x0, 0x0, false, false, 16⟩,
   ⟨0x60808, 16, 0x1000, 0xFFFFF, 0x0, 0x0, 0x203E8, true, false, 16⟩,
   ⟨0x6080C, 16, 0x1000, 0x0, 0x0, 0x0, 0x10, false, false, 16⟩,
   ⟨0x60810, 16, 0x1000, 0x0, 0x0, 0x0, 0xA418820, false, false, 16⟩,
   ⟨0x60814, 16, 0x1000, 0x0, 0x0, 0x0, 0x16A4A0E6, false, false, 16⟩,
   ⟨0x60818, 16, 0x1000, 0x0, 0x0, 0x0, 0x7B9AC, false, false, 16⟩,
   ⟨0x60840, 16, 0x1000, 0x0, 0x0, 0x0, 0x0, false, true, 16⟩,
   ⟨0x60844, 16, 0x1000, 0x0, 0x0, 0x0, 0x0, false, true, 16⟩,
   ⟨0x60848, 16, 0x1000, 0x0, 0x0, 0x0, 0x0, false, true, 16⟩,
   ⟨0x70000, 1, 0x4, 0xFF, 0x0, 0x0, 0x4, true, false, 1⟩,
   ⟨0x70004, 2, 0x4, 0x0, 0x0, 0x0, 0x0, false, false, 2⟩,
   ⟨0x7000C, 1, 0x4, 0x0, 0x80000000, 0x0, 0x0, false, false, 1⟩,
   ⟨0x70100, 6, 0x4, 0x0, 0x0, 0x0, 0x0, false, true, 6⟩]
/-- Window LAN_. -/
def regsLan : List RegRow := regsLan0

def regsRnd0 : List RegRow :=
  [⟨0x80000, 1, 0x4, 0x1, 0x0, 0x0, 0x0, true, false, 1⟩,
   ⟨0x80004, 1, 0x4, 0x0, 0x0, 0x0, 0x108, false, false, 1⟩,
   ⟨0x80008, 1, 0x4, 0x0, 0x0, 0x0, 0x0, false, false, 1⟩,
   ⟨0x80010, 1, 0x4, 0xFFFFF, 0x0, 0x0, 0x53BD8, true, false, 1⟩,
   ⟨0x80014, 1, 0x4, 0xFFFFF, 0x0, 0x0, 0x0, true, false, 1⟩,
   ⟨0x80018, 1, 0x4, 0x1FFFF, 0x0, 0x0, 0x3E8, true, false, 1⟩,
   ⟨0x8001C, 1, 0x4, 0x1F, 0x0, 0x0, 0x10, true, false, 1⟩,
   ⟨0x80020, 1, 0x4, 0x7F, 0x0, 0x0, 0xA, true, false, 1⟩,
   ⟨0x80024, 3, 0x4, 0xFFFFFFFF, 0x0, 0x0, 0x0, true, false, 3⟩,
   ⟨0x80100, 9, 0x4, 0x0, 0x0, 0x0, 0x0, false, true, 9⟩,
   ⟨0x88000, 1, 0x4, 0x0, 0x80000000, 0x0, 0x0, false, false, 1⟩,
   ⟨0x88004, 1, 0x4, 0x0, 0x0, 0x0, 0x0, false, false, 1⟩,
   ⟨0x88008, 1, 0x4, 0xFFFF, 0x0, 0x0, 0x3E8, true, false, 1⟩,
   ⟨0x88040, 2, 0x4, 0x0, 0x0, 0x0, 0x0, false, true, 2⟩]
/-- Window RND_. -/
def regsRnd : List RegRow := regsRnd0

def regsCnv0 : List RegRow :=
  [⟨0x90000, 1, 0x4, 0x1, 0x0, 0x0, 0x1, true, false, 1⟩,
   ⟨0x90004, 1, 0x4, 0xFFFFFF, 0x0, 0x0, 0xBB8, true, false, 1⟩,
   ⟨0x90008, 1, 0x4, 0x0, 0x800, 0x0, 0x100, false, false, 1⟩,
   ⟨0x9000C, 1, 0x4, 0x0, 0x0, 0x0, 0x0, false, false, 1⟩,
   ⟨0x90100, 7, 0x4, 0x0, 0x0, 0x0, 0x0, false, true, 7⟩,
   ⟨0x91000, 512, 0x4, 0x0, 0x0, 0x0, 0x0, false, false, 1⟩]
/-- Window CNV_. -/
def regsCnv : List RegRow := regsCnv0

def regsMix0 : List RegRow :=
  [⟨0xA0000, 1, 0x4, 0x0, 0x10000, 0x0, 0x0, false, false, 1⟩,
   ⟨0xA0004, 1, 0x4, 0x0, 0x0, 0x0, 0x0, false, false, 1⟩,
   ⟨0xA0008, 1, 0x4, 0x0, 0x0, 0x0, 0x0, false, false, 1⟩,
   ⟨0xA0010, 2, 0x4, 0x0, 0x0, 0x0, 0x0, false, false, 2⟩,
   ⟨0xA0018, 1, 0x4, 0x0, 0x0, 0x0, 0x0, false, false, 1⟩,
   ⟨0xA0100, 8, 0x4, 0x0, 0x0, 0x0, 0x0, false, true, 8⟩]
/-- Window MIX_. -/
def regsMix : List RegRow := regsMix0

def regsVox0 : List RegRow :=
  [⟨0xB8000, 1, 0x4, 0x0, 0x80000000, 0x0, 0x0, false, false, 1⟩,
   ⟨0xB8004, 1, 0x4, 0x0, 0x0, 0x0, 0x0, false, false, 1⟩,
   ⟨0xB8008, 1, 0x4, 0xFFFF, 0x0, 0x0, 0x3E8, true, false, 1⟩,
   ⟨0xB8040, 2, 0x4, 0x0, 0x0, 0x0, 0x0, false, true, 2⟩,
   ⟨0xB0000, 1, 0x4, 0x1FFFF, 0x0, 0x0, 0x11388, true, false, 1⟩,
   ⟨0xB0004, 1, 0x4, 0x0, 0x80000, 0x0, 0x0, false, false, 1⟩,
   ⟨0xB0008, 1, 0x4, 0x0, 0x0, 0x0, 0x54600, false, false, 1⟩,
   ⟨0xB000C, 1, 0x4, 0x0, 0x0, 0x0, 0x0, false, false, 1⟩,
   ⟨0xB0100, 13, 0x4, 0x0, 0x0, 0x0, 0x0, false, true, 13⟩,
   ⟨0xB1000, 16, 0x100, 0x0, 0x0, 0x0, 0x10000, false, false, 16⟩]
/-- Window VOX_. -/
def regsVox : List RegRow := regsVox0

def regsNet0 : List RegRow :=
  [⟨0xC0000, 1, 0x4, 0x7, 0x0, 0x0, 0x4, true, false, 1⟩,
   ⟨0xC0004, 1, 0x4, 0x0, 0x0, 0x0, 0x0, false, false, 1⟩,
   ⟨0xC0008, 1, 0x4, 0xFF, 0x0, 0x0, 0x84, true, false, 1⟩,
   ⟨0xC000C, 1, 0x4, 0x3FFF, 0x0, 0x0, 0x5F2, true, false, 1⟩,
   ⟨0xC0010, 1, 0x4, 0xFFFFFFFF, 0x0, 0x0, 0x7A120, true, false, 1⟩,
   ⟨0xC0014, 1, 0x4, 0xFFFFFFFF, 0x0, 0x0, 0x3E8, true, false, 1⟩,
   ⟨0xC0018, 1, 0x4, 0x1FFFF, 0x0, 0x0, 0x64, true, false, 1⟩,
   ⟨0xC001C, 1, 0x4, 0xFFFF, 0x0, 0x0, 0x11, true, false, 1⟩,
   ⟨0xC0040, 1, 0x4, 0xFF, 0x0, 0x0, 0x31, true, false, 1⟩,
   ⟨0xC0044, 1, 0x4, 0x701F1F00, 0x8000000, 0x80000000, 0x0, true, false, 1⟩,
   ⟨0xC0048, 1, 0x4, 0xFFFF, 0x0, 0x0, 0x0, false, false, 1⟩,
   ⟨0xC0100, 24, 0x4, 0x0, 0x0, 0x0, 0x0, false, true, 24⟩,
   ⟨0xC0200, 32, 0x8, 0xFFFFFFFF, 0x0, 0x0, 0x0, true, false, 32⟩,
   ⟨0xC0204, 32, 0x8, 0x8000FFFF, 0x0, 0x0, 0x0, true, false, 32⟩,
   ⟨0xC0400, 1, 0x4, 0x1, 0x0, 0x2, 0x0, true, false, 1⟩,
   ⟨0xC0404, 1, 0x4, 0x0, 0x20000, 0x0, 0x0, false, false, 1⟩,
   ⟨0xC0408, 2, 0x4, 0xFFFFFFFF, 0x0, 0x0, 0x0, true, false, 2⟩,
   ⟨0xC0410, 1, 0x4, 0xFFFFFFFF, 0x0, 0x0, 0xF4240, true, false, 1⟩,
   ⟨0xC0414, 1, 0x4, 0x1FF, 0x0, 0x0, 0x0, true, false, 1⟩,
   ⟨0xC0418, 2, 0x4, 0x0, 0x0, 0x0, 0x0, false, false, 2⟩,
   ⟨0xC0800, 256, 0x4, 0xFFFFFFFF, 0x0, 0x0, 0xFF000000, true, false, 1⟩,
   ⟨0xC0C00, 256, 0x4, 0x0, 0x0, 0x0, 0xFF000000, false, false, 1⟩,
   ⟨0xC4000, 1, 0x4, 0x7, 0x0, 0x0, 0x4, true, false, 1⟩,
   ⟨0xC4004, 1, 0x4, 0x0, 0x0, 0x0, 0x0, false, false, 1⟩,
   ⟨0xC4008, 1, 0x4, 0xFF, 0x0, 0x0, 0x84, true, false, 1⟩,
   ⟨0xC400C, 1, 0x4, 0x3FFF, 0x0, 0x0, 0x5F2, true, false, 1⟩,
   ⟨0xC4010, 1, 0x4, 0xFFFFFFFF, 0x0, 0x0, 0x7A120, true, false, 1⟩,
   ⟨0xC4014, 1, 0x4, 0xFFFFFFFF, 0x0, 0x0, 0x3E8, true, false, 1⟩,
   ⟨0xC4018, 1, 0x4, 0x1FFFF, 0x0, 0x0, 0x64, true, false, 1⟩,
   ⟨0xC401C, 1, 0x4, 0xFFFF, 0x0, 0x0, 0x11, true, false, 1⟩]
def regsNet1 : List RegRow :=
  [⟨0xC4100, 24, 0x4, 0x0, 0x0, 0x0, 0x0, false, true, 24⟩,
   ⟨0xC4200, 32, 0x8, 0xFFFFFFFF, 0x0, 0x0, 0x0, true, false, 32⟩,
   ⟨0xC4204, 32, 0x8, 0x8000FFFF, 0x0, 0x0, 0x0, true, false, 32⟩,
   ⟨0xC4400, 1, 0x4, 0x1, 0x0, 0x2, 0x0, true, false, 1⟩,
   ⟨0xC4404, 1, 0x4, 0x0, 0x20000, 0x0, 0x0, false, false, 1⟩,
   ⟨0xC4408, 2, 0x4, 0xFFFFFFFF, 0x0, 0x0, 0x0, true, false, 2⟩,
   ⟨0xC4410, 1, 0x4, 0xFFFFFFFF, 0x0, 0x0, 0xF4240, true, false, 1⟩,
   ⟨0xC4414, 1, 0x4, 0x1FF, 0x0, 0x0, 0x0, true, false, 1⟩,
   ⟨0xC4418, 2, 0x4, 0x0, 0x0, 0x0, 0x0, false, false, 2⟩,
   ⟨0xC4800, 256, 0x4, 0xFFFFFFFF, 0x0, 0x0, 0xFF000000, true, false, 1⟩,
   ⟨0xC4C00, 256, 0x4, 0x0, 0x0, 0x0, 0xFF000000, false, false, 1⟩,
   ⟨0xC8000, 1, 0x4, 0x7, 0x0, 0x0, 0x4, true, false, 1⟩,
   ⟨0xC8004, 1, 0x4, 0x0, 0x0, 0x0, 0x0, false, false, 1⟩,
   ⟨0xC8008, 1, 0x4, 0xFF, 0x0, 0x0, 0x84, true, false, 1⟩,
   ⟨0xC800C, 1, 0x4, 0x3FFF, 0x0, 0x0, 0x5F2, true, false, 1⟩,
   ⟨0xC8010, 1, 0x4, 0xFFFFFFFF, 0x0, 0x0, 0x7A120, true, false, 1⟩,
   ⟨0xC8014, 1, 0x4, 0xFFFFFFFF, 0x0, 0x0, 0x3E8, true, false, 1⟩,
   ⟨0xC8018, 1, 0x4, 0x1FFFF, 0x0, 0x0, 0x64, true, false, 1⟩,
   ⟨0xC801C, 1, 0x4, 0xFFFF, 0x0, 0x0, 0x11, true, false, 1⟩,
   ⟨0xC8100, 24, 0x4, 0x0, 0x0, 0x0, 0x0, false, true, 24⟩,
   ⟨0xC8200, 32, 0x8, 0xFFFFFFFF, 0x0, 0x0, 0x0, true, false, 32⟩,
   ⟨0xC8204, 32, 0x8, 0x8000FFFF, 0x0, 0x0, 0x0, true, false, 32⟩,
   ⟨0xC8400, 1, 0x4, 0x1, 0x0, 0x2, 0x0, true, false, 1⟩,
   ⟨0xC8404, 1, 0x4, 0x0, 0x20000, 0x0, 0x0, false, false, 1⟩,
   ⟨0xC8408, 2, 0x4, 0xFFFFFFFF, 0x0, 0x0, 0x0, true, false, 2⟩,
   ⟨0xC8410, 1, 0x4, 0xFFFFFFFF, 0x0, 0x0, 0xF4240, true, false, 1⟩,
   ⟨0xC8414, 1, 0x4, 0x1FF, 0x0, 0x0, 0x0, true, false, 1⟩,
   ⟨0xC8418, 2, 0x4, 0x0, 0x0, 0x0, 0x0, false, false, 2⟩,
   ⟨0xC8800, 256, 0x4, 0xFFFFFFFF, 0x0, 0x0, 0xFF000000, true, false, 1⟩,
   ⟨0xC8C00, 256, 0x4, 0x0, 0x0, 0x0, 0xFF000000, false, false, 1⟩]
def regsNet2 : List RegRow :=
  [⟨0xCC000, 1, 0x4, 0x7, 0x0, 0x0, 0x4, true, false, 1⟩,
   ⟨0xCC004, 1, 0x4, 0x0, 0x0, 0x0, 0x0, false, false, 1⟩,
   ⟨0xCC008, 1, 0x4, 0xFF, 0x0, 0x0, 0x84, true, false, 1⟩,
   ⟨0xCC00C, 1, 0x4, 0x3FFF, 0x0, 0x0, 0x5F2, true, false, 1⟩,
   ⟨0xCC010, 1, 0x4, 0xFFFFFFFF, 0x0, 0x0, 0x7A120, true, false, 1⟩,
   ⟨0xCC014, 1, 0x4, 0xFFFFFFFF, 0x0, 0x0, 0x3E8, true, false, 1⟩,
   ⟨0xCC018, 1, 0x4, 0x1FFFF, 0x0, 0x0, 0x64, true, false, 1⟩,
   ⟨0xCC01C, 1, 0x4, 0xFFFF, 0x0, 0x0, 0x11, true, false, 1⟩,
   ⟨0xCC100, 24, 0x4, 0x0, 0x0, 0x0, 0x0, false, true, 24⟩,
   ⟨0xCC200, 32, 0x8, 0xFFFFFFFF, 0x0, 0x0, 0x0, true, false, 32⟩,
   ⟨0xCC204, 32, 0x8, 0x8000FFFF, 0x0, 0x0, 0x0, true, false, 32⟩,
   ⟨0xCC400, 1, 0x4, 0x1, 0x0, 0x2, 0x0, true, false, 1⟩,
   ⟨0xCC404, 1, 0x4, 0x0, 0x20000, 0x0, 0x0, false, false, 1⟩,
   ⟨0xCC408, 2, 0x4, 0xFFFFFFFF, 0x0, 0x0, 0x0, true, false, 2⟩,
   ⟨0xCC410, 1, 0x4, 0xFFFFFFFF, 0x0, 0x0, 0xF4240, true, false, 1⟩,
   ⟨0xCC414, 1, 0x4, 0x1FF, 0x0, 0x0, 0x0, true, false, 1⟩,
   ⟨0xCC418, 2, 0x4, 0x0, 0x0, 0x0, 0x0, false, false, 2⟩,
   ⟨0xCC800, 256, 0x4, 0xFFFFFFFF, 0x0, 0x0, 0xFF000000, true, false, 1⟩,
   ⟨0xCCC00, 256, 0x4, 0x0, 0x0, 0x0, 0xFF000000, false, false, 1⟩,
   ⟨0xC1000, 3, 0x20, 0xFFFFFF, 0x0, 0x0, 0x0, true, false, 3⟩,
   ⟨0xC1004, 3, 0x20, 0x0, 0x40000000, 0x0, 0x80000000, false, false, 3⟩,
   ⟨0xC1008, 3, 0x20, 0x0, 0x0, 0x1, 0x0, false, false, 3⟩,
   ⟨0xC100C, 3, 0x20, 0x0, 0x0, 0x0, 0x0, false, true, 3⟩,
   ⟨0xC1010, 3, 0x20, 0x0, 0x0, 0x0, 0x0, false, true, 3⟩,
   ⟨0xC1014, 3, 0x20, 0x0, 0x0, 0x0, 0x0, false, true, 3⟩,
   ⟨0xC1100, 8, 0x20, 0xFFFFFF, 0x0, 0x0, 0x0, true, false, 8⟩,
   ⟨0xC1104, 8, 0x20, 0x0, 0x40000000, 0x0, 0x80000000, false, false, 8⟩,
   ⟨0xC1108, 8, 0x20, 0x0, 0x0, 0x1, 0x0, false, false, 8⟩,
   ⟨0xC110C, 8, 0x20, 0x0, 0x0, 0x0, 0x0, false, true, 8⟩,
   ⟨0xC1110, 8, 0x20, 0x0, 0x0, 0x0, 0x0, false, true, 8⟩]
def regsNet3 : List RegRow :=
  [⟨0xC1114, 8, 0x20, 0x0, 0x0, 0x0, 0x0, false, true, 8⟩,
   ⟨0xC5000, 3, 0x20, 0xFFFFFF, 0x0, 0x0, 0x0, true, false, 3⟩,
   ⟨0xC5004, 3, 0x20, 0x0, 0x40000000, 0x0, 0x80000000, false, false, 3⟩,
   ⟨0xC5008, 3, 0x20, 0x0, 0x0, 0x1, 0x0, false, false, 3⟩,
   ⟨0xC500C, 3, 0x20, 0x0, 0x0, 0x0, 0x0, false, true, 3⟩,
   ⟨0xC5010, 3, 0x20, 0x0, 0x0, 0x0, 0x0, false, true, 3⟩,
   ⟨0xC5014, 3, 0x20, 0x0, 0x0, 0x0, 0x0, false, true, 3⟩,
   ⟨0xC5100, 8, 0x20, 0xFFFFFF, 0x0, 0x0, 0x0, true, false, 8⟩,
   ⟨0xC5104, 8, 0x20, 0x0, 0x40000000, 0x0, 0x80000000, false, false, 8⟩,
   ⟨0xC5108, 8, 0x20, 0x0, 0x0, 0x1, 0x0, false, false, 8⟩,
   ⟨0xC510C, 8, 0x20, 0x0, 0x0, 0x0, 0x0, false, true, 8⟩,
   ⟨0xC5110, 8, 0x20, 0x0, 0x0, 0x0, 0x0, false, true, 8⟩,
   ⟨0xC5114, 8, 0x20, 0x0, 0x0, 0x0, 0x0, false, true, 8⟩,
   ⟨0xC9000, 3, 0x20, 0xFFFFFF, 0x0, 0x0, 0x0, true, false, 3⟩,
   ⟨0xC9004, 3, 0x20, 0x0, 0x40000000, 0x0, 0x80000000, false, false, 3⟩,
   ⟨0xC9008, 3, 0x20, 0x0, 0x0, 0x1, 0x0, false, false, 3⟩,
   ⟨0xC900C, 3, 0x20, 0x0, 0x0, 0x0, 0x0, false, true, 3⟩,
   ⟨0xC9010, 3, 0x20, 0x0, 0x0, 0x0, 0x0, false, true, 3⟩,
   ⟨0xC9014, 3, 0x20, 0x0, 0x0, 0x0, 0x0, false, true, 3⟩,
   ⟨0xC9100, 8, 0x20, 0xFFFFFF, 0x0, 0x0, 0x0, true, false, 8⟩,
   ⟨0xC9104, 8, 0x20, 0x0, 0x40000000, 0x0, 0x80000000, false, false, 8⟩,
   ⟨0xC9108, 8, 0x20, 0x0, 0x0, 0x1, 0x0, false, false, 8⟩,
   ⟨0xC910C, 8, 0x20, 0x0, 0x0, 0x0, 0x0, false, true, 8⟩,
   ⟨0xC9110, 8, 0x20, 0x0, 0x0, 0x0, 0x0, false, true, 8⟩,
   ⟨0xC9114, 8, 0x20, 0x0, 0x0, 0x0, 0x0, false, true, 8⟩,
   ⟨0xCD000, 3, 0x20, 0xFFFFFF, 0x0, 0x0, 0x0, true, false, 3⟩,
   ⟨0xCD004, 3, 0x20, 0x0, 0x40000000, 0x0, 0x80000000, false, false, 3⟩,
   ⟨0xCD008, 3, 0x20, 0x0, 0x0, 0x1, 0x0, false, false, 3⟩,
   ⟨0xCD00C, 3, 0x20, 0x0, 0x0, 0x0, 0x0, false, true, 3⟩,
   ⟨0xCD010, 3, 0x20, 0x0, 0x0, 0x0, 0x0, false, true, 3⟩]
def regsNet4 : List RegRow :=
  [⟨0xCD014, 3, 0x20, 0x0, 0x0, 0x0, 0x0, false, true, 3⟩,
   ⟨0xCD100, 8, 0x20, 0xFFFFFF, 0x0, 0x0, 0x0, true, false, 8⟩,
   ⟨0xCD104, 8, 0x20, 0x0, 0x40000000, 0x0, 0x80000000, false, false, 8⟩,
   ⟨0xCD108, 8, 0x20, 0x0, 0x0, 0x1, 0x0, false, false, 8⟩,
   ⟨0xCD10C, 8, 0x20, 0x0, 0x0, 0x0, 0x0, false, true, 8⟩,
   ⟨0xCD110, 8, 0x20, 0x0, 0x0, 0x0, 0x0, false, true, 8⟩,
   ⟨0xCD114, 8, 0x20, 0x0, 0x0, 0x0, 0x0, false, true, 8⟩]
/-- Window NET_. -/
def regsNet : List RegRow := regsNet0 ++ regsNet1 ++ regsNet2 ++ regsNet3 ++ regsNet4

def regsTim0 : List RegRow :=
  [⟨0xD0000, 1, 0x4, 0xF83FF, 0x0, 0x0, 0x7D, true, false, 1⟩,
   ⟨0xD0004, 1, 0x4, 0x0, 0x6, 0x0, 0x0, false, false, 1⟩,
   ⟨0xD0008, 3, 0x4, 0x0, 0x0, 0x0, 0x0, false, false, 3⟩,
   ⟨0xD0014, 1, 0x4, 0xFFFFFFFF, 0x0, 0x0, 0x0, false, false, 1⟩,
   ⟨0xD0018, 1, 0x4, 0xFFFFFFFF, 0x0, 0x0, 0x2, false, false, 1⟩,
   ⟨0xD001C, 2, 0x4, 0xFFFFFFFF, 0x0, 0x0, 0x0, false, false, 2⟩,
   ⟨0xD0024, 1, 0x4, 0x0, 0x0, 0x1, 0x0, false, false, 1⟩,
   ⟨0xD0028, 2, 0x4, 0x0, 0x0, 0x0, 0x0, false, false, 2⟩,
   ⟨0xD0030, 1, 0x4, 0xFFC00000, 0x0, 0x0, 0x19000000, true, false, 1⟩,
   ⟨0xD0034, 1, 0x4, 0xFFFFFFFF, 0x0, 0x0, 0x0, true, false, 1⟩,
   ⟨0xD0040, 4, 0x4, 0xFFFFFFFF, 0x0, 0x0, 0x0, true, false, 4⟩,
   ⟨0xD0100, 8, 0x10, 0xFFFFFFFF, 0x0, 0x0, 0x10000, true, false, 8⟩,
   ⟨0xD0104, 8, 0x10, 0xFFFFFFFF, 0x0, 0x0, 0x0, true, false, 8⟩,
   ⟨0xD0108, 8, 0x10, 0xFFFFFFFF, 0x0, 0x0, 0x0, true, false, 8⟩,
   ⟨0xD010C, 8, 0x10, 0xFFFFFFFF, 0x0, 0x0, 0x0, true, false, 8⟩,
   ⟨0xD0200, 4, 0x4, 0x0, 0x0, 0x0, 0x0, false, true, 4⟩,
   ⟨0xD8000, 256, 0x20, 0x0, 0x0, 0x0, 0x0, false, false, 1⟩,
   ⟨0xD8004, 256, 0x20, 0x0, 0x0, 0x0, 0x0, false, true, 0⟩,
   ⟨0xD8008, 256, 0x20, 0x0, 0x0, 0x0, 0x0, false, true, 0⟩,
   ⟨0xD800C, 256, 0x20, 0x0, 0x0, 0x0, 0x0, false, true, 0⟩,
   ⟨0xD8010, 256, 0x20, 0x0, 0x0, 0x0, 0x0, false, true, 0⟩,
   ⟨0xD8014, 256, 0x20, 0x0, 0x0, 0x0, 0x0, false, true, 0⟩,
   ⟨0xD8018, 256, 0x20, 0x0, 0x0, 0x0, 0x0, false, true, 0⟩,
   ⟨0xD801C, 256, 0x20, 0x0, 0x0, 0x0, 0x0, false, true, 0⟩]
/-- Window TIM_. -/
def regsTim : List RegRow := regsTim0

def regsMnt0 : List RegRow :=
  [⟨0xE0000, 1, 0x4, 0x1F7F, 0x0, 0x0, 0x1F, true, false, 1⟩,
   ⟨0xE0004, 1, 0x4, 0x0, 0x10000, 0x0, 0xFF00, false, false, 1⟩,
   ⟨0xE0008, 1, 0x4, 0x1, 0x0, 0x0, 0x0, false, false, 1⟩,
   ⟨0xE000C, 1, 0x4, 0x7F, 0x0, 0x0, 0x14, true, false, 1⟩,
   ⟨0xE0010, 1, 0x4, 0x7F, 0x0, 0x0, 0x32, true, false, 1⟩,
   ⟨0xE0014, 1, 0x4, 0x3FF, 0x0, 0x0, 0x64, true, false, 1⟩,
   ⟨0xE0018, 1, 0x4, 0xFFFF, 0x0, 0x0, 0xA, true, false, 1⟩,
   ⟨0xE001C, 1, 0x4, 0xFFFF, 0x0, 0x0, 0x1E, true, false, 1⟩,
   ⟨0xE0020, 1, 0x4, 0xFFFF, 0x0, 0x0, 0x12C, true, false, 1⟩,
   ⟨0xE0024, 1, 0x4, 0xFFFFF, 0x0, 0x0, 0x3E8, true, false, 1⟩,
   ⟨0xE0028, 1, 0x4, 0xFFFFF, 0x0, 0x0, 0x3E8, true, false, 1⟩,
   ⟨0xE002C, 1, 0x4, 0xFFFFF, 0x0, 0x0, 0x64, true, false, 1⟩,
   ⟨0xE0030, 1, 0x4, 0xFFFFF, 0x0, 0x0, 0x32, true, false, 1⟩,
   ⟨0xE0034, 1, 0x4, 0xFFFFF, 0x0, 0x0, 0x4E20, true, false, 1⟩,
   ⟨0xE0040, 3, 0x4, 0x0, 0x0, 0x0, 0x0, false, false, 3⟩,
   ⟨0xE0100, 11, 0x4, 0x3F9F, 0x0, 0x0, 0x0, true, false, 11⟩,
   ⟨0xE0180, 11, 0x4, 0x0, 0x0, 0x0, 0x0, false, false, 11⟩,
   ⟨0xE0200, 4, 0x4, 0x0, 0x0, 0x0, 0x0, false, true, 4⟩]
/-- Window MNT_. -/
def regsMnt : List RegRow := regsMnt0

def regsTdm0 : List RegRow :=
  [⟨0xF0000, 16, 0x800, 0xFFC007FF, 0x0, 0x0, 0x8000100, true, false, 16⟩,
   ⟨0xF0004, 16, 0x800, 0xFFFF, 0x0, 0x0, 0x1, true, false, 16⟩,
   ⟨0xF0008, 16, 0x800, 0xFFFFFF, 0x0, 0x0, 0x8, true, false, 16⟩,
   ⟨0xF000C, 16, 0x800, 0x3FFF0FFF, 0x0, 0x0, 0x30000000, true, false, 16⟩,
   ⟨0xF0010, 16, 0x800, 0xFFFFFFFF, 0x0, 0x0, 0x0, true, false, 16⟩,
   ⟨0xF0014, 16, 0x800, 0xFFFFFFFF, 0x0, 0x0, 0x0, true, false, 16⟩,
   ⟨0xF0018, 16, 0x800, 0x0, 0x0, 0x0, 0x0, false, false, 16⟩,
   ⟨0xF001C, 16, 0x800, 0x0, 0x0, 0x0, 0x0, false, false, 16⟩,
   ⟨0xF0020, 16, 0x800, 0x0, 0xE0000000, 0x0, 0x0, false, false, 16⟩,
   ⟨0xF0024, 16, 0x800, 0x0, 0x0, 0x0, 0x0, false, false, 16⟩,
   ⟨0xF0030, 16, 0x800, 0xC00000FF, 0x0, 0x0, 0x0, true, false, 16⟩,
   ⟨0xF0034, 16, 0x800, 0x7FFFFFF, 0x0, 0x0, 0x0, true, false, 16⟩,
   ⟨0xF0038, 16, 0x800, 0x7FFFFFF, 0x0, 0x0, 0x0, true, false, 16⟩,
   ⟨0xF003C, 16, 0x800, 0x0, 0x0, 0x0, 0x0, false, false, 16⟩,
   ⟨0xF0100, 16, 0x800, 0xFFFFFF, 0x0, 0x0, 0x0, true, false, 16⟩,
   ⟨0xF0104, 16, 0x800, 0x0, 0x40000000, 0x0, 0x80000000, false, false, 16⟩,
   ⟨0xF0108, 16, 0x800, 0x0, 0x0, 0x1, 0x0, false, false, 16⟩,
   ⟨0xF010C, 16, 0x800, 0x0, 0x0, 0x0, 0x0, false, true, 16⟩,
   ⟨0xF0110, 16, 0x800, 0x0, 0x0, 0x0, 0x0, false, true, 16⟩,
   ⟨0xF0114, 16, 0x800, 0x0, 0x0, 0x0, 0x0, false, true, 16⟩,
   ⟨0xF0120, 16, 0x800, 0xFFFFFF, 0x0, 0x0, 0x0, true, false, 16⟩,
   ⟨0xF0124, 16, 0x800, 0x0, 0x40000000, 0x0, 0x80000000, false, false, 16⟩,
   ⟨0xF0128, 16, 0x800, 0x0, 0x0, 0x1, 0x0, false, false, 16⟩,
   ⟨0xF012C, 16, 0x800, 0x0, 0x0, 0x0, 0x0, false, true, 16⟩,
   ⟨0xF0130, 16, 0x800, 0x0, 0x0, 0x0, 0x0, false, true, 16⟩,
   ⟨0xF0134, 16, 0x800, 0x0, 0x0, 0x0, 0x0, false, true, 16⟩,
   ⟨0xF0200, 16, 0x800, 0x0, 0x0, 0x0, 0x0, false, true, 16⟩,
   ⟨0xF0204, 16, 0x800, 0x0, 0x0, 0x0, 0x0, false, true, 16⟩,
   ⟨0xF0208, 16, 0x800, 0x0, 0x0, 0x0, 0x0, false, true, 16⟩]
/-- Window TDM_. -/
def regsTdm : List RegRow := regsTdm0

def regsOps0 : List RegRow :=
  [⟨0xF8000, 1, 0x4, 0x80FFFF1F, 0x0, 0x0, 0x19, true, false, 1⟩,
   ⟨0xF8010, 8, 0x4, 0x0, 0x0, 0x0, 0x0, false, false, 8⟩,
   ⟨0xF8100, 2, 0x4, 0x0, 0x0, 0x0, 0x0, false, true, 2⟩]
/-- Window OPS_. -/
def regsOps : List RegRow := regsOps0

def regsLnk0 : List RegRow :=
  [⟨0x100000, 1, 0x4, 0x1F, 0x0, 0x0, 0x0, true, false, 1⟩,
   ⟨0x100004, 1, 0x4, 0x0, 0x80000000, 0x0, 0x1F, false, false, 1⟩,
   ⟨0x100008, 1, 0x4, 0x0, 0x0, 0x0, 0x0, false, false, 1⟩,
   ⟨0x10000C, 1, 0x4, 0x7FF0FFF, 0x0, 0x0, 0x0, true, false, 1⟩,
   ⟨0x100010, 1, 0x4, 0x30000FFF, 0x0, 0x0, 0x10000000, true, false, 1⟩,
   ⟨0x100014, 1, 0x4, 0x0, 0x0, 0x0, 0x0, false, false, 1⟩,
   ⟨0x100018, 1, 0x4, 0x0, 0x0, 0x3, 0x0, false, false, 1⟩,
   ⟨0x100020, 1, 0x4, 0x0, 0x0, 0x0, 0x0, false, false, 1⟩,
   ⟨0x100030, 2, 0x8, 0xFFFFF000, 0x0, 0x0, 0x0, true, false, 2⟩,
   ⟨0x100034, 2, 0x8, 0xFFFFFFFF, 0x0, 0x0, 0x0, true, false, 2⟩,
   ⟨0x100100, 2, 0x40, 0x1, 0x0, 0x0, 0x0, true, false, 2⟩,
   ⟨0x100104, 2, 0x40, 0x0, 0x0, 0x0, 0x0, false, false, 2⟩,
   ⟨0x100200, 4, 0x20, 0xFFFFFF, 0x0, 0x0, 0x0, true, false, 4⟩,
   ⟨0x100204, 4, 0x20, 0x0, 0x40000000, 0x0, 0x80000000, false, false, 4⟩,
   ⟨0x100208, 4, 0x20, 0x0, 0x0, 0x1, 0x0, false, false, 4⟩,
   ⟨0x10020C, 4, 0x20, 0x0, 0x0, 0x0, 0x0, false, true, 4⟩,
   ⟨0x100210, 4, 0x20, 0x0, 0x0, 0x0, 0x0, false, true, 4⟩,
   ⟨0x100214, 4, 0x20, 0x0, 0x0, 0x0, 0x0, false, true, 4⟩,
   ⟨0x100300, 8, 0x4, 0x0, 0x0, 0x0, 0x0, false, true, 8⟩,
   ⟨0x101000, 512, 0x4, 0x80001FFF, 0x0, 0x0, 0x0, true, false, 1⟩]
/-- Window LNK_. -/
def regsLnk : List RegRow := regsLnk0

def regsIcu0 : List RegRow :=
  [⟨0x110100, 8, 0x10, 0x0, 0x0, 0x0, 0x0, false, false, 8⟩,
   ⟨0x110104, 8, 0x10, 0xFFFFFFFF, 0x0, 0x0, 0x0, false, false, 8⟩,
   ⟨0x110108, 8, 0x10, 0xFFFFFFFF, 0x0, 0x0, 0x0, false, false, 8⟩,
   ⟨0x110200, 11, 0x4, 0x0, 0x0, 0x0, 0x0, false, true, 11⟩]
/-- Window ICU_. -/
def regsIcu : List RegRow := regsIcu0

def regsVig0 : List RegRow :=
  [⟨0x120000, 1, 0x4, 0xFF001F, 0x0, 0x0, 0x1F, true, false, 1⟩,
   ⟨0x120004, 1, 0x4, 0xFF, 0x0, 0x0, 0x4, true, false, 1⟩,
   ⟨0x120008, 1, 0x4, 0xFFFF, 0x0, 0x0, 0x3E8, true, false, 1⟩,
   ⟨0x12000C, 2, 0x4, 0x0, 0x0, 0x0, 0x0, false, false, 2⟩,
   ⟨0x120040, 16, 0x4, 0x0, 0x0, 0x0, 0x0, false, false, 16⟩,
   ⟨0x120100, 9, 0x4, 0x0, 0x0, 0x0, 0x0, false, true, 9⟩,
   ⟨0x120800, 1, 0x4, 0x1FFFFF, 0x0, 0x0, 0xBB8, true, false, 1⟩,
   ⟨0x120804, 3, 0x4, 0x0, 0x0, 0x0, 0x0, false, false, 3⟩,
   ⟨0x120810, 2, 0x4, 0xFFFFFFFF, 0x0, 0x0, 0x0, true, false, 2⟩,
   ⟨0x120900, 2, 0x4, 0x0, 0x0, 0x0, 0x0, false, true, 2⟩]
/-- Window VIG_. -/
def regsVig : List RegRow := regsVig0

def regsPwr0 : List RegRow :=
  [⟨0x130000, 1, 0x4, 0x0, 0x0, 0x0, 0x3, false, false, 1⟩,
   ⟨0x130004, 1, 0x4, 0x0, 0x0, 0x0, 0x12C0, false, false, 1⟩,
   ⟨0x130008, 1, 0x4, 0x0, 0x0, 0x0, 0x0, false, false, 1⟩,
   ⟨0x13000C, 1, 0x4, 0x0, 0x0, 0x0, 0x1, false, false, 1⟩]
/-- Window PWR_. -/
def regsPwr : List RegRow := regsPwr0

def regsSec0 : List RegRow :=
  [⟨0x140000, 1, 0x4, 0x0, 0x0, 0x0, 0x4040, false, false, 1⟩,
   ⟨0x140004, 1, 0x4, 0x3, 0x0, 0x0, 0x2, true, false, 1⟩,
   ⟨0x140008, 3, 0x4, 0x0, 0x0, 0x0, 0x0, false, false, 3⟩,
   ⟨0x140040, 1, 0x4, 0x0, 0x0, 0x0, 0x0, false, true, 1⟩,
   ⟨0x140100, 12, 0x4, 0x0, 0x0, 0x0, 0x0, false, false, 12⟩,
   ⟨0x140200, 24, 0x4, 0x0, 0x0, 0x0, 0x0, false, false, 24⟩,
   ⟨0x140300, 24, 0x4, 0x0, 0x0, 0x0, 0x0, false, false, 24⟩,
   ⟨0x141000, 1024, 0x4, 0x0, 0x0, 0x0, 0x0, false, false, 1⟩,
   ⟨0x142000, 1024, 0x4, 0x0, 0x0, 0x0, 0x0, false, false, 1⟩]
/-- Window SEC_. -/
def regsSec : List RegRow := regsSec0

/-- The five registers of core `k` of cluster `c`, at c × 0x1000 + k × 0x40 (window LAN_): the 128 cores. -/
def regsCore : List RegRow :=
  ((List.range 16).map (fun c => (List.range 8).map (fun k =>
    let b := 0x60000 + c * 0x1000 + k * 0x40
    [⟨b, 1, 4, 0, 0, 0, 0, false, false, 1⟩, ⟨b + 4, 1, 4, 0, 0x80000000, 0, 0, false, false, 1⟩,
     ⟨b + 8, 3, 4, 0, 0, 0, 0, false, false, 3⟩]))).flatten.flatten

/-- A window of BAR0 (R437): first and last offset, peripheral bridge, the registers it counts, and its map. -/
structure Window where
  first : Nat
  last : Nat
  bridge : Nat
  count : Nat
  rows : List RegRow
  deriving DecidableEq, Repr

/-- The 21 windows of R437. -/
def windows : List Window :=
  [⟨0x0, 0xFFFF, 0, 18, regsMgt⟩,
   ⟨0x10000, 0x1FFFF, 0, 20, regsHif⟩,
   ⟨0x20000, 0x2FFFF, 0, 7, regsInt⟩,
   ⟨0x30000, 0x3FFFF, 0, 21, regsMtx⟩,
   ⟨0x40000, 0x4FFFF, 0, 7, regsDmc⟩,
   ⟨0x50000, 0x5FFFF, 0, 43, regsWck⟩,
   ⟨0x60000, 0x7FFFF, 0, 826, regsLan ++ regsCore⟩,
   ⟨0x80000, 0x8FFFF, 1, 25, regsRnd⟩,
   ⟨0x90000, 0x9FFFF, 1, 12, regsCnv⟩,
   ⟨0xA0000, 0xAFFFF, 1, 14, regsMix⟩,
   ⟨0xB0000, 0xBFFFF, 1, 38, regsVox⟩,
   ⟨0xC0000, 0xCFFFF, 1, 691, regsNet⟩,
   ⟨0xD0000, 0xDFFFF, 1, 55, regsTim⟩,
   ⟨0xE0000, 0xEFFFF, 1, 43, regsMnt⟩,
   ⟨0xF0000, 0xF7FFF, 1, 464, regsTdm⟩,
   ⟨0xF8000, 0xFFFFF, 1, 11, regsOps⟩,
   ⟨0x100000, 0x10FFFF, 1, 49, regsLnk⟩,
   ⟨0x110000, 0x11FFFF, 1, 35, regsIcu⟩,
   ⟨0x120000, 0x12FFFF, 1, 38, regsVig⟩,
   ⟨0x130000, 0x13FFFF, 1, 4, regsPwr⟩,
   ⟨0x140000, 0x14FFFF, 1, 68, regsSec⟩]

/-- The row that holds an offset. -/
def RegRow.holds (r : RegRow) (off : Nat) : Bool :=
  r.base ≤ off && (off - r.base) % r.stride == 0 && decide ((off - r.base) / r.stride < r.count)

/-- The window of an offset; none outside every window (R9, R437). -/
def windowOf (off : Nat) : Option Window := windows.find? (fun w => w.first ≤ off && off ≤ w.last)

/-- The map row of a register; none where no register lies (R9). -/
def regRow (off : Nat) : Option RegRow :=
  match windowOf off with
  | none => none
  | some w => w.rows.find? (fun r => r.holds off)

/-- What a register resets to (R447). -/
def regReset (off : Nat) : Word :=
  match regRow off with
  | none => 0
  | some r => BitVec.ofNat 32 r.reset

/-- The counters of R71, in ascending offset within each window. -/
def counterRows : List RegRow := (windows.map (fun w => w.rows.filter (fun r => r.counter))).flatten

/-- The register file: every register at its reset value unless listed. -/
abbrev RegFile := Cells Word

end Sys2Proof.Machine
end

