-- ==== Sys2Proof/Machine/State.lean ====
section
/-!
DEFINITION. Machine/State.lean: everything the spec gives the module, as plain data. Every software-visible register
is held once, in the register file `regs` (keyed by BAR0 offset, R437), unless its map says it reports live state; what
a live register reports stands in the structures below and Machine/Ops.lean computes the register from it.
-/
namespace Sys2Proof.Machine

/-- Why a step stops. No command of this block stops the module: the type has one constructor, kept closed. -/
inductive Fault where
  /-- Raised by no meaning: the module has no stop of its own (safe). -/
  | never
  deriving DecidableEq, Repr

/-- Why a command is refused by the model. -/
inductive Refusal where
  /-- The command has no meaning yet (Machine/Dispatch.lean raises it; safe: nothing is claimed of the command). -/
  | notModelled (mnemonic : String)
  deriving DecidableEq, Repr

/-! ### Host interface (chapter Host Interface and Descriptor Rings) -/

/-- One posted write the module has issued towards the host, in the order of R33. -/
inductive HostWrite where
  | mem (addr : Nat) (bytes : List Byte)
  /-- A message of a vector: the address and the data of its table entry. -/
  | msix (vector : Nat) (addr : DWord) (data : Word)
  deriving DecidableEq, Repr

/-- Ring states of R218. -/
inductive RingState where
  | disabled | running | stopping | stopped | error
  deriving DecidableEq, Repr

/-- How far an outstanding descriptor has come (R211, R223, R224). -/
inductive Phase where
  /-- Fetched and sealed; its engine has not accepted it. -/
  | fetched
  /-- Accepted by its engine, before its commit point. -/
  | accepted
  /-- Past its commit point. -/
  | committed
  /-- Ended: status, flags, stamp and RESULT of the completion it will write. -/
  | done (status flags time : Nat) (result : Option Word)
  deriving DecidableEq, Repr

/-- An outstanding descriptor: its free-running index, words 0 to 6 (R206), and the chain peer that sent it as a remote command (R362). -/
structure Desc where
  index : Nat
  w0 : Word
  w1 : Word
  w2 : Word
  w3 : Word
  w4 : Word
  w5 : Word
  w6 : Word
  peer : Option Nat
  phase : Phase
  deriving DecidableEq, Repr

/-- A device-to-host entry before it is written (R216), with the payload that lies beside the ring (R386, R400). -/
structure D2h where
  code : Nat
  flags : Nat
  bits : Nat
  w1 : Word
  w2 : Word
  w3 : Word
  time : Nat
  payload : List Byte
  deriving DecidableEq, Repr

/-- One ring: what HIF_RING_STATE reports and the indices of R210, R215 and R216. -/
structure Ring where
  state : RingState
  doorIndex : Nat
  notifyOff : Bool
  paused : Bool
  stalled : Bool
  fetched : Nat
  cons : Nat
  wr : Nat
  seq : Nat
  lost : Bool
  errCause : Nat
  stopIndex : Nat
  /-- Index on ring 0 of the RING_STOP that waits for this ring (R220). -/
  stopCmd : Option Nat
  lastStamp : Nat
  /-- Lives of the ring: a descriptor of an earlier one never answers to an index of this one (R203). -/
  epoch : Nat
  descs : List Desc
  waiting : List D2h
  deriving DecidableEq, Repr

/-- A ring as reset leaves it: DISABLED (R203, R218). -/
def Ring.empty : Ring :=
  { state := .disabled, doorIndex := 0, notifyOff := false, paused := false, stalled := false, fetched := 0,
    cons := 0, wr := 0, seq := 1, lost := false, errCause := 0, stopIndex := 0, stopCmd := none, lastStamp := 0, epoch := 0, descs := [],
    waiting := [] }

/-- The host interface beside its registers and rings. -/
structure HostIf where
  linkWidth : Nat
  linkSpeed : Nat
  bme : Bool
  msixEnable : Bool
  vecMask : DWord
  vecPend : DWord
  /-- The MSI-X table in BAR2: address and data of each vector (R201). -/
  msixTab : Cells (DWord × Word)
  /-- Messages due while the endpoint can issue no request (R203). -/
  dueMsi : DWord
  /-- Stamp of the last record of each interrupt source (R31). -/
  evStamp : Cells Nat
  /-- Per source: the TIME64 at which its running holdoff ends (R221); 0 when none runs. -/
  holdUntil : Cells Nat
  /-- Sources with a firing held by a holdoff. -/
  held : DWord
  /-- FIRED of the status page: sources fired since the last status page write (R217). -/
  fired : DWord
  writeSeq : Nat
  lastPage : Nat
  pageFails : Nat
  /-- ABORTs that wait for their target's completion: index on ring 0, target ring, target index, status to come (R223). -/
  lateAborts : List (Nat × Nat × Nat × Nat)
  /-- HOST_RESET entry owed at the first poll (R216): word 1. -/
  hostReset : Option Nat
  /-- Ring 1 entries (bytes 0 to 27, PHASE not yet set) waiting for room (R214). -/
  wait1 : List (List Byte)
  /-- Writes issued, oldest first. -/
  out : List HostWrite
  /-- The last BAR0 read a command of the table made: offset and value. -/
  lastRead : Option (Nat × Word)
  deriving DecidableEq, Repr

/-- The host interface as reset leaves it. -/
def HostIf.empty : HostIf :=
  { linkWidth := 0, linkSpeed := 0, bme := false, msixEnable := false, vecMask := BitVec.allOnes 64, vecPend := 0,
    msixTab := [], dueMsi := 0, evStamp := [], holdUntil := [], held := 0, fired := 0, writeSeq := 0, lastPage := 0, pageFails := 0, lateAborts := [],
    hostReset := none, wait1 := [], out := [], lastRead := none }

/-! ### Audit log (chapter Integrity, Security and the Audit Log) -/

/-- An entry of a change that has acted and waits for space. -/
structure LateEntry where
  time : Nat
  origin : Nat
  kind : Nat
  flags : Nat
  target : Word
  old : Word
  new : Word
  deriving DecidableEq, Repr

/-- The audit buffer and chain (R383 to R388). Entries not yet mirrored wait on ring 3. -/
structure Audit where
  index : Nat
  hash : Nat
  reserved : Nat
  /-- Checkpoints owed: INDEX, TIME and HASH of the entry (R385). -/
  owed : List (Nat × Nat × Nat)
  /-- Commands whose change waits for space (R387), in the order they stalled. -/
  waiting : List Instr
  /-- Time of the newest entry. -/
  lastTime : Nat
  late : List LateEntry
  deriving DecidableEq, Repr

def Audit.empty : Audit :=
  { index := 0, hash := 0, reserved := 0, owed := [], waiting := [], lastTime := 0, late := [] }

/-! ### Planes, frames and control actions (chapter Architecture) -/

/-- A timed ring 0 request waiting for its boundary F (R20, R23): T, and the acceptance instant and frame. -/
structure Req where
  index : Nat
  time : Nat
  accTime : Nat
  accFrame : Nat
  accOnTick : Bool
  deriving DecidableEq, Repr

/-- One of the two planes with a start and a stop (R23). -/
structure PlaneSt where
  run : Bool
  /-- Render frames since the plane started; frame 0 opens at F. -/
  frame : Nat
  start : Option Req
  stop : Option Req
  /-- While stopping: the frame tick (by its count) at which the planes stop, and the command's index on ring 0. -/
  rampEnd : Option (Nat × Nat)
  deriving DecidableEq, Repr

def PlaneSt.empty : PlaneSt := { run := false, frame := 0, start := none, stop := none, rampEnd := none }

/-- A control action accepted and not yet executed (R20, R21, R24). -/
structure CtlAct where
  target : Nat
  action : Nat
  arg : Nat
  req : Req
  moves : Nat
  /-- ORIGIN of R384: 0 host, 1 firmware, 4 Vigil; and for the last two the test of `VigilTest` that follows a removal. -/
  origin : Nat
  test : Nat
  /-- Accepted: space for its audit entry is reserved (R19, R387). -/
  reserved : Bool
  deriving DecidableEq, Repr

/-- The render frame tick (R30, R36). -/
structure Ticks where
  count : Nat
  last : Nat
  prev : Nat
  /-- Ticks captured at the present render rate, up to 2. -/
  captured : Nat
  /-- The ticks before the last, newest first: the instant captured, and the interval to the tick before it where the samples of the
  frame take their period from it. -/
  past : List (Nat × Option Nat)
  /-- A TIME64 step fell since the last captured tick. -/
  stepped : Bool
  deriving DecidableEq, Repr

/-- A mode write accepted and not yet in effect: register, value, ORIGIN and ORIGIN_ID (R384). -/
structure ModeWrite where
  off : Nat
  v : Word
  origin : Nat
  originId : Nat
  req : Req
  deriving DecidableEq, Repr

/-- Planes, control actions and blocks held out of service. -/
structure Mgt where
  modState : Nat
  render : PlaneSt
  voice : PlaneSt
  tick : Ticks
  ctl : List CtlAct
  /-- TARGET codes of R24 held out of service, by whom (ORIGIN). -/
  out : Cells Nat
  /-- The plane split in force since the last start (R15). -/
  split : Nat
  /-- META_SRC, port, MAC or link mode writes waiting for their boundary (R20, R23). -/
  modeWrites : List ModeWrite
  deriving DecidableEq, Repr

def Mgt.empty : Mgt :=
  { modState := 3, render := .empty, voice := .empty,
    tick := { count := 0, last := 0, prev := 0, captured := 0, past := [], stepped := false },
    ctl := [], out := [], split := 12, modeWrites := [] }

/-- What a per-frame interrupt source has gathered in the present frame (R371, R452): the first event's instant and
words, and the number of events. -/
structure FrameEv where
  time : Nat
  w1 : Nat
  w2 : Nat
  w3 : Nat
  count : Nat
  deriving DecidableEq, Repr

/-- What source 53 has gathered in the present frame (R452). -/
structure RenderEv where
  time : Nat
  bits : Nat
  late : Nat
  shed : Nat
  deriving DecidableEq, Repr

/-- The straps as last sampled (R413). -/
structure Straps where
  head : Bool
  boot : Nat
  addr : Nat
  deriving DecidableEq, Repr

/-- The time counter (R281 to R283): nanoseconds and 32 bits of fraction. -/
structure Counter where
  acc : Nat
  /-- The held TIM_INCR_FRAC (R282). -/
  heldFrac : Nat
  /-- The committed increment as 32.32 ns. -/
  incr : Nat
  /-- Ticks of CK_TIME since reset, for what is counted in ticks. -/
  ticks : Nat
  deriving DecidableEq, Repr

def Counter.empty : Counter := { acc := 0, heldFrac := 0, incr := 2 * 2 ^ 32, ticks := 0 }

/-! ### Sample blocks (R364 to R366) -/

/-- One channel's 32 samples of one render frame, with the flags and plane of its sidecar (R366). -/
structure Block where
  samples : List Int
  flags : Nat
  plane : Nat
  deriving DecidableEq, Repr

/-- Where a consumer stands in the concealment sequence of R61. -/
structure Conceal where
  run : Nat
  last : List Int
  deriving DecidableEq, Repr

def Conceal.start : Conceal := { run := 0, last := [] }

/-- The two banks of a safe-load domain (R105): the one the stages use, and the inactive one. -/
structure Banks (α : Type) where
  live : α
  idle : α
  deriving DecidableEq, Repr

/-! ### Object rendering -/

/-- One trajectory state of an object (R42), gain linear. -/
structure ObjState where
  time : Nat
  x : Int
  y : Int
  z : Int
  gain : F32
  size : F32
  law : Nat
  rolloff : Nat
  radius : Nat
  force : Bool
  deriving DecidableEq, Repr

/-- How a path stands in its fade (R56): k of N frames done. -/
inductive Fade where
  | steady
  | entering (k n : Nat)
  | leaving (k n : Nat)
  deriving DecidableEq, Repr

/-- One path: its speaker and output, its delay in Q12.20 and gain in Q2.30 at E_start and E_end of the last block
(R53, R54, R63), and its E_end gain before the fade. -/
structure Path where
  speaker : Nat
  out : Nat
  d0 : Nat
  g0 : Int
  delay : Nat
  gain : Int
  base : F32
  fade : Fade
  deriving DecidableEq, Repr

/-- States of one direct form I section: x1, x2, y1, y2 (R103). -/
structure Biquad where
  x1 : Int
  x2 : Int
  y1 : Int
  y2 : Int
  deriving DecidableEq, Repr

def Biquad.zero : Biquad := { x1 := 0, x2 := 0, y1 := 0, y2 := 0 }

/-- Coefficients of one section (R103). -/
structure EqSection where
  bypass : Bool
  b0 : Int
  b1 : Int
  b2 : Int
  a1 : Int
  a2 : Int
  deriving DecidableEq, Repr

def EqSection.reset : EqSection := { bypass := true, b0 := 0, b1 := 0, b2 := 0, a1 := 0, a2 := 0 }

/-- An equaliser at work: states of its sections, and while a swap's crossfade runs the old sections with their own
states and the samples done (R104). -/
structure EqRun where
  states : List Biquad
  old : List EqSection
  oldStates : List Biquad
  done : Nat
  fading : Bool
  deriving DecidableEq, Repr

def EqRun.start : EqRun := { states := [], old := [], oldStates := [], done := 0, fading := false }

/-- A linear crossfade at work: where from, samples of the next block before it starts, samples done, length (R62, R111). -/
structure XFade where
  src : Nat
  wait : Nat
  done : Nat
  total : Nat
  deriving DecidableEq, Repr

/-- One object at work. -/
structure ObjRun where
  states : List ObjState
  cur : ObjState
  /-- Position, gain and size at the last E_end (R45). -/
  eval : Option (Vec × F32 × F32)
  /-- LAW of the anchor in the last block; none before the first rendered block (R47). -/
  law : Option Nat
  /-- A teleport (2) or law change (1) waits for pool slots (R57). -/
  deferred : Nat
  /-- Direction of the last block and the triangle of each of its directions (R50). -/
  prevDir : Option Vec
  tris : List (Option Nat)
  /-- Speaker gains of the last block (R50). -/
  prevGains : List (Nat × F32)
  active : List Path
  leaving : List Path
  /-- Differential line, newest sample first, at most 4,096 (R60). -/
  line : List Int
  /-- Bulk line, newest block first (R59). -/
  bulk : List Block
  bulkX : Option XFade
  feedX : Option XFade
  eq : EqRun
  conceal : Conceal
  /-- The block last written to the differential line was concealed (R61). -/
  concealed : Bool
  /-- Samples of the cold fade-in done; the fade-in is over at 32N (R72). -/
  coldDone : Nat
  cold : Bool
  enabled : Bool
  deriving DecidableEq, Repr

/-- An object's current values at reset (R42). -/
def ObjState.reset : ObjState :=
  { time := 0, x := 0, y := 0, z := 0, gain := F32.ofInt 1, size := .zero, law := 0, rolloff := 602, radius := 0,
    force := false }

def ObjRun.cold0 : ObjRun :=
  { states := [], cur := .reset, eval := none, law := none, deferred := 0, prevDir := none, tris := [],
    prevGains := [], active := [], leaving := [], line := [], bulk := [], bulkX := none, feedX := none, eq := .start,
    conceal := .start, concealed := false, coldDone := 0, cold := true, enabled := false }

/-- Settings of an object (TYPE 0x0001) and of the render banks (R48). -/
structure ObjCfg where
  enable : Bool
  prio : Nat
  setchg : Nat
  bulk : Nat
  deriving DecidableEq, Repr

def ObjCfg.reset : ObjCfg := { enable := false, prio := 0, setchg := 20, bulk := 0 }

/-- RENDER_OBJECTS: objects, and BULK_FRAMES of outputs. -/
structure RenderObjects where
  objs : Cells ObjCfg
  outs : Cells Nat
  deriving DecidableEq, Repr

/-- One speaker (TYPE 0x0011). -/
structure Speaker where
  x : Int
  y : Int
  z : Int
  aimX : Int
  aimY : Int
  aimZ : Int
  dirClass : Nat
  virt : Bool
  alignNs : Nat
  trim : Int
  deriving DecidableEq, Repr

def Speaker.reset : Speaker :=
  { x := 0, y := 0, z := 0, aimX := 0, aimY := 0, aimZ := 0, dirClass := 0, virt := false, alignNs := 0, trim := 0 }

/-- RENDER_GEOMETRY: speakers, triangles, directivity classes, and the SL registers by offset. -/
structure Geometry where
  speakers : Cells Speaker
  triangles : List (Nat × Nat × Nat)
  classes : Cells (List Nat)
  sl : Cells Word
  deriving DecidableEq, Repr

/-- A metadata descriptor fetched and not yet latched (R40): its records, each with its object and whether law, gain,
size, roll-off and radius are kept. -/
structure MetaRec where
  obj : Nat
  st : ObjState
  keepGain : Bool
  keepSize : Bool
  keepRolloff : Bool
  keepRadius : Bool
  /-- The 32 bytes of the record (R42), as the head broadcasts it (R349). -/
  raw : List Byte
  deriving DecidableEq, Repr

structure MetaDesc where
  ring : Nat
  index : Nat
  recs : List MetaRec
  /-- First rejection status met so far. -/
  status : Nat
  fetchedAt : Nat
  deriving DecidableEq, Repr

/-- The render engine. -/
structure Render where
  objects : Banks RenderObjects
  geometry : Banks Geometry
  runs : Cells ObjRun
  waiting : List MetaDesc
  /-- Output accumulator block n, by output (R64). -/
  acc : Cells Block
  /-- E_end of the block last rendered (R37). -/
  lastEnd : Nat
  /-- Paths held out after shedding: object and speaker (R68). -/
  heldOut : List (Nat × Nat)
  fail : Bool
  poolFull : Bool
  /-- An enabled object has not had its first block through its lines (RND_STATUS.COLD). -/
  cold : Bool
  /-- Path jobs of the last block (R68). -/
  jobs : Nat
  /-- RND_PATH_CAP (R66). -/
  cap : Nat
  /-- Where the reservation of R59 lies in DRAM; none before the first start. -/
  region : Option Nat
  deriving DecidableEq, Repr

/-! ### Room correction -/

/-- A room filter: identity where `taps` is empty (R79). -/
structure Filter where
  taps : List Int
  prio : Nat
  deriving DecidableEq, Repr

def Filter.identity : Filter := { taps := [], prio := 0 }

/-- One segment of an output (R73, R75). A spectrum of the FDL stands as the 2B input samples it is the transform of, oldest first, newest
spectrum first; none: zeroed (R87). The tail buffers of the live filter and, in a crossfade, of the old one hold the samples of the blocks to
come. -/
structure ConvSeg where
  fdl : List (Option (List Int))
  tail : List Int
  tailOld : List Int
  deriving DecidableEq, Repr

def ConvSeg.cold : ConvSeg := { fdl := [], tail := [], tailOld := [] }

/-- One output of the convolution sequencer. Segments A, B, C are 0, 1, 2. -/
structure ConvOut where
  live : Filter
  idle : Filter
  armed : Bool
  pending : Bool
  /-- Crossfade position 0 to 4,096 (R83); the old filter stands in the inactive bank. -/
  xfade : Option Nat
  /-- Segments shed for an overrun (R85). -/
  shed : List Nat
  /-- Segments whose tail ramps in the next block: segment, and whether it rises (R85, R86). -/
  ramping : List (Nat × Bool)
  /-- Restored segments: segment, and the block at which its next super-block's tail begins (R86). -/
  restoreAt : List (Nat × Nat)
  /-- Segments shed for a zeroed FDL spectrum (R87). -/
  fdlWait : List Nat
  /-- Segments with a failing filter spectrum: of the live filter (R87), and of the inactive bank. -/
  badSegs : List Nat
  badIdle : List Nat
  /-- Input line in Q5.27, newest first, 8,192 samples (R88). -/
  hist : List Int
  segs : List ConvSeg
  conceal : Conceal
  deriving DecidableEq, Repr

def ConvOut.reset : ConvOut :=
  { live := .identity, idle := .identity, armed := false, pending := false, xfade := none, shed := [],
    ramping := [], restoreAt := [], fdlWait := [], badSegs := [], badIdle := [], hist := [], segs := [], conceal := .start }

/-- A descriptor of rings 14 and 15 between its acceptance and its end (R81): 0 FLT_LOAD, 1 FLT_UNITY, 2 FLT_DISARM. -/
structure FltLoad where
  ring : Nat
  index : Nat
  kind : Nat
  out : Nat
  filter : Filter
  deriving DecidableEq, Repr

/-- The convolution sequencer. -/
structure Conv where
  outs : Cells ConvOut
  loads : List FltLoad
  cleanFrames : Nat
  /-- The staging buffers of rings 14 and 15 (R81, R88). -/
  staging : Cells (List Byte)
  /-- Where the reservation of R88 lies in DRAM; none before the first start. -/
  region : Option Nat
  /-- Shed segments in shedding order: output, segment (R85, R86). -/
  shedOrder : List (Nat × Nat)
  cold : Bool
  deriving DecidableEq, Repr

/-! ### Mixing and routing -/

/-- A gain point (R98, R99): Q4.28 gain, its target, and the ramp or wait in progress. -/
structure GainPt where
  g : Int
  target : Int
  inc : Int
  left : Nat
  pending : Bool
  waited : Nat
  prev : Int
  deriving DecidableEq, Repr

def GainPt.hold (g : Int) : GainPt := { g := g, target := g, inc := 0, left := 0, pending := false, waited := 0, prev := 0 }

structure Xpoint where
  bus : Nat
  slot : Nat
  gain : Int
  ramp : Nat
  deriving DecidableEq, Repr

structure BusCfg where
  plane : Nat
  gain : Int
  ramp : Nat
  zc : Nat
  deriving DecidableEq, Repr

def BusCfg.reset : BusCfg := { plane := 1, gain := 0, ramp := 20, zc := 20 }

/-- The record of an egress channel or voice transmit feed (TYPE 0x0044). -/
structure FeedCfg where
  src : Nat
  trim : Int
  ramp : Nat
  zc : Nat
  plane : Nat
  deriving DecidableEq, Repr

def FeedCfg.reset (dest : Nat) : FeedCfg :=
  { src := 0xFFFF, trim := 0, ramp := 20, zc := 20, plane := if dest < 0x1000 then 1 else 2 }

structure Routing where
  slots : Cells Nat
  xps : List Xpoint
  buses : Cells BusCfg
  feeds : Cells FeedCfg
  objFeeds : Cells Nat
  deriving DecidableEq, Repr

structure BridgeCfg where
  enable : Bool
  zc : Nat
  deriving DecidableEq, Repr

def BridgeCfg.reset : BridgeCfg := { enable := false, zc := 20 }

structure Member where
  chan : Nat
  bridge : Nat
  mode : Nat
  gain : Int
  deriving DecidableEq, Repr

structure Conference where
  bridges : Cells BridgeCfg
  members : List Member
  tab : List Nat
  deriving DecidableEq, Repr

structure LimCfg where
  thresh : Int
  knee : Nat
  release : Nat
  deriving DecidableEq, Repr

def LimCfg.reset : LimCfg := { thresh := 0, knee := 0, release := 100 }

/-- Sections by key: object × 8 + section, or output × 32 + section. -/
abbrev EqBank := Cells EqSection

/-- A sample in the limiter's look-ahead: the mix output, whether the limiter acts on it (1), passes it (0) or starts
afresh with it (2), and RELEASE_MS in force. -/
structure LimX where
  x : Int
  mode : Nat
  rel : Nat
  deriving DecidableEq, Repr

/-- A limiter at work: gain, and the x and r of the last 32 samples, oldest first (R100). -/
structure Limiter where
  g : F32
  xs : List LimX
  rs : List F32
  deriving DecidableEq, Repr

def Limiter.start : Limiter :=
  { g := F32.ofInt 1, xs := List.replicate 32 { x := 0, mode := 0, rel := 100 }, rs := List.replicate 32 (F32.ofInt 1) }

/-- One route into a destination: its source, plane, gain point and times. -/
structure Route where
  src : Nat
  plane : Nat
  gp : GainPt
  ramp : Nat
  zc : Nat
  deriving DecidableEq, Repr

/-- A destination at work: its route, the ones that fall after a change (R111), its limiter, whether the next sample
starts a new limiter, and the 13 egress samples that belong to the next frame (R92). -/
structure DestRun where
  route : Option Route
  old : List Route
  lim : Limiter
  fresh : Bool
  tail : List Int
  flags : Nat
  /-- The mix block before carried CONCEALED to it (R112). -/
  mixCon : Bool
  deriving DecidableEq, Repr

def DestRun.start : DestRun :=
  { route := none, old := [], lim := .start, fresh := true, tail := List.replicate 13 0, flags := 0, mixCon := false }

/-- A crosspoint fading out after a swap (R111). -/
structure FadeXp where
  bus : Nat
  slot : Nat
  src : Nat
  ramp : Nat
  gp : GainPt
  deriving DecidableEq, Repr

/-- A swap accepted and not yet acted (R110). -/
structure Swap where
  ring : Nat
  index : Nat
  mask : Nat
  time : Nat
  accFrame : Nat
  /-- Outputs captured by a ROOM_FILTERS swap (R82). -/
  outs : List Nat
  /-- Once committed: sample j on the output grid (32 × block + index), its egress instant, and whether it is LATE. -/
  act : Option (Nat × Nat × Bool)
  /-- The object feeds it changes have begun their crossfade (R111). -/
  fed : Bool
  /-- CRC-32C of the named live sets before and after (R454), taken as the swap commits. -/
  crcs : Nat × Nat
  deriving DecidableEq, Repr

/-- A PSET_LOAD or PSET_COPY at work (R106). -/
structure PsetJob where
  ring : Nat
  index : Nat
  domain : Nat
  copyLive : Bool
  /-- none: PSET_COPY, waiting for its boundary. -/
  payload : Option (List Byte)
  deriving DecidableEq, Repr

/-- An egress ramp of R455 at the end of an egress path: from, to, its length, and the ramp index of the first sample of
the present frame (negative where the ramp starts inside the frame). -/
structure EgRamp where
  a : Int
  b : Int
  done : Int
  total : Nat
  deriving DecidableEq, Repr

def EgRamp.zero : EgRamp := { a := 0, b := 0, done := 0, total := 0 }

/-- The mix and route fabric, the equaliser banks and the egress side. -/
structure Mix where
  objectEq : Banks EqBank
  outputEq : Banks EqBank
  routing : Banks Routing
  conference : Banks Conference
  limiter : Banks (Cells LimCfg)
  swaps : List Swap
  jobs : List PsetJob
  outEq : Cells EqRun
  /-- Concealment of each output's block before its equaliser. -/
  outConceal : Cells Conceal
  /-- Output bulk lines after room correction, newest block first (R59), and their crossfades (R62). -/
  outBulk : Cells (List Block)
  outBulkX : Cells (Option XFade)
  /-- Gain points of live crosspoints, by bus × 1,024 + slot; none: the point stands at its loaded target. -/
  xps : Cells (Option GainPt)
  fading : List FadeXp
  masters : Cells (Option GainPt)
  dests : Cells DestRun
  /-- Contribution, input gain and return scale points by channel × 128 + bridge; bridge scale points by bridge. -/
  contrib : Cells (Option GainPt)
  inputs : Cells (Option GainPt)
  returns : Cells (Option GainPt)
  bridges : Cells (Option GainPt)
  /-- The conference points that a CONFERENCE swap has set moving (MIX_XFADE): table (0 contribution, 1 input, 2 return, 3 bridge), key. -/
  confMoves : List (Nat × Nat)
  /-- Concealment of sources, by source ID. -/
  conceal : Cells Conceal
  /-- Samples at each egress by DEST, one block per render frame, newest first, after the egress ramp; and the newest
  before it. -/
  egress : Cells (List Block)
  raw : Cells Block
  /-- The egress ramp of each plane (1, 2, 3): a plane that has not started holds zero. -/
  ramps : Cells EgRamp
  egConceal : Cells Conceal
  /-- By domain 1 or 2: the frame tick after which the fades a swap started are over (MIX_XFADE). -/
  fadeUntil : Cells Nat
  snuffed : Bool
  deriving DecidableEq, Repr

/-- The ingress side: committed blocks by ingress channel, newest first (R36), and the frame numbering of R75. -/
structure Ingress where
  chans : Cells (List Block)
  frame : Nat
  /-- Media numbers M_n of the last frames, newest first (R297). -/
  media : List Nat
  deriving DecidableEq, Repr

/-- Settings as reset leaves them (R48, R107). -/
def RenderObjects.reset : RenderObjects := { objs := [], outs := [] }
def Geometry.reset : Geometry := { speakers := [], triangles := [], classes := [], sl := [] }
def Routing.reset : Routing := { slots := [], xps := [], buses := [], feeds := [], objFeeds := [] }
/-- The default conference scale table of R102: tab[N] = 1 ÷ √(N − 1 + 1 ÷ N) in Q1.15, rounded to nearest. -/
def defaultTab : List Nat :=
  (List.range 64).map (fun i =>
    let n := i + 1
    -- nearest integer to 2^15 × √(n ÷ (n² − n + 1))
    (isqrt (4 * 2 ^ 30 * n / (n * n - n + 1)) + 1) / 2)
def Conference.reset : Conference := { bridges := [], members := [], tab := defaultTab }

def Render.reset : Render :=
  { objects := ⟨.reset, .reset⟩, geometry := ⟨.reset, .reset⟩, runs := [], waiting := [], acc := [], lastEnd := 0,
    heldOut := [], fail := false, poolFull := false, cold := true, jobs := 0, cap := 0, region := none }

def Mix.reset : Mix :=
  { objectEq := ⟨[], []⟩, outputEq := ⟨[], []⟩, routing := ⟨.reset, .reset⟩,
    conference := ⟨.reset, .reset⟩, limiter := ⟨[], []⟩, swaps := [], jobs := [], outEq := [], outConceal := [], outBulk := [],
    outBulkX := [], xps := [], fading := [], masters := [], dests := [], contrib := [], inputs := [], returns := [],
    bridges := [], confMoves := [], conceal := [], egress := [], raw := [], ramps := [], egConceal := [], fadeUntil := [],
    snuffed := false }


/-! ### Elastic queues and memories (chapter Memory, Interconnect and Elastic Queues) -/

/-- One word of an elastic queue; `last` marks the last word of its item. -/
structure QWord where
  x : Nat
  last : Bool
  deriving DecidableEq, Repr

/-- An elastic queue (R246 to R251): the fill bank with its commit mark, the unread words of the drain bank, and the
producer's and consumer's flags. -/
structure EQueue where
  fill : List QWord
  cm : Nat
  opened : Bool
  skip : Bool
  stray : Bool
  fillFull : Bool
  flushTail : Bool
  flushing : Bool
  drain : List QWord
  lastRead : Nat
  deriving DecidableEq, Repr

/-- A queue at reset: both banks empty. -/
def EQueue.empty : EQueue :=
  { fill := [], cm := 0, opened := false, skip := false, stray := false, fillFull := false, flushTail := false,
    flushing := false, drain := [], lastRead := 0 }

/-- One DRAM channel (R236 to R239): refreshes owed and pulled in, power-down, self-refresh. -/
structure DramChan where
  owed : Nat
  ahead : Nat
  powerDown : Bool
  selfRefresh : Bool
  /-- The instant of the last request, and the lines that stand in the write queue then: line number and byte enables (R235, R238). -/
  lastReq : Nat
  wq : List (Nat × Nat)
  deriving DecidableEq, Repr

def DramChan.start : DramChan :=
  { owed := 0, ahead := 0, powerDown := false, selfRefresh := false, lastReq := 0, wq := [] }

/-- The DRAM controller and the control of the SRAM banks. `hot` is the mask of channels refreshed at the quartered
interval. -/
structure Dram where
  chans : Cells DramChan
  hot : Nat
  deriving DecidableEq, Repr

/-- What a tile's spare bank control is doing (R243, R244): 0 nothing, 1 a ROTATE waits for its march test, 2 a copy into
the spare, 3 the copy is complete and waits for its boundary. -/
structure Tile where
  phase : Nat
  victim : Nat
  retire : Bool
  /-- The CTL_ACTION that asked for it: index on ring 0. -/
  cmd : Option Nat
  req : Req
  /-- TIME64 of the last exchange. -/
  last : Nat
  /-- A RETIRE_BANK that waits for the rotation at work: its bank, index on ring 0 and request (R24). -/
  next : Option (Nat × Nat × Req)
  deriving DecidableEq, Repr

def Req.none0 : Req := { index := 0, time := 0, accTime := 0, accFrame := 0, accOnTick := false }
def Tile.idle0 : Tile := { phase := 0, victim := 0, retire := false, cmd := none, req := .none0, last := 0, next := none }

/-! ### Network MACs (chapters Network MACs, Device Time) -/

/-- Where a frame committed for transmission came from: 0 a host descriptor, 1 the voice engine, 2 the stream engine;
with its class, its launch time and what its descriptor asked for. -/
structure TxMeta where
  src : Nat
  /-- Ring and index of the descriptor, and the frame's number in its SSO; or the stream. -/
  ring : Nat
  index : Nat
  sso : Nat
  tc : Nat
  len : Nat
  launch : Nat
  stamp : Bool
  lateSend : Bool
  /-- A forward step skipped its launch time (R290). -/
  skipped : Bool
  deriving DecidableEq, Repr

/-- A frame on the wire (R272): start and end of its wire time. -/
structure InFlight where
  meta_ : TxMeta
  bytes : List Byte
  start : Nat
  finish : Nat
  deriving DecidableEq, Repr

/-- A transmit descriptor at work (R270, R275): frames built so far and ended so far, what its completion will report,
and for an SSO its record and payload. -/
structure TxJob where
  ring : Nat
  index : Nat
  tc : Nat
  launch : Nat
  stamp : Bool
  lateSend : Bool
  record : List Byte
  payload : List Byte
  total : Nat
  built : Nat
  ended : Nat
  sent : Nat
  flags : Nat
  status : Nat
  time : Nat
  deriving DecidableEq, Repr

/-- The operational gate list (R273): control, cycle as segments of gates and ns, the present segment, and its end. -/
structure Gates where
  en : Bool
  segs : List (Nat × Nat)
  pos : Nat
  until_ : Nat
  /-- Change time of a pending change (R274). -/
  change : Option Nat
  deriving DecidableEq, Repr

def Gates.open0 : Gates := { en := false, segs := [], pos := 0, until_ := 0, change := none }

/-- One MAC. -/
structure Mac where
  /-- 0 DISABLED, 1 ACQUIRING, 2 UP, 3 FAULT (R258). -/
  st : Nat
  lock : Bool
  anDone : Bool
  localFault : Bool
  remoteFault : Bool
  lpiRx : Bool
  lpiTx : Bool
  /-- Earliest start after an LPI wake, and the instant the line last fell idle (R279). -/
  wakeAt : Nat
  idleSince : Nat
  line : Option InFlight
  /-- Frames in the class queues, by the number in their header word. -/
  metas : Cells (Option TxMeta)
  nextId : Nat
  /-- The launch queue, head first (R289), and whether its head has entered selection. -/
  launch : List (TxMeta × List Byte)
  launched : Bool
  /-- Stream packets whose launch instant has come, and the launch instants and classes of the next ones (R299). -/
  streamQ : List (TxMeta × List Byte)
  upcoming : List (Nat × Nat)
  jobs : List TxJob
  /-- The next stored timestamp record carries LOST (R288). -/
  tsLost : Bool
  gates : Gates
  /-- Address filter entries in force: 48-bit address and VALID above it (R261). -/
  filter : Cells Nat
  /-- Since when a frame heads the host high (1) and normal (2) queue; 0 where none does (R266). -/
  headAt : Cells Nat
  rxOctets : Nat
  txOctets : Nat
  deriving DecidableEq, Repr

def Mac.reset : Mac :=
  { st := 0, lock := false, anDone := false, localFault := false, remoteFault := false, lpiRx := false, lpiTx := false,
    wakeAt := 0, idleSince := 0, line := none, metas := [], nextId := 0, launch := [], launched := false, streamQ := [],
    upcoming := [], jobs := [], tsLost := false, gates := .open0, filter := [], headAt := [], rxOctets := 0, txOctets := 0 }

/-! ### Time triggers, pulses and the firmware servo (chapter Device Time) -/

/-- A time trigger at work (R291): next instant, firings left (none: without end), period, and when its pulse ends. -/
structure Trigger where
  running : Bool
  next : Nat
  left : Option Nat
  period : Nat
  pulseEnd : Nat
  deriving DecidableEq, Repr

def Trigger.off : Trigger := { running := false, next := 0, left := none, period := 0, pulseEnd := 0 }

/-- What the time block holds beside its counter and registers: triggers, the GPIO lands driven high, the pulse outputs and
inputs (R292), and what the firmware servo has seen of PTP (R284). -/
structure TimeBlock where
  triggers : Cells Trigger
  gpio : Nat
  ppsHigh : Bool
  ppsFall : Nat
  /-- The last second of PPS_OUT and the last multiple of SERVO_MS acted on. -/
  ppsLast : Nat
  servoLast : Nat
  ppsIn : Option Nat
  /-- Consecutive sync intervals within 1 µs, and when the last PTP message came. -/
  syncRun : Nat
  ptpLast : Nat
  deriving DecidableEq, Repr

def TimeBlock.reset : TimeBlock :=
  { triggers := [], gpio := 0, ppsHigh := false, ppsFall := 0, ppsLast := 0, servoLast := 0, ppsIn := none, syncRun := 0,
    ptpLast := 0 }

/-! ### Audio streams (chapter Device Time, Timestamps and Audio Streams) -/

/-- Samples of one received packet sample instant: path (0 A, 1 B), media number, one value per channel. -/
structure RxSample where
  path : Nat
  media : Nat
  values : List Int
  deriving DecidableEq, Repr

/-- A stream (R304): state 0 IDLE, 1 ARMED, 2 RUNNING, 3 STOPPING; its record; the commands waiting for their boundary in
order (true: a start); what its receiver holds, and the next packet of its sender. -/
structure Stream where
  st : Nat
  record : List Byte
  /-- The record a waiting STR_START will bring into force is `record` from its acceptance on. -/
  ops : List (Bool × Req)
  got : List RxSample
  /-- A packet has been accepted since the start; when one was last accepted on path A and on B. -/
  started : Bool
  seenA : Option Nat
  seenB : Option Nat
  conceal : Cells Conceal
  nextP : Nat
  deriving DecidableEq, Repr

def Stream.idle0 : Stream :=
  { st := 0, record := [], ops := [], got := [], started := false, seenA := none, seenB := none, conceal := [], nextP := 0 }
/-! ### Voice channels (chapter Voice Gateway Engine) -/

/-- A packet held in a jitter buffer (R128): its media time relative to the first packet since the last resync, its length
in RTP clock units, whether it starts a talkspurt, and its payload. -/
structure VoxPkt where
  ts : Int
  dur : Nat
  spurt : Bool
  payload : List Byte
  deriving DecidableEq, Repr

/-- The jitter-buffer manager of one channel (R128, R129): nothing of it counts before the first packet. -/
structure Jitter where
  packets : Nat
  winPrev : Int
  winCur : Int
  winStart : Int
  s : Int
  target : Int
  depth : Int
  q : Int
  /-- RTP timestamp and media time, and sequence number and its extension, of the last packet. -/
  lastTs : Nat
  lastRel : Int
  lastSeq : Int
  /-- End of the media received. -/
  mediaEnd : Int
  seen : List Int
  held : List VoxPkt
  /-- Packets in a row beyond 1 s (R129); the new SSRC met and how often in a row (R126). -/
  excess : Nat
  newSsrc : Nat × Nat
  deriving DecidableEq, Repr

def Jitter.empty : Jitter :=
  { packets := 0, winPrev := 0, winCur := 0, winStart := 0, s := 0, target := 0, depth := 0, q := 0, lastTs := 0, lastRel := 0
    lastSeq := 0, mediaEnd := 0, seen := [], held := [], excess := 0, newSsrc := (0, 0) }

/-- Figures of VOX_QUERY that run from the open (R137), with the jitter of RFC 3550 A.8 in sixteenths. -/
structure VoxStats where
  received : Nat
  sent : Nat
  late : Nat
  dup : Nat
  jitter16 : Int
  transit : Int
  baseSeq : Int
  highSeq : Int
  ssrc : Option Nat
  concealed : Nat
  octets : Nat
  lastTs : Nat
  /-- Packets expected from the sources before the present one (RFC 3550 A.3). -/
  expected : Int
  deriving DecidableEq, Repr

def VoxStats.zero : VoxStats :=
  { received := 0, sent := 0, late := 0, dup := 0, jitter16 := 0, transit := 0, baseSeq := 0, highSeq := 0, ssrc := none,
    concealed := 0, octets := 0, lastTs := 0, expected := 0 }

/-- The codec task of one processing tick (R138): tick, its instant, the media to play (RTP units, packets relative to the
playout position), 10 ms pieces concealed, and Sin and Sout of the frame. -/
structure VoxTask where
  k : Nat
  tickAt : Nat
  tk : Nat
  /-- Samples before the first media, which play as zeros. -/
  lead : Nat
  units : Int
  held : List (Int × List Byte)
  pieces : List Bool
  sin : List Int
  sout : List Int
  missed : Bool
  deriving DecidableEq, Repr

/-- An accepted VOX_OPEN, VOX_MODIFY or VOX_CLOSE: opcode, record, EC_RESET, request (R123). -/
structure VoxOp where
  op : Nat
  record : List Byte
  ecReset : Bool
  req : Req
  deriving DecidableEq, Repr

/-- An indication of the operator channel on its way (R135): 0 press, 1 release, 2 long, 3 removal. -/
structure OpsInd where
  kind : Nat
  long : Bool
  req : Req
  deriving DecidableEq, Repr

/-- One voice channel (R119): state 0 IDLE, 1 STARTING, 2 ACTIVE, 3 CLOSING. -/
structure VoxChan where
  st : Nat
  ring : Nat
  rec_ : List Byte
  ops : List VoxOp
  /-- The instant of the close's effective tick, once it has come. -/
  closedAt : Option Nat
  /-- Keys (R135), and changes waiting for their boundary. -/
  hostKey : Bool
  opsKey : Bool
  opsPrev : Bool
  opsLong : Bool
  keyReqs : List (Req × Bool)
  opsInds : List OpsInd
  /-- VOX_QUERY descriptors waiting for the next processing tick: index, address. -/
  queries : List (Nat × Nat)
  jb : Jitter
  stats : VoxStats
  lastRx : Nat
  rxTimedOut : Bool
  /-- Unbroken concealment in ms, and the fade of R129: 0 none, 1 due, 2 muted. -/
  concealMs : Nat
  mute : Nat
  /-- States of the codecs. -/
  dec : Nat
  enc : Nat
  /-- The canceller (R115, R132): coefficients (bytes past the end are zero), near-end speech in the last block, the Sin background, the
  enhancement in 0.01 dB, and ms of Rin activity with 20 dB of it. -/
  coef : List Byte
  near : Bool
  noise : List Nat
  erle : Nat
  convMs : Nat
  converged : Bool
  ecDisabled : Bool
  coldAt : Nat
  forced : Bool
  /-- 10 ms blocks in a row with Rin and Sin below −36 dBm0, and the instant of the 25th (R133). -/
  quiet : Nat
  quietAt : Nat
  /-- The digit and the call-progress tone that are on (R134). -/
  digit : Option Nat
  cptOn : Bool
  /-- Rin, which is Rout, at the channel rate, oldest first, and the index of the sample after its last, counted from tick 0 (R117, R132);
  index ranges flagged CONCEALED. -/
  rin : List Int
  rinEnd : Nat
  marks : List (Nat × Nat)
  /-- Talk decisions by presentation position, oldest first; blocks in a row below the lower threshold, and the position of
  the block at which the hangover ended (R134). -/
  talk : List (Nat × Bool)
  lowRun : Nat
  offAt : Option Nat
  /-- Transmit side (R127). -/
  txSeq : Nat
  txTs : Nat
  txId : Nat
  txMark : Bool
  task : Option VoxTask
  suspended : Bool
  reduced : Bool
  deriving DecidableEq, Repr

def VoxChan.idle0 : VoxChan :=
  { st := 0, ring := 0, rec_ := [], ops := [], closedAt := none, hostKey := false, opsKey := false, opsPrev := false
    opsLong := false, keyReqs := [], opsInds := [], queries := [], jb := .empty, stats := .zero, lastRx := 0
    rxTimedOut := false, concealMs := 0, mute := 0, dec := 0, enc := 0, coef := [], near := false, noise := []
    erle := 0, convMs := 0, converged := false, ecDisabled := false, coldAt := 0, forced := false, quiet := 0, quietAt := 0
    digit := none, cptOn := false, rin := [], rinEnd := 0, marks := [], talk := [], lowRun := 0, offAt := none, txSeq := 0, txTs := 0, txId := 0, txMark := true
    task := none, suspended := false, reduced := false }

/-- The voice engine: the next voice tick, and the channels. -/
structure Vox where
  nextK : Nat
  chans : Cells VoxChan
  /-- Where the jitter buffers lie in DRAM; none before the first start (R115). -/
  region : Option Nat
  deriving DecidableEq, Repr
/-! ### Images, graphs and the scheduler (chapters Wick Dataflow Scheduler, Lantern DSP Cores) -/

/-- A kernel of an image (R194). -/
structure Kernel where
  id : Nat
  plane : Nat
  entry : Nat
  length : Nat
  deriving DecidableEq, Repr

/-- A customer kernel image (R194): its graph records as loaded, 32 bytes a node, and (INDEX, successor) an edge. -/
structure Image where
  id : Nat
  render : Bool
  voice : Bool
  tileBytes : Nat
  dramBytes : Nat
  kernels : List Kernel
  code : List Byte
  nodes : List (List Byte)
  edges : List (Nat × Nat)
  svn : Nat
  deriving DecidableEq, Repr

/-- Images held, accepted ones that replace a held one at the next starts (R196), those in force on each plane since its last start,
and the boot image held for the next reset with its SVN. -/
structure Images where
  held : List Image
  staged : List Image
  render : List Image
  voice : List Image
  boot : Option (List Byte)
  bootSvn : Nat
  deriving DecidableEq, Repr

/-- An item (R146), or a task in service: its node, instance (grid 0 render frames, 1 voice ticks; tick number), key, data,
level, ready instant and the instant it reached its level, flow, deadline (none: a Vigil item, or the tick it counts from is yet to
come), whether it stands in the
reserve, and for a Vigil item its cluster. -/
structure WItem where
  node : Nat
  grid : Nat
  num : Nat
  key : Nat
  data : Nat
  level : Nat
  ready : Nat
  tLvl : Nat
  flow : Nat
  deadline : Option Nat
  reserve : Bool
  vigil : Option Nat
  deriving DecidableEq, Repr

/-- A join counter (R146): posts so far. -/
structure WJoin where
  node : Nat
  grid : Nat
  num : Nat
  count : Nat
  deriving DecidableEq, Repr

/-- A live instance (R148): tick number, and the instants of its tick and of up to three ticks after it, oldest first (R147). -/
structure WInst where
  grid : Nat
  num : Nat
  ticks : List Nat
  deriving DecidableEq, Repr

/-- A blocked POST (R155, R197): the core that posts (none: a host descriptor with its ring and index), target node, key, data,
the poster's node and instance, and since when. -/
structure WPost where
  core : Option Nat
  ring : Nat
  index : Nat
  target : Nat
  key : Nat
  data : Nat
  src : Nat
  grid : Nat
  num : Nat
  since : Nat
  deriving DecidableEq, Repr

/-- A task in service (R150): its item, the resource, and whether it is a guaranteed slice (R159). -/
structure WTask where
  item : WItem
  res : Nat
  slice : Bool
  deriving DecidableEq, Repr

/-- A trace record (R162). -/
structure TraceRec where
  time : Nat
  event : Nat
  level : Nat
  plane : Nat
  abort : Bool
  slice : Bool
  node : Nat
  flow : Nat
  core : Nat
  inst : Nat
  deriving DecidableEq, Repr

/-- Wick. -/
structure Wick where
  items : List WItem
  joins : List WJoin
  insts : List WInst
  blocked : List WPost
  tasks : List WTask
  /-- Clusters owed their guaranteed slice of this frame (R159). -/
  slices : List Nat
  /-- Faults of each node in this epoch, and quarantined nodes (R191). -/
  faults : Cells Nat
  quarantine : List Nat
  /-- Levels that are FULL (R157). -/
  full : List Nat
  /-- The trace buffer, oldest record first, and the records lost since it filled (R162, R163). -/
  trace : List TraceRec
  lost : Nat
  guard : Bool
  /-- The highest reserve fill of the epoch. -/
  reserveMax : Nat
  /-- Gualbin's own graph of each plane since its last start (R143): node records and edges. -/
  gualbin : Cells (List (List Byte) × List (Nat × Nat))
  deriving DecidableEq, Repr

def Wick.empty : Wick :=
  { items := [], joins := [], insts := [], blocked := [], tasks := [], slices := [], faults := [], quarantine := [], full := []
    trace := [], lost := 0, guard := false, reserveMax := 0, gualbin := [] }

/-! ### Lantern cores -/

/-- A result in flight (R181): the bundle from which on it can be read, its register, and its value. Register numbers: g 0 to
31, p 32, m 40, cb 48, cn 56, lc 64, ls 66, le 68, crs 70, ipc 71, icst 72, ivec 73, cst 74, accumulators 80 to 87; and
parts of cst: 90 SAT and 91 AOV set, 92 ACL bit set, 93 ACL bits cleared, 94 FLAGS, 95 P, 96 and 97 the halves of tcmp. -/
structure Flight where
  land : Nat
  reg : Nat
  val : Int
  deriving DecidableEq, Repr

/-- Loads: LD.W, LD.H, LD.V, LD.VB. -/
inductive LdKind where
  | w | h | v | vb
  deriving DecidableEq, Repr

/-- Vector operations on two sources (class 2, and VMUL), and on one. -/
inductive VOp where
  | add | sub | and | or | xor | min | max | sel | mul
  deriving DecidableEq, Repr
inductive VOp1 where
  | neg | abs | shl (n : Fin 64) | sra (n : Fin 64)
  deriving DecidableEq, Repr

/-- Scalar operations on two registers, and shifts. -/
inductive SOp where
  | add | sub | and | or | xor | min | max
  deriving DecidableEq, Repr
inductive ShOp where
  | shl | shr | asr
  deriving DecidableEq, Repr

/-- One operation word of a core, by its meaning (R177); registers are numbers, `s` is the S bit. -/
inductive CoreOp where
  | ld (kind : LdKind) (d : Nat) (k : Fin 8) (m : Option (Fin 8))
  | st (vec : Bool) (a : Nat) (k : Fin 8) (m : Option (Fin 8))
  | padd (k : Fin 8) (m : Option (Fin 8))
  | movp (k : Fin 8) (a : Nat)
  | vop (op : VOp) (s : Bool) (d a b : Nat)
  | vop1 (op : VOp1) (s : Bool) (d a : Nat)
  | vcmp (cc : VCond) (a b : Nat)
  | search (mx : Bool) (d a g : Nat)
  | reduce (mx : Bool) (d a : Nat)
  /-- Multiply-accumulate: subtracting or not, set, vA, and vB or (broadcast) gB. -/
  | mac (neg bcast s : Bool) (e a b : Nat)
  | aclr (e : Nat)
  | amov (e a : Nat) (n : Fin 64)
  | aext (s : Bool) (d e : Nat) (n : Fin 64)
  | asum (s : Bool) (e : Nat)
  | sop (op : SOp) (s : Bool) (d a b : Nat)
  | shift (op : ShOp) (s : Bool) (d a : Nat) (n : Fin 64)
  | cmp (a b : Nat)
  | movi (d : Nat) (imm : BitVec 16) (ext : Option (BitVec 28))
  | mov (d s : CoreReg)
  | br (cc : BCond) (off : Int) (ext : Bool)
  | call (off : Int) (ext : Bool)
  | jmpR (a : Nat)
  | ret
  | loop (k : Fin 2) (a : Nat) (end_ : Int) (ext : Bool)
  | ni (n : Fin 64)
  | rti
  | nop
  | waitTask (pass : Bool)
  | post (d a b : Nat)
  | dma (kind : Nat) (p : Fin 8) (g n : Nat)
  | dmaWait (n : Nat)
  | fftRun (a : Nat)
  | fftWait (a : Nat)
  | crcI (a : Nat)
  | crcW (a : Nat)
  | crcF (d : Nat)
  | time (d : Nat)
  | tcmp (a : Nat)
  deriving DecidableEq, Repr

/-- A cluster DMA transfer (R189): 0 RD, 1 WR, 2 TRD, 3 TWR; local and remote address, bytes. -/
structure DmaJob where
  kind : Nat
  local_ : Nat
  remote : Nat
  bytes : Nat
  deriving DecidableEq, Repr

/-- Why a core is frozen: an FFT.RUN or a DMA operation that waits for an entry, a blocked POST with its destination, a POST or
WAIT.TASK that waits for the core's transfers, DMA.WAIT and FFT.WAIT. -/
inductive Freeze where
  | fftRun (addr : Nat)
  | dma (job : DmaJob)
  | post (dest : Nat)
  | postDrain (dest node key data : Nat)
  | waitTask (pass : Bool)
  | dmaWait (n : Nat)
  | fftWait (addr : Nat)
  deriving DecidableEq, Repr

/-- One core: state 0 waiting in WAIT.TASK, 1 running, 2 held out, 3 in self-test; registers by number, accumulators, tcmp,
program counter, bundles issued in this task, results in flight, the words of the bundle being issued, the branch that its
delay bundles lead to (bundles left, 0 branch 1 CALL 2 RTI, target), and what R181 chains from the bundle before. -/
structure LCore where
  st : Nat
  r : Cells Word
  acc : Cells Int
  tcmp : Nat
  pc : Nat
  issued : Nat
  flight : List Flight
  bundle : List CoreOp
  branch : Option (Nat × Nat × Nat)
  /-- Accumulators written by a multiply-accumulate of the bundle before: value, and whether it clamped. -/
  chain : List (Nat × Int × Bool)
  inHandler : Bool
  dmaPend : Bool
  dma : List DmaJob
  freeze : Option Freeze
  /-- An accumulator overflow has been reported in this frame (R179). -/
  aovSeen : Bool
  /-- CORE segments passed in the present pass, and whether a pass is complete (R391). -/
  segs : Nat
  passDone : Bool
  deriving DecidableEq, Repr

/-- A core at reset: every register 0 but the lane predicates P of cst (R174). -/
def LCore.idle0 : LCore :=
  { st := 0, r := [(74, 0xF00)], acc := [], tcmp := 0, pc := 0, issued := 0, flight := [], bundle := [], branch := none, chain := []
    inHandler := false, dmaPend := false, dma := [], freeze := none, aovSeen := false, segs := 0, passDone := false }

/-- An FFT job (R171): the cluster and core that submitted it, its record, and the task and the image of the kernel that did. -/
structure FftJob where
  cluster : Nat
  core : Nat
  addr : Nat
  task : Option WItem
  image : Option Nat
  deriving DecidableEq, Repr

/-- The array: cores by number, FFT queues by cluster, tile memory (cluster × 4 MiB + address), program memory (cluster ×
512 KiB + address), DRAM (by data address; the region of an image from Config.dramBase on), and CORE segments since the last FFT test by
cluster. -/
structure Lantern where
  cores : Cells LCore
  fft : Cells (List FftJob)
  tile : Memory
  prog : Memory
  dram : Memory
  fftSegs : Cells Nat
  deriving DecidableEq, Repr

def Lantern.empty : Lantern := { cores := [], fft := [], tile := [], prog := [], dram := [], fftSegs := [] }

/-- Vigil beside Wick and the cores (R393 to R396): on-demand tests and reruns under way, by TARGET of R24: the command that
asked (index on ring 0), whether the test passed and it waits for the boundary; STALE and OWED by cluster; clusters on which
a segment completed in this epoch; failing pages; how long each plane has run in this epoch. -/
structure VigilTest where
  target : Nat
  cmd : Option Nat
  /-- Who returns the unit after a pass (R384). -/
  origin : Nat
  /-- 1 the rerun after a failed CORE segment, 2 after a failed FFT test, 3 on demand, 4 the rerun after a core fault, 5 after an
  FFT residue failure. -/
  test : Nat
  detail : Nat
  passed : Option Nat
  deriving DecidableEq, Repr

structure VigilSt where
  tests : List VigilTest
  stale : Cells Nat
  owed : Cells Nat
  segDone : List Nat
  starved : Nat
  badPages : List Nat
  /-- Planes that ran through the whole epoch so far: bit 0 Render, bit 1 Voice. -/
  ranAll : Nat
  /-- Bytes scrubbed below a whole MiB. -/
  scrubRest : Nat
  /-- Failures of each mix unit and the limiter in this epoch (R369). -/
  mixFails : Cells Nat
  deriving DecidableEq, Repr

def VigilSt.empty : VigilSt :=
  { tests := [], stale := [], owed := [], segDone := [], starved := 0, badPages := [], ranAll := 0, scrubRest := 0, mixFails := [] }

/-! ### Security, power and statistics (chapters 15 to 17) -/

/-- Key store, debug port and boundary scan (R377, R380): steps left and minima of TYPE 1 and 2; the outstanding challenge and
the earliest instant of the next; the selected JTAG instruction (0 BYPASS, 1 IDCODE, 2 SAMPLE/PRELOAD, 3 EXTEST, 4 EXTEST_PULSE,
5 EXTEST_TRAIN, 6 DBG_CHALLENGE, 7 DBG_RESPONSE) and the data register it put on TDO. -/
structure Sec where
  ownerHash : Option (List Byte)
  fwMin : Nat
  ownerMin : Nat
  fwSteps : Nat
  ownerSteps : Nat
  dbgLevel : Nat
  dbgFails : Nat
  challenge : Option (List Byte)
  waitUntil : Nat
  jtag : Nat
  tdo : List Byte
  deriving DecidableEq, Repr

/-- A new part. -/
def Sec.new : Sec :=
  { ownerHash := none, fwMin := 0, ownerMin := 0, fwSteps := 64, ownerSteps := 64, dbgLevel := 0, dbgFails := 0, challenge := none
    waitUntil := 0, jtag := 0, tdo := [] }

/-- A journal record (R412): of Snuffer, with the newest INDEX and HASH, the cause, the entries ring 3 has not taken and the
number it omits; or a reservation of indices. `next` is the INDEX after the newest. -/
inductive Journal where
  | snuffer (cause time next hash omitted : Nat) (entries : List (List Byte))
  | reserve (limit time : Nat)
  deriving DecidableEq, Repr

/-- Power, reset and boot, beside the flags in PWR_STATUS, which hold the pins PG, READY, FAULT_n and THERM_n. -/
structure Pwr where
  /-- AUX3V3 is good. -/
  aux : Bool
  /-- What the module waits for after a reset or with its rails off: 0 nothing, else the cause of R407. -/
  hold : Nat
  /-- RESET_n is low. -/
  resetLow : Bool
  /-- CK_TIME tick since which the case estimate has been at 130 °C or more. -/
  hotSince : Option Nat
  /-- Snuffer at work: cause and trigger instant; and whether the journal record is complete. -/
  snuff : Option (Nat × Nat)
  flushed : Bool
  /-- MOD_RESET accepted: the instant, and its index on ring 0. -/
  resetAt : Option (Nat × Nat)
  /-- PWR_STANDBY accepted and waiting for the last committed operation: its index on ring 0. -/
  standby : Option Nat
  /-- CK_TIME tick of the last service of the management watchdog, and whether the warning has fired. -/
  serviced : Nat
  warned : Bool
  /-- SMB_ALERT_n is low; the strap sampled as AUX3V3 became good; the last answer on the management bus: none for a NACK. -/
  alert : Bool
  smbStrap : Nat
  smb : Option (List Byte)
  /-- The newest journal record of each kind, newest first; firmware slots A and B with their SVNs; the slot written last, and the
  slot that booted; the image in force and its SVN. -/
  journal : List Journal
  slotA : Option (Nat × List Byte)
  slotB : Option (Nat × List Byte)
  newest : Nat
  booted : Nat
  fw : List Byte
  fwSvn : Nat
  deriving DecidableEq, Repr

/-- As the first READY after power-up leaves it: SPI boot from slot A. -/
def Pwr.reset : Pwr :=
  { aux := true, hold := 0, resetLow := false, hotSince := none, snuff := none, flushed := false, resetAt := none, standby := none
    serviced := 0, warned := false, alert := false, smbStrap := 0, smb := none, journal := [], slotA := some (leAt Config.firmware 8 4, Config.firmware)
    slotB := none, newest := 0, booted := 0, fw := Config.firmware, fwSvn := leAt Config.firmware 8 4 }

/-- A snapshot bank (R400, R401). -/
structure Snap where
  epoch : Nat
  start : Nat
  finish : Nat
  frames : Nat
  n : Nat
  flags : Nat
  epochs : Nat
  /-- Latched registers by BAR0 offset, in the order of R446, with their values. -/
  body : List (Nat × Nat)
  deriving DecidableEq, Repr

/-- The statistics epoch (R397 to R400): E at the last tick, what has run of the present epoch, and the banks waiting for ring
4, earlier first. -/
structure Sta where
  epoch : Nat
  start : Nat
  frames : Nat
  n : Nat
  flags : Nat
  /-- A tick has opened the first epoch; a write of N forces a boundary at the next. -/
  opened : Bool
  force : Bool
  banks : List Snap
  deriving DecidableEq, Repr

def Sta.reset : Sta :=
  { epoch := 0, start := 0, frames := 0, n := 3000, flags := 4, opened := false, force := false, banks := [] }

/-! ### Mantle (chapter Mantle Reference Selection and Clock Clean-Up) -/

/-- A candidate (R307, R308): state code, CAUSE, last measured offset and the last 20, newest first, in 0.01 ppm; whether it has
been QUALIFIED since reset; the CK_TIME tick at which it entered REQUALIFYING; its configuration in force. -/
structure MCand where
  qual : Nat
  cause : Nat
  offset : Int
  offs : List Int
  ever : Bool
  since : Nat
  cfg : Word
  deriving DecidableEq, Repr

def MCand.reset : MCand := { qual := 0, cause := 0, offset := 0, offs := [], ever := false, since := 0, cfg := 0 }

/-- Mantle (R316): state code, REF_SEL, LAST; the pull under way as its target (15: nominal) and e in 10⁻⁵ ns; the output rate
and the held rate against the internal oscillator in 10⁻⁵ ppm; CK_TIME ticks of the last pull's start and of entry to HOLDOVER;
the output rates of the last 60 s locked, newest first. -/
structure Mantle where
  st : Nat
  sel : Nat
  last : Nat
  cands : Cells MCand
  pull : Option (Nat × Int)
  out : Int
  hold : Int
  lastPull : Option Nat
  heldSince : Nat
  hist : List Int
  deriving DecidableEq, Repr

def Mantle.reset : Mantle :=
  { st := 0, sel := 15, last := 15, cands := [], pull := none, out := 0, hold := 0, lastPull := none, heldSince := 0, hist := [] }

/-! ### Audio ports and operator sense -/

/-- A received frame waiting for its ingress block: content index on the render grid, the mask it came under, and 0 for an item
of the receive queue, 1 for the frame before delivered again, 2 for zeros; its slot values as ingress values; and whether the block that
holds it carries CONCEALED. -/
structure PortFrame where
  idx : Nat
  mask : Nat
  kind : Nat
  vals : List Int
  con : Bool
  deriving DecidableEq, Repr

/-- A tap in force (R331): pack code, LOG2_FRAMES, DRAM address, and records completed. -/
structure Tap where
  pack : Nat
  log2 : Nat
  base : Nat
  done : Nat
  deriving DecidableEq, Repr

/-- A port (R322 to R334): state code, rate class, rate of the last window in millihertz and of the one before, windows completed
(up to 2); instant of the last frame start; the render sample index the next frame start maps to, and how many samples
behind it the transmit side runs; whether the next block is a re-lock or holds a slip; written masks not yet live, each with whether it
waits one frame more; live masks; slot values of the frame before; received frames; frames shifted out since the last tick,
oldest first; the last transmitted values; the taps in force and TAP_CFG of the last boundary. -/
structure Port where
  st : Nat
  cls : Nat
  rate : Nat
  prev : Nat
  wins : Nat
  lastStart : Option Nat
  next : Option Nat
  txLag : Nat
  mark : Bool
  rxNew : Option (Nat × Bool)
  txNew : Option (Nat × Bool)
  rxLive : Nat
  txLive : Nat
  last : List Int
  got : List PortFrame
  sent : List (List Int)
  sdo : List Int
  rxTap : Option Tap
  txTap : Option Tap
  tapCfg : Word
  deriving DecidableEq, Repr

def Port.reset : Port :=
  { st := 0, cls := 0, rate := 0, prev := 0, wins := 0, lastStart := none, next := none, txLag := 0, mark := false, rxNew := none
    txNew := none, rxLive := 0, txLive := 0, last := [], got := [], sent := [], sdo := [], rxTap := none, txTap := none
    tapCfg := 0 }

/-- An operator-sense channel (R336 to R338): plugged, samples in a row that disagree with it, accessory, the last 50 codes newest
first, when the next classification is due, samples in a row at 246 or above while shorted; and the variables of R338. -/
structure OpsChan where
  plugged : Bool
  jackRun : Nat
  acc : Nat
  code : Nat
  codes : List Nat
  due : Option Nat
  retry : Nat
  pressed : Bool
  runLo : Nat
  runHi : Nat
  onAt : Nat
  relOn : Option Nat
  doubleRun : Bool
  longSent : Bool
  deriving DecidableEq, Repr

def OpsChan.reset : OpsChan :=
  { plugged := false, jackRun := 0, acc := 0, code := 0, codes := [], due := none, retry := 0, pressed := false, runLo := 0
    runHi := 0, onAt := 0, relOn := none, doubleRun := false, longSent := false }

/-! ### Birlor Link -/

/-- A link port (R344, R350, R351): state code, lanes with block lock, markers in a row with valid CRC, hop delays of the last 64
cycles in 1/16 ns, SEQ and stamp of the last markers sent and received, the frame tick in which the head's marker last came, and from
the last marker HEAD_TIME, HEAD_ID, HOP, MAP, SENDER, TOPO and CUM_DELAY. -/
structure LinkPort where
  st : Nat
  lanes : Nat
  good : Nat
  delays : List Nat
  sentAt : List (Nat × Nat)
  gotAt : List (Nat × Nat)
  headAt : Option Nat
  headTime : Nat
  headId : Nat
  hop : Nat
  map : Nat
  sender : Nat
  topo : Nat
  cum : Nat
  /-- PRBS bit errors of this epoch, and whether source 54 has told. -/
  prbs : Nat
  prbsTold : Bool
  deriving DecidableEq, Repr

def LinkPort.reset : LinkPort :=
  { st := 0, lanes := 0, good := 0, delays := [], sentAt := [], gotAt := [], headAt := none, headTime := 0, headId := 0, hop := 0, map := 0
    sender := 31, topo := 0, cum := 0
    prbs := 0, prbsTold := false }

/-- Part of a message or set on its way in: the path or port it came by, ORIGIN, SEQ or frame, part, ARG, bytes. -/
structure LinkPart where
  path : Nat
  origin : Nat
  num : Nat
  part : Nat
  arg : Nat
  bytes : List Byte
  deriving DecidableEq, Repr

/-- The link (R342 to R363): ports; ADDR, CONFLICT, HOP, MAP, primary port, TOPOLOGY; the time offset in 1/16 ns; own SEQ by
class; ORIGIN, CLASS and SEQ seen before; chain channel groups and metadata received, and groups captured by the head with their
number and frame; metadata sets waiting for their tick with their cycle; tunnel messages in parts; the twin's seals and blocks
and its last status; what R358 found in the last cycle; accepted slice changes; frames sent, by port, oldest first. -/
structure Link where
  ports : Cells LinkPort
  addr : Nat
  conflict : Nat
  hop : Nat
  map : Nat
  primary : Nat
  topo : Nat
  offset : Int
  seqs : Cells Nat
  seen : List (Nat × Nat × Nat)
  groups : List LinkPart
  cap : Cells (List Int)
  capG : Nat
  metas : List LinkPart
  metaDue : List (MetaDesc × Bool)
  parts : List LinkPart
  twin : List LinkPart
  compareOff : Bool
  slices : List Req
  /-- Own seals of the last cycle, by its number, and the report sent with them (R358). -/
  own : Option (Nat × List Nat)
  ownReport : List Byte
  conceal : Cells Conceal
  /-- Completion records that go back to their ORIGIN, and remote commands taken so far (R362). -/
  replies : List (Nat × List Byte)
  remotes : Nat
  out : List (Nat × List Byte)
  deriving DecidableEq, Repr

def Link.reset : Link :=
  { ports := [], addr := 31, conflict := 0, hop := 0, map := 0, primary := 0, topo := 0, offset := 0, seqs := [], seen := []
    groups := [], cap := [], capG := 0, metas := [], metaDue := [], parts := [], twin := [], compareOff := false, slices := [], own := none, ownReport := [], conceal := []
    replies := [], remotes := 0
    out := [] }

/-! ### The whole machine -/

/-- The module's state. `pending` is the queue of commands, first in, first out; `free` counts the free values used. -/
structure State where
  pending : List Instr
  free : Nat
  clock : Counter
  regs : RegFile
  host : HostIf
  rings : Cells Ring
  audit : Audit
  mgt : Mgt
  ing : Ingress
  rnd : Render
  cnv : Conv
  mix : Mix
  slice : Cells Word
  evs : Cells (Option FrameEv)
  ev53 : Option RenderEv
  straps : Straps
  queues : Cells EQueue
  dram : Dram
  tiles : Cells Tile
  parWords : List (Nat × Nat)
  macs : Cells Mac
  mdioEnd : Nat
  tim : TimeBlock
  streams : Cells Stream
  vox : Vox
  heldRegs : Cells (Option Word)
  imgs : Images
  wick : Wick
  lan : Lantern
  vig : VigilSt
  sec : Sec
  pwr : Pwr
  sta : Sta
  mnt : Mantle
  ports : Cells Port
  ops : Cells OpsChan
  link : Link
  deriving DecidableEq, Repr

/-- The module as the first READY after power-up leaves it (R417, R447): STOPPED, all windows live, no ring enabled. -/
def State.reset : State :=
  { pending := [], free := 0, clock := .empty, regs := [], host := .empty, rings := [], audit := .empty, mgt := .empty
    , ing := { chans := [], frame := 0, media := [] }
    , rnd := Render.reset
    , cnv := { outs := [], loads := [], cleanFrames := 0, staging := [], region := none, shedOrder := [], cold := true }
    , mix := Mix.reset
    , slice := []
    , evs := []
    , ev53 := none
    , straps := { head := false, boot := 0, addr := 0 }
    , queues := []
    , dram := { chans := [], hot := 0 }
    , tiles := []
    , parWords := []
    , macs := []
    , mdioEnd := 0
    , tim := TimeBlock.reset
    , streams := []
    , vox := { nextK := 0, chans := [], region := none }
    , heldRegs := []
    , imgs := { held := [], staged := [], render := [], voice := [], boot := none, bootSvn := 0 }
    , wick := Wick.empty
    , lan := Lantern.empty
    , vig := VigilSt.empty
    , sec := Sec.new
    , pwr := Pwr.reset
    , sta := Sta.reset
    , mnt := Mantle.reset
    , ports := []
    , ops := []
    , link := Link.reset
  }

end Sys2Proof.Machine
end

