-- ==== Sys2Proof/Machine/Ops.lean ====
section
/-!
DEFINITION. Machine/Ops.lean: the named operations every family uses: time, the register file, counters, interrupt
sources and their messages, device-to-host entries, completions, and the audit log.
-/
namespace Sys2Proof.Machine

/-! ### Time -/

/-- Integer TIME64 (R281). -/
def State.now (s : State) : Nat := s.clock.acc / 2 ^ 32

/-- `dt` CK_TIME ticks pass: each adds the increment (R281). -/
def State.elapse (s : State) (dt : Nat) : State :=
  { s with clock := { s.clock with acc := s.clock.acc + s.clock.incr * dt, ticks := s.clock.ticks + dt } }

/-- The next free value, a number below `bound`, and the state with the free-value counter advanced. -/
def State.fresh (s : State) (bound : Nat) : Nat × State :=
  (Config.freeNat s.free % bound, { s with free := s.free + 1 })

/-- `n` free bytes, and the state with the free-value counter advanced. -/
def State.freshBytes (s : State) (n : Nat) : List Byte × State :=
  ((Config.freeBytes s.free n ++ List.replicate n 0).take n, { s with free := s.free + 1 })

/-! ### Register file -/

/-- The stored value of the register at a BAR0 offset. -/
def State.reg (s : State) (off : Nat) : Word := Cells.get regReset s.regs off
/-- Store a register. -/
def State.setReg (s : State) (off : Nat) (v : Word) : State := { s with regs := Cells.put regReset s.regs off v }
/-- A field of a stored register. -/
def State.fld (s : State) (off hi lo : Nat) : Nat := field (s.reg off) hi lo
/-- Store a field of a register. -/
def State.setFld (s : State) (off hi lo v : Nat) : State := s.setReg off (setField (s.reg off) hi lo v)
/-- A bit of a stored register. -/
def State.flag (s : State) (off n : Nat) : Bool := bitOf (s.reg off) n
/-- Store a bit of a register. -/
def State.setFlag (s : State) (off n : Nat) (b : Bool) : State := s.setReg off (setBitOf (s.reg off) n b)
/-- A register pair LO, HI as one number. -/
def State.reg64 (s : State) (off : Nat) : Nat := (s.reg off).toNat + 2 ^ 32 * (s.reg (off + 4)).toNat
/-- Store a register pair LO, HI. -/
def State.setReg64 (s : State) (off v : Nat) : State :=
  (s.setReg off (BitVec.ofNat 32 v)).setReg (off + 4) (BitVec.ofNat 32 (v / 2 ^ 32))
/-- A counter of R71 rises by `n` and saturates. -/
def State.bump (s : State) (off n : Nat) : State :=
  s.setReg off (BitVec.ofNat 32 (satU 32 ((s.reg off).toNat + n)))

/-- A mask with bit `n` set. -/
def bit64 (n : Nat) : DWord := BitVec.ofNat 64 (2 ^ n)

/-! ### Rings -/

def State.ring (s : State) (r : Nat) : Ring := Cells.get (fun _ => Ring.empty) s.rings r
def State.setRing (s : State) (r : Nat) (x : Ring) : State :=
  { s with rings := Cells.put (fun _ => Ring.empty) s.rings r x }
def State.onRing (s : State) (r : Nat) (f : Ring → Ring) : State := s.setRing r (f (s.ring r))
def State.onHost (s : State) (f : HostIf → HostIf) : State := { s with host := f s.host }
def State.onAudit (s : State) (f : Audit → Audit) : State := { s with audit := f s.audit }
def State.onMgt (s : State) (f : Mgt → Mgt) : State := { s with mgt := f s.mgt }

/-- Rings the module writes (R205). -/
def isD2h (r : Nat) : Bool :=
  (1 ≤ r && r ≤ 5) || (20 ≤ r && r ≤ 23) || (40 ≤ r && r ≤ 43) || r == 54 || r == 55 || (60 ≤ r && r ≤ 63)

/-- The write-back source of a ring (R205). -/
def ringSource (r : Nat) : Nat :=
  if r ≤ 1 then 0
  else if r ≤ 5 then r - 1
  else if r ≤ 7 then 5 else if r ≤ 11 then 6 else if r ≤ 13 then 7 else if r ≤ 15 then 8
  else if r ≤ 19 then 9 else if r ≤ 23 then 10
  else if r ≤ 39 then (if (r - 24) % 4 < 2 then 15 + (r - 24) / 4 else 11 + (r - 24) / 4)
  else if r ≤ 43 then 19 else if r ≤ 47 then 20 else if r ≤ 51 then 21 else if r ≤ 55 then 22 else 23

/-- Opcodes a host-to-device ring accepts (R206 and the chapters of the opcodes). -/
def ringAccepts (r op : Nat) : Bool :=
  op == 0 ||
  (if r = 0 then [0x90, 0x91, 0x92, 0xA1, 0xA2, 0xA3, 0xB1, 0xB2, 0xC1, 0xD1, 0xD2, 0xE1, 0xE2, 0xE3].contains op
   else if r = 6 ∨ r = 7 then op == 0x70
   else if r ≤ 11 then op == 1 || op == 2
   else if r ≤ 13 then op == 0x20 || op == 0x21 || op == 0x22
   else if r ≤ 15 then op == 0x10 || op == 0x11 || op == 0x12
   else if r ≤ 19 then 0x30 ≤ op && op ≤ 0x34
   else if r ≤ 39 then (if (r - 24) % 4 < 2 then op == 0x40 || op == 0x41 else op == 0x48)
   else if r ≤ 47 then op == 0x60
   else if r ≤ 51 then op == 0x68 || op == 0x69
   else if r ≤ 53 then op == 0x50
   else op == 0x80)

def regHifCtrl : Nat := 0x10000
def regHifStatus : Nat := 0x10004
def regRing (r : Nat) : Nat := 0x11000 + r * 0x20

def State.ringSize (s : State) (r : Nat) : Nat := 2 ^ s.fld (regRing r + 8) 4 0
def State.ringBase (s : State) (r : Nat) : Nat := s.reg64 (regRing r)
def State.ringGen (s : State) (r : Nat) : Nat := s.fld (regRing r + 0xC) 15 0
/-- CMODE: completions of the ring go to ring 1 (R214); fixed at 1 for ring 0. -/
def State.toRing1 (s : State) (r : Nat) : Bool := r == 0 || s.flag (regRing r + 8) 7
/-- The endpoint can issue requests (R203). -/
def State.linkOk (s : State) : Bool := s.host.bme && decide (0 < s.host.linkWidth)
/-- Unsigned 32-bit difference of two free-running indices (R210). -/
def idxSub (a b : Nat) : Nat := (a + 2 ^ 32 - b % 2 ^ 32) % 2 ^ 32
def idxAdd (a n : Nat) : Nat := (a + n) % 2 ^ 32

/-- A device-to-host ring is full (R216), or cannot be written (R203, R218, R220). -/
def State.d2hFull (s : State) (r : Nat) : Bool :=
  let x := s.ring r
  (x.state != .running) || !s.linkOk || decide (s.ringSize r ≤ idxSub x.wr x.doorIndex)

/-! ### Writes towards the host -/

def State.emit (s : State) (w : HostWrite) : State := s.onHost (fun h => { h with out := h.out ++ [w] })

/-- State code of a ring (R215). -/
def RingState.code : RingState → Nat
  | .disabled => 0 | .running => 1 | .stopping => 2 | .stopped => 3 | .error => 4

/-- The consumer page entry of a ring (R215). -/
def State.consumerWrite (s : State) (r : Nat) : State :=
  let x := s.ring r
  let v := (if isD2h r then x.wr else x.cons) + 2 ^ 32 * s.ringGen r + 2 ^ 48 * x.state.code
  s.emit (.mem (s.reg64 0x10018 + 8 * r) (leBytes 8 v))

/-! ### Interrupt sources (R221, R441) -/

/-- INT_EN of a source. -/
def State.srcEnabled (s : State) (v : Nat) : Bool := s.flag (0x20000 + 4 * (v / 32)) (v % 32)
/-- The holdoff of a source in ns (R441: above 1,000 acts as 1,000). -/
def State.holdNs (s : State) (v : Nat) : Nat := 1000 * min 1000 (s.fld (0x20100 + 4 * v) 9 0)

/-- The message of vector `v` as its table entry gives it (R201). -/
def HostIf.msixOf (h : HostIf) (v : Nat) : HostWrite :=
  let e := Cells.get (fun _ => ((0, 0) : DWord × Word)) h.msixTab v
  .msix v e.1 e.2

/-- A message goes out and its holdoff starts; while the endpoint can issue no request it waits (R203, R221). -/
def State.sendMsi (s : State) (v : Nat) : State :=
  if s.linkOk then
    let s := s.emit (s.host.msixOf v)
    if s.holdNs v = 0 then s
    else s.onHost (fun h => { h with holdUntil := Cells.put (fun _ => 0) h.holdUntil v (s.now + s.holdNs v) })
  else s.onHost (fun h => { h with dueMsi := h.dueMsi ||| bit64 v })

/-- The MSI-X message of vector `v`, or what stands in its place: a pending bit while it is masked, a held message
while its holdoff runs, nothing while the source is disabled (R221, R441). -/
def State.message (s : State) (v : Nat) : State :=
  if s.srcEnabled v && s.host.msixEnable then
    if s.now < Cells.get (fun _ => 0) s.host.holdUntil v then
      s.onHost (fun h => { h with held := h.held ||| bit64 v })
    else if s.host.vecMask.getLsbD v then
      s.onHost (fun h => { h with vecPend := h.vecPend ||| bit64 v })
    else s.sendMsi v
  else s

/-- INT_STATUS and FIRED of a source that fires (R441, R217). -/
def State.firedFlags (s : State) (v : Nat) : State :=
  (s.setFlag (0x20008 + 4 * (v / 32)) (v % 32) true).onHost (fun h => { h with fired := h.fired ||| bit64 v })

/-- A write-back source fires; no message while the ring's last accepted doorbell entry has NOTIFY_OFF (R209, R221). -/
def State.fireRing (s : State) (src ring : Nat) : State :=
  let s := s.firedFlags src
  if (s.ring ring).notifyOff then s else s.message src

/-! ### Device-to-host entries (R216) -/

/-- Where the payload beside entry `i` of a ring lies (R386, R400, R362). -/
def State.payloadAddr (s : State) (r i : Nat) : Nat :=
  let k := i % s.ringSize r
  if r = 3 then s.reg64 0x210 / 4096 * 4096 + k * 128
  else if r = 4 then s.reg64 0x120810 + k * 16384
  else s.reg64 (0x100030 + 8 * (r - 54)) + k * 4096

/-- The seal of entry `i` of ring `r` (R207). -/
def entrySeal (r i : Nat) (body : List Byte) : Nat := crc32c (leBytes 4 r ++ leBytes 4 i ++ body)

/-- Bytes 0 to 27 of an entry (R216). -/
def D2h.body (e : D2h) (lost : Bool) (seq : Nat) : List Byte :=
  leBytes 4 (e.code + 256 * ((e.flags ||| (if lost then 1 else 0)) % 256) + 65536 * e.bits)
    ++ leBytes 4 e.w1.toNat ++ leBytes 4 e.w2.toNat ++ leBytes 4 e.w3.toNat ++ leBytes 8 e.time ++ leBytes 4 seq

/-- Write one entry to a device-to-host ring: payload, entry, consumer page entry (R33). The stamps of a ring never fall; those of ring 2
belong to its sources (R31). -/
def State.writeD2h (s : State) (r : Nat) (e : D2h) : State :=
  let x := s.ring r
  let stamp := if r = 2 then e.time else max e.time x.lastStamp
  let body := D2h.body { e with time := stamp } x.lost x.seq
  let s := if e.payload = [] then s else s.emit (.mem (s.payloadAddr r x.wr) e.payload)
  let s := s.emit (.mem (s.ringBase r + 32 * (x.wr % s.ringSize r)) (body ++ leBytes 4 (entrySeal r x.wr body)))
  let s := s.setRing r
    { x with wr := idxAdd x.wr 1, seq := if x.seq = 0xFFFFFFFF then 1 else x.seq + 1, lost := false, lastStamp := stamp }
  s.consumerWrite r

/-- Write an entry, or drop it and mark the next (rings 2 and 20 to 23: "record dropped; next carries LOST"). -/
def State.writeOrDrop (s : State) (r lostCounter : Nat) (e : D2h) : State :=
  if s.d2hFull r then (s.onRing r (fun x => { x with lost := true })).bump lostCounter 1 else s.writeD2h r e

/-- Interrupt source 24 to 63 fires for an event of the instant `time`: its ring 2 SOURCE entry first, then its message
(R221). -/
def State.fireAt (s : State) (v : Nat) (w1 w2 w3 : Word) (time : Nat) : State :=
  let s := s.firedFlags v
  let time := max time (Cells.get (fun _ => 0) s.host.evStamp v)
  let s := s.onHost (fun h => { h with evStamp := Cells.put (fun _ => 0) h.evStamp v time })
  let s := s.writeOrDrop 2 0x10114
    { code := 1, flags := 0, bits := v, w1 := w1, w2 := w2, w3 := w3, time := time, payload := [] }
  s.message v

/-- Interrupt source 24 to 63 fires now. -/
def State.fire (s : State) (v : Nat) (w1 w2 w3 : Word) : State := s.fireAt v w1 w2 w3 s.now

/-- Interrupt source 24 to 63 fires now with data words that its chapter does not define: each is a free value. -/
def State.fireOpen (s : State) (v : Nat) : State :=
  let (a, s) := s.fresh (2 ^ 32)
  let (b, s) := s.fresh (2 ^ 32)
  let (c, s) := s.fresh (2 ^ 32)
  s.fire v (BitVec.ofNat 32 a) (BitVec.ofNat 32 b) (BitVec.ofNat 32 c)

/-- Any other ring 2 entry (R216); it fires source 1. -/
def State.ring2Entry (s : State) (code bits : Nat) (w1 w2 : Word) (time : Nat) : State :=
  let full := s.d2hFull 2
  let s := s.writeOrDrop 2 0x10114
    { code := code, flags := 0, bits := bits, w1 := w1, w2 := w2, w3 := 0, time := time, payload := [] }
  if full then s else s.fireRing 1 2

/-- Write waiting entries of a ring while it has room, each with its source (R205). -/
def State.drainGo (r : Nat) : List D2h → State → State
  | [], s => s.onRing r (fun x => { x with waiting := [] })
  | e :: es, s =>
    if s.d2hFull r then s.onRing r (fun x => { x with waiting := e :: es })
    else State.drainGo r es ((s.writeD2h r e).fireRing (ringSource r) r)

/-- The sections of a snapshot body (R401): window base, word count, and the latched words in ascending offset. -/
def Snap.bodyBytes (b : Snap) : List Byte :=
  (windows.map (fun w =>
    let l := b.body.filter (fun p => decide (w.first ≤ p.1) && decide (p.1 ≤ w.last))
    if l = [] then []
    else leBytes 4 w.first ++ leBytes 2 l.length ++ leBytes 2 0 ++ (l.map (fun p => leBytes 4 p.2)).flatten)).flatten

/-- A snapshot as it lies in the payload area: its 64-byte header and its body (R401). -/
def Snap.bytes (b : Snap) : List Byte :=
  let body := b.bodyBytes
  leBytes 8 b.epoch ++ leBytes 8 b.start ++ leBytes 8 b.finish ++ leBytes 4 b.frames ++ leBytes 4 b.n ++ leBytes 2 b.flags
    ++ leBytes 2 b.epochs ++ leBytes 4 body.length ++ leBytes 4 (crc32c body) ++ List.replicate 20 0 ++ body

/-- The ring 4 entry of a snapshot (R401). -/
def Snap.entry (b : Snap) : D2h :=
  { code := 1, flags := 0, bits := 0, w1 := BitVec.ofNat 32 b.epoch, w2 := BitVec.ofNat 32 (b.epoch / 2 ^ 32)
    w3 := BitVec.ofNat 32 (b.frames % 2 ^ 24 + 2 ^ 24 * (b.flags % 256)), time := b.finish, payload := b.bytes }

/-- Full snapshot banks go to ring 4 while it has room, the earlier first (R400). -/
def State.drainSnapsGo : List Snap → State → State
  | [], s => { s with sta := { s.sta with banks := [] } }
  | b :: bs, s =>
    if s.d2hFull 4 then { s with sta := { s.sta with banks := b :: bs } }
    else State.drainSnapsGo bs (((s.writeD2h 4 b.entry).fireRing (ringSource 4) 4).bump 0x120900 1)

/-- The ring 5 entry of a trace record (R163). -/
def TraceRec.entry (t : TraceRec) : D2h :=
  { code := t.event, flags := (if t.abort then 1 else 0) + (if t.slice then 2 else 0), bits := t.node % 4096 + 4096 * (t.level % 16)
    w1 := BitVec.ofNat 32 (t.flow + 65536 * t.core + 16777216 * t.inst), w2 := 0, w3 := 0, time := t.time, payload := [] }

/-- The trace buffer drains to ring 5 while it has room, oldest record first (R163). -/
def State.drainTraceGo : List TraceRec → State → State
  | [], s => { s with wick := { s.wick with trace := [] } }
  | t :: ts, s =>
    if s.d2hFull 5 then { s with wick := { s.wick with trace := t :: ts } }
    else State.drainTraceGo ts ((s.writeD2h 5 t.entry).fireRing (ringSource 5) 5)

/-- A device-to-host ring takes what waits for it. -/
def State.drain (s : State) (r : Nat) : State :=
  if r = 4 then State.drainSnapsGo s.sta.banks s
  else if r = 5 then State.drainTraceGo s.wick.trace s
  else State.drainGo r (s.ring r).waiting s

/-- A source produces an entry that waits where its ring is full (R205). -/
def State.enqueue (s : State) (r : Nat) (e : D2h) : State :=
  (s.onRing r (fun x => { x with waiting := x.waiting ++ [e] })).drain r

/-! ### Audit log (R383 to R388) -/

/-- An entry of the main buffer, waiting on ring 3: CODE 1 and not written from the reserve. -/
def D2h.inMain (e : D2h) : Bool := e.code == 1 && !((e.payload.getD 11 0).getLsbD 0)

/-- FILL of MGT_AUD_STATUS: entries buffered or reserved (R387). -/
def State.auditFill (s : State) : Nat := s.audit.reserved + ((s.ring 3).waiting.filter D2h.inMain).length

/-- Room for `n` more entries (R387). -/
def State.auditRoom (s : State) (n : Nat) : Bool := decide (s.auditFill + n ≤ 4096)

/-- Source 46 at the upward crossings of 3,072 and 4,096 (R387). -/
def State.auditCross (s : State) (before : Nat) : State :=
  let f := s.auditFill
  let s := if before < 3072 ∧ 3072 ≤ f then (s.setFlag 0x200 30 true).fire 46 1 (BitVec.ofNat 32 f) 0 else s
  if before < 4096 ∧ 4096 ≤ f then s.fire 46 2 (BitVec.ofNat 32 f) 0 else s

/-- Space for `n` entries is reserved when a change is accepted (R383). -/
def State.auditReserve (s : State) (n : Nat) : State :=
  let b := s.auditFill
  (s.onAudit (fun a => { a with reserved := a.reserved + n })).auditCross b

/-- A change that is aborted releases its space (R383). -/
def State.auditRelease (s : State) (n : Nat) : State := s.onAudit (fun a => { a with reserved := a.reserved - n })

/-- Bytes 0 to 23 of an entry (R384). -/
def auditBody (time origin originId kind flags : Nat) (target old new : Word) : List Byte :=
  leBytes 8 time ++ leBytes 1 origin ++ leBytes 1 originId ++ leBytes 1 kind ++ leBytes 1 flags
    ++ leBytes 4 target.toNat ++ leBytes 4 old.toNat ++ leBytes 4 new.toNat

/-- A record joins the journal; only the newest of each kind is ever read (R412). -/
def Journal.sameKind : Journal → Journal → Bool
  | .snuffer .., .snuffer .. => true
  | .reserve .., .reserve .. => true
  | _, _ => false
def State.journalWrite (s : State) (j : Journal) : State :=
  { s with pwr := { s.pwr with journal := j :: s.pwr.journal.filter (fun k => !Journal.sameKind j k) } }

/-- An entry joins the hash chain and waits for ring 3; each 256th owes a checkpoint and has firmware write a reservation record
(R384 to R386, R412). -/
def State.chainEntry (s : State) (time origin originId kind flags : Nat) (target old new : Word) : State :=
  let time := max time s.audit.lastTime
  let body := auditBody time origin originId kind flags target old new
  let hash := (sha256 (leBytes 8 s.audit.hash ++ body)).take 8
  let i := s.audit.index
  let s := s.onAudit (fun a =>
    { a with index := i + 1, hash := leNat hash, lastTime := time,
             owed := if (i + 1) % 256 = 0 then a.owed ++ [(i, time, leNat hash)] else a.owed })
  let s := if (i + 1) % 256 = 0 then s.journalWrite (.reserve (i + 257) s.now) else s
  s.enqueue 3 { code := 1, flags := 0, bits := 0, w1 := BitVec.ofNat 32 i, w2 := BitVec.ofNat 32 (i / 2 ^ 32), w3 := 0,
                time := time, payload := body ++ hash ++ List.replicate 96 0 }

/-- A logged change takes effect: its reserved entry is written. -/
def State.auditWriteBy (s : State) (origin oid kind flags : Nat) (target old new : Word) : State :=
  (s.auditRelease 1).chainEntry s.now origin oid kind flags target old new
def State.auditWrite (s : State) (origin kind flags : Nat) (target old new : Word) : State :=
  (s.auditRelease 1).chainEntry s.now origin 0 kind flags target old new

/-- A logged change accepted and taking effect at once. -/
def State.auditNow (s : State) (origin originId kind flags : Nat) (target old new : Word) : State :=
  ((s.auditReserve 1).auditRelease 1).chainEntry s.now origin originId kind flags target old new

/-- RESERVE of MGT_AUD_STATUS: reserve entries in use (R388). -/
def State.auditReserveUsed (s : State) : Nat := ((s.ring 3).waiting.filter (fun e => e.code == 1 && !e.inMain)).length

/-- A Snuffer action is logged: from the reserve where the main buffer is full, and counted where the reserve is full too (R388). -/
def State.auditSnuffer (s : State) (kind : Nat) (target : Word) : State :=
  if s.auditRoom 1 then s.auditNow 6 0 kind 0 target 0 0
  else if s.auditReserveUsed < 32 then s.chainEntry s.now 6 0 kind 1 target 0 0
  else s.bump 0x304 1

/-- A change that nothing can hold back is logged: where the buffer is full its entry waits for space. -/
def State.auditLate (s : State) (origin kind flags : Nat) (target old new : Word) : State :=
  if s.auditRoom 1 ∧ s.audit.late = [] then s.auditNow origin 0 kind flags target old new
  else
    s.onAudit (fun a =>
      { a with late := a.late ++ [{ time := s.now, origin := origin, kind := kind, flags := flags, target := target, old := old
                                    new := new }] })

/-- ORIGIN and ORIGIN_ID of R384. -/
def originCode : Origin → Nat
  | .host => 0 | .firmware => 1 | .peer _ => 2 | .debug => 3
def originId : Origin → Nat
  | .peer a => a
  | _ => 0

/-- A logged write of a field that starts something: its entry, then what it starts; discarded where the log has no room (R10, R387). -/
def State.pulseWrite (s : State) (o : Origin) (off : Nat) (old new : Word) (act : State → State) : State :=
  if s.auditRoom 1 then act (s.auditNow (originCode o) (originId o) 0x01 0 (BitVec.ofNat 32 off) old new) else s.bump 0x300 1

/-! ### Descriptors and completions (R206, R212 to R214) -/

def Desc.opcode (d : Desc) : Nat := field d.w0 7 0
def Desc.flags (d : Desc) : Nat := field d.w0 15 8
def Desc.spec (d : Desc) : Nat := field d.w0 31 16
def Desc.addr (d : Desc) : Nat := d.w2.toNat + 2 ^ 32 * d.w3.toNat
def Desc.time (d : Desc) : Nat := d.w4.toNat + 2 ^ 32 * d.w5.toNat
/-- Who sent a descriptor (R384). -/
def Desc.origin (d : Desc) : Origin := match d.peer with | some a => .peer a | none => .host
def Desc.isDone (d : Desc) : Bool := match d.phase with | .done _ _ _ _ => true | _ => false

def stOk : Nat := 0x0000
def stAborted : Nat := 0x0001
def stTooLate : Nat := 0x0002
def stBadSeal : Nat := 0x0003
def stBadOpcode : Nat := 0x0004
def stBadDesc : Nat := 0x0005
def stNotFound : Nat := 0x0006
def stBadRing : Nat := 0x0007
def stRingBusy : Nat := 0x0008
def stDmaError : Nat := 0x0009

/-- The 16-byte completion record (R213). -/
def completionRecord (cookie : Word) (status flags time : Nat) (phase : Bool) : List Byte :=
  leBytes 4 cookie.toNat ++ leBytes 2 status ++ leBytes 2 (flags % 4096 + (if phase then 0x8000 else 0)) ++ leBytes 8 time

/-- Ring 1 takes a completion entry; PHASE is 1 on its even laps (R214). It is a write-back of its own ring and of ring 1: NOTIFY_OFF of
either holds the message back (R209, R221). -/
def State.writeRing1 (s : State) (e : List Byte) (ring : Nat) : State :=
  let x := s.ring 1
  let ph := (x.wr / s.ringSize 1) % 2 = 0
  let body := (e.take 7) ++ [(e.getD 7 0) ||| (if ph then 0x80 else 0)] ++ e.drop 8
  let s := s.emit (.mem (s.ringBase 1 + 32 * (x.wr % s.ringSize 1)) (body ++ leBytes 4 (entrySeal 1 x.wr body)))
  let s := s.setRing 1 { x with wr := idxAdd x.wr 1 }
  let s := (s.consumerWrite 1).firedFlags 0
  if (s.ring ring).notifyOff || (s.ring 1).notifyOff then s else s.message 0

/-- A completion for ring 1, or its place among the up to 256 that wait for room (R214). -/
def State.toRing1Entry (s : State) (e : List Byte) (ring : Nat) : State :=
  if s.d2hFull 1 || !s.host.wait1.isEmpty then s.onHost (fun h => { h with wait1 := h.wait1 ++ [e] }) else s.writeRing1 e ring

/-- Write the completion of a descriptor that has ended (R213 to R215, R33). -/
def State.writeCompletion (s : State) (r : Nat) (d : Desc) : State :=
  match d.phase with
  | .done status flags time result =>
    let x := s.ring r
    let stamp := max time x.lastStamp
    let s := s.onRing r (fun x => { x with lastStamp := stamp })
    let s := if status = stAborted then s.bump 0x10118 1 else s
    if d.peer.isSome then
      { s with link := { s.link with replies := s.link.replies ++ [(d.peer.getD 0, completionRecord d.w6 status flags stamp true)] } }
    else if s.toRing1 r then
      s.toRing1Entry (completionRecord d.w6 status flags stamp false ++ leBytes 4 d.index ++ leBytes 1 r
        ++ leBytes 1 d.opcode ++ leBytes 2 0 ++ leBytes 4 (result.getD 0).toNat) r
    else
      let slot := s.ringBase r + 32 * (d.index % s.ringSize r)
      let s := match result with
        | some w => s.emit (.mem (slot + 4) (leBytes 4 w.toNat))
        | none => s
      let s := s.emit (.mem (slot + 16) (completionRecord d.w6 status flags stamp true))
      let s := s.onRing r (fun x => { x with cons := idxAdd x.cons 1 })
      (s.consumerWrite r).fireRing (ringSource r) r
  | _ => s

/-- The row of R457 a ring 0 command falls in, and what it names there. -/
def subsystem (d : Desc) : Option (Nat × Nat) :=
  let op := d.opcode
  if op = 0x90 ∨ op = 0x91 then some (1, 0)
  else if op = 0xE2 ∨ op = 0xE3 then some (2, 0)
  else if op = 0xE1 then some (3, 0)
  else if op = 0xD1 ∨ op = 0xD2 then some (4, 0)
  else if op = 0x92 then some (5, field d.w0 23 16)
  else if op = 0xB1 ∨ op = 0xB2 then some (6, field d.w0 23 16)
  else if op = 0xA1 ∨ op = 0xA2 ∨ op = 0xA3 then some (7, field d.w0 21 16)
  else if op = 0xC1 then some (8, 0)
  else none

/-- The cluster a TARGET of R24 lies in, where it is part of one. -/
def targetCluster (t : Nat) : Option Nat :=
  if t < 0x80 then some (t / 8)
  else if 0x80 ≤ t ∧ t < 0x90 then some (t - 0x80)
  else if 0xC0 ≤ t ∧ t < 0xE0 then some (t % 16)
  else none

/-- Two TARGETs of CTL_ACTION name the same block (R457). -/
def sameBlock (a b : Nat) : Bool :=
  a == b || (((0xC0 ≤ a && a < 0xD0) || (0xC0 ≤ b && b < 0xD0)) &&
    (targetCluster a).isSome && targetCluster a == targetCluster b)

/-- A later descriptor completes after an earlier one: always, but on ring 0 only within one subsystem (R212, R457). -/
def ordered (r : Nat) (a b : Desc) : Bool :=
  if r = 0 then
    match subsystem a, subsystem b with
    | some (5, x), some (5, y) => sameBlock x y
    | some x, some y => x == y
    | _, _ => false
  else true

/-- Complete what has ended, in the order of R212; `kept` are the earlier descriptors still outstanding. -/
def State.retireGo (r : Nat) : List Desc → List Desc → State → State
  | kept, [], s => s.onRing r (fun x => { x with descs := kept })
  | kept, d :: ds, s =>
    if d.isDone && (s.linkOk || d.peer.isSome) && kept.all (fun k => !ordered r k d) then State.retireGo r kept ds (s.writeCompletion r d)
    else State.retireGo r (kept ++ [d]) ds s

/-- Change the phase of an outstanding descriptor. -/
def State.setPhase (s : State) (r index : Nat) (p : Phase) : State :=
  s.onRing r (fun x => { x with descs := x.descs.map (fun d => if d.index = index then { d with phase := p } else d) })

/-- An ABORT whose target had not completed ends once it has: TOO_LATE where the target was past its commit point, OK where it was
withdrawn (R223). -/
def State.lateAbortsGo : List (Nat × Nat × Nat × Nat) → State → State
  | [], s => s
  | (a, r, i, st) :: l, s =>
    if (s.ring r).descs.any (fun d => d.index == i) then
      State.lateAbortsGo l (s.onHost (fun h => { h with lateAborts := h.lateAborts ++ [(a, r, i, st)] }))
    else State.lateAbortsGo l ((if st = stTooLate then s.bump 0x1011C 1 else s).setPhase 0 a (.done st 0 s.now none))

/-- Write every completion of a ring that is due; while the endpoint cannot write, they wait (R203). -/
def State.retireAll (s : State) (r : Nat) : State :=
  let s := State.retireGo r [] (s.ring r).descs s
  if s.host.lateAborts = [] then s
  else
    let l := s.host.lateAborts
    let s := State.lateAbortsGo l (s.onHost (fun h => { h with lateAborts := [] }))
    State.retireGo 0 [] (s.ring 0).descs s

/-- A MAC that is powered down reads as DISABLED and keeps its registers (R418). -/
def Mac.powerDown (m : Mac) : Mac :=
  { m with
    st := 0, lock := false, anDone := false, localFault := false, remoteFault := false, lpiRx := false, lpiTx := false
    line := none }

/-- PWR_STANDBY completes after the last operation past its commit point, and the engines power down (R418). -/
def State.standbyEnds (s : State) : State :=
  match s.pwr.standby with
  | none => s
  | some i =>
    if (List.range 63).all (fun r => isD2h (r + 1) || (s.ring (r + 1)).descs.isEmpty) then
      let s := { s with
        pwr := { s.pwr with standby := none }, macs := (List.range 4).foldl (fun (m : Cells Mac) (n : Nat) =>
          Cells.put (fun _ => Mac.reset) m n (Cells.get (fun _ => Mac.reset) m n).powerDown) s.macs
        mgt := { s.mgt with modState := 5 } }
      let s := s.setPhase 0 i (.done stOk 0 s.now none)
      State.retireGo 0 [] (s.ring 0).descs s
    else s

/-- Completions of a ring that are due are written, with what follows from them. -/
def State.retire (s : State) (r : Nat) : State := (s.retireAll r).standbyEnds

/-- A descriptor ends, stamped with `time`, and its completion is written as soon as R212 lets it. -/
def State.finishAt (s : State) (r index status flags time : Nat) (result : Option Word) : State :=
  (s.setPhase r index (.done status flags time result)).retire r

/-- As `finishAt`, stamped with the present instant. -/
def State.finish (s : State) (r index status : Nat) : State := s.finishAt r index status 0 s.now none

/-- The oldest descriptor of a ring that its engine has not accepted, where it has one of the opcodes. -/
def State.nextDesc (s : State) (r : Nat) (op : Nat) : Option Desc :=
  match (s.ring r).descs.find? (fun d => d.phase == .fetched) with
  | some d => if d.opcode = op then some d else none
  | none => none

/-- ORIGIN and ORIGIN_ID of the ring 0 command with an index. -/
def State.cmdOrigin (s : State) (index : Nat) : Nat × Nat :=
  match (s.ring 0).descs.find? (fun d => d.index == index) with
  | some d => (originCode d.origin, originId d.origin)
  | none => (0, 0)

/-- An outstanding descriptor. -/
def State.descAt (s : State) (r index : Nat) : Option Desc := (s.ring r).descs.find? (fun d => d.index == index)

/-- An outstanding descriptor that is accepted and not withdrawn. -/
def State.descLive (s : State) (r index : Nat) : Bool :=
  match s.descAt r index with
  | some d => d.phase == .accepted || d.phase == .committed
  | none => false

/-- Audit pressure holds a command back: its ring shows STALLED and the command waits (R212, R387). -/
def State.stall (s : State) (r : Nat) (c : Instr) : State :=
  let s := if (s.ring r).stalled then s else (s.onRing r (fun x => { x with stalled := true })).bump 0x308 1
  s.onAudit (fun a => { a with waiting := if a.waiting.contains c then a.waiting else a.waiting ++ [c] })

/-! ### Planes and boundaries -/

def State.anyRun (s : State) : Bool := s.mgt.render.run || s.mgt.voice.run
/-- The module is stopped: STATE 3 (R440). -/
def State.isStopped (s : State) : Bool := s.mgt.modState == 3
/-- MGT_STATUS as the planes and the module state give it (R440). -/
def State.mgtStatus (s : State) : Word :=
  BitVec.ofNat 32 (s.mgt.modState + (if s.mgt.render.run then 0x100 else 0) + (if s.mgt.voice.run then 0x200 else 0))

/-- A timed request accepted now. -/
def State.request (s : State) (index time : Nat) : Req :=
  { index := index, time := time, accTime := s.now, accFrame := s.mgt.tick.count,
    accOnTick := s.mgt.tick.last == s.now && decide (0 < s.mgt.tick.count) }

/-- The render frame boundary just opened is F for the request: at or after T, and at least one whole render frame
after acceptance (R20, R23). -/
def State.reqDue (s : State) (q : Req) : Bool :=
  decide (q.time ≤ s.mgt.tick.last) &&
    (decide (q.accFrame + 2 ≤ s.mgt.tick.count) || (q.accOnTick && decide (q.accFrame + 1 ≤ s.mgt.tick.count)))

/-- The render rate in hertz that MNT_CTRL sets (R319). -/
def State.renderRate (s : State) : Nat :=
  (if s.flag 0xE0000 8 then 44100 else 48000) * 2 ^ min 2 (s.fld 0xE0000 6 5)

/-- The rate class 0, 1 or 2 of R4: base, double, quadruple. -/
def State.rateClass (s : State) : Nat := min 2 (s.fld 0xE0000 6 5)

/-- The nominal length of `n` samples, in ns, rounded down (R30). -/
def State.samplesNs (s : State) (n : Nat) : Nat := n * 1000000000 / s.renderRate

/-- The interval the last tick took from the tick before it; none where the nominal period stands in its place (R30). -/
def Ticks.span (t : Ticks) : Option Nat := if t.captured < 2 then none else some (t.last - t.prev)

/-- The instant of sample `i` of a frame whose tick was captured at `last` (R30). -/
def tickSample (fs last : Nat) (span : Option Nat) (i : Nat) : Nat :=
  match span with
  | none => last + i * 1000000000 / fs
  | some d => last + i * d / 32

/-- The instant of sample `i` of the frame the last tick opened (R30). -/
def State.sampleInstant (s : State) (i : Nat) : Nat := tickSample s.renderRate s.mgt.tick.last s.mgt.tick.span i

/-- The instant of sample `i` of the frame `k` frames before the open one (R30); `past` frames on, the nominal period leads back. -/
def State.pastSample (s : State) (k i : Nat) : Nat :=
  match s.mgt.tick.past[k - 1]? with
  | some (t, d) => tickSample s.renderRate t d i
  | none =>
    let n := 32 * (k - s.mgt.tick.past.length) - i
    (s.mgt.tick.past.getLast?.map (·.1)).getD s.mgt.tick.last - (n * 1000000000 + s.renderRate - 1) / s.renderRate

/-- The instant `n` samples before the frame the last tick opened. -/
def State.instantAgo (s : State) (n : Nat) : Nat :=
  if n = 0 then s.sampleInstant 0 else s.pastSample ((n + 31) / 32) (32 * ((n + 31) / 32) - n)

/-- Objects and outputs the render rate admits (R4). -/
def State.maxObj (s : State) : Nat := if s.rateClass = 2 then 512 else 1024
def State.maxOut (s : State) : Nat := if s.rateClass = 2 then 256 else 512

/-- A plain answer: the machine goes on. -/
abbrev Res := Host.Outcome State Fault Refusal

end Sys2Proof.Machine
end

