-- ==== Sys2Proof/Machine/Events.lean ====
section
/-!
DEFINITION. Machine/Events.lean: the interrupt sources that write at most one entry per render frame (R371, R452), and
the counters of bad blocks (R389).
-/
namespace Sys2Proof.Machine

/-- An event of source 40 to 45 in this frame: the first is described, all are counted (R371, R452). -/
def State.noteEvent (s : State) (src w1 w2 w3 : Nat) : State :=
  let e : FrameEv := match Cells.get (fun _ => none) s.evs src with
    | none => { time := s.now, w1 := w1, w2 := w2, w3 := w3, count := 1 }
    | some e => { e with count := e.count + 1 }
  { s with evs := Cells.put (fun _ => none) s.evs src (some e) }

/-- An event of source 53 in this frame: word 1 bits, late object blocks, shed paths (R452). -/
def State.note53 (s : State) (bits late shed : Nat) : State :=
  let e : RenderEv := match s.ev53 with
    | none => { time := s.now, bits := bits, late := late, shed := shed }
    | some e => { e with bits := e.bits ||| bits, late := e.late + late, shed := e.shed + shed }
  { s with ev53 := some e }

/-- The entry of one per-frame source, at the tick that ends the frame. -/
def State.flushEvent (s : State) (src : Nat) : State :=
  match Cells.get (fun _ => none) s.evs src with
  | none => s
  | some e =>
    s.fireAt src (BitVec.ofNat 32 e.w1) (BitVec.ofNat 32 e.w2) (BitVec.ofNat 32 (e.w3 * 65536 + satU 16 e.count)) e.time

/-- All per-frame sources write their entries at a tick (R371, R452). -/
def State.flushEvents (s : State) : State :=
  let s := [40, 41, 42, 43, 44, 45].foldl State.flushEvent s
  let s := { s with evs := [] }
  match s.ev53 with
  | none => s
  | some e =>
    State.fireAt { s with ev53 := none } 53 (BitVec.ofNat 32 e.bits)
      (BitVec.ofNat 32 (satU 16 e.late + 65536 * satU 16 e.shed)) 0 e.time

/-- A block became bad in a plane: 1 Render, 2 Voice, 3 I/O (R389). -/
def State.badBlock (s : State) (plane : Nat) : State :=
  s.bump (if plane = 1 then 0x110214 else if plane = 2 then 0x110218 else 0x11021C) 1

/-- A seal failure (R369). -/
def State.sealFailure (s : State) (stream channel seq plane : Nat) : State :=
  (((s.bump 0x110200 1).badBlock plane).noteEvent 40 (stream + 65536 * channel) seq 0)

end Sys2Proof.Machine
end

