-- ==== Sys2Proof/Machine/Dram.lean ====
section
/-!
DEFINITION. Machine/Dram.lean: what Gualbin's engines reserve: the Gualbin region of DRAM (R59, R88, R115, R234) and the tile memory of the
Render plane (R89). What a reservation holds stands in the engine's own state; here are its places. Then what a request does to its
channel: power-down, self-refresh and the write queue (R234, R235, R238, R239).
-/
namespace Sys2Proof.Machine

/-- The place of an item of a list packed from `pos` on, each after a free gap of whole units; the gaps take no more than `slack`. -/
def placeAt (gap : Nat → Nat) (unit : Nat) : Nat → Nat → List (Nat × Nat) → Nat → Nat
  | pos, _, [], _ => pos
  | pos, slack, (i, n) :: l, id =>
    let g := unit * (gap i % (slack / unit + 1))
    if i = id then pos + g else placeAt gap unit (pos + g + n) (slack - g) l id

/-! ### The Gualbin region: the lowest 2 GiB of DRAM (R234) -/

/-- What lies there, with its bytes: 0 the bulk lines, 1 the convolution, 2 the jitter buffers, 3 and 4 the staging buffers of rings 14 and
15, 5 Vigil's pattern window. -/
def reservations : List (Nat × Nat) :=
  [(0, 1253376000), (1, 444923904), (2, 33554432), (3, 163840), (4, 163840), (5, 67108864)]
/-- Where a reservation begins: the manual does not say. -/
def reservedAt (id : Nat) : Nat :=
  placeAt Config.regionGap 4096 0 (0x80000000 - reservations.foldl (fun a x => a + x.2) 0) reservations id

/-- A start of a plane reserves its engines' DRAM (R59, R88, R115). -/
def State.reserveDram (s : State) (p : Nat) : State :=
  if p = 1 then
    { s with
      rnd := { s.rnd with region := some (reservedAt 0) }
      cnv := { s.cnv with region := some (reservedAt 1) } }
  else { s with vox := { s.vox with region := some (reservedAt 2) } }

/-- Bytes of a bulk line at the render rate (R59). -/
def State.bulkLineBytes (s : State) : Nat := if s.rateClass = 0 then 408000 else if s.rateClass = 1 then 816000 else 1632000
/-- Where the bulk line of an object, or of an output, begins: the objects' lines, then the outputs' (R59). -/
def State.bulkLineAt (s : State) (output : Bool) (i : Nat) : Option Nat :=
  s.rnd.region.map (fun b => b + s.bulkLineBytes * (if output then s.maxObj + i else i))
/-- Where sample `k` of a line lies, and the sidecar of block `k`: the samples, then the sidecars (R59). -/
def State.bulkSampleAt (s : State) (output : Bool) (i k : Nat) : Option Nat := (s.bulkLineAt output i).map (fun b => b + 4 * k)
def State.bulkSidecarAt (s : State) (output : Bool) (i k : Nat) : Option Nat :=
  (s.bulkLineAt output i).map (fun b => b + 128 * (2 * s.renderRate / 32) + 8 * k)

/-- The parts of an output's 868,352 bytes of DRAM, each with its size (R88): the input line; segment B's FDL and the filter spectra of both
banks; segment C's; the doubled tail buffers of B and C. -/
def convParts : List Nat := [32768, 24576, 49152, 229376, 458752, 73728]
/-- Where part `k` of an output's DRAM begins: outputs in order, parts in the order of R88. -/
def State.convPartAt (s : State) (o k : Nat) : Option Nat :=
  s.cnv.region.map (fun b => b + 868352 * o + (convParts.take k).foldl (· + ·) 0)
/-- Where spectrum `j` of the FDL of segment B or C lies: 8 bytes a bin, DC and Nyquist packed into bin 0 (R88). -/
def State.spectrumAt (s : State) (o seg j : Nat) : Option Nat :=
  (s.convPartAt o (if seg = 1 then 1 else 3)).map (fun b => b + 8 * (if seg = 1 then 512 else 4096) * j)
/-- The staging buffer of ring 14 or 15 (R81, R88). -/
def stagingAt (ring : Nat) : Nat := reservedAt (ring - 11)

/-- The jitter buffer of a channel: 65,536 bytes (R115). -/
def State.jitterAt (s : State) (v : Nat) : Option Nat := s.vox.region.map (fun b => b + 65536 * v)
/-- The coefficients and the far-end history of a channel in the voice SRAM (R115). -/
def echoCoefAt (v : Nat) : Nat := 8192 * v
def echoHistAt (v : Nat) : Nat := 8192 * v + 4096

/-! ### Home tile memory (R74, R89) -/

/-- The home cluster of an output (R74). -/
def State.homeCluster (s : State) (o : Nat) : Nat := o % max 1 s.mgt.split
/-- The parts of an output's 24,960 bytes of its home tile memory (R89): head taps of both banks, head history, segment A's FDL, filter
spectra of both banks, input overlap and tail buffer. -/
def homeParts : List Nat := [512, 384, 7680, 15360, 512, 512]
/-- Transform work space of a Render cluster (R89). -/
def convWork : Nat := 98304
/-- Tile bytes Gualbin takes in a cluster of a plane: for Render the outputs at home there and the work space (R89). -/
def gualbinTile (outs clusters p : Nat) : Nat := if p = 1 then ((outs + clusters - 1) / max 1 clusters) * 24960 + convWork else 0
/-- Where part `k` of an output lies in its home tile memory, from the base of Gualbin's part: outputs in order, then the work space. -/
def State.homePartAt (s : State) (base o k : Nat) : Nat :=
  base + 24960 * (o / max 1 s.mgt.split) + (homeParts.take k).foldl (· + ·) 0

/-! ### Requests at the channels (R234, R235, R238, R239) -/

def chanDflt (_ : Nat) : DramChan := DramChan.start
def State.chan (s : State) (ch : Nat) : DramChan := Cells.get chanDflt s.dram.chans ch
def State.onChan (s : State) (ch : Nat) (f : DramChan → DramChan) : State :=
  { s with dram := { s.dram with chans := Cells.put chanDflt s.dram.chans ch (f (s.chan ch)) } }

/-- A channel leaves self-refresh. -/
def State.leaveSelfRefresh (s : State) (ch : Nat) : State :=
  if (s.chan ch).selfRefresh then
    (s.onChan ch (fun c => { c with selfRefresh := false })).fire 61 (BitVec.ofNat 32 (2 ^ ch)) 2 0
  else s

/-- A request ends power-down. The write queue has drained since an earlier instant, for then no read waited (R235). -/
def DramChan.wake (c : DramChan) (now : Nat) : DramChan :=
  { c with powerDown := false, lastReq := now, wq := if c.lastReq = now then c.wq else [] }

/-- A line is written into the queue, merged with its entry; at 48 entries a turn of 8 drains. -/
def DramChan.write (c : DramChan) (line mask : Nat) : DramChan :=
  let q := if c.wq.any (fun e => e.1 == line) then c.wq.map (fun e => if e.1 = line then (e.1, e.2 ||| mask) else e)
    else c.wq ++ [(line, mask)]
  { c with wq := if 48 ≤ q.length then q.drop 8 else q }

/-- How a read of a line meets the queue: 0 not, 1 in part, 2 wholly. -/
def DramChan.forward (c : DramChan) (line mask : Nat) : Nat :=
  match c.wq.find? (fun e => e.1 == line) with
  | some e => if e.2 &&& mask = mask then 2 else if e.2 &&& mask = 0 then 0 else 1
  | none => 0

/-- The lines of 64 bytes that a request touches, each with its bytes. -/
def dramLines (addr n : Nat) : List (Nat × Nat) :=
  (List.range ((addr + n + 63) / 64 - addr / 64)).map (fun i =>
    let line := addr / 64 + i
    let a := max addr (64 * line)
    let b := min (addr + n) (64 * line + 64)
    (line, 2 ^ (b - 64 * line) - 2 ^ (a - 64 * line)))

/-- The channel of a line: bits [12:11] of its address (R234). -/
def lineChan (line : Nat) : Nat := line / 32 % 4

/-- A request reaches the channel of a line. -/
def State.dramTouch (s : State) (line : Nat) : State :=
  (s.leaveSelfRefresh (lineChan line)).onChan (lineChan line) (fun c => c.wake s.now)

/-- DRAM is written: the lines enter the write queues. -/
def State.dramWrite (s : State) (addr n : Nat) : State :=
  (dramLines addr n).foldl (fun s l => (s.dramTouch l.1).onChan (lineChan l.1) (fun c => c.write l.1 l.2)) s

/-- DRAM is read: DMC_FWD_FULL and DMC_FWD_PART count the lines that the queues serve. -/
def State.dramRead (s : State) (addr n : Nat) : State :=
  (dramLines addr n).foldl (fun s l =>
    let s := s.dramTouch l.1
    match (s.chan (lineChan l.1)).forward l.1 l.2 with
    | 2 => s.bump 0x40100 1
    | 1 => s.bump 0x40104 1
    | _ => s) s

end Sys2Proof.Machine
end

