-- ==== Sys2Proof/Machine/Cancel.lean ====
section
/-!
DEFINITION. Machine/Cancel.lean: withdrawing an operation that has not reached its commit point (R220, R223): what its
engine holds for it is released and it has no effect.
-/
namespace Sys2Proof.Machine

/-- VOX_IDLE (R122). -/
def voxIdleSt : Nat := 0x0503

/-- The ring on which a command waits for audit space (R212, R387); none: a change of firmware or Vigil, which no ring holds. -/
def waitRing (c : Instr) : Option Nat :=
  match c with
  | .swap r | .voxOpen r _ | .voxModify r _ | .voxClose r | .imgLoad r _ _ _ => some r
  | .bankCopyDone _ _ | .controlActionExecute _ _ | .spareRotation _ _ _ => none
  | _ => some 0

/-- A stalled descriptor is withdrawn: its ring is no longer held back. -/
def State.unstall (s : State) (ring index : Nat) : State :=
  let first := ((s.ring ring).descs.find? (fun d => d.phase == .fetched)).map (·.index)
  if (s.ring ring).stalled ∧ first = some index then
    (s.onRing ring (fun x => { x with stalled := false })).onAudit (fun a =>
      { a with waiting := a.waiting.filter (fun c => waitRing c != some ring) })
  else s

/-- Space reserved for a change that is withdrawn is released (R383). -/
def State.releaseIf (s : State) (b : Bool) : State := if b then s.auditRelease 1 else s

/-- Control actions, plane starts and stops, and slice changes of a ring 0 command. -/
def State.cancelActions (s : State) (index : Nat) : State :=
  let mine := fun (q : Req) => q.index == index
  let had := fun (q : Option Req) => (match q with | some q => mine q | none => false)
  let m := s.mgt
  let s := s.releaseIf (m.ctl.any (fun c => c.origin == 0 && mine c.req))
  let s := s.releaseIf (had m.render.start || had m.render.stop || had m.voice.start || had m.voice.stop)
  let s := s.releaseIf (s.link.slices.any mine)
  let drop := fun (p : PlaneSt) => 
    { p with start := p.start.filter (fun q => !mine q), stop := p.stop.filter (fun q => !mine q) }
  let s := s.onMgt (fun m =>
    { m with ctl := m.ctl.filter (fun c => !(c.origin == 0 && mine c.req)), render := drop m.render, voice := drop m.voice })
  { s with link := { s.link with slices := s.link.slices.filter (fun q => !mine q) } }

/-- A retirement or rotation of a tile that a ring 0 command asked for: a copy in progress is given up. -/
def State.cancelTiles (s : State) (index : Nat) : State :=
  s.tiles.foldl (fun s p =>
    if p.2.next.any (fun n => n.2.1 == index) then
      { s with tiles := Cells.put (fun _ => Tile.idle0) s.tiles p.1 { p.2 with next := none } }.auditRelease 1
    else
    if p.2.cmd = some index then
      let s := { s with tiles := Cells.put (fun _ => Tile.idle0) s.tiles p.1 { p.2 with phase := 0, cmd := none } }
      (s.setFlag (0x6080C + 0x1000 * p.1) 8 false).auditRelease 1
    else s) s

/-- A start or stop of a stream (R294, R304). -/
def State.cancelStreams (s : State) (index : Nat) : State :=
  s.streams.foldl (fun s p =>
    match p.2.ops.find? (fun o => o.2.index == index) with
    | none => s
    | some (start, _) =>
      let x := p.2
      let ops := x.ops.filter (fun o => o.2.index != index)
      let y := if start then { Stream.idle0 with ops := ops }
        else { x with ops := ops, st := if x.st = 3 ∧ ¬ ops.any (fun o => !o.1) then 2 else x.st }
      { s with streams := Cells.put (fun _ => Stream.idle0) s.streams p.1 y }.auditRelease 1) s

/-- A metadata descriptor not yet latched (R40), a parameter load or a swap (R106, R110), a filter load (R81). -/
def State.cancelAudio (s : State) (ring index : Nat) : State :=
  let gone := s.mix.swaps.filter (fun w => w.ring == ring && w.index == index)
  let outs := (gone.map (·.outs)).flatten
  let s := s.releaseIf (!gone.isEmpty)
  { s with
    rnd := { s.rnd with waiting := s.rnd.waiting.filter (fun d => !(d.ring == ring && d.index == index)) }
    cnv := { s.cnv with
      loads := s.cnv.loads.filter (fun l => !(l.ring == ring && l.index == index))
      outs := s.cnv.outs.foldl (fun m p => Cells.put (fun _ => ConvOut.reset) m p.1
        (if outs.contains p.1 then { p.2 with pending := false } else p.2)) [] }
    mix := { s.mix with
      swaps := s.mix.swaps.filter (fun w => !(w.ring == ring && w.index == index))
      jobs := s.mix.jobs.filter (fun j => !(j.ring == ring && j.index == index)) } }

/-- What else was asked of a channel whose VOX_OPEN is withdrawn ends: its closes with OK, the rest with VOX_IDLE. -/
def State.endCalls (s : State) (c : VoxChan) (ops : List VoxOp) : State :=
  let fin := fun (s : State) (i st : Nat) => s.setPhase c.ring i (.done st 0 s.now none)
  let s := ops.foldl (fun s o => fin (s.auditRelease 1) o.req.index (if o.op = 0x32 then stOk else voxIdleSt)) s
  let s := c.keyReqs.foldl (fun s q => fin s q.1.index voxIdleSt) s
  c.queries.foldl (fun s q => fin s q.1 voxIdleSt) s

/-- Call control of one channel (R119, R123, R135, R137). -/
def State.cancelChan (s : State) (v : Nat) (c : VoxChan) (index : Nat) : State :=
  let put := fun (s : State) (c : VoxChan) => { s with vox := { s.vox with chans := Cells.put (fun _ => VoxChan.idle0) s.vox.chans v c } }
  let ops := c.ops.filter (fun o => o.req.index != index)
  match c.ops.find? (fun o => o.req.index == index) with
  | some o =>
    let s := s.auditRelease 1
    if o.op = 0x30 then (put s .idle0).endCalls c ops
    else
      let st := if o.op = 0x32 ∧ c.st = 3 ∧ c.closedAt.isNone ∧ ¬ ops.any (fun p => p.op == 0x32) then 2 else c.st
      put s { c with ops := ops, st := st }
  | none =>
    put s { c with
      keyReqs := c.keyReqs.filter (fun q => q.1.index != index), queries := c.queries.filter (fun q => q.1 != index) }

def State.cancelVoice (s : State) (ring index : Nat) : State :=
  s.vox.chans.foldl (fun s p => if p.2.st ≠ 0 ∧ p.2.ring = ring then s.cancelChan p.1 p.2 index else s) s

/-- A transmit descriptor: its frames not yet on the wire are passed over (R223). -/
def State.cancelTx (s : State) (ring index : Nat) : State :=
  let n := (ring - 24) / 4
  let m := Cells.get (fun _ => Mac.reset) s.macs n
  let mine := fun (x : TxMeta) => x.src == 0 && x.ring == ring && x.index == index
  let head := match m.launch.head? with | some p => mine p.1 | none => false
  { s with macs := Cells.put (fun _ => Mac.reset) s.macs n { m with
      jobs := m.jobs.filter (fun j => !(j.ring == ring && j.index == index))
      metas := m.metas.filter (fun p => match p.2 with | some x => !mine x | none => true)
      launch := m.launch.filter (fun p => !mine p.1), launched := m.launched && !head } }

/-- A host message that is blocked (R197). -/
def State.cancelPost (s : State) (ring index : Nat) : State :=
  { s with wick := { s.wick with
      blocked := s.wick.blocked.filter (fun q => !(q.core.isNone && q.ring == ring && q.index == index)) } }

/-- Whatever an engine holds for the descriptor with this index on this ring is released. -/
def State.cancel (s : State) (ring index : Nat) : State :=
  let s := s.unstall ring index
  if ring = 0 then ((s.cancelActions index).cancelTiles index).cancelStreams index
  else if 8 ≤ ring ∧ ring ≤ 15 then s.cancelAudio ring index
  else if 16 ≤ ring ∧ ring ≤ 19 then s.cancelVoice ring index
  else if 24 ≤ ring ∧ ring ≤ 39 then s.cancelTx ring index
  else if 56 ≤ ring ∧ ring ≤ 59 then s.cancelPost ring index
  else s

/-- The descriptor is withdrawn before its commit point and completes with ABORTED (R223). -/
def State.withdraw (s : State) (ring index : Nat) : State :=
  (s.cancel ring index).setPhase ring index (.done stAborted 0 s.now none)

/-- Withdraw every outstanding descriptor of a list that has not reached its commit point. -/
def State.withdrawGo (ring : Nat) : List Desc → State → State
  | [], s => s
  | d :: ds, s =>
    State.withdrawGo ring ds (if d.phase == .fetched || d.phase == .accepted then s.withdraw ring d.index else s)

/-- A ring stops fetching, or writing, at an index; what has not reached its commit point is ABORTED (R216, R218, R220). -/
def State.stopRing (s : State) (r cause : Nat) : State :=
  let s := s.onRing r (fun x => { x with state := .stopping, errCause := cause, stopIndex := if isD2h r then x.wr else x.fetched })
  let s := State.withdrawGo r (s.ring r).descs s
  s.retire r

/-- Rings 0 to 63 in turn. -/
def State.eachRing (f : Nat → State → State) (s : State) : State := (List.range 64).foldl (fun s r => f r s) s

end Sys2Proof.Machine
end

