-- ==== Sys2Proof/Machine/Signal.lean ====
section
/-!
DEFINITION. Machine/Signal.lean: what every audio stage does to a block of samples: linear ramps (R455), gain points
(R97 to R99), concealment (R61), and biquad sections (R103, R104).
-/
namespace Sys2Proof.Machine

/-- Put an element in a list sorted by `before`. -/
def insertBy (before : α → α → Bool) (x : α) : List α → List α
  | [] => [x]
  | y :: ys => if before x y then x :: y :: ys else y :: insertBy before x ys
/-- Insertion sort, stable. -/
def sortBy (before : α → α → Bool) (l : List α) : List α := l.foldr (insertBy before) []

/-- Unit gain in Q4.28 (R455). -/
def unity : Int := 2 ^ 28

/-- The Q4.28 gain of sample `i` of a linear ramp from `a` to `b` over `k` samples (R455). -/
def rampGain (a b : Int) (k i : Nat) : Int := if k ≤ i + 1 then b else a + ((i : Int) + 1) * ((b - a).tdiv k)

/-- A sample times a Q4.28 gain, saturated to 40 bits (R97). -/
def mulGain (x g : Int) : Int := satS 40 (roundShift (x * g) 28)

/-- Samples under a linear ramp of which `done` of `k` samples are behind. -/
def rampBlock (a b : Int) (k done : Nat) (xs : List Int) : List Int :=
  xs.mapIdx (fun i x => mulGain x (rampGain a b k (done + i)))

/-- A gain of 0.01 dB steps as Q4.28 (R97); −32,768 means off. -/
def gainQ28 (code : Int) : Int := if code = -32768 then 0 else (F32.exp10Ratio code 2000).toIntAway 28

def silence : List Int := List.replicate 32 0

def Block.isBad (b : Block) : Bool := (b.flags &&& 0x38) != 0
/-- Flag bits of R366. -/
def flagConcealed : Nat := 1
def flagPortAbsent : Nat := 2
def flagAbsent : Nat := 4
def flagSealFail : Nat := 8
def flagResidue : Nat := 16
def flagParity : Nat := 32
def Block.withFlag (b : Block) (f : Nat) : Block := { b with flags := b.flags ||| f }
/-- The block of an ingress channel with no feeder (R13). -/
def Block.absent : Block := { samples := silence, flags := flagAbsent, plane := 3 }

/-- The next block of a consumer under the concealment sequence of R61: the samples it uses and its new standing. -/
def Conceal.next (c : Conceal) (good : Bool) (xs : List Int) : List Int × Conceal :=
  if good then
    let ys := if c.run = 0 then xs else rampBlock 0 unity 32 0 xs
    (ys, { run := 0, last := ys })
  else if c.run = 0 then (rampBlock unity 0 32 0 (if c.last = [] then silence else c.last), { run := 1, last := c.last })
  else (silence, { run := c.run + 1, last := c.last })

/-! ### Gain points -/

/-- A Taper gain point takes a new target (R98). -/
def GainPt.taper (p : GainPt) (target : Int) (rampMs fs : Nat) : GainPt :=
  let n := max 1 ((2 * rampMs * fs + 1000) / 2000)
  { p with target := target, inc := (target - p.g).tdiv n, left := n, pending := false }

/-- A voice gain point takes a new target: the timeout runs from the first (R99). -/
def GainPt.voice (p : GainPt) (target : Int) : GainPt :=
  if p.pending then { p with target := target, left := 0 }
  else { p with target := target, left := 0, pending := true, waited := 0 }

/-- A new target, in the mode of the plane (1 Render, 2 Voice; Taper also for I/O, R111). -/
def GainPt.aim (p : GainPt) (plane : Nat) (target : Int) (rampMs fs : Nat) : GainPt :=
  if plane = 2 then (if target = p.target ∧ ¬ p.pending then p else p.voice target) else p.taper target rampMs fs

/-- One sample: the gain it is multiplied by, whether a voice step was forced by the timeout, and the point after. -/
def GainPt.step (p : GainPt) (zcMs fs : Nat) (x : Int) : Int × Bool × GainPt :=
  if 0 < p.left then
    let g := if p.left = 1 then p.target else p.g + p.inc
    (g, false, { p with g := g, left := p.left - 1, prev := x })
  else if p.pending then
    let cross := decide ((x < 0) ≠ (p.prev < 0)) || x == 0
    let late := decide (zcMs * fs ≤ p.waited * 1000)
    if cross || late then (p.target, !cross, { p with g := p.target, pending := false, prev := x })
    else (p.g, false, { p with waited := p.waited + 1, prev := x })
  else (p.g, false, { p with prev := x })

/-- A run of samples through a gain point: gains, forced steps, and the point after. -/
def GainPt.run (zcMs fs : Nat) : GainPt → List Int → List Int × Nat × GainPt
  | p, [] => ([], 0, p)
  | p, x :: xs =>
    let (g, forced, p') := p.step zcMs fs x
    let (gs, n, p'') := GainPt.run zcMs fs p' xs
    (g :: gs, (if forced then 1 else 0) + n, p'')

def zipMul (xs gs : List Int) : List Int := List.zipWith mulGain xs gs
def zipAdd (xs ys : List Int) : List Int := List.zipWith (· + ·) xs ys

/-! ### Equalisers -/

/-- One sample through one section: output and states (R103). A bypassed section passes its input and lets its states
follow. -/
def EqSection.step (bits : Nat) (q : EqSection) (b : Biquad) (x : Int) : Int × Bool × Biquad :=
  if q.bypass then (x, false, { x1 := x, x2 := b.x1, y1 := x, y2 := b.y1 })
  else
    let acc := q.b0 * x + q.b1 * b.x1 + q.b2 * b.x2 - q.a1 * b.y1 - q.a2 * b.y2
    let r := roundShift acc 30
    let y := satS bits r
    (y, y != r, { x1 := x, x2 := b.x1, y1 := y, y2 := b.y1 })

/-- One sample through the sections in index order. -/
def eqSample (bits : Nat) : List EqSection → List Biquad → Int → Int × Bool × List Biquad
  | [], _, x => (x, false, [])
  | q :: qs, bs, x =>
    let (y, sat, b) := q.step bits (bs.headD .zero) x
    let (z, sat', bs') := eqSample bits qs bs.tail y
    (z, sat || sat', b :: bs')

/-- One sample through an equaliser, with the crossfade of R104 while it runs. -/
def EqRun.step (bits : Nat) (qs : List EqSection) (e : EqRun) (x : Int) : Int × Bool × EqRun :=
  let (y, sat, st) := eqSample bits qs e.states x
  if e.fading then
    let (yo, sat', so) := eqSample bits e.old e.oldStates x
    let z := (yo * (128 - (e.done : Int)) + y * (e.done : Int) + 64).fdiv 128
    let fin := e.done + 1 = 128
    (z, sat || sat',
      if fin then { states := st, old := [], oldStates := [], done := 0, fading := false }
      else { e with states := st, oldStates := so, done := e.done + 1 })
  else (y, sat, { e with states := st })

/-- A run of samples through an equaliser. -/
def EqRun.run (bits : Nat) (qs : List EqSection) : EqRun → List Int → List Int × Bool × EqRun
  | e, [] => ([], false, e)
  | e, x :: xs =>
    let (y, sat, e') := e.step bits qs x
    let (ys, sat', e'') := EqRun.run bits qs e' xs
    (y :: ys, sat || sat', e'')

/-- A swap changes the sections: the new ones take a copy of the states, and both run for 128 samples (R104). -/
def EqRun.swap (e : EqRun) (old : List EqSection) : EqRun :=
  { states := e.states, old := old, oldStates := e.states, done := 0, fading := true }

/-- The sections of one object (8) or output (32) in a bank. -/
def eqSections (b : EqBank) (per i : Nat) : List EqSection :=
  (List.range per).map (fun k => Cells.get (fun _ => EqSection.reset) b (i * per + k))

/-- A block through an equaliser, with a change of bank at sample `at_` (none: the bank is `new` throughout). -/
def EqRun.block (bits per i : Nat) (e : EqRun) (old new : EqBank) (at_ : Option Nat) (xs : List Int) :
    List Int × Bool × EqRun :=
  match at_ with
  | none => e.run bits (eqSections new per i) xs
  | some j =>
    let qo := eqSections old per i
    let qn := eqSections new per i
    if qo = qn then e.run bits qn xs
    else
      let (ya, sa, e) := e.run bits qo (xs.take j)
      let (yb, sb, e) := (e.swap qo).run bits qn (xs.drop j)
      (ya ++ yb, sa || sb, e)

/-! ### Integrity events (R369, R371, R452) -/

/-- CRC-32C of a block's header and samples (R365); 0 is kept for "no seal". -/
def blockSeal (stream channel seq : Nat) (samples : List Int) : Nat :=
  let hdr := leBytes 2 stream ++ leBytes 2 channel ++ leBytes 4 seq
  let seed := crcRunR 0x82F63B78 0xFFFFFFFF hdr ^^^ 0xFFFFFFFF
  let r := crcRunR 0x82F63B78 seed ((samples.map (fun x => leBytes 4 (pattern 32 x))).flatten) ^^^ 0xFFFFFFFF
  if r = 0 then 0xFFFFFFFF else r

end Sys2Proof.Machine
end

