-- ==== Sys2Proof/Machine/Trajectory.lean ====
section
/-!
DEFINITION. Machine/Trajectory.lean: object metadata and trajectories (R39 to R47), the commands OBJ_POS and OBJ_BATCH.
-/
namespace Sys2Proof.Machine

def State.runOf (s : State) (o : Nat) : ObjRun := Cells.get (fun _ => ObjRun.cold0) s.rnd.runs o
def State.onRnd (s : State) (f : Render → Render) : State := { s with rnd := f s.rnd }
def State.setRun (s : State) (o : Nat) (r : ObjRun) : State :=
  s.onRnd (fun x => { x with runs := Cells.put (fun _ => ObjRun.cold0) x.runs o r })

def rndFuture : Nat := 0x0201
def rndTrajFull : Nat := 0x0202
def rndBadObject : Nat := 0x0203
def rndWrongSource : Nat := 0x0204
def rndBadLength : Nat := 0x0205
def rndRange : Nat := 0x0206

/-! ### Records (R42) -/

/-- A state's GAIN code, in 0.01 dB, as the linear gain 10^(dB / 20): dB and the quotient are each rounded to binary32 (R42, R45). -/
def gainLinear (code : Int) : F32 :=
  if code = -32768 then .zero else ((F32.ofRatio (max (-14400) (min 1200 code)) 100).div (F32.ofInt 20)).exp10

/-- The 32-byte state record (R42). -/
def parseMeta (b : List Byte) : MetaRec :=
  let ctrl := leAt b 22 1
  { obj := leAt b 20 2
    st :=
      { time := leAt b 0 8, x := signed 32 (leAt b 8 4), y := signed 32 (leAt b 12 4), z := signed 32 (leAt b 16 4),
        gain := gainLinear (signed 16 (leAt b 24 2)), size := F32.ofNat (leAt b 26 2), law := ctrl % 4,
        rolloff := min 2400 (leAt b 28 2), radius := leAt b 30 2, force := ctrl.testBit 6 }
    keepGain := ctrl.testBit 2, keepSize := ctrl.testBit 3, keepRolloff := ctrl.testBit 4, keepRadius := ctrl.testBit 5
    raw := b }

/-- The records of a batch. -/
def parseBatch : Nat → List Byte → List MetaRec
  | 0, _ => []
  | n + 1, b => parseMeta (b.take 32) :: parseBatch n (b.drop 32)

/-- The record an OBJ_POS descriptor carries (R41). -/
def posRecord (d : Desc) : MetaRec :=
  { obj := field d.w0 25 16
    st := { time := d.time, x := sint d.w1, y := sint d.w2, z := sint d.w3, gain := .zero, size := .zero, law := 3,
            rolloff := 0, radius := 0, force := bitOf d.w0 8 }
    keepGain := true, keepSize := true, keepRolloff := true, keepRadius := true
    raw := leBytes 8 d.time ++ leBytes 4 d.w1.toNat ++ leBytes 4 d.w2.toNat ++ leBytes 4 d.w3.toNat ++ leBytes 2 (field d.w0 25 16)
      ++ leBytes 1 (if bitOf d.w0 8 then 0x7F else 0x3F) ++ List.replicate 9 0 }

/-- LNK_CFG.CHAIN_EN (R39). -/
def State.chainEn (s : State) : Bool := s.flag 0x100000 0

/-- Rings 8 to 11 of this module are refused: META_SRC is 1 and the module is not the head (R39). -/
def State.wrongSource (s : State) : Bool := s.flag 0x80000 0 && !s.straps.head

/-- The records of an accepted descriptor wait for the tick that latches them (R40). -/
def State.queueMeta (s : State) (ring index : Nat) (recs : List MetaRec) : State :=
  (s.setPhase ring index .accepted).onRnd (fun x =>
    { x with waiting := x.waiting ++ [{ ring := ring, index := index, recs := recs, status := stOk, fetchedAt := s.now }] })

/-- Opcode 0x01 on rings 8 to 11 (R41). -/
def execObjPos (ring : Nat) (s : State) : Res :=
  match s.nextDesc ring 1 with
  | none => .next s
  | some d =>
    if field d.w0 31 26 ≠ 0 then .next (s.finish ring d.index stBadDesc)
    else if s.wrongSource then .next ((s.bump 0x80104 1).finish ring d.index rndWrongSource)
    else .next (s.queueMeta ring d.index [posRecord d])

/-- Opcode 0x02 on rings 8 to 11 (R41); `data` is what host memory answers to the read of the batch. A batch refused with RND_BAD_LENGTH holds
no record, so RND_META_REJECT does not count it; one from a wrong source counts LENGTH ÷ 32 records, whatever its length (DESIGN CHOICE: R43
names neither case). -/
def execObjBatch (ring : Nat) (data : Option (List Byte)) (s : State) : Res :=
  match s.nextDesc ring 2 with
  | none => .next s
  | some d =>
    let len := d.w1.toNat
    if s.wrongSource then .next ((s.bump 0x80104 (len / 32)).finish ring d.index rndWrongSource)
    else if len % 32 ≠ 0 ∨ len < 32 ∨ 32768 < len ∨ d.addr % 32 ≠ 0 then .next (s.finish ring d.index rndBadLength)
    else
      match data with
      | none => .next (s.finish ring d.index stDmaError)
      | some bs => .next (s.queueMeta ring d.index (parseBatch (len / 32) bs))

/-! ### Insertion (R44) -/

/-- The anchor: the latest state at or before `e` (states are in time order). -/
def anchorOf (sts : List ObjState) (e : Nat) : Option ObjState := (sts.filter (fun t => t.time ≤ e)).getLast?

/-- A state in time order among the others. -/
def insertState (r : ObjState) (sts : List ObjState) : List ObjState :=
  sts.filter (fun t => t.time < r.time) ++ r :: sts.filter (fun t => r.time < t.time)

/-- Kept values come from the state just before, or from the object's current values (R42). -/
def keepValues (run : ObjRun) (m : MetaRec) (r : ObjState) : ObjState :=
  let p := ((run.states.filter (fun t => t.time < r.time)).getLast?).getD run.cur
  { r with
    gain := if m.keepGain then p.gain else r.gain
    size := if m.keepSize then p.size else r.size
    rolloff := if m.keepRolloff then p.rolloff else r.rolloff
    radius := if m.keepRadius then p.radius else r.radius
    law := if r.law = 3 then p.law else r.law }

/-- One record of an object is applied before block n (R44): status, late, and the object after. -/
def applyMeta (es ee : Nat) (m : MetaRec) (run : ObjRun) : Nat × Bool × ObjRun :=
  let late := m.st.time = 0 ∨ m.st.time < es
  let r := if late then { m.st with time := ee } else m.st
  let anc := anchorOf run.states es
  let hold := run.states.all (fun t => t.time ≤ es)
  let run := match anc with
    | some a =>
      if hold then
        { run with states := run.states.map (fun t => if t = a then { a with time := es } else t) }
      else run
    | none => run
  let anc := anchorOf run.states es
  let r := keepValues run m r
  if run.states.any (fun t => t.time = r.time) then (stOk, late, { run with states := insertState r run.states })
  else if run.states.length = 4 then
    match run.states, anc with
    | o :: rest, some a =>
      if o.time < a.time then (stOk, late, { run with states := insertState r rest })
      else (rndTrajFull, late, run)
    | _, _ => (rndTrajFull, late, run)
  else (stOk, late, { run with states := insertState r run.states })

/-- One latched record: rejected, or applied (R43, R44). While the Render plane is stopped a record becomes no state,
since the plane starts with none (R72). -/
def State.latchRec (s : State) (es ee : Nat) (m : MetaRec) : Nat × State :=
  if s.now + 2000000000 < m.st.time then (rndFuture, s.bump 0x80104 1)
  else if s.maxObj ≤ m.obj then (rndBadObject, s.bump 0x80104 1)
  else if ¬ s.mgt.render.run then (stOk, s)
  else
    let (st, late, run) := applyMeta es ee m (s.runOf m.obj)
    let s := if late then s.bump 0x80100 1 else s
    if st = stOk then (st, s.setRun m.obj run) else (st, (s.bump 0x80104 1).setRun m.obj run)

/-- Records of one descriptor are latched while the frame's budget lasts: budget left, status, records left. -/
def State.latchRecs (es ee : Nat) : Nat → Nat → List MetaRec → State → Nat × Nat × List MetaRec × State
  | n, st, [], s => (n, st, [], s)
  | 0, st, ms, s => (0, st, ms, s)
  | n + 1, st, m :: ms, s =>
    State.latchRecs es ee n (if st = stOk then (s.latchRec es ee m).1 else st) ms (s.latchRec es ee m).2

/-- The waiting descriptors in the order of R40; a record fetched less than 1.0 µs before the tick waits. -/
def State.latchGo (es ee : Nat) : Nat → List MetaDesc → State → List MetaDesc × State
  | _, [], s => ([], s)
  | n, d :: ds, s =>
    if s.now < d.fetchedAt + 1000 ∨ n = 0 then
      let (l, s) := State.latchGo es ee n ds s
      (d :: l, s)
    else
      let (n, st, left, s) := State.latchRecs es ee n d.status d.recs s
      if left = [] then State.latchGo es ee n ds (s.finish d.ring d.index st)
      else
        let (l, s) := State.latchGo es ee 0 ds s
        ({ d with status := st, recs := left } :: l, s)

/-- Metadata is latched at a frame tick: at most 2,048 records, ring 8 first (R40). -/
def State.latch (s : State) (es ee : Nat) : State :=
  let ds := sortBy (fun a b => decide (a.ring ≤ b.ring)) s.rnd.waiting
  let (l, s) := State.latchGo es ee 2048 ds (s.onRnd (fun x => { x with waiting := [] }))
  s.onRnd (fun x => { x with waiting := l })

/-! ### Evaluation (R45) -/

/-- The centripetal cubic of R45. -/
def cubic (q0 q1 q2 q3 : Vec) (f : F32) : Vec :=
  let one := F32.ofInt 1
  let k0 := F32.zero
  let k1 := k0.add (((q1.sub q0).len.sqrt).max one)
  let k2 := k1.add (((q2.sub q1).len.sqrt).max one)
  let k3 := k2.add (((q3.sub q2).len.sqrt).max one)
  let t := k1.add (f.mul (k2.sub k1))
  let a1 := (((q0.scale (k1.sub t)).add (q1.scale (t.sub k0)))).divBy (k1.sub k0)
  let a2 := (((q1.scale (k2.sub t)).add (q2.scale (t.sub k1)))).divBy (k2.sub k1)
  let a3 := (((q2.scale (k3.sub t)).add (q3.scale (t.sub k2)))).divBy (k3.sub k2)
  let b1 := (((a1.scale (k2.sub t)).add (a2.scale (t.sub k0)))).divBy (k2.sub k0)
  let b2 := (((a2.scale (k3.sub t)).add (a3.scale (t.sub k1)))).divBy (k3.sub k1)
  (((b1.scale (k2.sub t)).add (b2.scale (t.sub k1)))).divBy (k2.sub k1)

def ObjState.pos (t : ObjState) : Vec := Vec.ofInts t.x t.y t.z

/-- Where an object is at `e`: the state it stands on, position, gain and size; none while it has no state yet. -/
def evalAt (sts : List ObjState) (e : Nat) : Option (ObjState × Vec × F32 × F32) :=
  let before := sts.filter (fun t => t.time ≤ e)
  let after := sts.filter (fun t => e < t.time)
  match before.reverse, after with
  | [], _ => none
  | a :: _, [] => some (a, a.pos, a.gain, a.size)
  | a :: older, b :: later =>
    let p0 := older.headD a
    let p3 := later.headD b
    let f := (F32.ofNat (e - a.time)).div (F32.ofNat (b.time - a.time))
    some (a, cubic p0.pos a.pos b.pos p3.pos f, a.gain.add (f.mul (b.gain.sub a.gain)),
      a.size.add (f.mul (b.size.sub a.size)))

end Sys2Proof.Machine
end

