-- ==== Sys2Proof/Machine/Panning.lean ====
section
/-!
DEFINITION. Machine/Panning.lean: the panning laws, delays and gains of object rendering (R49 to R54, R456).
-/
namespace Sys2Proof.Machine

/-! ### Settings (R48, R49) -/

/-- An SL register of the RND_ window in a geometry bank. -/
def Geometry.slReg (g : Geometry) (off : Nat) : Word := Cells.get regReset g.sl off
def Geometry.speaker (g : Geometry) (i : Nat) : Speaker := Cells.get (fun _ => Speaker.reset) g.speakers i
def Geometry.dirGains (g : Geometry) (c : Nat) : List Nat := Cells.get (fun _ => List.replicate 19 0x8000) g.classes c
def Speaker.pos (p : Speaker) : Vec := Vec.ofInts p.x p.y p.z
def Geometry.soundSpeed (g : Geometry) : Nat := max 100000 (min 1000000 (field (g.slReg 0x80010) 19 0))
def Geometry.distRef (g : Geometry) : Nat := min 1000000 (field (g.slReg 0x80014) 19 0)
def Geometry.maxJump (g : Geometry) : Nat := max 1 (min 100000 (field (g.slReg 0x80018) 16 0))
def Geometry.maxDstep (g : Geometry) : Nat := max 1 (field (g.slReg 0x8001C) 4 0)
def Geometry.hyst (g : Geometry) : Nat := min 120 (field (g.slReg 0x80020) 6 0)
def Geometry.listener (g : Geometry) : Vec :=
  Vec.ofInts (sint (g.slReg 0x80024)) (sint (g.slReg 0x80028)) (sint (g.slReg 0x8002C))

/-- A triangle with the columns of its inverse matrix; none where it is degenerate (R456), and where a speaker at L leaves it no gains:
it covers no direction and a walk ends at it (DESIGN CHOICE). -/
structure Tri where
  i0 : Nat
  i1 : Nat
  i2 : Nat
  cols : Option (Vec × Vec × Vec)
  deriving DecidableEq, Repr

/-- 10⁻⁶ in binary32. -/
def micro : F32 := F32.ofRatio 1 1000000

/-- One triangle derived from the table (R49, R456). -/
def Geometry.derive (g : Geometry) (t : Nat × Nat × Nat) : Tri :=
  let u := fun i => (((g.speaker i).pos).sub g.listener).normalise
  let s0 := u t.1
  let s1 := u t.2.1
  let s2 := u t.2.2
  let det := s0.dot (s1.cross s2)
  { i0 := t.1, i1 := t.2.1, i2 := t.2.2
    cols := if det.abs.lt micro ∨ det.isNan then none
      else some ((s1.cross s2).divBy det, (s2.cross s0).divBy det, (s0.cross s1).divBy det) }

/-- What one block is panned with: geometry, derived triangles, slice and rate. -/
structure PanCtx where
  geo : Geometry
  tris : List Tri
  /-- Slice speakers with their outputs, by output. -/
  slice : List (Nat × Nat)
  fs : Nat
  deriving DecidableEq, Repr

/-- Speakers of this module's slice (R49, R360). -/
def State.sliceList (s : State) : List (Nat × Nat) :=
  (s.slice.filter (fun p => p.1 < s.maxOut && bitOf p.2 31)).map (fun p => (field p.2 12 0, p.1))

def State.panCtx (s : State) (g : Geometry) : PanCtx :=
  { geo := g, tris := g.triangles.map g.derive, slice := s.sliceList, fs := s.renderRate }

/-! ### VBAP (R50) -/

/-- The three gains of a direction in a triangle. -/
def Tri.gains (t : Tri) (dir : Vec) : Option (F32 × F32 × F32) :=
  t.cols.map (fun c => (dir.dot c.1, dir.dot c.2.1, dir.dot c.2.2))

def covers (g : F32 × F32 × F32) : Bool :=
  let m := micro.neg
  m.le g.1 && m.le g.2.1 && m.le g.2.2

/-- The two speakers of the edge opposite the most negative gain; ties to the first vertex. -/
def Tri.crossEdge (t : Tri) (g : F32 × F32 × F32) : Nat × Nat :=
  let m := (g.1.min g.2.1).min g.2.2
  if g.1.le m then (t.i1, t.i2) else if g.2.1.le m then (t.i2, t.i0) else (t.i0, t.i1)

def Tri.has (t : Tri) (i : Nat) : Bool := t.i0 == i || t.i1 == i || t.i2 == i

/-- Triangles other than `k` that hold both speakers of an edge. -/
def neighbours (ts : List Tri) (k : Nat) (e : Nat × Nat) : List Nat :=
  ((ts.zipIdx).filter (fun p => p.2 != k && p.1.has e.1 && p.1.has e.2)).map (·.2)

/-- The walk from triangle `k`: the covering triangle, or none where the walk ends without one. -/
def walk (ts : List Tri) (dir : Vec) : Nat → Nat → Option Nat
  | 0, k => match (ts[k]?).bind (fun t => t.gains dir) with
    | some g => if covers g then some k else none
    | none => none
  | n + 1, k =>
    match ts[k]? with
    | none => none
    | some t =>
      match t.gains dir with
      | none => none
      | some g =>
        if covers g then some k
        else
          match neighbours ts k (t.crossEdge g) with
          | [j] => walk ts dir n j
          | _ => none

/-- The full scan in index order. -/
def scan (ts : List Tri) (dir : Vec) : Option Nat :=
  ((ts.zipIdx).find? (fun p => match p.1.gains dir with | some g => covers g | none => false)).map (·.2)

/-- The normalised gain triple of a covering triangle. -/
def tripleGains (t : Tri) (dir : Vec) : List (Nat × F32) :=
  match t.gains dir with
  | none => []
  | some (a, b, c) =>
    let a := a.max .zero
    let b := b.max .zero
    let c := c.max .zero
    let n := (((a.mul a).add (b.mul b)).add (c.mul c)).sqrt
    [(t.i0, a.div n), (t.i1, b.div n), (t.i2, c.div n)]

/-- What one direction finds: the triangle, whether a scan was spent, whether one was refused. -/
inductive DirHit where
  | tri (k : Nat)
  | miss
  | refused
  deriving DecidableEq, Repr

/-- One direction, from the triangle it used before, with `scans` full scans left in the frame. -/
def findTri (ts : List Tri) (dir : Vec) (prev : Option Nat) (scans : Nat) : DirHit × Nat :=
  match prev.bind (fun k => walk ts dir 32 k) with
  | some k => (.tri k, scans)
  | none =>
    match scans with
    | 0 => (.refused, 0)
    | n + 1 => (match scan ts dir with | some k => .tri k | none => .miss, n)

/-- The directions of an object, each with its previous triangle. -/
def findTris (ts : List Tri) : List Vec → List (Option Nat) → Nat → List DirHit × Nat
  | [], _, scans => ([], scans)
  | d :: ds, ps, scans =>
    let (h, scans) := findTri ts d (ps.headD none) scans
    let (hs, scans) := findTris ts ds ps.tail scans
    (h :: hs, scans)

/-- Directions of R50 step 2. -/
def directions (p : Vec) (theta : F32) : List Vec :=
  if theta.lt (F32.degree.mul (F32.ofRatio 1 2)) then [p]
  else
    let w := if (F32.ofRatio 999 1000).lt p.z.abs then Vec.ofInts 1 0 0 else Vec.ofInts 0 0 1
    let u := (p.cross w).normalise
    let v := p.cross u
    p :: (List.range 6).map (fun m =>
      let a := (F32.ofNat (60 * m)).mul F32.degree
      (p.scale theta.cos).add (((u.scale a.cos).add (v.scale a.sin)).scale theta.sin))

/-- The sum of squares of a speaker's gains over the directions. -/
def powerOf (l : List (Nat × F32)) (i : Nat) : F32 :=
  l.foldl (fun a p => if p.1 = i then a.add (p.2.mul p.2) else a) .zero

/-- Gains of all speakers of the venue from the directions' triples (R50 steps 6 and 7). -/
def combineDirs (g : Geometry) (n : Nat) (l : List (Nat × F32)) : List (Nat × F32) :=
  let idx := sortBy (fun a b => decide (a ≤ b)) (l.map (·.1)).eraseDups
  let raw := idx.map (fun i => (i, (((F32.ofInt 1).div (F32.ofNat n)).mul (powerOf l i)).sqrt))
  let kept := raw.filter (fun p => !(g.speaker p.1).virt)
  let tot := (kept.foldl (fun a p => a.add (p.2.mul p.2)) F32.zero).sqrt
  if tot.isZero then [] else kept.map (fun p => (p.1, p.2.div tot))

/-- The outcome of VBAP for one object: gains, misses, scans left, and what is remembered for the next block. -/
structure VbapOut where
  gains : List (Nat × F32)
  missed : List Nat
  scans : Nat
  dir : Option Vec
  tris : List (Option Nat)
  deriving DecidableEq, Repr

/-- R50, steps 1 to 7. `missed` are the directions no triangle covers, by number. -/
def vbap (c : PanCtx) (prevDir : Option Vec) (prevTris : List (Option Nat)) (prevGains : List (Nat × F32)) (scans : Nat)
    (pos : Vec) (size : F32) : VbapOut :=
  let v := pos.sub c.geo.listener
  let len := v.len
  let dir := if len.lt (F32.ofInt 1) then prevDir else some (v.divBy len)
  match dir with
  | none => { gains := [], missed := [], scans := scans, dir := none, tris := [] }
  | some p =>
    let ds := directions p (F32.atan2 size len)
    let (hits, scans) := findTris c.tris ds prevTris scans
    let tris := hits.map (fun h => match h with | .tri k => some k | _ => none)
    let missed := (hits.zipIdx.filter (fun h => h.1 == .miss)).map (·.2)
    if hits.contains .refused then
      { gains := prevGains, missed := missed, scans := scans, dir := some p, tris := tris }
    else
      let triples := (List.zipWith (fun h d =>
        match h with
        | .tri k => (match c.tris[k]? with | some t => tripleGains t d | none => [])
        | _ => []) hits ds).flatten
      { gains := combineDirs c.geo ds.length triples, missed := missed, scans := scans,
        dir := some p, tris := tris }

/-! ### Distance laws (R51, R52) and directivity -/

/-- The gain of a speaker's directivity class towards the object. -/
def directivity (g : Geometry) (sp : Speaker) (pos : Vec) : F32 :=
  if sp.aimX = 0 ∧ sp.aimY = 0 ∧ sp.aimZ = 0 then F32.ofInt 1
  else
    let tab := (g.dirGains sp.dirClass).map (fun v => F32.ofRatio ((min v 0x8000 : Nat) : Int) 0x8000)
    let v := pos.sub sp.pos
    let len := v.len
    if len.lt (F32.ofInt 1) then tab.headD (F32.ofInt 1)
    else
      let aim := (Vec.ofInts sp.aimX sp.aimY sp.aimZ).normalise
      let d := ((aim.dot v.normalise).max (F32.ofInt (-1))).min (F32.ofInt 1)
      let deg := d.acos.div F32.degree
      let i := min 17 ((deg.div (F32.ofInt 10)).num.natAbs / (deg.div (F32.ofInt 10)).den)
      let f := (deg.sub (F32.ofNat (10 * i))).div (F32.ofInt 10)
      let a := tab.getD i .zero
      let b := tab.getD (i + 1) .zero
      a.add (f.mul (b.sub a))

/-- d_s of R51. -/
def soundDist (pos : Vec) (size : F32) (sp : Speaker) : F32 :=
  let d := (pos.sub sp.pos).len
  ((d.mul d).add (size.mul size)).sqrt

/-- The roll-off exponent ROLLOFF ÷ 602.06. -/
def rollExp (rolloff : Nat) : F32 := (F32.ofNat rolloff).div (F32.ofRatio 60206 100)

/-- The raw gain of one speaker under law 1 (before normalisation) or 2. -/
def distGain (c : PanCtx) (law rolloff : Nat) (pos : Vec) (size : F32) (sp : Speaker) : F32 :=
  let d := (soundDist pos size sp).max (F32.ofInt 1000)
  let a := rollExp rolloff
  let dir := directivity c.geo sp pos
  if law = 1 then dir.mul (d.pow a.neg) else dir.mul (((F32.ofInt 1000).div d).pow a)

/-- A speaker lies within RADIUS (R456). -/
def inRadius (radius : Nat) (pos : Vec) (sp : Speaker) : Bool :=
  radius == 0 || ((pos.sub sp.pos).len).le (F32.ofNat (10 * radius))

/-! ### Delay and gain (R53, R54) -/

def delayMax : Int := 0xFD9FF7FF

/-- The differential delay in Q12.20, and whether it was clamped (R53). -/
def pathDelay (c : PanCtx) (law : Nat) (pos : Vec) (sp : Speaker) : Nat × Bool :=
  let fs := F32.ofNat c.fs
  let cs := F32.ofNat c.geo.soundSpeed
  let al := ((F32.ofNat sp.alignNs).mul fs).div (F32.ofNat 1000000000)
  let d := if law = 2 then
      (((((pos.sub sp.pos).len).mul fs).div cs).add al).sub (((F32.ofNat c.geo.distRef).mul fs).div cs)
    else al
  let q := d.toIntEven 20
  if q < 0 then (0, true) else if delayMax < q then (delayMax.toNat, true) else (q.toNat, false)

/-- TRIM as a linear gain: exp10 of the binary32 quotient TRIM ÷ 2,000 (R54, R456). -/
def trimGain (sp : Speaker) : F32 := ((F32.ofInt sp.trim).div (F32.ofInt 2000)).exp10

/-- A gain as Q2.30 (R54). -/
def gainQ30 (g : F32) : Int := min 0x7FFFFFFF (g.toIntEven 30)

/-- One speaker as a path of the object: its output, delay, whether the delay is clamped, and E_end gain before fades. -/
structure Want where
  speaker : Nat
  out : Nat
  delay : Nat
  clamped : Bool
  base : F32
  deriving DecidableEq, Repr

/-- Where an object stands at E_end. -/
structure ObjAt where
  pos : Vec
  gain : F32
  size : F32
  law : Nat
  rolloff : Nat
  radius : Nat
  deriving DecidableEq, Repr

/-- The path to one speaker, given its law gain. -/
def mkWant (c : PanCtx) (a : ObjAt) (p : Nat × Nat) (lawGain : F32) : Want :=
  let sp := c.geo.speaker p.1
  let d := pathDelay c a.law a.pos sp
  { speaker := p.1, out := p.2, delay := d.1, clamped := d.2, base := (a.gain.mul lawGain).mul (trimGain sp) }

/-- The E_end value of a path of a block's member, whatever the selection (R57). The squares that unit total power sums (R51) are added in
the order of `members`: the rank order of R55, or the order of the set the pool left unchanged (DESIGN CHOICE: the spec gives no order). -/
def liveWants (c : PanCtx) (a : ObjAt) (vg : List (Nat × F32)) (members : List (Nat × Nat)) : List Want :=
  let raw := members.map (fun p =>
    (p, if a.law = 0 then ((vg.find? (fun q => q.1 == p.1)).map (·.2)).getD .zero
        else distGain c a.law a.rolloff a.pos a.size (c.geo.speaker p.1)))
  let n := if a.law = 1 then (raw.foldl (fun x p => x.add (p.2.mul p.2)) F32.zero).sqrt else F32.ofInt 1
  raw.map (fun p => mkWant c a p.1 (if a.law = 1 then (if n.isZero then .zero else p.2.div n) else p.2))

/-- Active-set selection (R55): the 64 highest scores among the candidates. RND_SET_HYST raises a member's score as a gain of its decibels
does: the score is multiplied by exp10 of the binary32 quotient TENTH_DB ÷ 200 (DESIGN CHOICE: the spec does not say how). -/
def selectSet (c : PanCtx) (a : ObjAt) (vg : List (Nat × F32)) (members : List (Nat × Nat)) (held : List Nat) : List Want :=
  let cands := c.slice.filter (fun p =>
    !held.contains p.1 && (a.law == 0 || inRadius a.radius a.pos (c.geo.speaker p.1)))
  let raise := ((F32.ofNat c.geo.hyst).div (F32.ofNat 200)).exp10
  let scored := cands.map (fun p =>
    let lg := if a.law = 0 then ((vg.find? (fun q => q.1 == p.1)).map (·.2)).getD .zero
      else distGain c a.law a.rolloff a.pos a.size (c.geo.speaker p.1)
    let g := (a.gain.mul lg).mul (trimGain (c.geo.speaker p.1))
    (p, g, if members.contains p then g.mul raise else g))
  let ranked := sortBy (fun x y => y.2.2.lt x.2.2 || (!x.2.2.lt y.2.2 && decide (x.1.1 < y.1.1)))
    (scored.filter (fun x => !x.2.1.isZero))
  liveWants c a vg ((ranked.take 64).map (·.1))

end Sys2Proof.Machine
end

