-- ==== Sys2Proof/Machine/Render.lean ====
section
/-!
DEFINITION. Machine/Render.lean: the render stage of one block: delay staging (R59 to R62), active sets and fades (R55 to
R58), the path fabric (R63, R64), overload (R66 to R69), swaps in the render domains (R70) and cold start (R72).
-/
namespace Sys2Proof.Machine

/-! ### Delay staging -/

/-- An ingress block's contribution to an object: its samples and whether it is usable. -/
def feedBlock (ing : Cells (List Block)) (feed : Nat) : Block :=
  if feed = 0xFFFF then { samples := silence, flags := 0, plane := 1 }
  else (Cells.get (fun _ => []) ing feed).headD Block.absent

/-- A crossfade of R455 at work over a block: `done` samples behind, `total` in all. -/
def xfadeBlock (x : XFade) (old new : List Int) : List Int :=
  old.take x.wait ++ zipAdd (rampBlock unity 0 x.total x.done (old.drop x.wait)) (rampBlock 0 unity x.total x.done (new.drop x.wait))

/-- A crossfade after one block; none when it is over. -/
def XFade.after (x : XFade) : Option XFade :=
  if x.total ≤ x.done + (32 - x.wait) then none else some { x with done := x.done + (32 - x.wait), wait := 0 }

/-- N of R56, in frames. -/
def fadeFrames (setchg fs : Nat) : Nat := max 1 ((2 * setchg * fs + 32000) / 64000)

/-- Longest bulk delay of R48, in frames. -/
def maxBulk (fs : Nat) : Nat := 2 * fs / 32

/-- The object's new ingress block joins its bulk line, under a change of feed where one runs (R111). -/
def ObjRun.feed (run : ObjRun) (ing : Cells (List Block)) (feed fs : Nat) : ObjRun :=
  let b := feedBlock ing feed
  let b := match run.feedX with
    | none => b
    | some x =>
      let o := feedBlock ing x.src
      { b with samples := xfadeBlock x o.samples b.samples, flags := b.flags ||| o.flags }
  { run with bulk := (b :: run.bulk).take (maxBulk fs + 1), feedX := run.feedX.bind XFade.after }

/-- The block staging takes from a bulk position (R60); none before the first has come out of the line (R72). -/
def ObjRun.stagedAt (run : ObjRun) (pos : Nat) : Option Block := run.bulk[pos]?

/-- The staged block, across a change of BULK_FRAMES (R62). -/
def ObjRun.staged (run : ObjRun) (pos : Nat) : Option Block × Option XFade :=
  let new := run.stagedAt pos
  match run.bulkX with
  | none => (new, none)
  | some x =>
    let old := (run.stagedAt x.src).getD { samples := silence, flags := 0, plane := 1 }
    let nb := new.getD { samples := silence, flags := 0, plane := 1 }
    (some { nb with samples := xfadeBlock x old.samples nb.samples, flags := nb.flags ||| old.flags }, x.after)

/-- What staging and equalisation need beside the object (R60, R103, R104). -/
structure StageCtx where
  fs : Nat
  eqOld : EqBank
  eqNew : EqBank
  /-- Sample of the swap of OBJECT_EQ in this block. -/
  eqAt : Option Nat
  deriving DecidableEq, Repr

/-- One object's block reaches its differential line: concealment (R61), equalisation, cold fade-in (R72). Answers
whether an equaliser saturated. A block that R61 conceals, a late one too, is concealed before the equaliser (DESIGN CHOICE: the spec does
not say on which side of it). -/
def ObjRun.stage (c : StageCtx) (o bulkPos setchg : Nat) (late : Bool) (run : ObjRun) : Bool × ObjRun :=
  let (b, x) := run.staged bulkPos
  let run := { run with bulkX := x }
  match b with
  | none => (false, { run with line := (silence ++ run.line).take 4096, concealed := false })
  | some b =>
    let good := !(b.isBad || late)
    let (xs, con) := run.conceal.next good b.samples
    let (ys, sat, eq) := run.eq.block 32 8 o c.eqOld c.eqNew c.eqAt xs
    let total := 32 * fadeFrames setchg c.fs
    let ys := if run.coldDone < total then rampBlock 0 unity total run.coldDone ys else ys
    (sat, { run with
      conceal := con, concealed := !good, eq := eq, cold := false, coldDone := min total (run.coldDone + 32)
      line := (ys.reverse ++ run.line).take 4096 })

/-! ### Paths -/

/-- The fade factor at E_end (R56). -/
def Fade.factor : Fade → Option F32
  | .steady => none
  | .entering k n => some ((F32.ofNat k).div (F32.ofNat n))
  | .leaving k n => some ((F32.ofNat (n - k)).div (F32.ofNat n))

/-- The gain at E_end in Q2.30 (R54). -/
def Path.endGain (base : F32) (f : Fade) : Int :=
  match f.factor with
  | none => gainQ30 base
  | some k => gainQ30 (base.mul k)

/-- The fade of a path one frame on. -/
def Fade.next : Fade → Fade
  | .steady => .steady
  | .entering k n => .entering (k + 1) n
  | .leaving k n => .leaving (k + 1) n

/-- A block begins: E_start takes the values of the last E_end, each fade moves on by one frame, and the E_end gain follows it at the gain
the path held (R56). -/
def Path.begin (p : Path) : Path :=
  { p with d0 := p.delay, g0 := p.gain, fade := p.fade.next, gain := Path.endGain p.base p.fade.next }

/-- A block ends: finished fades are settled; a finished leaving path is gone. -/
def Path.settle (p : Path) : Option Path :=
  match p.fade with
  | .steady => some p
  | .entering k n => some (if n ≤ k then { p with fade := .steady } else p)
  | .leaving k n => if n ≤ k then none else some p

/-- A member ramps to its new E_end value. -/
def Path.aimAt (p : Path) (w : Want) : Path :=
  { p with delay := w.delay, base := w.base, gain := Path.endGain w.base p.fade }

/-- A path enters (R56). -/
def enterPath (n : Nat) (w : Want) : Path :=
  { speaker := w.speaker, out := w.out, d0 := w.delay, g0 := 0, delay := w.delay, base := w.base,
    fade := .entering 1 n, gain := Path.endGain w.base (.entering 1 n) }

/-- A member leaves, frozen at its E_start values (R46, R56, R58): from its full gain, or from where its fade-in or the
present block stands. -/
def Path.leave (n : Nat) (mid : Bool) (p : Path) : Path :=
  let base := if p.fade = .steady ∧ ¬ mid then p.base else F32.ofRatio p.g0 (2 ^ 30)
  { p with delay := p.d0, base := base, fade := .leaving 1 n, gain := Path.endGain base (.leaving 1 n) }

def Path.key (p : Path) : Nat × Nat := (p.speaker, p.out)
def Want.key (w : Want) : Nat × Nat := (w.speaker, w.out)

/-- The path moves further in one block than RND_MAX_DSTEP (R58). -/
def farMove (maxStep : Nat) (p : Path) (w : Want) : Bool :=
  decide (maxStep * 2 ^ 20 < (if p.d0 ≤ w.delay then w.delay - p.d0 else p.d0 - w.delay))

/-- How many of an object's members leave under a new set of wants. -/
def leavers (maxStep : Nat) (all : Bool) (ms : List Path) (ws : List Want) : List Path :=
  ms.filter (fun p => all || (match ws.find? (fun w => w.key == p.key) with
    | none => true
    | some w => farMove maxStep p w))

/-- The object's paths after the wants are taken: members that stay ramp, the others leave, new ones enter. -/
def takeWants (n maxStep : Nat) (all mid : Bool) (run : ObjRun) (ws : List Want) : ObjRun :=
  let gone := leavers maxStep all run.active ws
  let stay := run.active.filter (fun p => !gone.contains p)
  let stay' := stay.map (fun p => match ws.find? (fun w => w.key == p.key) with
    | some w => p.aimAt w
    | none => p)
  let enter := (ws.filter (fun w => !stay.any (fun p => p.key == w.key))).map (enterPath n)
  { run with active := stay' ++ enter, leaving := run.leaving ++ gone.map (Path.leave n mid) }

/-! ### Planning one object (R45 to R58) -/

/-- What a block's plan shares among the objects: pool slots and scans left; and what it counts, each once in the block however many segments
it has (R70): the objects the pool refuses, the paths whose delay was clamped, the directions no triangle covers. -/
structure Plan where
  pool : Nat
  scans : Nat
  teleports : Nat
  refused : List Nat
  clamps : List (Nat × Nat × Nat)
  misses : List (Nat × Nat)
  deriving DecidableEq, Repr

/-- The clamped paths of an object join the count (R53). -/
def Plan.clamped (pl : Plan) (o : Nat) (ws : List Want) : Plan :=
  { pl with clamps := pl.clamps ++ (ws.filter (·.clamped)).map (fun w => (o, w.speaker, w.out)) }

/-- The pool refuses an object (R57). -/
def Plan.refuse (pl : Plan) (o : Nat) : Plan := { pl with refused := pl.refused ++ [o] }

/-- The object as it stands at E_end. Law, roll-off and radius take effect in the first block whose anchor carries them (R47). -/
def objAt (run : ObjRun) (es ee : Nat) : Option ObjAt :=
  match evalAt run.states ee with
  | none => none
  | some (a, pos, gain, size) =>
    let l := (anchorOf run.states es).getD a
    some { pos := pos, gain := gain, size := size, law := l.law, rolloff := l.rolloff, radius := l.radius }

/-- The states that have been the anchor have had their teleport (R46). -/
def spendForce (es : Nat) (run : ObjRun) : ObjRun :=
  { run with states := run.states.map (fun t => if t.time ≤ es then { t with force := false } else t) }

/-- The members of an unchanged active set take their live values (R57). -/
def liveRun (ws : List Want) (run : ObjRun) : ObjRun :=
  { run with active := run.active.map (fun p => match ws.find? (fun w => w.key == p.key) with
      | some w => p.aimAt w
      | none => p) }

/-- One object in one block, or in the part of a block from a swap sample on (`mid`); `held` are speakers kept out. A member whose delay
moves further than RND_MAX_DSTEP while the pool refuses its object takes its live values with the others and ramps (DESIGN CHOICE between
R57 and R58). -/
def planObj (c : PanCtx) (o : Nat) (cfg : ObjCfg) (es ee : Nat) (held : List Nat) (mid geoSwap : Bool) (pl : Plan) (run : ObjRun) :
    Plan × ObjRun :=
  let n := fadeFrames cfg.setchg c.fs
  let step := c.geo.maxDstep
  let size := run.active.length
  let off := !cfg.enable
  match objAt run es ee with
  | none => if size ≤ pl.pool then ({ pl with pool := pl.pool - size }, takeWants n step true mid run []) else (pl.refuse o, run)
  | some a =>
    if off ∧ size ≤ pl.pool then
      ({ pl with pool := pl.pool - size }, { takeWants n step true mid run [] with eval := none, law := none, deferred := 0 })
    else if mid ∧ run.deferred ≠ 0 then (pl, run)
    else
      let jump := match run.eval with
        | some p => (F32.ofNat c.geo.maxJump).lt ((a.pos.sub p.1).len)
        | none => false
      let forced := match anchorOf run.states es with | some t => t.force | none => false
      let tele := !mid && !off && run.eval.isSome && (run.deferred == 2 || jump || forced)
      let lawCh := !mid && !off && (run.deferred == 1 || (match run.law with | some l => l != a.law | none => false))
      let all := tele || lawCh
      let v := if a.law = 0 then
          vbap c run.prevDir (if all || geoSwap then [] else run.tris) run.prevGains pl.scans a.pos a.size
        else { gains := [], missed := [], scans := pl.scans, dir := run.prevDir, tris := [] }
      let pl := { pl with scans := v.scans, misses := pl.misses ++ v.missed.map (fun i => (o, i)) }
      let members := if all then [] else run.active.map Path.key
      let ws := selectSet c a v.gains members held
      let gone := (leavers step all run.active ws).length
      let run := spendForce es run
      let done := fun (r : ObjRun) => { r with
        eval := some (a.pos, a.gain, a.size), law := some a.law, deferred := 0
        cur := { (anchorOf run.states ee).getD run.cur with
          x := 0, y := 0, z := 0, gain := a.gain, size := a.size, law := a.law, rolloff := a.rolloff, radius := a.radius }
        prevDir := v.dir, tris := v.tris, prevGains := v.gains }
      if ¬ off ∧ gone ≤ pl.pool then
        ({ pl with pool := pl.pool - gone, teleports := pl.teleports + (if tele then 1 else 0) }.clamped o ws,
          done (takeWants n step all mid run ws))
      else if all then (pl.refuse o, { run with deferred := if tele then 2 else 1 })
      else
        let lw := liveWants c a v.gains members
        ((pl.refuse o).clamped o lw, done (liveRun lw run))

/-- Objects in the order of R50 and R57: PRIO descending, then index ascending. -/
def objOrder (bank : RenderObjects) (runs : Cells ObjRun) : List Nat :=
  let known := (runs.map (·.1) ++ bank.objs.map (·.1)).eraseDups
  let pr := fun o => (Cells.get (fun _ => ObjCfg.reset) bank.objs o).prio
  sortBy (fun a b => decide (pr b < pr a) || (pr a == pr b && decide (a ≤ b))) known

/-- Plan every object. -/
def planAll (c : PanCtx) (bank : RenderObjects) (es ee : Nat) (heldOut : List (Nat × Nat)) (mid geoSwap : Bool) :
    List Nat → Plan → Cells ObjRun → Plan × Cells ObjRun
  | [], pl, runs => (pl, runs)
  | o :: os, pl, runs =>
    let cfg := Cells.get (fun _ => ObjCfg.reset) bank.objs o
    let held := (heldOut.filter (fun p => p.1 == o)).map (·.2)
    let (pl, run) := planObj c o cfg es ee held mid geoSwap pl (Cells.get (fun _ => ObjRun.cold0) runs o)
    planAll c bank es ee heldOut mid geoSwap os pl (Cells.put (fun _ => ObjRun.cold0) runs o run)

/-! ### The path fabric (R63) -/

/-- Numerator and denominator of tap `i` at phase `ph`. -/
def lagrRatio (ph i : Nat) : Int × Int :=
  (List.range 8).foldl (fun (a : Int × Int) m =>
    if m = i then a
    else (a.1 * (256 * ((m : Int) - 3) - ph), a.2 * (256 * ((m : Int) - i)))) (1, 1)

/-- lagr[ph][i], Q2.30, ties away from zero. -/
def lagr (ph i : Nat) : Int :=
  let r := lagrRatio ph i
  let num := if r.2 < 0 then -r.1 else r.1
  let q := divAway (num.natAbs * 2 ^ 30) r.2.natAbs
  if num < 0 then -(q : Int) else q

/-- Sample `j` of a block read from the line at delay `d`; entry 0 of the line is the newest sample. -/
def tapSum (line : List Int) (j d : Nat) : Int :=
  let k := d / 2 ^ 20
  let ph := (d % 2 ^ 20 + 0x800) / 2 ^ 12
  let kp := if ph = 256 then (k + 1, 0) else (k, ph)
  let t := (List.range 8).foldl (fun (a : Int) i => a + line.getD (31 - j + kp.1 + i) 0 * lagr kp.2 i) 0
  satS 32 (roundShift t 30)

/-- A shed job reads the nearest sample only (R67). -/
def nearestTap (line : List Int) (j d : Nat) : Int := line.getD (34 - j + (d + 0x80000) / 2 ^ 20) 0

/-- One path from sample `j0` to `j1 − 1`, ramping from (d0, g0) to (d1, g1) over `len` samples. The increment of a whole block is R63's shift;
that of a segment of fewer samples is the difference divided by `len`, rounded down as the shift rounds (DESIGN CHOICE: R70 does not say). -/
def pathSamples (line : List Int) (shed : Bool) (d0 d1 : Nat) (g0 g1 : Int) (j0 j1 len : Nat) : List Int :=
  let dinc := ((d1 : Int) - d0).fdiv len
  let ginc := (g1 - g0).fdiv len
  (List.range (j1 - j0)).map (fun (i : Nat) =>
    let d := ((d0 : Int) + i * dinc).toNat
    let g := g0 + i * ginc
    let y := if shed then nearestTap line (j0 + i) d else tapSum line (j0 + i) d
    roundShift (y * g) 30)

/-- A path's values at sample `j` of a ramp that runs from sample `j0` to the end of the block (R70). -/
def Path.valueAt (p : Path) (j0 j : Nat) : Nat × Int :=
  let n : Int := ((32 - j0 : Nat) : Int)
  let i : Int := ((j - j0 : Nat) : Int)
  (((p.d0 : Int) + i * (((p.delay : Int) - p.d0).fdiv n)).toNat, p.g0 + i * ((p.gain - p.g0).fdiv n))

/-- Samples added from index `j0` of an output's accumulator. -/
def addInto (acc : List Int) (j0 : Nat) (xs : List Int) : List Int :=
  acc.mapIdx (fun i a => if j0 ≤ i then a + xs.getD (i - j0) 0 else a)

/-- One output accumulator at work: sums, and the flags of the blocks that fed it. -/
structure Acc where
  sum : List Int
  flags : Nat
  deriving DecidableEq, Repr

def Acc.zero : Acc := { sum := silence, flags := 0 }

/-- Which paths of which objects are shed (R67): the object, and the place of the path among its members and then its leaving paths. -/
abbrev ShedSet := List (Nat × Nat)

/-- The paths of one object add to the accumulators. -/
def fabricObj (o : Nat) (run : ObjRun) (shed : ShedSet) (j0 j1 : Nat) (acc : Cells Acc) : Cells Acc :=
  (run.active ++ run.leaving).zipIdx.foldl (fun acc q =>
    let p := q.1
    let isShed := shed.contains (o, q.2)
    let g1 := if isShed then 0 else p.gain
    let xs := pathSamples run.line isShed p.d0 p.delay p.g0 g1 j0 j1 (32 - j0)
    let a := Cells.get (fun _ => Acc.zero) acc p.out
    Cells.put (fun _ => Acc.zero) acc p.out
      { sum := addInto a.sum j0 xs, flags := a.flags ||| (if run.concealed then flagConcealed else 0) }) acc

def fabric (runs : Cells ObjRun) (shed : ShedSet) (j0 j1 : Nat) (acc : Cells Acc) : Cells Acc :=
  runs.foldl (fun acc p => fabricObj p.1 p.2 shed j0 j1 acc) acc

/-! ### Capacity and overload (R66 to R69) -/

/-- W of R66. -/
def fabricW (fs : Nat) : Nat := 86 * 12 * 32 * 1000000 / fs
/-- Path units in service. -/
def State.pathUnits (s : State) : Nat :=
  ((List.range 8).filter (fun u => Cells.get (fun _ => 0) s.mgt.out (0x90 + u) == 0)).length

/-- One path job of a block: what R67 orders it by, its place among its object's paths, and whether it is a member. -/
structure PathJob where
  prio : Nat
  gain : Int
  obj : Nat
  speaker : Nat
  place : Nat
  member : Bool
  deriving DecidableEq, Repr

/-- The order of R67: PRIO descending, E_end gain descending, object index and speaker index ascending. -/
def PathJob.before (a b : PathJob) : Bool :=
  decide (b.prio < a.prio) || (a.prio == b.prio && (decide (b.gain < a.gain) || (a.gain == b.gain &&
    (decide (a.obj < b.obj) || (a.obj == b.obj && decide (a.speaker ≤ b.speaker))))))

/-- Every job of the block, in that order; members stand before leaving paths that tie with them. -/
def jobOrder (bank : RenderObjects) (runs : Cells ObjRun) : List PathJob :=
  let js := (runs.map (fun q => ((q.2.active ++ q.2.leaving).zipIdx).map (fun p =>
    { prio := (Cells.get (fun _ => ObjCfg.reset) bank.objs q.1).prio, gain := p.1.gain, obj := q.1, speaker := p.1.speaker
      place := p.2, member := decide (p.2 < q.2.active.length) : PathJob }))).flatten
  sortBy PathJob.before js

/-- What admission decides (R67, R69): all, the number of full jobs, or render fail. -/
inductive Admit where
  | all
  | full (n : Nat)
  | fail
  deriving DecidableEq, Repr

def admission (jobs units w cost : Nat) : Admit :=
  let cap := units * (w - 34)
  if jobs * cost ≤ units * (w / 34) * 34 then .all
  else if cap < 6 * jobs then .fail
  else .full ((cap - 6 * jobs) / (cost - 6))

/-! ### The stage -/

/-- A swap that acts inside the block: the sample, and the masks of domains it changes here. -/
structure SwapAt where
  j : Nat
  mask : Nat
  deriving DecidableEq, Repr

/-- Objects take their settings for this block: feeds, and enabling or disabling them (R70, R72). -/
def enableRun (on : Bool) (run : ObjRun) : ObjRun :=
  if on then { run with enabled := true }
  else if run.active = [] ∧ run.leaving = [] then { ObjRun.cold0 with states := run.states, cur := run.cur }
  else { run with enabled := false }

/-- Feed and stage every object that works (R59 to R61). -/
def stageAll (c : StageCtx) (ing : Cells (List Block)) (bank : RenderObjects) (feeds : Cells Nat) (late : List Nat) :
    List Nat → Nat → Cells ObjRun → Nat × Cells ObjRun
  | [], sats, runs => (sats, runs)
  | o :: os, sats, runs =>
    let cfg := Cells.get (fun _ => ObjCfg.reset) bank.objs o
    let run := enableRun cfg.enable (Cells.get (fun _ => ObjRun.cold0) runs o)
    let (sat, run) :=
      if cfg.enable ∨ run.active ≠ [] ∨ run.leaving ≠ [] then
        (run.feed ing (Cells.get (fun _ => 0xFFFF) feeds o) c.fs).stage c o cfg.bulk cfg.setchg (late.contains o)
      else (false, run)
    stageAll c ing bank feeds late os (sats + (if sat then 1 else 0)) (Cells.put (fun _ => ObjRun.cold0) runs o run)

/-- A change of RENDER_OBJECTS starts its bulk crossfades at the swap (R62). -/
def bulkSwap (old new : RenderObjects) (fs j : Nat) (o : Nat) (run : ObjRun) : ObjRun :=
  let a := Cells.get (fun _ => ObjCfg.reset) old.objs o
  let b := Cells.get (fun _ => ObjCfg.reset) new.objs o
  if a.bulk = b.bulk ∨ ¬ a.enable then run
  else { run with bulkX := some { src := a.bulk, wait := j - 3, done := 0, total := 32 * fadeFrames b.setchg fs } }

def mapRuns (f : Nat → ObjRun → ObjRun) (runs : Cells ObjRun) : Cells ObjRun :=
  runs.foldl (fun m p => Cells.put (fun _ => ObjRun.cold0) m p.1 (f p.1 p.2)) []

/-- Every path begins its block. -/
def beginRuns (runs : Cells ObjRun) : Cells ObjRun :=
  mapRuns (fun _ r => { r with active := r.active.map Path.begin, leaving := r.leaving.map Path.begin }) runs

/-- A segment that ran from sample `j0` ends at sample `j`: the next begins with the values reached (R70). -/
def splitRuns (j0 j : Nat) (runs : Cells ObjRun) : Cells ObjRun :=
  let f := fun (p : Path) => { p with d0 := (p.valueAt j0 j).1, g0 := (p.valueAt j0 j).2 }
  mapRuns (fun _ r => { r with active := r.active.map f, leaving := r.leaving.map f }) runs

/-- Every path ends its block; shed paths are out of their sets (R68). -/
def settleRuns (shed : ShedSet) (runs : Cells ObjRun) : Cells ObjRun :=
  mapRuns (fun o r =>
    let kept := fun (l : List Path) (from_ : Nat) =>
      (l.zipIdx from_).filterMap (fun q => if shed.contains (o, q.2) then none else q.1.settle)
    { r with active := kept r.active 0, leaving := kept r.leaving r.active.length }) runs

/-- The pool of leaving paths (R57). -/
def State.poolSize (s : State) : Nat := if s.rateClass = 2 then 2048 else 4096
def poolUsed (runs : Cells ObjRun) : Nat := (runs.map (fun p => p.2.leaving.length)).foldl (· + ·) 0

/-- The E_end gain before fades that a held-out speaker would have (R54, R68): its own candidate gain, under VBAP the gain of the last block. -/
def heldGain (c : PanCtx) (es ee : Nat) (run : ObjRun) (sp : Nat) : Int :=
  match objAt run es ee with
  | none => 0
  | some a =>
    let p := c.geo.speaker sp
    let lg := if a.law = 0 then ((run.prevGains.find? (fun q => q.1 == sp)).map (·.2)).getD .zero
      else distGain c a.law a.rolloff a.pos a.size p
    gainQ30 ((a.gain.mul lg).mul (trimGain p))

/-- Held-out paths that stay out: as many as the last block left room for come back, first in the order of R67 (R68). -/
def releaseHeld (c : PanCtx) (bank : RenderObjects) (es ee : Nat) (runs : Cells ObjRun) (held : List (Nat × Nat)) (lastJobs units w : Nat) :
    List (Nat × Nat) :=
  let js := held.map (fun q =>
    { prio := (Cells.get (fun _ => ObjCfg.reset) bank.objs q.1).prio
      gain := heldGain c es ee (Cells.get (fun _ => ObjRun.cold0) runs q.1) q.2
      obj := q.1, speaker := q.2, place := 0, member := true : PathJob })
  ((sortBy PathJob.before js).drop (units * (w / 34) - lastJobs)).map (fun j => (j.obj, j.speaker))

/-- The accumulators of a finished block, saturated (R64), with the outputs that saturated. -/
def readOut (acc : Cells Acc) : Cells Block × List Nat :=
  acc.foldl (fun (r : Cells Block × List Nat) p =>
    let ys := p.2.sum.map (satS 40)
    let b : Block := { samples := ys, flags := p.2.flags, plane := 1 }
    (Cells.put (fun _ => Block.absent) r.1 p.1 b, if ys = p.2.sum then r.2 else r.2 ++ [p.1])) ([], [])

/-- Render fail: the last block fades to zero, and later blocks are silent; all are flagged (R69). -/
def failBlocks (first : Bool) (outs : List Nat) (acc : Cells Block) : Cells Block :=
  outs.foldl (fun m o =>
    let b := Cells.get (fun _ => Block.absent) acc o
    Cells.put (fun _ => Block.absent) m o
      { samples := if first then rampBlock unity 0 32 0 b.samples else silence, flags := flagConcealed, plane := 1 }) []

/-- The render engine as a start of the plane, or the end of render fail, leaves it (R72). -/
def Render.coldStart (r : Render) : Render :=
  { r with runs := [], acc := [], heldOut := [], fail := false, poolFull := false, cold := true, jobs := 0 }

/-- What the render stage of one block is run with: `swaps` act inside it, in the order of their samples, and take the
inactive banks of the domains they name. -/
structure RenderIn where
  es : Nat
  ee : Nat
  swaps : List SwapAt
  late : List Nat
  /-- Objects whose block a check of R367 or R368 spoils. -/
  bad : List Nat
  /-- Object feeds the ingress side works with. -/
  feeds : Cells Nat
  deriving DecidableEq, Repr

/-- One segment of a block: its first sample and the sets it runs with (R70). -/
structure Seg where
  start : Nat
  objs : RenderObjects
  geo : Geometry
  geoNew : Bool
  deriving DecidableEq, Repr

/-- The segments of a block; a swap at sample 0 changes the first. -/
def segments (ro : RenderObjects) (rg : Geometry) (io : RenderObjects) (ig : Geometry) : List SwapAt → Seg → List Seg
  | [], g => [g]
  | w :: ws, g =>
    let touches := w.mask.testBit 1 || w.mask.testBit 2
    let g' : Seg :=
      { start := w.j, objs := if w.mask.testBit 1 then io else g.objs, geo := if w.mask.testBit 2 then ig else g.geo
        geoNew := w.mask.testBit 2 || (w.j == g.start && g.geoNew) }
    if ¬ touches then segments ro rg io ig ws g
    else if w.j = g.start then segments ro rg io ig ws g'
    else g :: segments ro rg io ig ws g'

/-- Counters and per-frame events of the stage. -/
def State.countPlan (s : State) (pl : Plan) (sats : Nat) (late : Nat) (accSat : List Nat) (shed : Nat) : State :=
  let s := s.bump 0x80108 pl.teleports
  let s := s.bump 0x8010C pl.refused.eraseDups.length
  let s := s.bump 0x80110 pl.clamps.eraseDups.length
  let s := s.bump 0x80114 pl.misses.eraseDups.length
  let s := s.bump 0x80118 late
  let s := s.bump 0x8011C shed
  let s := s.bump 0x80120 accSat.length
  let s := s.bump 0xA010C sats
  let s := accSat.foldl (fun s o => s.noteEvent 45 (3 + 256 * o) 0xFFFF 0) s
  let s := if 0 < late then s.note53 1 late 0 else s
  s

/-- The segments after the first: the samples before each are rendered with the plan so far, then the new set is planned
from the values reached. -/
def laterSegs (s : State) (i : RenderIn) (held : List (Nat × Nat)) (order : List Nat) :
    Nat → List Seg → Plan → Cells ObjRun → Cells Acc → Nat × Plan × Cells ObjRun × Cells Acc
  | start, [], pl, runs, acc => (start, pl, runs, acc)
  | start, g :: gs, pl, runs, acc =>
    let acc := fabric runs [] start g.start acc
    let (pl, runs) := planAll (s.panCtx g.geo) g.objs i.es i.ee held true g.geoNew order pl (splitRuns start g.start runs)
    laterSegs s i held order g.start gs pl runs acc

/-- The fades of a swap of domain 1 or 2 run until this frame tick (MIX_XFADE). -/
def fadeEnd (tick fs : Nat) (bank : RenderObjects) (runs : Cells ObjRun) : Nat :=
  runs.foldl (fun n p =>
    let moving := p.2.bulkX.isSome || p.2.leaving != [] || p.2.active.any (fun q => q.fade != .steady)
    if moving then max n (tick + fadeFrames (Cells.get (fun _ => ObjCfg.reset) bank.objs p.1).setchg fs) else n) 0

/-- The render stage of one block (R38, R70), with the banks exchanged where a swap acts in it. -/
def State.renderStage (s : State) (i : RenderIn) : State :=
  let fs := s.renderRate
  let r := s.rnd
  let mask := i.swaps.foldl (fun a w => a ||| w.mask) 0
  let objsE := if mask.testBit 1 then r.objects.idle else r.objects.live
  let seg0 : Seg := { start := 0, objs := r.objects.live, geo := r.geometry.live, geoNew := false }
  let segs := segments r.objects.live r.geometry.live r.objects.idle r.geometry.idle i.swaps seg0
  let first := segs.headD seg0
  let units := s.pathUnits
  let w := fabricW fs
  let held := if r.fail then []
    else releaseHeld (s.panCtx first.geo) objsE i.es i.ee r.runs r.heldOut r.jobs units w
  let runs := if mask.testBit 1 then mapRuns (bulkSwap r.objects.live r.objects.idle fs ((i.swaps.find? (fun w => w.mask.testBit 1)).elim 0 (·.j))) r.runs else r.runs
  let order := objOrder objsE runs
  let sc : StageCtx :=
    { fs := fs, eqOld := s.mix.objectEq.live
      eqNew := if mask.testBit 4 then s.mix.objectEq.idle else s.mix.objectEq.live
      eqAt := (i.swaps.find? (fun w => w.mask.testBit 4)).map (fun w => w.j - 3) }
  let (sats, runs) := stageAll sc s.ing.chans objsE i.feeds (i.late ++ i.bad) order 0 runs
  let runs := beginRuns runs
  let pl : Plan := { pool := s.poolSize - poolUsed runs, scans := 64, teleports := 0, refused := [], clamps := [], misses := [] }
  let (pl, runs) := planAll (s.panCtx first.geo) first.objs i.es i.ee held false first.geoNew order pl runs
  let (start, pl, runs, acc) := laterSegs s i held order 0 segs.tail pl runs []
  let late := i.late.filter (fun o => (Cells.get (fun _ => ObjCfg.reset) objsE.objs o).enable)
  let jobs := jobOrder objsE runs
  let s := s.onRnd (fun x => { x with
    jobs := jobs.length
    objects := if mask.testBit 1 then { live := x.objects.idle, idle := x.objects.live } else x.objects
    geometry := if mask.testBit 2 then { live := x.geometry.idle, idle := x.geometry.live } else x.geometry })
  let s := { s with mix := { s.mix with
    objectEq := if mask.testBit 4 then { live := s.mix.objectEq.idle, idle := s.mix.objectEq.live } else s.mix.objectEq
    fadeUntil := [1, 2].foldl (fun t d =>
      if mask.testBit d then Cells.put (fun _ => 0) t d (fadeEnd s.mgt.tick.count fs objsE runs) else t) s.mix.fadeUntil } }
  match admission jobs.length units w (if segs.length ≤ 1 then 34 else 36) with
  | .fail =>
    let s := s.onRnd (fun x => { x with
      runs := settleRuns [] runs, fail := true, acc := failBlocks (!r.fail) (s.sliceList.map (·.2)) r.acc })
    let s := s.countPlan pl sats late.length [] 0
    if r.fail then s else s.note53 4 0 0
  | a =>
    if r.fail then s.onRnd Render.coldStart
    else
      let out := match a with | .full k => jobs.drop k | _ => []
      let shed := out.map (fun j => (j.obj, j.place))
      let (blocks, sat) := readOut (fabric runs shed start 32 acc)
      let runs := settleRuns shed runs
      let s := s.onRnd (fun x => { x with
        runs := runs, acc := blocks, poolFull := pl.refused != []
        heldOut := (held ++ (out.filter (·.member)).map (fun j => (j.obj, j.speaker))).eraseDups, cold := runs.any (fun p => p.2.enabled && p.2.cold) })
      let s := s.countPlan pl sats late.length sat shed.length
      if out.isEmpty then s else s.note53 2 0 out.length

/-- RND_STATUS as the engine stands. -/
def State.rndStatus (s : State) : Word :=
  let r := s.rnd
  BitVec.ofNat 32 (s.pathUnits + (if r.cold then 0x100 else 0) + (if r.poolFull then 0x200 else 0)
    + (if r.heldOut = [] then 0 else 0x400) + (if r.fail then 0x800 else 0))

/-- RND_PATH_CAP is computed at a start and when UNITS changes (R66). -/
def State.capUpdate (s : State) : State := s.onRnd (fun r => { r with cap := s.pathUnits * (fabricW s.renderRate / 34) })

end Sys2Proof.Machine
end

