-- ==== Sys2Proof/Machine/Conv.lean ====
section
/-!
DEFINITION. Machine/Conv.lean: room correction convolution: filter loads (R78 to R81), the sequencer's arithmetic (R77,
R83), overrun and shedding (R84 to R87) and cold start (R90).
-/
namespace Sys2Proof.Machine

def State.convOut (s : State) (o : Nat) : ConvOut := Cells.get (fun _ => ConvOut.reset) s.cnv.outs o
def State.onCnv (s : State) (f : Conv → Conv) : State := { s with cnv := f s.cnv }
def State.setConvOut (s : State) (o : Nat) (x : ConvOut) : State :=
  s.onCnv (fun c => { c with outs := Cells.put (fun _ => ConvOut.reset) c.outs o x })

def cnvBadOutput : Nat := 0x0301
def cnvBadLength : Nat := 0x0302
def cnvBadTaps : Nat := 0x0303
def cnvBadFormat : Nat := 0x0304
def cnvBadCrc : Nat := 0x0305
def cnvBadValue : Nat := 0x0306
def cnvBankBusy : Nat := 0x0307

/-- Most taps at the render rate (R79). -/
def State.maxTaps (s : State) : Nat := if s.rateClass = 0 then 32768 else 16384

/-! ### Filter images (R79, R80) -/

/-- The coefficients of an image: none where a binary32 one is a NaN or an infinity; with each, whether it saturated. -/
def coefs (float : Bool) : Nat → List Byte → Option (List (Int × Bool))
  | 0, _ => some []
  | n + 1, b =>
    let w := wordAt b 0
    let c : Option (Int × Bool) :=
      if float then (F32.ofBits w).map (fun f =>
        let v := f.toIntAway 31
        (satS 32 v, satS 32 v != v))
      else some (sint w, false)
    match c, coefs float n (b.drop 4) with
    | some x, some l => some (x :: l)
    | _, _ => none

/-- The image's status under R80 from BAD_LENGTH to BAD_VALUE, or its filter and the coefficients that saturated. -/
def parseFilter (maxTaps len : Nat) (b : List Byte) : Nat ⊕ (Filter × Nat) :=
  let taps := leAt b 0 4
  let fmt := leAt b 4 1
  if len ≠ 32 + 4 * taps then .inl cnvBadLength
  else if taps = 0 ∨ maxTaps < taps then .inl cnvBadTaps
  else if 1 < fmt ∨ leAt b 5 1 / 8 ≠ 0 ∨ leAt b 6 2 ≠ 0 ∨ ¬ allZero ((b.drop 12).take 20) then .inl cnvBadFormat
  else
    let body := (b.drop 32).take (4 * taps)
    if crc32c body ≠ leAt b 8 4 then .inl cnvBadCrc
    else
      match coefs (fmt == 1) taps body with
      | none => .inl cnvBadValue
      | some l => .inr ({ taps := l.map (·.1), prio := leAt b 5 1 % 8 }, (l.filter (·.2)).length)

/-- OUT of a ring 14 or 15 descriptor. -/
def fltOut (d : Desc) : Nat := field d.w0 24 16

/-- A load is refused (R80). -/
def State.fltRefuse (s : State) (ring index status : Nat) : State := (s.bump 0x90110 1).finish ring index status

/-- The output belongs to a swap that has not acted, or its crossfade runs (R80). -/
def ConvOut.busy (x : ConvOut) : Bool := x.pending || x.xfade.isSome

/-- One accepted descriptor takes effect and completes; its first write is its commit point (R81). -/
def State.fltApply (s : State) (l : FltLoad) : State :=
  let x := s.convOut l.out
  if x.busy then s.fltRefuse l.ring l.index cnvBankBusy
  else
    let x := if l.kind = 2 then { x with armed := false } else { x with idle := l.filter, armed := true, badIdle := [] }
    (s.setConvOut l.out x).finish l.ring l.index stOk

/-- FLT_UNITY and FLT_DISARM act at once, or behind the loads that run on their ring. -/
def State.fltAccept (s : State) (l : FltLoad) : State :=
  let s := s.setPhase l.ring l.index .accepted
  if l.kind ≠ 0 ∧ ¬ s.cnv.loads.any (fun q => q.ring == l.ring) then s.fltApply l
  else s.onCnv (fun c => { c with loads := c.loads ++ [l] })

/-- Opcode 0x10 on rings 14 and 15 (R78 to R81): the whole image is read into the ring's staging buffer first. -/
def execFltLoad (ring : Nat) (data : Option (List Byte)) (s : State) : Res :=
  match s.nextDesc ring 0x10 with
  | none => .next s
  | some d =>
    let o := fltOut d
    if field d.w0 31 25 ≠ 0 ∨ d.flags ≠ 0 then .next (s.finish ring d.index stBadDesc)
    else if s.maxOut ≤ o then .next (s.fltRefuse ring d.index cnvBadOutput)
    else if d.addr % 32 ≠ 0 ∨ d.w1.toNat < 32 ∨ d.w1.toNat % 4 ≠ 0 then .next (s.fltRefuse ring d.index cnvBadLength)
    else
      match data with
      | none =>
        if (s.convOut o).busy then .next (s.fltRefuse ring d.index cnvBankBusy)
        else .next (s.finish ring d.index stDmaError)
      | some b =>
        let s := s.onCnv (fun c => { c with staging := Cells.put (fun _ => []) c.staging ring b })
        match parseFilter s.maxTaps d.w1.toNat b with
        | .inl st => .next (s.fltRefuse ring d.index st)
        | .inr (f, sats) =>
          if (s.convOut o).busy then .next (s.fltRefuse ring d.index cnvBankBusy)
          else .next ((s.bump 0x90118 sats).fltAccept
            { ring := ring, index := d.index, kind := 0, out := o, filter := f })

/-- Opcode 0x11 (R78). -/
def execFltUnity (ring : Nat) (s : State) : Res :=
  match s.nextDesc ring 0x11 with
  | none => .next s
  | some d =>
    if field d.w0 31 25 ≠ 0 ∨ d.flags ≠ 0 then .next (s.finish ring d.index stBadDesc)
    else if s.maxOut ≤ fltOut d then .next (s.fltRefuse ring d.index cnvBadOutput)
    else if d.w1 ≠ 0 then .next (s.fltRefuse ring d.index cnvBadLength)
    else if (s.convOut (fltOut d)).busy then .next (s.fltRefuse ring d.index cnvBankBusy)
    else .next (s.fltAccept { ring := ring, index := d.index, kind := 1, out := fltOut d, filter := .identity })

/-- Opcode 0x12 (R78). -/
def execFltDisarm (ring : Nat) (s : State) : Res :=
  match s.nextDesc ring 0x12 with
  | none => .next s
  | some d =>
    if field d.w0 31 25 ≠ 0 ∨ d.flags ≠ 0 then .next (s.finish ring d.index stBadDesc)
    else if s.maxOut ≤ fltOut d then .next (s.fltRefuse ring d.index cnvBadOutput)
    else if (s.convOut (fltOut d)).busy then .next (s.fltRefuse ring d.index cnvBankBusy)
    else .next (s.fltAccept { ring := ring, index := d.index, kind := 2, out := fltOut d, filter := .identity })

/-- Descriptors behind a finished load, up to the next load of the ring. -/
def State.fltFollow (ring : Nat) : List FltLoad → State → List FltLoad × State
  | [], s => ([], s)
  | l :: ls, s =>
    if l.ring ≠ ring then
      let (r, s) := State.fltFollow ring ls s
      (l :: r, s)
    else if l.kind = 0 then (l :: ls, s)
    else State.fltFollow ring ls (s.fltApply l)

/-- The conversion of the oldest load of a ring ends (R81 step 4). -/
def execFilterLoadDone (dt ring : Nat) (s : State) : Res :=
  let s := s.elapse dt
  match s.cnv.loads.find? (fun l => l.ring == ring) with
  | none => .next s
  | some l =>
    let rest := s.cnv.loads.erase l
    let s := (s.onCnv (fun c => { c with loads := [] })).fltApply l
    let (left, s) := State.fltFollow ring rest s
    .next (s.onCnv (fun c => { c with loads := left ++ c.loads }))

/-- A crossfade has run its 4,096 samples: the old filter stops (R83). -/
def execFilterCrossfadeEnd (dt out : Nat) (s : State) : Res :=
  let s := s.elapse dt
  let x := s.convOut out
  .next (match x.xfade with
    | some n => if 4096 ≤ n then s.setConvOut out { x with xfade := none, segs := x.segs.map (fun g => { g with tailOld := [] }) } else s
    | none => s)

/-! ### Arithmetic (R73, R77, R83) -/

/-- First tap and length of a segment: A, B, C (R73). -/
def segTaps (rateClass seg : Nat) : Nat × Nat :=
  if seg = 0 then (64, 960) else if seg = 1 then (1024, 3072) else (4096, if rateClass = 0 then 28672 else 12288)
/-- Period in frames and partitions of a segment. -/
def segPeriod (seg : Nat) : Nat := if seg = 0 then 2 else if seg = 1 then 16 else 128
def segParts (rateClass seg : Nat) : Nat := if seg = 0 then 15 else if seg = 1 then 6 else if rateClass = 0 then 7 else 3
/-- The filter has taps in the segment. -/
def Filter.hasSeg (f : Filter) (seg : Nat) : Bool :=
  decide ((if seg = 0 then 64 else if seg = 1 then 1024 else 4096) < f.taps.length)

/-- Σ h[i] × x[t − i] over taps from `from_` on, for sample `j` of the newest block of a history, newest first. -/
def convSum (h : List Int) (from_ : Nat) (hist : List Int) (j : Nat) : Int :=
  ((h.zip (hist.drop (31 - j + from_))).foldl (fun (a : Int) p => a + p.1 * p.2) 0)

/-- Block size B of a segment (R73). -/
def segSize (seg : Nat) : Nat := 32 * segPeriod seg
/-- Share of the error bound of R77 that a segment may use, in percent; the three add up to 100. -/
def errShare (seg : Nat) : Nat :=
  let a := min 100 Config.convShare.1
  let b := min (100 - a) Config.convShare.2
  if seg = 0 then a else if seg = 1 then b else 100 - a - b

/-- Errors of one segment, block by block within its share of the bound: less than −130 dB RMS of full scale, that is, a sum of squares below
32 × 1,801 in Q5.27. -/
def convErr (seg : Nat) : Nat → List Int → List Int
  | 0, _ => []
  | n + 1, e =>
    let c := e.take 32
    let ok := c.length = 32 ∧ (c.foldl (fun (a : Int) x => a + x * x) 0) * 10000 < 32 * 1801 * errShare seg * errShare seg
    (if ok then c else silence) ++ convErr seg n (e.drop 32)

/-- A list brought to `n` elements: cut, or filled with zeros in front. -/
def padFront (n : Nat) (l : List Int) : List Int := List.replicate (n - l.length) 0 ++ l.take n
/-- A list brought to `n` elements: cut, or filled with zeros behind. -/
def padTo (n : Nat) (l : List Int) : List Int := l.take n ++ List.replicate (n - l.length) 0

/-- Sample `t` of partition `h` against the window of its spectrum (overlap-save, R73). -/
def partSum (b : Nat) (h w : List Int) (t : Nat) : Int :=
  (h.zipIdx).foldl (fun a p => a + p.1 * w.getD (b + t - p.2) 0) 0

/-- Sum over the partitions of a segment, with the spectra from the newest on (R75 step 3); a cold or zeroed one adds nothing (R87, R90). -/
def partsSum (b t : Nat) : List Int → List (Option (List Int)) → Int
  | _, [] => 0
  | h, w :: ws => (match w with | some x => partSum b (h.take b) x t | none => 0) + partsSum b t (h.drop b) ws

/-- The B output samples of a super-block, Q5.27 with saturation, and whether one saturated (R75 to R77). -/
def segOut (rateClass seg : Nat) (f : Filter) (fdl : List (Option (List Int))) : List Int × Bool :=
  let b := segSize seg
  let (a, n) := segTaps rateClass seg
  let h := (f.taps.drop a).take n
  let ws := fdl.take (segParts rateClass seg)
  let raw := zipAdd ((List.range b).map (fun t => roundShift (partsSum b t h ws) 31))
    (convErr seg (segPeriod seg) (Config.convError h ws))
  let ys := raw.map (satS 32)
  (ys, ys != raw)

def ConvOut.seg (x : ConvOut) (seg : Nat) : ConvSeg := x.segs.getD seg .cold
/-- A segment of the live filter, or of the old one in a crossfade, does no work (R85, R87). -/
def ConvOut.isShed (x : ConvOut) (seg : Nat) : Bool := x.shed.contains seg || x.fdlWait.contains seg || x.badSegs.contains seg
def ConvOut.oldShed (x : ConvOut) (seg : Nat) : Bool := x.shed.contains seg || x.fdlWait.contains seg || x.badIdle.contains seg
/-- The segment is on its way back: it computes its super-blocks again (R86). -/
def ConvOut.returning (x : ConvOut) (seg : Nat) : Bool := x.restoreAt.any (fun q => q.1 == seg)

/-- Block `m` completes a super-block of a segment of output `o` (R75). -/
def superEnds (m o seg : Nat) : Bool := (m + segPeriod seg - o % segPeriod seg + 1) % segPeriod seg == 0

/-- A tail buffer takes the samples of a super-block: segment B, which starts at tap 2B, keeps those of the one before (R75). -/
def pushTail (seg : Nat) (tail ys : List Int) : List Int := if seg = 1 then padFront 512 tail ++ ys else ys

/-- The samples of a filter that still serve block `m` and later blocks, computed afresh from the FDL (R83). -/
def spanFrom (rateClass m o seg : Nat) (f : Filter) (fdl : List (Option (List Int))) : List Int :=
  let gone := 32 * ((m + segPeriod seg - o % segPeriod seg) % segPeriod seg)
  let now := (segOut rateClass seg f fdl).1
  if seg = 1 then ((segOut rateClass seg f (fdl.drop 1)).1).drop gone ++ now else now.drop gone

/-- Step 6 of R76 for one segment after block `m`: the forward spectrum into the FDL, then the tails of the filters at work. -/
def ConvOut.superBlock (rateClass m o seg : Nat) (x : ConvOut) : ConvSeg × Nat :=
  let g := x.seg seg
  if ¬ superEnds m o seg then (g, 0)
  else
    let b := segSize seg
    let fdl := (some (padTo (2 * b) x.hist).reverse :: g.fdl).take (segParts rateClass seg + (if seg = 1 then 1 else 0))
    let run : Filter → Bool → List Int → List Int × Nat := fun f off tail =>
      if ¬ f.hasSeg seg ∨ off then (tail, 0)
      else
        let r := segOut rateClass seg f fdl
        (pushTail seg tail r.1, if r.2 then 1 else 0)
    let n := run x.live (x.badSegs.contains seg || (x.isShed seg && !x.returning seg)) g.tail
    let z := run x.idle (x.xfade.isNone || x.badIdle.contains seg || (x.oldShed seg && !x.returning seg)) g.tailOld
    ({ fdl := fdl, tail := n.1, tailOld := z.1 }, n.2 + z.2)

/-- A tail under its shedding: absent, ramping, or whole (R85, R86). -/
def shapeTail (x : ConvOut) (seg : Nat) (off : Bool) (ys : List Int) : List Int :=
  match x.ramping.find? (fun p => p.1 == seg) with
  | some (_, up) => if up then rampBlock 0 unity 32 0 ys else rampBlock unity 0 32 0 ys
  | none => if off then silence else ys

/-- One filter over the newest block: y of R77 before sat40; segments in `miss` count as zero. `old`: the filter a crossfade leaves. -/
def filterBlock (x : ConvOut) (miss : List Nat) (old : Bool) (hist : List Int) : List Int :=
  let f := if old then x.idle else x.live
  if f.taps = [] then (hist.take 32).reverse.map (· * 16)
  else
    let head := (List.range 32).map (fun j => roundShift (convSum (f.taps.take 64) 0 hist j) 27)
    let tail := fun seg =>
      if miss.contains seg ∨ ¬ f.hasSeg seg then silence
      else if old then shapeTail x seg (x.oldShed seg) (padTo 32 (x.seg seg).tailOld)
      else shapeTail x seg (x.isShed seg) (padTo 32 (x.seg seg).tail)
    [tail 0, tail 1, tail 2].foldl (fun acc t => zipAdd acc (t.map (· * 16))) head

/-- The banks of an output exchange roles (R82). -/
def ConvOut.exchange (x : ConvOut) (xfade : Option Nat) : ConvOut :=
  { x with
    live := x.idle, idle := x.live, armed := false, pending := false, xfade := xfade, badSegs := [], badIdle := x.badSegs }

/-- A swap in block `m`: the spans of the new filter come from the FDL, which holds input, and the old filter keeps its own (R83). -/
def ConvOut.swapIn (rateClass m o : Nat) (x : ConvOut) : ConvOut :=
  let y := x.exchange (some 0)
  { y with segs := [0, 1, 2].map (fun seg =>
      let g := x.seg seg
      { g with
        tailOld := if x.isShed seg ∧ ¬ x.ramping.any (fun p => p.1 == seg) then [] else g.tail
        tail := if y.live.hasSeg seg ∧ ¬ y.isShed seg then spanFrom rateClass m o seg y.live g.fdl else [] }) }

/-- The crossfade of R83 over a block that starts at position `p` and, where the swap lies in it, at its sample `j`. -/
def crossBlock (p j : Nat) (old new : List Int) : List Int :=
  (List.zipWith Prod.mk old new).mapIdx (fun i q =>
    if i < j then q.1
    else
      let t : Int := (min 4096 (p + i - j) : Nat)
      (q.1 * (4096 - t) + q.2 * t + 2048).fdiv 4096)

/-- Block number at which the tail of a segment's next super-block begins, from block `m` on (R75, R86). -/
def nextTail (m o seg : Nat) : Nat :=
  let k := (List.range (segPeriod seg)).find? (fun d => superEnds (m + d) o seg)
  m + k.getD 0 + 1 + (if seg = 1 then 16 else 0)

/-- Segments whose tail begins with block `m` are back, under a rising gain (R86). -/
def ConvOut.arrive (m : Nat) (x : ConvOut) : ConvOut :=
  let back := (x.restoreAt.filter (fun q => q.2 ≤ m)).map (·.1)
  { x with
    shed := x.shed.filter (fun g => !back.contains g)
    fdlWait := x.fdlWait.filter (fun g => !back.contains g)
    ramping := x.ramping ++ back.map (fun g => (g, true))
    restoreAt := x.restoreAt.filter (fun q => m < q.2) }

/-- The super-blocks that block `m` completes (R75); a segment whose zeroed spectrum has left its FDL returns with its next one (R87). -/
def ConvOut.superBlocks (rateClass m o : Nat) (x : ConvOut) : ConvOut × Nat :=
  let rs : List (ConvSeg × Nat) := [0, 1, 2].map (fun seg => x.superBlock rateClass m o seg)
  let y : ConvOut := { x with segs := rs.map (fun r => r.1) }
  let clean := y.fdlWait.filter (fun seg => !y.returning seg && ((y.seg seg).fdl.take (segParts rateClass seg)).all (·.isSome))
  ({ y with restoreAt := y.restoreAt ++ clean.map (fun seg => (seg, nextTail (m + 1) o seg)) }, (rs.map (·.2)).foldl (· + ·) 0)

/-- Block `m` of output `o`: result, whether the input saturated, saturated tails and output, and the output after. -/
def ConvOut.block (rateClass m o : Nat) (miss : List Nat) (swapJ : Option Nat) (xs : List Int) (good : Bool) (x : ConvOut) :
    List Int × Bool × Nat × ConvOut :=
  let x := x.arrive m
  let x := if swapJ.isSome then x.swapIn rateClass m o else x
  let (xs, con) := x.conceal.next (good && !miss.contains 3) xs
  let q := xs.map (fun v => roundShift v 4)
  let qs := q.map (satS 32)
  let hist := (qs.reverse ++ x.hist).take 8192
  let yn := filterBlock x miss false hist
  let (y, xf) := match x.xfade with
    | none => (yn, none)
    | some p =>
      let j := swapJ.getD 0
      (crossBlock p j (filterBlock x miss true hist) yn, some (min 4096 (p + 32 - j)))
  let out := y.map (satS 40)
  let x := { x with
    hist := hist, conceal := con, xfade := xf, ramping := []
    segs := [0, 1, 2].map (fun seg => { x.seg seg with tail := (x.seg seg).tail.drop 32, tailOld := (x.seg seg).tailOld.drop 32 }) }
  let (x, tails) := x.superBlocks rateClass m o
  (out, qs != q, tails + (if out = y then 0 else 1), x)

/-! ### Overrun, shedding and restoring (R84 to R87) -/

/-- Segments that still work, in shedding order: C, then B, then A; PRIO ascending, index descending (R85). Where fewer than 32 outputs carry C,
the 32 of the same frame go on with B and then A (DEDUCED: each frame sheds 32 more, and B follows where no output still carries C). -/
def shedCands (outs : Cells ConvOut) : List (Nat × Nat) :=
  let os := sortBy (fun a b => decide (a.2.live.prio < b.2.live.prio) ||
    (a.2.live.prio == b.2.live.prio && decide (b.1 ≤ a.1))) outs
  ([2, 1, 0].map (fun seg =>
    (os.filter (fun p => p.2.live.hasSeg seg && !p.2.isShed seg)).map (fun p => (p.1, seg)))).flatten

def State.shedSeg (s : State) (p : Nat × Nat) : State :=
  let x := s.convOut p.1
  s.setConvOut p.1
    { x with shed := x.shed ++ [p.2], ramping := x.ramping ++ [(p.2, false)],
             restoreAt := x.restoreAt.filter (fun q => q.1 != p.2) }

/-- A frame with an overrun sheds 32 more segments while SHED_EN is 1. -/
def State.shedMore (s : State) : State :=
  if s.flag 0x90000 0 then
    let ps := (shedCands s.cnv.outs).take 32
    let s := ps.foldl State.shedSeg s
    (s.bump 0x90104 ps.length).onCnv (fun c => { c with shedOrder := c.shedOrder ++ ps })
  else s

/-- A shed segment is to return with its next super-block (R86); one whose FDL still holds a zeroed spectrum waits for that to leave (R87). -/
def State.restoreSeg (m : Nat) (s : State) (p : Nat × Nat) : State :=
  let x := s.convOut p.1
  let zeroed := ((x.seg p.2).fdl.take (segParts s.rateClass p.2)).any (·.isNone)
  s.setConvOut p.1
    (if zeroed then { x with shed := x.shed.filter (· != p.2), fdlWait := x.fdlWait ++ [p.2] }
     else { x with restoreAt := x.restoreAt ++ [(p.2, nextTail m p.1 p.2)] })

/-- CNV_RESTORE frames, 0 acting as 1. -/
def State.restoreFrames (s : State) : Nat := max 1 (s.fld 0x90004 23 0)

/-- The block whose output stage ran last: block m is processed in frame m + 2. -/
def State.convBlockNo (s : State) : Nat := s.mgt.render.frame - 2

/-- After CNV_RESTORE clean frames, 32 shed segments are restored in the reverse order of shedding (R86). -/
def execSegmentRestore (s : State) : Res :=
  if s.restoreFrames ≤ s.cnv.cleanFrames ∧ s.cnv.shedOrder ≠ [] ∧ s.mgt.render.run then
    let k := s.cnv.shedOrder.length - 32
    let back := (s.cnv.shedOrder.drop k).reverse
    let s := back.foldl (State.restoreSeg (s.convBlockNo + 1)) s
    .next (s.onCnv (fun c => { c with shedOrder := c.shedOrder.take k, cleanFrames := 0 }))
  else .next s

/-- A working segment is treated as shed from the next block on. -/
def ConvOut.dropTail (x : ConvOut) (seg : Nat) : ConvOut := if x.isShed seg then x else { x with ramping := x.ramping ++ [(seg, false)] }

/-- A failing FDL or filter spectrum (R87): the spectrum is zeroed and its segment waits for it to leave, or the segment is BAD. -/
def State.convFault (s : State) (f : FrameFault) : State :=
  match f with
  | .fdl o seg age =>
    let x := s.convOut o
    let y := { x.dropTail seg with
      segs := [0, 1, 2].map (fun k => if k = seg then { x.seg k with fdl := (x.seg k).fdl.set age none } else x.seg k) }
    s.setConvOut o (if x.shed.contains seg ∨ x.fdlWait.contains seg then y else { y with fdlWait := y.fdlWait ++ [seg] })
  | .filterSpectrum o seg =>
    let x := s.convOut o
    s.setConvOut o { x.dropTail seg with badSegs := if x.badSegs.contains seg then x.badSegs else x.badSegs ++ [seg] }
  | _ => s

/-- The sequencer at a start of the plane or at the end of render fail: filters keep their contents (R90). -/
def Conv.coldStart (c : Conv) : Conv :=
  { c with
    outs := c.outs.foldl (fun m p => Cells.put (fun _ => ConvOut.reset) m p.1
      { p.2 with hist := [], segs := [], conceal := .start, shed := [], fdlWait := [], ramping := [], restoreAt := [] }) []
    cold := true, cleanFrames := 0, shedOrder := [] }

/-- Frames until every output's longest loaded segment has filled its FDL (R90). -/
def coldFrames (rateClass : Nat) (outs : Cells ConvOut) : Nat :=
  outs.foldl (fun n p =>
    let f := p.2.live
    max n (if f.hasSeg 2 then segParts rateClass 2 * 128 else if f.hasSeg 1 then 96 else if f.hasSeg 0 then 30 else 0)) 0

/-- One output of the stage: its block after room correction, and the state with its counters. -/
def State.convOne (s : State) (o : Nat) (faults : List FrameFault) (swapJ : Option Nat) (b : Block) : Block × State :=
  let miss := faults.filterMap (fun f => match f with
    | .convOverrun q seg => if q = o then some seg else none
    | _ => none)
  let good := !b.isBad
  let (ys, inSat, outSat, x) := (s.convOut o).block s.rateClass s.convBlockNo o miss swapJ b.samples good
  let s := s.setConvOut o x
  let s := if inSat then s.bump 0x90108 1 else s
  let s := s.bump 0x9010C outSat
  let s := if miss = [] then s else s.bump 0x90100 1
  let fl := (b.flags &&& flagConcealed) ||| (if good && miss == [] then 0 else flagConcealed)
  ({ samples := ys, flags := fl, plane := 1 }, s)

/-- The end of the stage for block `m`: overruns, shedding, the clean count, cold (R84 to R86, R90). -/
def State.convEnd (s : State) (m : Nat) (faults : List FrameFault) (lastPct : Nat) : State :=
  let ovr := faults.any (fun f => match f with | .convOverrun _ _ => true | _ => false)
  let s := faults.foldl State.convFault s
  let s := (s.setFld 0x9000C 15 8 (min 255 lastPct)).setFld 0x9000C 7 0 (max (s.fld 0x9000C 7 0) (min 255 lastPct))
  let s := if ovr then
      ((s.setFlag 0x90008 11 true).fireOpen 52).shedMore.onCnv (fun c => { c with cleanFrames := 0 })
    else if lastPct < 80 then s.onCnv (fun c => { c with cleanFrames := c.cleanFrames + 1 })
    else s.onCnv (fun c => { c with cleanFrames := 0 })
  if s.cnv.cold ∧ coldFrames s.rateClass s.cnv.outs ≤ m + 1 then s.onCnv (fun c => { c with cold := false }) else s

/-- CNV_STATUS and CNV_OUT_STATE as the sequencer stands. -/
def State.cnvStatus (s : State) : Word :=
  let os := s.cnv.outs.map (·.2)
  BitVec.ofNat 32 ((if s.cnv.cold then 0x100 else 0) + (if os.any (fun x => x.xfade.isSome) then 0x200 else 0)
    + (if os.any (fun x => [0, 1, 2].any x.isShed) then 0x400 else 0) + (if s.flag 0x90008 11 then 0x800 else 0)
    + (if os.any (fun x => x.badSegs != []) then 0x1000 else 0))
def State.cnvOutState (s : State) (o : Nat) : Word :=
  let x := s.convOut o
  let b := fun (c : Bool) (n : Nat) => if c then 2 ^ n else 0
  BitVec.ofNat 32 (x.live.taps.length + b (x.isShed 0) 18 + b (x.isShed 1) 19 + b (x.isShed 2) 20
    + b (x.badSegs != []) 21 + b x.pending 22 + b x.xfade.isSome 23 + b x.armed 24 + x.live.prio * 2 ^ 25)

end Sys2Proof.Machine
end

