-- ==== Sys2Proof/Machine/Pset.lean ====
section
/-!
DEFINITION. Machine/Pset.lean: parameter sets: the payloads of R48 and R107, the limits of R95, loads and copies (R106), and
the record form of a bank (R454).
-/
namespace Sys2Proof.Machine

def mixBadDomain : Nat := 0x0401
def mixWrongRing : Nat := 0x0402
def mixBankBusy : Nat := 0x0403
def mixBadLength : Nat := 0x0404
def mixRange : Nat := 0x0405
def mixCapacity : Nat := 0x0406
def mixFuture : Nat := 0x0407

def State.onMix (s : State) (f : Mix → Mix) : State := { s with mix := f s.mix }

/-! ### What a load is checked against -/

/-- Limits of the render rate, and the plane tags of ingress channels. -/
structure LoadCtx where
  objs : Nat
  outs : Nat
  bulk : Nat
  /-- Ingress channels tagged for the Render (1) or Voice (2) plane; every other is I/O (R13). -/
  tags : Cells Nat
  deriving DecidableEq, Repr

/-- A gain of R97. -/
def gainOk (g : Int) : Bool := g == -32768 || (decide (-14400 ≤ g) && decide (g ≤ 1200))
/-- A source ID of R94. -/
def sourceOk (c : LoadCtx) (i : Nat) : Bool :=
  i == 0xFFFF || decide (i < c.objs) || (decide (0x400 ≤ i) && decide (i < 0x400 + c.outs))
    || (decide (0x600 ≤ i) && decide (i < 0x780)) || (decide (0x800 ≤ i) && decide (i < 0xC00))
    || (decide (0x1000 ≤ i) && decide (i < 0x2000))
/-- A DEST of R95. -/
def destOk (d : Nat) : Bool := decide (d < 0x1200)
def within (lo hi n : Nat) : Bool := decide (lo ≤ n) && decide (n ≤ hi)

/-- The banks of the domains a PSET_LOAD writes. -/
structure Sets where
  objects : RenderObjects
  geometry : Geometry
  objectEq : EqBank
  outputEq : EqBank
  routing : Routing
  conference : Conference
  limiter : Cells LimCfg
  deriving DecidableEq, Repr

def State.idleSets (s : State) : Sets :=
  { objects := s.rnd.objects.idle, geometry := s.rnd.geometry.idle, objectEq := s.mix.objectEq.idle,
    outputEq := s.mix.outputEq.idle, routing := s.mix.routing.idle, conference := s.mix.conference.idle,
    limiter := s.mix.limiter.idle }

def State.liveSets (s : State) : Sets :=
  { objects := s.rnd.objects.live, geometry := s.rnd.geometry.live, objectEq := s.mix.objectEq.live,
    outputEq := s.mix.outputEq.live, routing := s.mix.routing.live, conference := s.mix.conference.live,
    limiter := s.mix.limiter.live }

def State.setIdle (s : State) (b : Sets) : State :=
  { s with
    rnd := { s.rnd with
      objects := { s.rnd.objects with idle := b.objects }
      geometry := { s.rnd.geometry with idle := b.geometry } }
    mix := { s.mix with
      objectEq := { s.mix.objectEq with idle := b.objectEq }
      outputEq := { s.mix.outputEq with idle := b.outputEq }
      routing := { s.mix.routing with idle := b.routing }
      conference := { s.mix.conference with idle := b.conference }
      limiter := { s.mix.limiter with idle := b.limiter } } }

/-- `b` with one domain taken from `a`. -/
def Sets.takeDomain (b a : Sets) (d : Nat) : Sets :=
  match d with
  | 1 => { b with objects := a.objects }
  | 2 => { b with geometry := a.geometry }
  | 4 => { b with objectEq := a.objectEq }
  | 5 => { b with outputEq := a.outputEq }
  | 6 => { b with routing := a.routing }
  | 7 => { b with conference := a.conference }
  | 8 => { b with limiter := a.limiter }
  | _ => b

/-! ### Records (R48, R107): each reader answers none where a value, an index or a reserved bit is out of range -/

def objCfgDflt (_ : Nat) : ObjCfg := ObjCfg.reset
def eqDflt (_ : Nat) : EqSection := EqSection.reset
def speakerDflt (_ : Nat) : Speaker := Speaker.reset
def dirDflt (_ : Nat) : List Nat := List.replicate 19 0x8000
def busDflt (_ : Nat) : BusCfg := BusCfg.reset
def feedDflt (d : Nat) : FeedCfg := FeedCfg.reset d
def limDflt (_ : Nat) : LimCfg := LimCfg.reset
def bridgeDflt (_ : Nat) : BridgeCfg := BridgeCfg.reset
def noFeed (_ : Nat) : Nat := 0xFFFF
def zeroDflt (_ : Nat) : Nat := 0

def recObject (c : LoadCtx) (b : RenderObjects) (r : List Byte) : Option RenderObjects :=
  let f := leAt r 2 1
  if decide (leAt r 0 2 < c.objs) && decide (f < 16) && leAt r 3 1 == 0 && within 1 1000 (leAt r 4 2)
      && decide (leAt r 6 2 ≤ c.bulk) && allZero (r.drop 8) then
    some { b with
      objs := Cells.put objCfgDflt b.objs (leAt r 0 2)
        { enable := f % 2 == 1, prio := f / 2, setchg := leAt r 4 2, bulk := leAt r 6 2 } }
  else none

def recOutput (c : LoadCtx) (b : RenderObjects) (r : List Byte) : Option RenderObjects :=
  if decide (leAt r 0 2 < c.outs) && decide (leAt r 2 2 ≤ c.bulk) && allZero (r.drop 4) then
    some { b with outs := Cells.put zeroDflt b.outs (leAt r 0 2) (leAt r 2 2) }
  else none

def recSpeaker (b : Geometry) (r : List Byte) : Option Geometry :=
  let t := signed 16 (leAt r 24 2)
  if decide (leAt r 28 2 < 8192) && decide (leAt r 18 1 < 32) && leAt r 19 1 == 0 && decide (leAt r 20 4 ≤ 40000000)
      && decide (-14400 ≤ t) && decide (t ≤ 1200) && leAt r 26 2 == 0 && leAt r 30 2 == 0 then
    some { b with
      speakers := Cells.put speakerDflt b.speakers (leAt r 28 2)
        { x := signed 32 (leAt r 0 4), y := signed 32 (leAt r 4 4), z := signed 32 (leAt r 8 4),
          aimX := signed 16 (leAt r 12 2), aimY := signed 16 (leAt r 14 2), aimZ := signed 16 (leAt r 16 2),
          dirClass := leAt r 18 1 % 16, virt := (leAt r 18 1).testBit 4, alignNs := leAt r 20 4, trim := t } }
  else none

def recTriangle (b : Geometry) (r : List Byte) : Option Geometry :=
  if decide (leAt r 0 2 < 8192) && decide (leAt r 2 2 < 8192) && decide (leAt r 4 2 < 8192) && leAt r 6 2 == 0
      && decide (b.triangles.length < 16380) then
    some { b with triangles := b.triangles ++ [(leAt r 0 2, leAt r 2 2, leAt r 4 2)] }
  else none

def recClass (b : Geometry) (r : List Byte) : Option Geometry :=
  if decide (leAt r 0 1 < 16) && leAt r 1 1 == 0 && allZero (r.drop 40) then
    some { b with
      classes := Cells.put dirDflt b.classes (leAt r 0 1)
        ((List.range 19).map (fun i => min 0x8000 (leAt r (2 + 2 * i) 2))) }
  else none

def recSection (n per : Nat) (b : EqBank) (r : List Byte) : Option EqBank :=
  if decide (leAt r 0 2 < n) && decide (leAt r 2 1 < per) && decide (leAt r 3 1 < 2) then
    let c := fun i => signed 32 (leAt r (4 + 4 * i) 4)
    some (Cells.put eqDflt b (leAt r 0 2 * per + leAt r 2 1)
      { bypass := leAt r 3 1 == 1, b0 := c 0, b1 := c 1, b2 := c 2, a1 := c 3, a2 := c 4 })
  else none

def recSlot (c : LoadCtx) (b : Routing) (r : List Byte) : Option Routing :=
  if decide (leAt r 0 2 < 1024) && sourceOk c (leAt r 2 2) && allZero (r.drop 4) then
    some { b with slots := Cells.put noFeed b.slots (leAt r 0 2) (leAt r 2 2) }
  else none

def recXpoint (b : Routing) (r : List Byte) : Option Routing :=
  let g := signed 16 (leAt r 4 2)
  if decide (leAt r 0 2 < 256) && decide (leAt r 2 2 < 1024) && gainOk g && within 1 10000 (leAt r 6 2) then
    some { b with xps := b.xps.filter (fun x => !(x.bus == leAt r 0 2 && x.slot == leAt r 2 2))
      ++ [{ bus := leAt r 0 2, slot := leAt r 2 2, gain := g, ramp := leAt r 6 2 }] }
  else none

def recBus (b : Routing) (r : List Byte) : Option Routing :=
  let g := signed 16 (leAt r 4 2)
  if decide (leAt r 0 2 < 256) && within 1 2 (leAt r 2 1) && leAt r 3 1 == 0 && gainOk g && within 1 10000 (leAt r 6 2)
      && within 2 100 (leAt r 8 2) && allZero (r.drop 10) then
    some { b with
      buses := Cells.put busDflt b.buses (leAt r 0 2)
        { plane := leAt r 2 1, gain := g, ramp := leAt r 6 2, zc := leAt r 8 2 } }
  else none

/-- The PLANE 3 test of R107: the source is an I/O-plane ingress channel and the trim is 0 dB. -/
def plane3Ok (c : LoadCtx) (f : FeedCfg) : Bool :=
  f.plane != 3 || (decide (0x1000 ≤ f.src) && decide (f.src < 0x2000) && f.trim == 0
    && Cells.get (fun _ => 3) c.tags (f.src - 0x1000) == 3)

def recFeed (c : LoadCtx) (b : Routing) (r : List Byte) : Option Routing :=
  let f : FeedCfg := { src := leAt r 2 2, trim := signed 16 (leAt r 4 2), ramp := leAt r 6 2, zc := leAt r 8 2, plane := leAt r 10 1 }
  if destOk (leAt r 0 2) && sourceOk c f.src && gainOk f.trim && within 1 10000 f.ramp && within 2 100 f.zc
      && within 1 3 f.plane && plane3Ok c f && allZero (r.drop 11) then
    some { b with feeds := Cells.put feedDflt b.feeds (leAt r 0 2) f }
  else none

def recObjFeed (c : LoadCtx) (b : Routing) (r : List Byte) : Option Routing :=
  if decide (leAt r 0 2 < c.objs) && (decide (leAt r 2 2 < 4096) || leAt r 2 2 == 0xFFFF) && allZero (r.drop 4) then
    some { b with objFeeds := Cells.put noFeed b.objFeeds (leAt r 0 2) (leAt r 2 2) }
  else none

def recBridge (b : Conference) (r : List Byte) : Option Conference :=
  if decide (leAt r 0 1 < 128) && decide (leAt r 1 1 < 2) && leAt r 2 2 == 0 && within 2 100 (leAt r 4 2) && leAt r 6 2 == 0 then
    some { b with bridges := Cells.put bridgeDflt b.bridges (leAt r 0 1) { enable := leAt r 1 1 == 1, zc := leAt r 4 2 } }
  else none

def recMember (b : Conference) (r : List Byte) : Option Conference :=
  let g := signed 16 (leAt r 4 2)
  if decide (leAt r 0 2 < 512) && decide (leAt r 2 1 < 128) && decide (leAt r 3 1 < 4) && gainOk g && leAt r 6 2 == 0 then
    some { b with members := b.members.filter (fun m => !(m.chan == leAt r 0 2 && m.bridge == leAt r 2 1))
      ++ [{ chan := leAt r 0 2, bridge := leAt r 2 1, mode := leAt r 3 1, gain := g }] }
  else none

def recTab (b : Conference) (r : List Byte) : Option Conference :=
  some { b with tab := (List.range 64).map (fun i => leAt r (2 * i) 2) }

def recLimiter (b : Cells LimCfg) (r : List Byte) : Option (Cells LimCfg) :=
  let t := signed 16 (leAt r 2 2)
  if destOk (leAt r 0 2) && decide (-4000 ≤ t) && decide (t ≤ 0) && decide (leAt r 4 2 ≤ 2400) && within 1 10000 (leAt r 6 2) then
    some (Cells.put limDflt b (leAt r 0 2) { thresh := t, knee := leAt r 4 2, release := leAt r 6 2 })
  else none

/-- Domain and record size of a section TYPE. -/
def typeInfo : Nat → Option (Nat × Nat)
  | 0x01 => some (1, 16) | 0x02 => some (1, 8) | 0x11 => some (2, 32) | 0x12 => some (2, 8) | 0x13 => some (2, 64)
  | 0x31 => some (4, 24) | 0x32 => some (5, 24) | 0x41 => some (6, 8) | 0x42 => some (6, 8) | 0x43 => some (6, 16)
  | 0x44 => some (6, 16) | 0x46 => some (6, 8) | 0x51 => some (7, 8) | 0x52 => some (7, 8) | 0x53 => some (7, 128)
  | 0x61 => some (8, 8) | _ => none

/-- One record of a section. -/
def loadRec (c : LoadCtx) (type : Nat) (b : Sets) (r : List Byte) : Option Sets :=
  match type with
  | 0x01 => (recObject c b.objects r).map (fun x => { b with objects := x })
  | 0x02 => (recOutput c b.objects r).map (fun x => { b with objects := x })
  | 0x11 => (recSpeaker b.geometry r).map (fun x => { b with geometry := x })
  | 0x12 => (recTriangle b.geometry r).map (fun x => { b with geometry := x })
  | 0x13 => (recClass b.geometry r).map (fun x => { b with geometry := x })
  | 0x31 => (recSection c.objs 8 b.objectEq r).map (fun x => { b with objectEq := x })
  | 0x32 => (recSection c.outs 32 b.outputEq r).map (fun x => { b with outputEq := x })
  | 0x41 => (recSlot c b.routing r).map (fun x => { b with routing := x })
  | 0x42 => (recXpoint b.routing r).map (fun x => { b with routing := x })
  | 0x43 => (recBus b.routing r).map (fun x => { b with routing := x })
  | 0x44 => (recFeed c b.routing r).map (fun x => { b with routing := x })
  | 0x46 => (recObjFeed c b.routing r).map (fun x => { b with routing := x })
  | 0x51 => (recBridge b.conference r).map (fun x => { b with conference := x })
  | 0x52 => (recMember b.conference r).map (fun x => { b with conference := x })
  | 0x53 => (recTab b.conference r).map (fun x => { b with conference := x })
  | 0x61 => (recLimiter b.limiter r).map (fun x => { b with limiter := x })
  | _ => none

/-- The records of a section, in order. -/
def loadRecs (c : LoadCtx) (type size : Nat) : Nat → List Byte → Sets → Option Sets
  | 0, _, b => some b
  | n + 1, r, b => (loadRec c type b (r.take size)).bind (loadRecs c type size n (r.drop size))

/-- Leading index of each record of a section. -/
def leading (size : Nat) (n : Nat) (r : List Byte) : List Nat := (List.range n).map (fun i => leAt r (i * size) 2)

/-- Some sections replace what they name before their records are written (R48, R107). -/
def openSection (type n : Nat) (r : List Byte) (b : Sets) : Sets :=
  match type with
  | 0x12 => { b with geometry := { b.geometry with triangles := [] } }
  | 0x42 => { b with routing := { b.routing with xps := b.routing.xps.filter (fun x => !(leading 8 n r).contains x.bus) } }
  | 0x52 => { b with conference := { b.conference with
      members := b.conference.members.filter (fun m => !(leading 8 n r).contains m.chan) } }
  | _ => b

/-- A payload whose sections are whole: TYPE, COUNT, whether the header's reserved bytes are zero, records. The walk ends at
a TYPE no table holds, since its record size is unknown. -/
def sections : Nat → List Byte → Option (List (Nat × Nat × Bool × List Byte))
  | 0, _ => some []
  | _, [] => some []
  | k + 1, b =>
    if b.length < 8 then none
    else
      let n := leAt b 2 2
      let ok := leAt b 4 4 == 0
      match typeInfo (leAt b 0 2) with
      | none => some [(leAt b 0 2, n, ok, [])]
      | some (_, size) =>
        if b.length < 8 + n * size then none
        else (sections k (b.drop (8 + n * size))).map (fun l => (leAt b 0 2, n, ok, (b.drop 8).take (n * size)) :: l)

/-- The sections of a payload into the bank of one domain. -/
def loadSections (c : LoadCtx) (domain : Nat) : List (Nat × Nat × Bool × List Byte) → Sets → Option Sets
  | [], b => some b
  | (type, n, ok, r) :: l, b =>
    match typeInfo type with
    | none => none
    | some (d, size) =>
      if d ≠ domain ∨ !ok then none
      else (loadRecs c type size n r (openSection type n r b)).bind (loadSections c domain l)

/-- A bus feeds only buses of higher index (R95). -/
def busOrderOk (r : Routing) : Bool :=
  r.xps.all (fun x =>
    let src := Cells.get noFeed r.slots x.slot
    !(within 0x600 0x6FF src) || decide (src - 0x600 < x.bus))

/-- The limits of R95 that refuse with MIX_CAPACITY. -/
def capacityOk (b : Sets) : Bool :=
  decide (b.routing.xps.length ≤ 16384) &&
  decide (b.conference.members.length ≤ 2048) &&
  b.conference.members.all (fun m =>
    decide ((b.conference.members.filter (fun x => x.chan == m.chan)).length ≤ 4) &&
    decide ((b.conference.members.filter (fun x => x.bridge == m.bridge)).length ≤ 512))

/-- A payload checked and written into the sets: its refusal, or the sets after (R48, R107). -/
def loadPayload (c : LoadCtx) (domain : Nat) (payload : List Byte) (b : Sets) : Nat ⊕ Sets :=
  let range := if domain ≤ 2 then rndRange else mixRange
  match sections (payload.length + 1) payload with
  | none => .inl mixBadLength
  | some l =>
    match loadSections c domain l b with
    | none => .inl range
    | some b' => if ¬ busOrderOk b'.routing then .inl mixRange else if ¬ capacityOk b' then .inl mixCapacity else .inr b'

/-! ### Commands -/

/-- A SWAP that has not acted names the domain (R109). -/
def State.swapPending (s : State) (d : Nat) : Bool := s.mix.swaps.any (fun w => w.mask.testBit d)

/-- An equaliser crossfade of the domain runs (R108). -/
def State.eqFading (s : State) (d : Nat) : Bool :=
  (d == 4 && s.rnd.runs.any (fun p => p.2.eq.fading)) || (d == 5 && s.mix.outEq.any (fun p => p.2.fading))

def State.domainBusy (s : State) (d : Nat) : Bool := s.swapPending d || s.eqFading d

/-- DOMAIN is one of R105. -/
def domainOk (d : Nat) : Bool := within 1 8 d

/-- The ring does not take loads of the domain (R105). -/
def wrongRing (ring d : Nat) : Bool := d == 3 || (decide (d ≤ 2) && ring == 13)

/-- A refusal on ring 12 or 13 (R108). -/
def State.mixRefuse (s : State) (ring index status : Nat) : State := (s.bump 0xA0100 1).finish ring index status

def State.loadCtx (s : State) (tags : Cells Nat) : LoadCtx :=
  { objs := s.maxObj, outs := s.maxOut, bulk := maxBulk s.renderRate, tags := tags }

/-- A render set names an object, an output, an equaliser or a bulk delay beyond what the render rate admits (R4). -/
def Sets.renderOver (c : LoadCtx) (b : Sets) : Bool :=
  b.objects.objs.any (fun p => decide (c.objs ≤ p.1) || decide (c.bulk < p.2.bulk))
    || b.objects.outs.any (fun p => decide (c.outs ≤ p.1) || decide (c.bulk < p.2))
    || b.objectEq.any (fun p => decide (c.objs ≤ p.1 / 8)) || b.outputEq.any (fun p => decide (c.outs ≤ p.1 / 32))

/-- A routing set names a source or an object feed beyond what the render rate admits (R4, R95). -/
def Sets.routingOver (c : LoadCtx) (b : Sets) : Bool :=
  b.routing.slots.any (fun p => !sourceOk c p.2) || b.routing.feeds.any (fun p => !sourceOk c p.2.src)
    || b.routing.objFeeds.any (fun p => decide (c.objs ≤ p.1))

/-- What refuses a start at the present render rate for the parameter sets loaded at another: live or in the inactive bank (R4, R319). -/
def State.rateOver (s : State) : Option Nat :=
  let c := s.loadCtx []
  if s.liveSets.renderOver c || s.idleSets.renderOver c then some rndRange
  else if s.liveSets.routingOver c || s.idleSets.routingOver c then some mixRange
  else none

/-- Opcode 0x20 on rings 12 and 13 (R106, R107); `tags` are the plane tags of ingress channels (R13). MIX_LOAD_REJECT counts the refusals
with a status of R108; BAD_DESC and a failed host read are not counted (DESIGN CHOICE: R108 does not say whether they are refusals). -/
def psetLoad (tags : Cells Nat) (ring : Nat) (data : Option (List Byte)) (s : State) : State :=
  match s.nextDesc ring 0x20 with
  | none => s
  | some d =>
    let dom := field d.w0 23 16
    let len := d.w1.toNat
    if field d.w0 31 24 ≠ 0 ∨ d.flags / 2 ≠ 0 then s.finish ring d.index stBadDesc
    else if ¬ domainOk dom then s.mixRefuse ring d.index mixBadDomain
    else if wrongRing ring dom then s.mixRefuse ring d.index mixWrongRing
    else if s.domainBusy dom then s.mixRefuse ring d.index mixBankBusy
    else if len % 8 ≠ 0 ∨ len < 8 ∨ 1048576 < len ∨ d.addr % 32 ≠ 0 then s.mixRefuse ring d.index mixBadLength
    else
      match data with
      | none => s.finish ring d.index stDmaError
      | some b =>
        let base := if d.flags = 1 then s.idleSets.takeDomain s.liveSets dom else s.idleSets
        match loadPayload (s.loadCtx tags) dom (b.take len) base with
        | .inl st => s.mixRefuse ring d.index st
        | .inr _ =>
          (s.setPhase ring d.index .accepted).onMix (fun m => { m with
            jobs := m.jobs ++
              [{ ring := ring, index := d.index, domain := dom, copyLive := d.flags = 1, payload := some (b.take len) }] })

/-- A staged load writes the inactive bank and completes; a SWAP accepted meanwhile on the other ring makes the domain busy
(R106, R109). -/
def psetDone (tags : Cells Nat) (s : State) (j : PsetJob) (payload : List Byte) : State :=
  if s.domainBusy j.domain then s.mixRefuse j.ring j.index mixBankBusy
  else
    let base := if j.copyLive then s.idleSets.takeDomain s.liveSets j.domain else s.idleSets
    match loadPayload (s.loadCtx tags) j.domain payload base with
    | .inl st => s.mixRefuse j.ring j.index st
    | .inr b => (s.setIdle b).finish j.ring j.index stOk

/-- The oldest staged load of a ring ends. -/
def psetLoadDone (tags : Cells Nat) (ring : Nat) (s : State) : State :=
  match s.mix.jobs.find? (fun j => j.ring == ring) with
  | some j =>
    (match j.payload with
    | some p => psetDone tags (s.onMix (fun m => { m with jobs := m.jobs.erase j })) j p
    | none => s)
  | none => s

/-- Opcode 0x21 on rings 12 and 13 (R106): accepted; it acts at the next render frame boundary. -/
def execPsetCopy (ring : Nat) (s : State) : Res :=
  match s.nextDesc ring 0x21 with
  | none => .next s
  | some d =>
    let dom := field d.w0 23 16
    if field d.w0 31 24 ≠ 0 ∨ d.flags ≠ 0 then .next (s.finish ring d.index stBadDesc)
    else if ¬ domainOk dom then .next (s.mixRefuse ring d.index mixBadDomain)
    else if wrongRing ring dom then .next (s.mixRefuse ring d.index mixWrongRing)
    else if s.domainBusy dom then .next (s.mixRefuse ring d.index mixBankBusy)
    else if d.w1 ≠ 0 then .next (s.mixRefuse ring d.index mixBadLength)
    else .next ((s.setPhase ring d.index .accepted).onMix (fun m => { m with
      jobs := m.jobs ++ [{ ring := ring, index := d.index, domain := dom, copyLive := true, payload := none }] }))

/-- A copy writes the inactive bank and completes. -/
def State.copyJob (s : State) (j : PsetJob) : State :=
  let s := s.onMix (fun m => { m with jobs := m.jobs.erase j })
  if s.domainBusy j.domain then s.mixRefuse j.ring j.index mixBankBusy
  else (s.setIdle (s.idleSets.takeDomain s.liveSets j.domain)).finish j.ring j.index stOk

/-- The copies of a ring that no staged load stands before. -/
def State.copiesGo (ring : Nat) : List PsetJob → State → State
  | [], s => s
  | j :: js, s =>
    if j.ring ≠ ring then State.copiesGo ring js s
    else if j.payload.isSome then s
    else State.copiesGo ring js (s.copyJob j)

/-- Every copy accepted since the last boundary acts at this one; behind a load of its ring it waits for the load (R106). -/
def State.copyAtTick (s : State) (ring : Nat) : State := State.copiesGo ring s.mix.jobs s

/-! ### Record form of a bank (R454) -/

def le2s (v : Int) : List Byte := leBytes 2 (pattern 16 v)
def le4s (v : Int) : List Byte := leBytes 4 (pattern 32 v)
def zeros (n : Nat) : List Byte := List.replicate n 0

def formObjects (c : LoadCtx) (b : RenderObjects) : List Byte :=
  ((List.range c.objs).map (fun i =>
    let o := Cells.get objCfgDflt b.objs i
    leBytes 2 i ++ leBytes 1 ((if o.enable then 1 else 0) + 2 * o.prio) ++ zeros 1 ++ leBytes 2 o.setchg
      ++ leBytes 2 o.bulk ++ zeros 8)).flatten
  ++ ((List.range c.outs).map (fun i => leBytes 2 i ++ leBytes 2 (Cells.get zeroDflt b.outs i) ++ zeros 4)).flatten

/-- Offsets of the SL registers of the RND_ window. -/
def slOffsets : List Nat := [0x80010, 0x80014, 0x80018, 0x8001C, 0x80020, 0x80024, 0x80028, 0x8002C]

def formGeometry (g : Geometry) : List Byte :=
  ((List.range 8192).map (fun i =>
    let p := Cells.get speakerDflt g.speakers i
    le4s p.x ++ le4s p.y ++ le4s p.z ++ le2s p.aimX ++ le2s p.aimY ++ le2s p.aimZ
      ++ leBytes 1 (p.dirClass + if p.virt then 16 else 0) ++ zeros 1 ++ leBytes 4 p.alignNs ++ le2s p.trim ++ zeros 2
      ++ leBytes 2 i ++ zeros 2)).flatten
  ++ (g.triangles.map (fun t => leBytes 2 t.1 ++ leBytes 2 t.2.1 ++ leBytes 2 t.2.2 ++ zeros 2)).flatten
  ++ ((List.range 16).map (fun c =>
    leBytes 1 c ++ zeros 1 ++ ((g.dirGains c).map (leBytes 2)).flatten ++ zeros 24)).flatten
  ++ (slOffsets.map (fun o => leBytes 4 (g.slReg o).toNat)).flatten

def formEq (n per : Nat) (b : EqBank) : List Byte :=
  ((List.range n).map (fun i => ((List.range per).map (fun k =>
    let q := Cells.get eqDflt b (i * per + k)
    leBytes 2 i ++ leBytes 1 k ++ leBytes 1 (if q.bypass then 1 else 0)
      ++ le4s q.b0 ++ le4s q.b1 ++ le4s q.b2 ++ le4s q.a1 ++ le4s q.a2)).flatten)).flatten

def formRouting (c : LoadCtx) (r : Routing) : List Byte :=
  ((List.range 1024).map (fun i => leBytes 2 i ++ leBytes 2 (Cells.get noFeed r.slots i) ++ zeros 4)).flatten
  ++ ((sortBy (fun (a b : Xpoint) => decide (a.bus < b.bus) || (a.bus == b.bus && decide (a.slot ≤ b.slot))) r.xps).map
    (fun x => leBytes 2 x.bus ++ leBytes 2 x.slot ++ le2s x.gain ++ leBytes 2 x.ramp)).flatten
  ++ ((List.range 256).map (fun i =>
    let b := Cells.get busDflt r.buses i
    leBytes 2 i ++ leBytes 1 b.plane ++ zeros 1 ++ le2s b.gain ++ leBytes 2 b.ramp ++ leBytes 2 b.zc ++ zeros 6)).flatten
  ++ ((List.range 0x1200).map (fun i =>
    let f := Cells.get feedDflt r.feeds i
    leBytes 2 i ++ leBytes 2 f.src ++ le2s f.trim ++ leBytes 2 f.ramp ++ leBytes 2 f.zc ++ leBytes 1 f.plane ++ zeros 5)).flatten
  ++ ((List.range c.objs).map (fun i => leBytes 2 i ++ leBytes 2 (Cells.get noFeed r.objFeeds i) ++ zeros 4)).flatten

def formConference (b : Conference) : List Byte :=
  ((List.range 128).map (fun i =>
    let x := Cells.get bridgeDflt b.bridges i
    leBytes 1 i ++ leBytes 1 (if x.enable then 1 else 0) ++ zeros 2 ++ leBytes 2 x.zc ++ zeros 2)).flatten
  ++ ((sortBy (fun (a c : Member) => decide (a.chan < c.chan) || (a.chan == c.chan && decide (a.bridge ≤ c.bridge))) b.members).map
    (fun m => leBytes 2 m.chan ++ leBytes 1 m.bridge ++ leBytes 1 m.mode ++ le2s m.gain ++ zeros 2)).flatten
  ++ (b.tab.map (leBytes 2)).flatten

def formLimiter (b : Cells LimCfg) : List Byte :=
  ((List.range 0x1200).map (fun i =>
    let l := Cells.get limDflt b i
    leBytes 2 i ++ le2s l.thresh ++ leBytes 2 l.knee ++ leBytes 2 l.release)).flatten

/-- One filter as an image of R79 with FORMAT 0. -/
def formFilter (f : Filter) : List Byte :=
  let body := (f.taps.map le4s).flatten
  leBytes 4 f.taps.length ++ zeros 1 ++ leBytes 1 f.prio ++ zeros 2 ++ leBytes 4 (crc32c body) ++ zeros 20 ++ body

/-- The record form of one domain. -/
def formDomain (c : LoadCtx) (b : Sets) (filters : List Filter) (d : Nat) : List Byte :=
  match d with
  | 1 => formObjects c b.objects
  | 2 => formGeometry b.geometry
  | 3 => (filters.map formFilter).flatten
  | 4 => formEq c.objs 8 b.objectEq
  | 5 => formEq c.outs 32 b.outputEq
  | 6 => formRouting c b.routing
  | 7 => formConference b.conference
  | 8 => formLimiter b.limiter
  | _ => []

/-- CRC-32C over the named domains in ascending order (R454). -/
def setsCrc (c : LoadCtx) (b : Sets) (filters : List Filter) (mask : Nat) : Nat :=
  crc32c (((List.range 9).map (fun d => if mask.testBit d then formDomain c b filters d else [])).flatten)

end Sys2Proof.Machine
end

