-- ==== Sys2Proof/Machine/Mix.lean ====
section
/-!
DEFINITION. Machine/Mix.lean: the mix and route fabric over one mix block: sources (R94), conference bridges (R101, R102),
buses (R96), destinations and the limiter (R95, R100), what a ROUTING or CONFERENCE swap changes in flight (R111), and the
egress side (R92, R113, R455).
-/
namespace Sys2Proof.Machine

/-! ### Sources -/

/-- What the sources of one mix block hold: 32 samples by source ID, after concealment (R94, R112). -/
abbrev Sources := Cells (List Int)
def Sources.at_ (src : Sources) (i : Nat) : List Int := Cells.get (fun _ => silence) src i
/-- Samples `n0` to `n1 − 1` of a block. -/
def slice (n0 n1 : Nat) (xs : List Int) : List Int := (xs.drop n0).take (n1 - n0)

/-- A gain point of a table, at its loaded target where it has not moved. -/
def gpGet (t : Cells (Option GainPt)) (k : Nat) (target : Int) : GainPt :=
  (Cells.get (fun _ => none) t k).getD (GainPt.hold target)
def gpPut (t : Cells (Option GainPt)) (k : Nat) (g : GainPt) : Cells (Option GainPt) := Cells.put (fun _ => none) t k (some g)

/-- A point on its way out has reached zero. -/
def GainPt.ended (g : GainPt) : Bool := g.g == 0 && g.left == 0 && !g.pending

/-- One gain point over a run of samples: products, forced steps, and the point after. -/
def gainRun (zc fs : Nat) (g : GainPt) (xs : List Int) : List Int × Nat × GainPt :=
  let (gs, n, g') := g.run zc fs xs
  (zipMul xs gs, n, g')

/-! ### Conference (R101, R102) -/

/-- Who contributes: channels that talk, each with the samples of the block from which and up to which it does; and
channels whose key is set; channels that are not IDLE. -/
structure Talk where
  talking : List (Nat × Nat × Nat)
  keyed : List Nat
  inUse : List Nat
  deriving DecidableEq, Repr

/-- A channel talks at sample `n` of the block. -/
def Talk.at_ (t : Talk) (chan n : Nat) : Bool := t.talking.any (fun p => p.1 == chan && decide (p.2.1 ≤ n) && decide (n < p.2.2))

def Member.key (m : Member) : Nat := m.chan * 128 + m.bridge
/-- The member's contribution target. -/
def Member.target (t : Talk) (n : Nat) (m : Member) : Int :=
  if m.mode = 3 ∨ (m.mode = 1 ∧ t.at_ m.chan n) ∨ (m.mode = 2 ∧ t.keyed.contains m.chan) then unity else 0

/-- Scale tab[n], tab[0] being 1.0. -/
def tabAt (tab : List Nat) (n : Nat) : Int := if n = 0 then 0x8000 else ((tab.getD (min n 64 - 1) 0 : Nat) : Int)

/-- The gain points of one bridge at work. -/
structure BridgeRun where
  contrib : Cells (Option GainPt)
  inputs : Cells (Option GainPt)
  returns : Cells (Option GainPt)
  bridges : Cells (Option GainPt)
  forced : Nat
  deriving DecidableEq, Repr

/-- A voice gain point takes its target where it differs (R99). -/
def GainPt.seek (g : GainPt) (target : Int) : GainPt := if g.target = target then g else g.voice target

/-- One sample of the members: input after gain and contribution (0 or 1) of each, and the gain points after. -/
def memberStep (t : Talk) (n zc fs : Nat) (rx : Nat → Int) : List Member → BridgeRun → List (Member × Int × Int) × BridgeRun
  | [], r => ([], r)
  | m :: ms, r =>
    let x := rx m.chan
    let gi := (gpGet r.inputs m.key (gainQ28 m.gain)).seek (gainQ28 m.gain)
    let (g, f1, gi) := gi.step zc fs x
    let y := mulGain x g
    let gc := (gpGet r.contrib m.key 0).seek (m.target t n)
    let (c, f2, gc) := gc.step zc fs y
    let r := { r with
      inputs := gpPut r.inputs m.key gi, contrib := gpPut r.contrib m.key gc
      forced := r.forced + (if f1 then 1 else 0) + (if f2 then 1 else 0) }
    let (l, r) := memberStep t n zc fs rx ms r
    ((m, y, if c = unity then 1 else 0) :: l, r)

/-- One sample of the returns: (channel, value) of each. -/
def returnStep (tab : List Nat) (zc fs : Nat) (n sum : Int) : List (Member × Int × Int) → BridgeRun →
    List (Nat × Int) × BridgeRun
  | [], r => ([], r)
  | (m, y, c) :: l, r =>
    let nk := (n - c).toNat
    let v := sum - c * y
    let g0 := (gpGet r.returns m.key 0x8000).seek (tabAt tab nk)
    let (g, f, g1) := g0.step zc fs v
    let r := { r with returns := gpPut r.returns m.key g1, forced := r.forced + (if f then 1 else 0) }
    let (out, r) := returnStep tab zc fs n sum l r
    ((m.chan, satS 40 (roundShift (v * g) 15)) :: out, r)

/-- One sample of one bridge: full sum and returns. -/
def bridgeSample (t : Talk) (tab : List Nat) (b n0 zc fs : Nat) (ms : List Member) (rx : Nat → Int) (r : BridgeRun) :
    Int × List (Nat × Int) × BridgeRun :=
  let (l, r) := memberStep t n0 zc fs rx ms r
  let n := l.foldl (fun (a : Int) p => a + p.2.2) 0
  let sum := l.foldl (fun (a : Int) p => a + p.2.2 * p.2.1) 0
  let g0 := (gpGet r.bridges b 0x8000).seek (tabAt tab n.toNat)
  let (g, f, g1) := g0.step zc fs sum
  let r := { r with bridges := gpPut r.bridges b g1, forced := r.forced + (if f then 1 else 0) }
  let (rets, r) := returnStep tab zc fs n sum l r
  (satS 40 (roundShift (sum * g) 15), rets, r)

/-- Samples `n0` to `n0 + k − 1` of one bridge. -/
def bridgeGo (t : Talk) (tab : List Nat) (b zc fs : Nat) (ms : List Member) (src : Sources) :
    Nat → Nat → BridgeRun → List (Int × List (Nat × Int)) × BridgeRun
  | 0, _, r => ([], r)
  | k + 1, n0, r =>
    let (full, rets, r) := bridgeSample t tab b n0 zc fs ms (fun ch => (src.at_ (0x800 + ch)).getD n0 0) r
    let (l, r) := bridgeGo t tab b zc fs ms src k (n0 + 1) r
    ((full, rets) :: l, r)

/-- Bridges that work: enabled, with members. -/
def Conference.working (c : Conference) : List Nat :=
  (sortBy (fun a b => decide (a ≤ b)) (c.members.map (·.bridge)).eraseDups).filter
    (fun b => (Cells.get bridgeDflt c.bridges b).enable)

/-- A sample added to the block of a return source. -/
def addReturn (m : Sources) (n0 len i ch : Nat) (v : Int) : Sources :=
  let old := Cells.get (fun _ => List.replicate len 0) m (0xA00 + ch)
  Cells.put (fun _ => List.replicate len 0) m (0xA00 + ch) (old.set (i - n0) (old.getD (i - n0) 0 + v))

/-- All bridges over samples `n0` to `n1 − 1`: bridge sums and returns by source ID (returns summed, not
yet saturated). An IDLE channel has no return: its source is zero (R119). -/
def conferenceRun (t : Talk) (c : Conference) (fs n0 n1 : Nat) (src : Sources) : List Nat → Sources → BridgeRun →
    Sources × BridgeRun
  | [], out, r => (out, r)
  | b :: bs, out, r =>
    let ms := c.members.filter (fun m => m.bridge == b)
    let (l, r) := bridgeGo t c.tab b (Cells.get bridgeDflt c.bridges b).zc fs ms src (n1 - n0) n0 r
    let out := Cells.put (fun _ => List.replicate (n1 - n0) 0) out (0x700 + b) (l.map (·.1))
    let out := (l.zipIdx n0).foldl (fun o p => 
      (p.1.2.filter (fun q => t.inUse.contains q.1)).foldl (fun o q => addReturn o n0 (n1 - n0) p.2 q.1 q.2) o) out
    conferenceRun t c fs n0 n1 src bs out r

/-! ### Buses (R96) -/

/-- Crosspoints of the fabric at work over part of a block. -/
structure BusRun where
  xps : Cells (Option GainPt)
  fading : List FadeXp
  masters : Cells (Option GainPt)
  sats : List Nat
  forced : Nat
  deriving DecidableEq, Repr

def Xpoint.key (x : Xpoint) : Nat := x.bus * 1024 + x.slot

/-- The crosspoints of one bus add up. -/
def busSum (r : Routing) (cfg : BusCfg) (fs n0 n1 : Nat) (src : Sources) : List Xpoint → List Int → BusRun → List Int × BusRun
  | [], acc, s => (acc, s)
  | x :: xs, acc, s =>
    let v := slice n0 n1 (src.at_ (Cells.get noFeed r.slots x.slot))
    let (y, f, g) := gainRun cfg.zc fs (gpGet s.xps x.key (gainQ28 x.gain)) v
    busSum r cfg fs n0 n1 src xs (zipAdd acc y) { s with xps := gpPut s.xps x.key g, forced := s.forced + f }

/-- Crosspoints on their way out add to their bus; one that had reached zero by the block before is gone (R111). -/
def busFade (b : Nat) (cfg : BusCfg) (fs n0 n1 : Nat) (src : Sources) : List FadeXp → List Int → Nat →
    List Int × List FadeXp × Nat
  | [], acc, f => (acc, [], f)
  | x :: xs, acc, f =>
    if x.bus ≠ b then
      let (acc, l, f) := busFade b cfg fs n0 n1 src xs acc f
      (acc, x :: l, f)
    else if x.gp.ended then busFade b cfg fs n0 n1 src xs acc f
    else
      let (y, n, g) := gainRun cfg.zc fs x.gp (slice n0 n1 (src.at_ x.src))
      let (acc, l, f) := busFade b cfg fs n0 n1 src xs (zipAdd acc y) (f + n)
      (acc, { x with gp := g } :: l, f)

/-- One bus: its block part, after the master gain. -/
def busOne (r : Routing) (fs n0 n1 : Nat) (src : Sources) (b : Nat) (s : BusRun) : List Int × BusRun :=
  let cfg := Cells.get busDflt r.buses b
  let (acc, s) := busSum r cfg fs n0 n1 src (r.xps.filter (fun x => x.bus == b)) (List.replicate (n1 - n0) 0) s
  let (acc, fading, f) := busFade b cfg fs n0 n1 src s.fading acc 0
  let (gs, f2, g) := (gpGet s.masters b (gainQ28 cfg.gain)).run cfg.zc fs acc
  let raw := List.zipWith (fun x g => roundShift (x * g) 28) acc gs
  let ys := raw.map (satS 40)
  (ys, { s with
    fading := fading, masters := gpPut s.masters b g, forced := s.forced + f + f2
    sats := if ys = raw then s.sats else s.sats ++ [b] })

/-- What concealment makes of a block of the fabric (R112): other samples, or the block itself under the rising ramp of R61. -/
inductive Subst where
  | put (xs : List Int)
  | rise
  deriving DecidableEq, Repr

/-- Blocks of the fabric under concealment, by source ID. -/
abbrev Repl := Cells (Option Subst)
/-- A part of a source's block, or what stands in its place. -/
def Repl.part (rp : Repl) (id n0 n1 : Nat) (ys : List Int) : List Int :=
  match Cells.get (fun _ => none) rp id with
  | some (.put xs) => slice n0 n1 xs
  | some .rise => rampBlock 0 unity 32 n0 ys
  | none => ys

/-- Buses in index order, each the source of later ones. -/
def busesRun (rp : Repl) (r : Routing) (planes : Nat → Bool) (fs n0 n1 : Nat) : List Nat → Sources → BusRun → Sources × BusRun
  | [], src, s => (src, s)
  | b :: bs, src, s =>
    if planes (Cells.get busDflt r.buses b).plane then
      let (ys, s) := busOne r fs n0 n1 src b s
      let old := src.at_ (0x600 + b)
      let ys := rp.part (0x600 + b) n0 n1 ys
      busesRun rp r planes fs n0 n1 bs (Cells.put (fun _ => silence) src (0x600 + b) (old.take n0 ++ ys ++ old.drop n1)) s
    else busesRun rp r planes fs n0 n1 bs src s

/-- Buses at work: with crosspoints, live or fading, or with a master point that has been at work (R96, R98). -/
def Routing.working (r : Routing) (fading : List FadeXp) (masters : Cells (Option GainPt)) : List Nat :=
  sortBy (fun a b => decide (a ≤ b)) ((r.xps.map (·.bus) ++ fading.map (·.bus) ++ masters.map (·.1)).eraseDups)

/-! ### The limiter (R100) -/

/-- ln 10 in binary32. -/
def ln10 : F32 := F32.ofFx fxLn10

/-- r of one sample: the gain the curve asks for. -/
def limR (c : LimCfg) (x : Int) : F32 :=
  let thr := F32.ofRatio c.thresh 100
  let knee := F32.ofRatio c.knee 100
  let two := F32.ofInt 2
  let l := (F32.ofInt 20).mul ((((F32.ofInt x).abs).div (F32.ofInt 2147483648)).max (F32.ofRatio 1 1000000000)).log10
  let cv :=
    if l.le (thr.sub (knee.div two)) then F32.zero
    else if (thr.add (knee.div two)).le l then thr.sub l
    else
      let e := (l.sub thr).add (knee.div two)
      ((e.mul e).neg).div (two.mul knee)
  (cv.div (F32.ofInt 20)).exp10

/-- c of R100. -/
def limC (rel fs : Nat) : F32 :=
  let d := (((F32.ofNat rel).mul (F32.ofNat fs)).mul ln10).div (F32.ofInt 1000)
  ((F32.ofInt (-1)).div d).exp10

def minList : List F32 → F32
  | [] => F32.ofInt 1
  | [x] => x
  | x :: y :: l => x.min (minList (y :: l))

/-- One sample enters the limiter; the egress sample 16 behind it leaves. Answers whether sat32 acted. A limiter that starts anew at a
change of plane (`mode` 2) has g = 1.0; the r values already in its look-ahead are those of the path before (DESIGN CHOICE, log 64). -/
def Limiter.push (l : Limiter) (c : LimCfg) (mode fs : Nat) (x : Int) : Int × Bool × Limiter :=
  let xs := l.xs.drop 1 ++ [{ x := x, mode := mode, rel := c.release }]
  let rs := l.rs.drop 1 ++ [if mode = 0 then F32.ofInt 1 else limR c x]
  match xs[15]? with
  | none => (0, false, l)
  | some t =>
    if t.mode = 0 then (satS 32 t.x, false, { l with xs := xs, rs := rs })
    else
      let one := F32.ofInt 1
      let g0 := if t.mode = 2 then one else l.g
      let hs := (List.range 16).map (fun i => minList ((rs.drop i).take 16))
      let a := ((hs.drop 1).foldl F32.add (hs.headD one)).div (F32.ofInt 16)
      let g := a.min (one.sub ((one.sub g0).mul (limC t.rel fs)))
      let raw := roundShift (t.x * g.toIntEven 30) 30
      let y := satS 32 raw
      (y, y != raw, { g := g, xs := xs, rs := rs })

def Limiter.run (c : LimCfg) (mode fs : Nat) : Limiter → List Int → List Int × Bool × Limiter
  | l, [] => ([], false, l)
  | l, x :: xs =>
    let (y, b, l) := l.push c mode fs x
    let (ys, b', l) := Limiter.run c (if mode = 2 then 1 else mode) fs l xs
    (y :: ys, b || b', l)

/-! ### Destinations (R95, R111) -/

def destDflt (_ : Nat) : DestRun := DestRun.start

/-- The route a loaded record asks for, at its target. -/
def loadedRoute (f : FeedCfg) : Option Route :=
  if f.src = 0xFFFF then none
  else some { src := f.src, plane := f.plane, gp := GainPt.hold (gainQ28 f.trim), ramp := f.ramp, zc := f.zc }

/-- One route over part of a block. -/
def Route.run (r : Route) (fs n0 n1 : Nat) (src : Sources) : List Int × Nat × Route :=
  if r.plane = 3 ∧ r.gp.left = 0 ∧ ¬ r.gp.pending ∧ r.gp.g = unity then (slice n0 n1 (src.at_ r.src), 0, r)
  else
    let (y, f, g) := gainRun r.zc fs r.gp (slice n0 n1 (src.at_ r.src))
    (y, f, { r with gp := g })

def routesRun (fs n0 n1 : Nat) (src : Sources) : List Route → List Int → List Int × Nat × List Route
  | [], acc => (acc, 0, [])
  | r :: rs, acc =>
    if r.gp.ended then routesRun fs n0 n1 src rs acc
    else
      let (y, f, r) := r.run fs n0 n1 src
      let (acc, g, l) := routesRun fs n0 n1 src rs (zipAdd acc y)
      (acc, f + g, r :: l)

/-- One destination over part of a block: egress samples, whether sat32 acted, forced steps. An I/O egress that is not
changing has no limiter and no gain. -/
def DestRun.run (c : LimCfg) (fs n0 n1 : Nat) (src : Sources) (d : DestRun) : List Int × Bool × Nat × DestRun :=
  let (xs, f, route) := match d.route with
    | some r => (let (y, f, r) := r.run fs n0 n1 src; (y, f, some r))
    | none => (List.replicate (n1 - n0) 0, 0, none)
  let (xs, f2, old) := routesRun fs n0 n1 src d.old xs
  let io := (match d.route with | some r => r.plane == 3 | none => false) && d.old == []
  let mode := if io then 0 else if d.fresh then 2 else 1
  let (ys, clip, lim) := d.lim.run c mode fs (xs.map (satS 40))
  (ys, clip, f + f2, { d with route := route, old := old, lim := lim, fresh := io })

/-! ### What a swap changes in flight (R111) -/

/-- The sample of a source just before sample `n` of a block: the block's own, or the last of the block before (R99). -/
def Mix.sampleBefore (m : Mix) (src : Sources) (n id : Nat) : Int :=
  if 0 < n then (src.at_ id).getD (n - 1) 0
  else
    let k := Cells.get (fun _ => Conceal.start) m.conceal id
    if k.run = 0 then k.last.getLastD 0 else 0

/-- A gain point that rises from zero, its input so far at `x` (R111). -/
def GainPt.rise (x : Int) (plane : Nat) (target : Int) (rampMs fs : Nat) : GainPt :=
  { GainPt.hold 0 with prev := x }.aim plane target rampMs fs

/-- A point still moving continues in its bus's new plane. -/
def convertPlane (old new ramp fs : Nat) (g : GainPt) : GainPt :=
  if old = new then g
  else if new = 2 then (if 0 < g.left then ({ g with left := 0, inc := 0 }).voice g.target else g)
  else if g.pending then ({ g with pending := false }).taper g.target ramp fs else g

/-- One crosspoint of the old set at the swap: kept, aimed, or on its way out. -/
def swapOldXp (old new : Routing) (fs : Nat) (prev : Nat → Int) (s : BusRun) (x : Xpoint) : BusRun :=
  let so := Cells.get noFeed old.slots x.slot
  let po := (Cells.get busDflt old.buses x.bus).plane
  let pn := (Cells.get busDflt new.buses x.bus).plane
  let g := convertPlane po pn x.ramp fs (gpGet s.xps x.key (gainQ28 x.gain))
  match new.xps.find? (fun y => y.bus == x.bus && y.slot == x.slot) with
  | some y =>
    if Cells.get noFeed new.slots y.slot = so then
      let g := if y.gain = x.gain then g else g.aim pn (gainQ28 y.gain) y.ramp fs
      { s with xps := gpPut s.xps x.key g }
    else
      { s with
        xps := gpPut s.xps x.key (GainPt.rise (prev (Cells.get noFeed new.slots y.slot)) pn (gainQ28 y.gain) y.ramp fs)
        fading := s.fading ++ [{ bus := x.bus, slot := x.slot, src := so, ramp := x.ramp, gp := g.aim pn 0 x.ramp fs }] }
  | none =>
    { s with
      xps := Cells.put (fun _ => none) s.xps x.key none
      fading := s.fading ++ [{ bus := x.bus, slot := x.slot, src := so, ramp := x.ramp, gp := g.aim pn 0 x.ramp fs }] }

/-- One crosspoint of the new set that the old one had not: it rises from zero. -/
def swapNewXp (old new : Routing) (fs : Nat) (prev : Nat → Int) (s : BusRun) (y : Xpoint) : BusRun :=
  if old.xps.any (fun x => x.bus == y.bus && x.slot == y.slot) then s
  else
    let pn := (Cells.get busDflt new.buses y.bus).plane
    { s with xps := gpPut s.xps y.key (GainPt.rise (prev (Cells.get noFeed new.slots y.slot)) pn (gainQ28 y.gain) y.ramp fs) }

/-- The master gain point of a bus, and the fading points of a bus whose plane changes. -/
def swapBus (old new : Routing) (fs : Nat) (s : BusRun) (b : Nat) : BusRun :=
  let o := Cells.get busDflt old.buses b
  let n := Cells.get busDflt new.buses b
  if o = n then s
  else
    let g := convertPlane o.plane n.plane o.ramp fs (gpGet s.masters b (gainQ28 o.gain))
    let g := if o.gain = n.gain then g else g.aim n.plane (gainQ28 n.gain) n.ramp fs
    { s with
      masters := gpPut s.masters b g
      fading := s.fading.map (fun x => if x.bus = b then { x with gp := convertPlane o.plane n.plane x.ramp fs x.gp } else x) }

/-- A destination at the swap. -/
def swapDest (o n : FeedCfg) (fs : Nat) (prev : Nat → Int) (d : DestRun) : DestRun :=
  if o = n then d
  else if o.src = n.src ∧ o.plane = n.plane then
    { d with route := d.route.map (fun r => { r with
        gp := if o.trim = n.trim then r.gp else r.gp.aim n.plane (gainQ28 n.trim) n.ramp fs, ramp := n.ramp, zc := n.zc }) }
  else
    let gone := match d.route with
      | some r => [{ r with gp := r.gp.aim r.plane 0 n.ramp fs }]
      | none => []
    { d with
      route := (loadedRoute n).map (fun r => { r with gp := GainPt.rise (prev n.src) n.plane (gainQ28 n.trim) n.ramp fs })
      old := d.old ++ gone, fresh := d.fresh || o.plane != n.plane }

/-- The swap of ROUTING in the fabric's points and destinations; `prev` is the last sample of each source before it. -/
def swapRouting (old new : Routing) (fs : Nat) (prev : Nat → Int) (m : Mix) : Mix :=
  let s : BusRun := { xps := m.xps, fading := m.fading, masters := m.masters, sats := [], forced := 0 }
  let s := old.xps.foldl (swapOldXp old new fs prev) s
  let s := new.xps.foldl (swapNewXp old new fs prev) s
  let s := ((old.buses.map (·.1) ++ new.buses.map (·.1)).eraseDups).foldl (swapBus old new fs) s
  let ds := (old.feeds.map (·.1) ++ new.feeds.map (·.1)).eraseDups
  { m with
    xps := s.xps, fading := s.fading, masters := s.masters
    dests := ds.foldl (fun t k =>
      let d := Cells.get destDflt t k
      let o := Cells.get feedDflt old.feeds k
      let d := if d.route = none then { d with route := loadedRoute o } else d
      Cells.put destDflt t k (swapDest o (Cells.get feedDflt new.feeds k) fs prev d)) m.dests }

/-- The points of a membership that is new at a swap: its input so far is that of its channel. -/
def joinMember (prev : Nat → Int) (m : Mix) (x : Member) : Mix :=
  let g := gainQ28 x.gain
  let v := prev (0x800 + x.chan)
  { m with
    inputs := gpPut m.inputs x.key { GainPt.hold g with prev := v }
    contrib := gpPut m.contrib x.key { GainPt.hold 0 with prev := mulGain v g }
    returns := gpPut m.returns x.key { GainPt.hold 0x8000 with prev := (gpGet m.bridges x.bridge 0x8000).prev } }

/-- The conference points whose target a swap may move: where a member's mode or gain changes, where the members of a bridge change, and
all scales where the table does. -/
def confMoves (old new : Conference) : List (Nat × Nat) :=
  let of := fun (c : Conference) (b : Nat) => c.members.filter (fun m => m.bridge == b)
  let touched := fun (b : Nat) => decide (of old b ≠ of new b ∨ old.tab ≠ new.tab)
  (new.members.map (fun m =>
    let o := old.members.find? (fun x => x.key == m.key)
    (if o.map (·.mode) = some m.mode then [] else [(0, m.key)]) ++ (if o.map (·.gain) = some m.gain then [] else [(1, m.key)])
      ++ (if touched m.bridge then [(2, m.key), (3, m.bridge)] else []))).flatten.eraseDups

/-- A conference point by table and key. -/
def Mix.confPoint (m : Mix) (p : Nat × Nat) : Option GainPt :=
  Cells.get (fun _ => none) (if p.1 = 0 then m.contrib else if p.1 = 1 then m.inputs else if p.1 = 2 then m.returns else m.bridges) p.2
/-- A conference point waits for its zero crossing. -/
def Mix.confWaits (m : Mix) (p : Nat × Nat) : Bool := match m.confPoint p with | some g => g.pending | none => false

/-- The swap of CONFERENCE: members that are gone lose their gain points, new ones get theirs. -/
def swapConference (old new : Conference) (prev : Nat → Int) (m : Mix) : Mix :=
  let gone := (old.members.filter (fun x => !new.members.any (fun y => y.key == x.key))).map Member.key
  let drop := fun (t : Cells (Option GainPt)) => gone.foldl (fun t k => Cells.put (fun _ => none) t k none) t
  let m := { m with
    contrib := drop m.contrib, inputs := drop m.inputs, returns := drop m.returns
    confMoves := (m.confMoves ++ (confMoves old new).filter (fun p => !m.confWaits p)).eraseDups }
  (new.members.filter (fun x => !old.members.any (fun y => y.key == x.key))).foldl (joinMember prev) m

/-! ### One mix block -/

/-- Part of a mix block: buses, conference and destinations over samples `n0` to `n1 − 1`. -/
structure PartOut where
  src : Sources
  egress : Cells (List Int)
  clips : List Nat
  busSats : List Nat
  forced : Nat
  mix : Mix
  deriving DecidableEq, Repr

/-- Sources of bridge sums and returns join the others. -/
def joinSources (rp : Repl) (n0 n1 : Nat) (src conf : Sources) : Sources :=
  conf.foldl (fun m p =>
    let old := Sources.at_ m p.1
    Cells.put (fun _ => silence) m p.1 (old.take n0 ++ rp.part p.1 n0 n1 (p.2.map (satS 40)) ++ old.drop n1)) src

/-- The destinations in ascending DEST. -/
def destsRun (lims : Cells LimCfg) (planes : Nat → Bool) (r : Routing) (fs n0 n1 : Nat) (src : Sources) :
    List Nat → PartOut → PartOut
  | [], o => o
  | k :: ks, o =>
    let cfg := Cells.get feedDflt r.feeds k
    if planes cfg.plane then
      let d := Cells.get destDflt o.mix.dests k
      let d := if d.route = none then { d with route := loadedRoute cfg } else d
      let (ys, clip, f, d) := d.run (Cells.get limDflt lims k) fs n0 n1 src
      destsRun lims planes r fs n0 n1 src ks
        { o with
          egress := Cells.put (fun _ => []) o.egress k ys
          clips := if clip then o.clips ++ [k] else o.clips
          forced := o.forced + f
          mix := { o.mix with dests := Cells.put destDflt o.mix.dests k d } }
    else destsRun lims planes r fs n0 n1 src ks o

/-- Destinations with a source, or with one still falling. -/
def Mix.workingDests (m : Mix) (r : Routing) : List Nat :=
  sortBy (fun a b => decide (a ≤ b))
    ((r.feeds.map (·.1) ++ (m.dests.filter (fun p => p.2.old != [])).map (·.1)).eraseDups)

/-- Part of a block under one set of banks. -/
def mixPart (t : Talk) (rp : Repl) (r : Routing) (c : Conference) (lims : Cells LimCfg) (planes : Nat → Bool) (fs n0 n1 : Nat)
    (src : Sources) (m : Mix) : PartOut :=
  let b0 : BridgeRun := { contrib := m.contrib, inputs := m.inputs, returns := m.returns, bridges := m.bridges, forced := 0 }
  let (conf, b1) := if planes 2 then conferenceRun t c fs n0 n1 src c.working [] b0 else ([], b0)
  let src := joinSources rp n0 n1 src conf
  let s0 : BusRun := { xps := m.xps, fading := m.fading, masters := m.masters, sats := [], forced := 0 }
  let (src, s1) := busesRun rp r planes fs n0 n1 (r.working m.fading m.masters) src s0
  let m := { m with
    contrib := b1.contrib, inputs := b1.inputs, returns := b1.returns, bridges := b1.bridges
    xps := s1.xps, fading := s1.fading, masters := s1.masters }
  destsRun lims planes r fs n0 n1 src (m.workingDests r)
    { src := src, egress := [], clips := [], busSats := s1.sats, forced := b1.forced + s1.forced, mix := m }

/-- Two parts of one block, one after the other. -/
def joinEgress (n0 j : Nat) (a b : Cells (List Int)) : Cells (List Int) :=
  let ks := sortBy (fun x y => decide (x ≤ y)) ((a.map (·.1) ++ b.map (·.1)).eraseDups)
  ks.map (fun k =>
    let x := Cells.get (fun _ => List.replicate (j - n0) 0) a k
    let y := Cells.get (fun _ => List.replicate (32 - j) 0) b k
    (k, x ++ y))

/-- The domains of a mask taken from other sets. -/
def Sets.takeMask (b a : Sets) (mask : Nat) : Sets :=
  (List.range 9).foldl (fun b d => if mask.testBit d then b.takeDomain a d else b) b

/-- Mix block m from sample `n0` on, with the swaps that act in it in the order of their samples; each takes the domains it
names from the inactive sets (R111). -/
def mixBlock (t : Talk) (rp : Repl) (idle : Sets) (planes : Nat → Bool) (fs : Nat) : List SwapAt → Nat → Sets → Sources → Mix → PartOut
  | [], n0, live, src, m => mixPart t rp live.routing live.conference live.limiter planes fs n0 32 src m
  | w :: ws, n0, live, src, m =>
    let a := mixPart t rp live.routing live.conference live.limiter planes fs n0 w.j src m
    let new := live.takeMask idle w.mask
    let prev := a.mix.sampleBefore a.src w.j
    let m := swapRouting live.routing new.routing fs prev a.mix
    let m := if live.conference = new.conference then m else swapConference live.conference new.conference prev m
    let b := mixBlock t rp idle planes fs ws w.j new a.src m
    { b with
      egress := joinEgress n0 w.j a.egress b.egress, clips := (a.clips ++ b.clips).eraseDups
      busSats := (a.busSats ++ b.busSats).eraseDups, forced := a.forced + b.forced }

/-! ### The egress side (R92, R113, R455) -/

/-- The gain of sample `i` of the frame under a plane's egress ramp; a ramp that starts later in the frame holds its first value. -/
def EgRamp.gain (r : EgRamp) (i : Nat) : Int := if r.done + i < 0 then r.a else rampGain r.a r.b r.total (r.done + i).toNat
/-- The gain just before sample `i`: a ramp starts from it. -/
def EgRamp.before (r : EgRamp) (i : Nat) : Int := if r.done + i ≤ 0 then r.a else rampGain r.a r.b r.total (r.done + i - 1).toNat
def EgRamp.apply (r : EgRamp) (xs : List Int) : List Int := xs.mapIdx (fun i x => mulGain x (r.gain i))
/-- A frame later. -/
def EgRamp.after (r : EgRamp) : EgRamp := { r with done := min r.total (r.done + 32) }

/-- Samples of a ramp of 1.0 ms (R455). -/
def rampLen (fs : Nat) : Nat := (2 * fs + 1000) / 2000

def Mix.ramp (m : Mix) (plane : Nat) : EgRamp := Cells.get (fun _ => EgRamp.zero) m.ramps plane
def Mix.setRamp (m : Mix) (plane : Nat) (r : EgRamp) : Mix :=
  { m with ramps := Cells.put (fun _ => EgRamp.zero) m.ramps plane r }
/-- The egresses of a plane ramp in from the first sample of the frame (R23). -/
def Mix.rampIn (m : Mix) (fs plane : Nat) : Mix :=
  { m.setRamp plane { a := 0, b := unity, done := 0, total := rampLen fs } with snuffed := false }
/-- They ramp out from sample `i` of the frame; `i = 0` at a boundary (R23, R113). -/
def Mix.rampOut (m : Mix) (fs plane : Nat) : Mix :=
  m.setRamp plane { a := (m.ramp plane).before 0, b := 0, done := 0, total := rampLen fs }

/-- How many frames of egress samples are kept for the packetisers. -/
def egressFrames : Nat := 256

/-- One destination's samples of the frame the tick opens: the last 13 of the egress block before and the first 19 of this
one (R92), or the ingress block of an I/O egress, which keeps its own plane (R13, R107). A block that is bad (R370) or late (R112) is
concealed, then the ramp acts. `hit`: the mix block carries CONCEALED to this egress; so does the egress block made from it and the next. -/
def Mix.present (m : Mix) (k plane : Nat) (ys : List Int) (hit : Bool) (io : Option Block) (bad late : Bool) : Mix :=
  let d := Cells.get destDflt m.dests k
  let con := Cells.get (fun _ => Conceal.start) m.egConceal k
  let (xs, con) := con.next (!(bad || late)) (match io with | some b => b.samples | none => ys)
  let fl := match io with
    | some b => b.flags
    | none => if hit || d.mixCon then flagConcealed else 0
  let fl := if bad || late then fl ||| flagConcealed else fl
  let fl := if bad ∧ fl &&& 0x38 = 0 then fl ||| flagSealFail else fl
  let rb : Block := match io with
    | some b => { samples := xs, flags := fl, plane := b.plane }
    | none => { samples := d.tail ++ xs.take 19, flags := fl ||| d.flags, plane := plane }
  let b : Block := { rb with samples := (m.ramp rb.plane).apply rb.samples }
  { m with
    dests := Cells.put destDflt m.dests k
      { d with tail := if io.isSome then ys.drop 19 else xs.drop 19, flags := fl, mixCon := hit }
    egConceal := Cells.put (fun _ => Conceal.start) m.egConceal k con
    raw := Cells.put (fun _ => Block.absent) m.raw k rb
    egress := Cells.put (fun _ => []) m.egress k ((b :: Cells.get (fun _ => []) m.egress k).take egressFrames) }

/-- Sample `i` onwards of the frame at every egress follows the ramps as they now stand: the Snuffer ramp starts at once,
whatever the frame phase (R113). -/
def Mix.reRamp (m : Mix) (i fs : Nat) : Mix :=
  let old := m.ramps
  let planes := [1, 2, 3]
  let m1 := planes.foldl (fun (x : Mix) p =>
    let r := Cells.get (fun _ => EgRamp.zero) old p
    x.setRamp p { a := r.before i, b := 0, done := -(i : Int), total := rampLen fs }) m
  let eg := m.raw.foldl (fun (t : Cells (List Block)) q =>
    let r0 := Cells.get (fun _ => EgRamp.zero) old q.2.plane
    let r1 := m1.ramp q.2.plane
    let xs := q.2.samples.mapIdx (fun n x => mulGain x (if n < i then r0.gain n else r1.gain n))
    match Cells.get (fun _ => []) t q.1 with
    | [] => t
    | b :: bs => Cells.put (fun _ => []) t q.1 ({ b with samples := xs } :: bs)) m.egress
  { m1 with egress := eg }

/-- MIX_XFADE.ACTIVE: domains with fades running. -/
def State.xfadeBits (s : State) : Nat :=
  let b := fun (c : Bool) (n : Nat) => if c then 2 ^ n else 0
  let moving := fun (t : Cells (Option GainPt)) => t.any (fun p => match p.2 with | some g => 0 < g.left || g.pending | none => false)
  b (decide (s.mgt.tick.count < Cells.get zeroDflt s.mix.fadeUntil 1) || s.rnd.runs.any (fun p => p.2.bulkX.isSome)
      || s.mix.outBulkX.any (fun p => p.2.isSome)) 1
    + b (decide (s.mgt.tick.count < Cells.get zeroDflt s.mix.fadeUntil 2)) 2
    + b (s.cnv.outs.any (fun p => p.2.xfade.isSome)) 3 + b (s.eqFading 4) 4 + b (s.eqFading 5) 5
    + b (s.mix.fading != [] || moving s.mix.xps || moving s.mix.masters || s.rnd.runs.any (fun p => p.2.feedX.isSome)
        || s.mix.dests.any (fun p => p.2.old != [] || (match p.2.route with | some r => 0 < r.gp.left || r.gp.pending | none => false))) 6
    + b (s.mix.confMoves.any s.mix.confWaits) 7

/-- MIX_STATUS as the fabric stands. -/
def State.mixStatus (s : State) : Word :=
  BitVec.ofNat 32 ((s.mix.swaps.foldl (fun a w => a ||| w.mask) 0) % 65536 + (if s.flag 0xA0000 16 then 0x10000 else 0)
    + (if s.mix.snuffed then 0x20000 else 0))

end Sys2Proof.Machine
end

