-- ==== Sys2Proof/Machine/Swap.lean ====
section
/-!
DEFINITION. Machine/Swap.lean: SWAP (R105 to R111): acceptance, the sample it acts at, the instant it is seen to act, and the
ends of voice waits and Taper ramps.
-/
namespace Sys2Proof.Machine

/-- Live crosspoints a ROUTING swap would send to the fading pool (R109). -/
def removedXps (old new : Routing) : Nat :=
  (old.xps.filter (fun x =>
    match new.xps.find? (fun y => y.bus == x.bus && y.slot == x.slot) with
    | none => true
    | some y => Cells.get noFeed new.slots y.slot != Cells.get noFeed old.slots x.slot)).length

/-- The checks of a SWAP in the order of R108; none where it passes. -/
def swapCheck (tags : Cells Nat) (s : State) (d : Desc) : Option Nat :=
  let mask := field d.w0 31 16
  if mask = 0 ∨ mask % 2 = 1 ∨ 512 ≤ mask then some mixBadDomain
  else if (List.range 9).any (fun k => mask.testBit k && s.domainBusy k) then some mixBankBusy
  else if d.w1 ≠ 0 then some mixBadLength
  else if mask.testBit 6 ∧ ¬ (s.mix.routing.idle.feeds.all (fun p => plane3Ok (s.loadCtx tags) p.2)) then some mixRange
  else if mask.testBit 6 ∧ 16384 < s.mix.fading.length + removedXps s.mix.routing.live s.mix.routing.idle then
    some mixCapacity
  else if s.now + 3600000000000 < d.time then some mixFuture
  else none

/-- The outputs a ROOM_FILTERS swap captures are pending from acceptance (R82). -/
def captureOuts (outs : Cells ConvOut) : Cells ConvOut :=
  outs.foldl (fun m p => Cells.put (fun _ => ConvOut.reset) m p.1 (if p.2.armed then { p.2 with pending := true } else p.2)) []

/-- The swap is pending from acceptance. -/
def swapAccept (s : State) (ring : Nat) (d : Desc) : State :=
  let mask := field d.w0 31 16
  let outs := if mask.testBit 3 then (s.cnv.outs.filter (fun p => p.2.armed)).map (·.1) else []
  let s := (s.setPhase ring d.index .accepted).auditReserve 1
  let s := if mask.testBit 3 then s.onCnv (fun c => { c with outs := captureOuts c.outs }) else s
  s.onMix (fun m => { m with
    swaps := m.swaps ++
      [{ ring := ring, index := d.index, mask := mask, time := d.time, accFrame := s.mgt.tick.count, outs := outs,
         act := none, fed := false, crcs := (0, 0) }] })

/-- Opcode 0x22 on rings 12 and 13 (R106): accepted once every earlier descriptor of its ring has completed. -/
def swapCmd (tags : Cells Nat) (ring : Nat) (again : Instr) (s : State) : State :=
  match s.nextDesc ring 0x22 with
  | none => s
  | some d =>
    if (s.ring ring).descs.head? ≠ some d then s
    else if d.flags ≠ 0 then s.finish ring d.index stBadDesc
    else
      match swapCheck tags s d with
      | some st => s.mixRefuse ring d.index st
      | none => if s.auditRoom 1 then swapAccept s ring d else s.stall ring again

/-- The earliest stage of the named domains is the render stage (R105). -/
def renderFirst (mask : Nat) : Bool := mask.testBit 1 || mask.testBit 2 || mask.testBit 4

/-- Egress instant of sample `i` of the block whose stage begins at the present tick, `i` counted from −1 up (so that 0 is the
sample before the block): the render stage computes block F − 1, the later stages block F − 2 (R36, R92). -/
def State.stageInstant (s : State) (render : Bool) (i : Nat) : Nat := s.sampleInstant (if render then 60 + i else 28 + i)

/-- The first sample of the block at or after T. -/
def State.firstSample (s : State) (render : Bool) (t : Nat) : Option Nat :=
  (List.range 32).find? (fun i => decide (t ≤ s.stageInstant render (i + 1)))

/-- A pending swap commits where the block that begins at this tick holds its sample j (R110). -/
def State.commitSwap (s : State) (w : Swap) : State × Swap :=
  let f := s.mgt.tick.count
  if w.act.isSome ∨ f < w.accFrame + 2 then (s, w)
  else
    let render := renderFirst w.mask
    match s.firstSample render w.time with
    | none => (s, w)
    | some i =>
      let blk := if render then f - 1 else f - 2
      let late := decide (w.time ≠ 0) && decide (f = w.accFrame + 2) && decide (i = 0)
        && decide (w.time ≤ s.stageInstant render 0)
      let c := s.loadCtx []
      let old := setsCrc c s.liveSets (w.outs.map (fun o => (s.convOut o).live)) w.mask
      let new := setsCrc c s.idleSets (w.outs.map (fun o => (s.convOut o).idle)) w.mask
      (s.setPhase w.ring w.index .committed,
        { w with act := some (32 * blk + i, s.stageInstant render (i + 1), late), crcs := (old, new) })

/-- Every pending swap is looked at as a tick's stages begin. -/
def State.commitSwapsGo : List Swap → State → List Swap × State
  | [], s => ([], s)
  | w :: ws, s =>
    let (s, w) := s.commitSwap w
    let (l, s) := State.commitSwapsGo ws s
    (w :: l, s)

def State.commitSwaps (s : State) : State :=
  let (l, s) := State.commitSwapsGo s.mix.swaps s
  s.onMix (fun m => { m with swaps := l })

/-- The swaps whose sample j lies in a block, in order, each with the domains among `dom` it names. -/
def State.swapsIn (s : State) (blk dom : Nat) : List SwapAt :=
  sortBy (fun a b => decide (a.j ≤ b.j))
    (s.mix.swaps.filterMap (fun w => match w.act with
      | some (c, _, _) => if c / 32 = blk ∧ w.mask &&& dom ≠ 0 then some { j := c % 32, mask := w.mask &&& dom } else none
      | none => none))

/-- The outputs a ROOM_FILTERS swap in this block exchanges, with the sample. -/
def State.filterSwaps (s : State) (blk : Nat) : List (Nat × Nat) :=
  (s.mix.swaps.map (fun w => match w.act with
    | some (c, _, _) => if c / 32 = blk ∧ w.mask.testBit 3 then w.outs.map (fun o => (o, c % 32)) else []
    | none => [])).flatten

/-- A swap is seen to act: MIX_LIVE_BANK, the audit entry and the completion follow sample j (R35, R110). -/
def State.swapActs (s : State) (w : Swap) (instant : Nat) (late : Bool) : State :=
  let s := s.onMix (fun m => { m with swaps := m.swaps.erase w })
  let live := (s.reg 0xA0004).toNat ^^^ (w.mask &&& 0x1F6)
  let s := (s.setReg 0xA0004 (BitVec.ofNat 32 live)).setReg64 0xA0010 instant
  let s := if late then s.bump 0xA0104 1 else s
  let s := s.bump 0x90114 w.outs.length
  let s := (s.auditRelease 1).chainEntry instant 0 0 0x02 2 (BitVec.ofNat 32 w.mask) (BitVec.ofNat 32 w.crcs.1)
    (BitVec.ofNat 32 w.crcs.2)
  s.finishAt w.ring w.index stOk (if late then 1 else 0) instant none

/-- The frame tick by which the render frame that holds a swap's sample `c`, counted in samples of the output grid, has reached every
egress: the egress frame ends 3 samples into the third block on (R35, R36). -/
def egressTick (c : Nat) : Nat := c / 32 + (if c % 32 < 3 then 3 else 4)

/-- Swap `a` is seen to act before `b`: the earlier sample j, then the earlier TIME64 (R29, R35). -/
def actsBefore (a b : Swap) : Bool :=
  match a.act, b.act with
  | some (x, _, _), some (y, _, _) => decide (x < y) || (x == y && decide (a.time < b.time))
  | _, _ => false

/-- The next swap seen to act: the first of those whose frame has reached every egress. -/
def State.swapDue (s : State) : Option Swap :=
  (s.mix.swaps.filter (fun w => match w.act with | some (c, _, _) => decide (egressTick c ≤ s.mgt.tick.count) | none => false)).foldl
    (fun b w => match b with
      | none => some w
      | some v => if actsBefore w v then some w else b) none

/-- A committed swap whose render frame has reached every egress acts (R35, R110). -/
def execSwapAct (dt : Nat) (s : State) : Res :=
  let s := s.elapse dt
  match s.swapDue with
  | some w => (match w.act with
    | some (_, t, late) => .next (s.swapActs w t late)
    | none => .next s)
  | none => .next s

/-! ### Ends of waits and ramps (R98, R99) -/

/-- A table of gain points with one point changed where it has moved. -/
def gpMap (t : Cells (Option GainPt)) (k : Nat) (f : GainPt → GainPt) : Cells (Option GainPt) :=
  match Cells.get (fun _ => none) t k with
  | some g => gpPut t k (f g)
  | none => t

/-- The element at a place changed. -/
def mapAt (l : List α) (i : Nat) (f : α → α) : List α := l.mapIdx (fun j x => if j = i then f x else x)

/-- The gain point a reference names, with its ZC_MS. -/
def State.gainPoint (s : State) (p : GainRef) : Option (GainPt × Nat) :=
  let m := s.mix
  let bz := fun b => (Cells.get busDflt m.routing.live.buses b).zc
  let cz := fun b => (Cells.get bridgeDflt m.conference.live.bridges b).zc
  let get := fun (t : Cells (Option GainPt)) (k z : Nat) => (Cells.get (fun _ => none) t k).map (fun g => (g, z))
  match p with
  | .xpoint b k => get m.xps (b * 1024 + k) (bz b)
  | .fading i => (m.fading[i]?).map (fun x => (x.gp, bz x.bus))
  | .master b => get m.masters b (bz b)
  | .input c b => get m.inputs (c * 128 + b) (cz b)
  | .contribution c b => get m.contrib (c * 128 + b) (cz b)
  | .returnScale c b => get m.returns (c * 128 + b) (cz b)
  | .bridge b => get m.bridges b (cz b)
  | .dest d => (Cells.get destDflt m.dests d).route.map (fun r => (r.gp, r.zc))
  | .destOld d i => ((Cells.get destDflt m.dests d).old[i]?).map (fun r => (r.gp, r.zc))

/-- The point a reference names, changed. -/
def Mix.mapPoint (m : Mix) (p : GainRef) (f : GainPt → GainPt) : Mix :=
  match p with
  | .xpoint b k => { m with xps := gpMap m.xps (b * 1024 + k) f }
  | .fading i => { m with fading := mapAt m.fading i (fun x => { x with gp := f x.gp }) }
  | .master b => { m with masters := gpMap m.masters b f }
  | .input c b => { m with inputs := gpMap m.inputs (c * 128 + b) f }
  | .contribution c b => { m with contrib := gpMap m.contrib (c * 128 + b) f }
  | .returnScale c b => { m with returns := gpMap m.returns (c * 128 + b) f }
  | .bridge b => { m with bridges := gpMap m.bridges b f }
  | .dest d =>
    let x := Cells.get destDflt m.dests d
    { m with dests := Cells.put destDflt m.dests d { x with route := x.route.map (fun r => { r with gp := f r.gp }) } }
  | .destOld d i =>
    let x := Cells.get destDflt m.dests d
    { m with dests := Cells.put destDflt m.dests d { x with old := mapAt x.old i (fun r => { r with gp := f r.gp }) } }

/-- A voice gain point whose wait has lasted ZC_MS steps to its target (R99). -/
def execZcTimeout (dt : Nat) (point : GainRef) (s : State) : Res :=
  let s := s.elapse dt
  match s.gainPoint point with
  | some (g, zc) =>
    if g.pending ∧ zc * s.renderRate ≤ g.waited * 1000 then
      .next ((s.onMix (fun m => m.mapPoint point (fun g => { g with g := g.target, pending := false }))).bump 0xA0114 1)
    else .next s
  | none => .next s

/-- A fading crosspoint or falling route that has reached zero is gone. -/
def Mix.dropPoint (m : Mix) (p : GainRef) : Mix :=
  match p with
  | .fading i => { m with fading := m.fading.eraseIdx i }
  | .destOld d i =>
    let x := Cells.get destDflt m.dests d
    { m with dests := Cells.put destDflt m.dests d { x with old := x.old.eraseIdx i } }
  | _ => m

/-- A Taper ramp has carried its target with its last sample: the point holds it; one that fell to zero leaves the fading
pool or its destination (R98, R111). -/
def execTaperRampEnd (dt : Nat) (point : GainRef) (s : State) : Res :=
  let s := s.elapse dt
  match s.gainPoint point with
  | some (g, _) =>
    if g.left = 0 ∧ ¬ g.pending then
      let s := s.onMix (fun m => m.mapPoint point (fun g => { g with inc := 0, waited := 0 }))
      .next (if g.g = 0 then s.onMix (fun m => m.dropPoint point) else s)
    else .next s
  | none => .next s

end Sys2Proof.Machine
end

