-- ==== Sys2Proof/Machine/Feeders.lean ====
section
/-!
DEFINITION. Machine/Feeders.lean: who feeds each ingress channel (R453) and its plane tag (R13), and the parameter commands
that need the tags: PSET_LOAD, PSET_LOAD_DONE and SWAP.
-/
namespace Sys2Proof.Machine

/-- One feeder: 0 a port, 1 a stream, 2 the chain; its number; its channels and their plane tag. -/
structure Feeder where
  kind : Nat
  num : Nat
  first : Nat
  count : Nat
  plane : Nat
  deriving DecidableEq, Repr

def regTdm (p : Nat) : Nat := 0xF0000 + 0x800 * p

/-- Slot width in bits of a SLOT_W code. -/
def slotWidth (code : Nat) : Nat := if code = 0 then 16 else if code = 1 then 24 else 32
/-- SLOTS of a port configuration at a rate class (R323). -/
def slotsOf (cfg : Word) (cls : Nat) : Nat :=
  if field cfg 29 28 = 0 then min (field cfg 10 0 / slotWidth (field cfg 27 26)) (32 / 2 ^ cls) else 2

def State.portSlots (s : State) (p : Nat) : Nat := slotsOf (s.reg (regTdm p)) s.rateClass
/-- A plane tag as written: 1 Render, 2 Voice, anything else I/O. -/
def planeTag (v : Nat) : Nat := if v = 1 ∨ v = 2 then v else 3

/-- Receive slots of a port. -/
def State.portFeeder (s : State) (p : Nat) : Feeder :=
  let m := s.reg (regTdm p + 0xC)
  { kind := 0, num := p, first := field m 27 16, count := s.portSlots p, plane := planeTag (field m 29 28) }

/-- Fields of a stream record (R295). -/
def strTx (r : List Byte) : Bool := (leAt r 0 1).testBit 0
def strAaf (r : List Byte) : Bool := (leAt r 0 1).testBit 1
def strRed (r : List Byte) : Bool := (leAt r 0 1).testBit 2
def strIpv6 (r : List Byte) : Bool := (leAt r 0 1).testBit 3
def strMac (r : List Byte) : Nat := leAt r 0 1 / 16 % 4
def strConceal (r : List Byte) : Bool := (leAt r 0 1).testBit 6
def strEnc (r : List Byte) : Nat := leAt r 1 1
def strChannels (r : List Byte) : Nat := leAt r 2 1
def strPlaneTc (r : List Byte) : Nat := leAt r 3 1
def strSpp (r : List Byte) : Nat := leAt r 4 2
def strFirst (r : List Byte) : Nat := leAt r 6 2
def strVlan (r : List Byte) : Nat := leAt r 8 2
def strPt (r : List Byte) : Nat := leAt r 10 1
def strPort (r : List Byte) : Nat := leAt r 14 2
def strOffset (r : List Byte) : Nat := leAt r 20 4
def strDelay (r : List Byte) : Nat := leAt r 24 4

def strDflt (_ : Nat) : Stream := Stream.idle0
def State.stream (s : State) (i : Nat) : Stream := Cells.get strDflt s.streams i
def State.setStream (s : State) (i : Nat) (x : Stream) : State := { s with streams := Cells.put strDflt s.streams i x }

/-- COUNT of LNK_BCAST. -/
def State.chainCount (s : State) : Nat := min 1024 (s.fld 0x10000C 26 16)
/-- The chain channels at this module. -/
def State.chainFeeder (s : State) : Feeder :=
  { kind := 2, num := 0, first := s.fld 0x100010 11 0, count := s.chainCount, plane := planeTag (s.fld 0x100010 29 28) }

/-- Every feeder. -/
def State.feeders (s : State) : List Feeder :=
  ((List.range 16).filter (fun p => s.flag (regTdm p) 31)).map s.portFeeder
    ++ (s.streams.filter (fun p => p.2.st != 0 && !strTx p.2.record)).map (fun p =>
        { kind := 1, num := p.1, first := strFirst p.2.record, count := strChannels p.2.record,
          plane := planeTag (strPlaneTc p.2.record) })
    ++ (if s.chainEn then [s.chainFeeder] else [])

def Feeder.overlaps (a b : Feeder) : Bool := decide (a.first < b.first + b.count) && decide (b.first < a.first + a.count)
/-- A feeder would give a channel a second feeder (R453). -/
def State.feederClash (s : State) (f : Feeder) : Bool :=
  s.feeders.any (fun g => !(g.kind == f.kind && g.num == f.num) && g.overlaps f)

/-- The plane tag of each fed ingress channel that is not I/O (R13). -/
def State.planeTags (s : State) : Cells Nat :=
  s.feeders.foldl (fun m f => 
      if f.plane = 3 then m
      else (List.range f.count).foldl (fun m c => Cells.put (fun _ => 3) m (f.first + c) f.plane) m) []

/-- PSET_LOAD (R107). -/
def execPsetLoad (ring : Nat) (data : Option (List Byte)) (s : State) : Res := .next (psetLoad s.planeTags ring data s)

/-- PSET_LOAD_DONE (R106). -/
def execPsetLoadDone (dt ring : Nat) (s : State) : Res :=
  let s := s.elapse dt
  .next (psetLoadDone s.planeTags ring s)

/-- SWAP (R109). -/
def execSwap (ring : Nat) (s : State) : Res := .next (swapCmd s.planeTags ring (.swap ring) s)

end Sys2Proof.Machine
end

