-- ==== Sys2Proof/Machine/Mantle.lean ====
section
/-!
DEFINITION. Machine/Mantle.lean: qualification of the candidates (R307, R308), selection (R309 to R311), pulls (R312, R313), holdover
(R315), the states of R316 and the fields of MNT_CTRL (R319). Rates are whole numbers of 10⁻⁵ ppm and phases of 10⁻⁵ ns, the unit in
which every constant of R312 is whole; candidate offsets come in 0.01 ppm.
-/
namespace Sys2Proof.Machine

def State.onMnt (s : State) (f : Mantle → Mantle) : State := { s with mnt := f s.mnt }
def candDflt (_ : Nat) : MCand := MCand.reset
def State.cand (s : State) (c : Nat) : MCand := Cells.get candDflt s.mnt.cands c
def State.setCand (s : State) (c : Nat) (x : MCand) : State :=
  s.onMnt (fun m => { m with cands := Cells.put candDflt m.cands c x })

def regMntCtrl : Nat := 0xE0000
/-- CK_TIME ticks of a second. -/
def secTicks : Nat := 500000000
/-- MNT_TOL_PPM within its range. -/
def State.mntTol (s : State) : Nat := min 100 (max 2 (s.fld 0xE000C 6 0))
/-- A register of seconds within its range. -/
def State.mntSeconds (s : State) (off lo hi : Nat) : Nat := min hi (max lo (s.fld off 15 0))
/-- MNT_SLEW_PPM in 10⁻⁵ ppm and MNT_SLEW_PPS in 10⁻⁵ ppm per ms. -/
def State.slewMax (s : State) : Int := 10000 * (min 100 (max 1 (s.fld 0xE0010 6 0)) : Nat)
def State.slewAcc (s : State) : Int := (min 1000 (max 1 (s.fld 0xE0014 9 0)) : Nat)

/-- A candidate takes part: EN is 1 and PRIO is not 0 (R306). -/
def MCand.active (x : MCand) : Bool := bitOf x.cfg 4 && field x.cfg 3 0 != 0
def MCand.prio (x : MCand) : Nat := field x.cfg 3 0
/-- It may be selected (R309, R311). -/
def MCand.fit (x : MCand) : Bool := x.active && (x.qual == 2 || x.qual == 3)
/-- It is lost to Mantle as a reference. -/
def MCand.lost (x : MCand) : Bool := x.qual == 0 || !x.active

/-- The rate of a class of R332; 0 where the class names none. -/
def classRate (c : Nat) : Nat := [0, 44100, 48000, 88200, 96000, 176400, 192000].getD c 0

/-- The port a candidate 7 to 10 names, and its state and class. -/
def State.candPort (s : State) (x : MCand) : Nat × Nat × Nat :=
  let p := field x.cfg 13 10
  let q := Cells.get (fun _ => Port.reset) s.ports p
  (p, q.st, q.cls)

/-- Standing causes of R308 that follow from the module's own state: 5, 6 and 7, or 0. -/
def State.candBlocked (s : State) (c : Nat) (x : MCand) : Nat :=
  if c = 5 then (if s.flag 0xE0008 0 then 0 else 6)
  else if c = 6 then
    (if s.straps.head ∨ (Cells.get (fun _ => LinkPort.reset) s.link.ports s.link.primary).st ≠ 3 then 6 else 0)
  else if 7 ≤ c ∧ c ≤ 10 then
    let (p, st, cls) := s.candPort x
    if st = 3 ∨ st = 4 ∨ s.flag (0xF0000 + 0x800 * p) 30 then 5
    else if classRate cls = 0 ∨ (classRate cls % 44100 = 0) ≠ (s.flag regMntCtrl 8 = true) then 7
    else 0
  else 0

/-! ### States, selection and pulls -/

/-- STATE and REF_SEL change together; source 24 tells (R317, R318). `who` is the candidate whose event caused it. -/
def State.mntGo (s : State) (st sel who : Nat) : State :=
  let m := s.mnt
  if m.st = st ∧ m.sel = sel then s
  else
    let s := s.onMnt (fun x => { x with st := st, sel := sel, last := if sel = 15 then x.last else sel })
    s.fire 24 (BitVec.ofNat 32 (st + 16 * m.st + 256 * sel + 4096 * m.sel))
      (BitVec.ofNat 32 (who + (if who = 15 then 0 else 256 * (s.cand who).cause))) 0

/-- How far the target phase of a candidate may lie from the output, in 10⁻⁵ ns (R306): half the shorter of the render sample
period and the reference period, or 16 samples; 0 where only the frequency moves. -/
def State.pullReach (s : State) (t : Nat) : Nat :=
  let fs := s.renderRate
  let base := if s.flag regMntCtrl 8 then 44100 else 48000
  let x := s.cand t
  if t ≤ 3 then 50000000000000 / max fs (base * (if field x.cfg 9 8 = 1 then 2 else if field x.cfg 9 8 = 2 then 4 else 1))
  else if t = 4 ∨ t = 15 then 0
  else if t ≤ 6 then 1600000000000000 / fs
  else 50000000000000 / max fs (classRate (s.candPort x).2.2)

/-- A pull to a target starts (R312, R321); its phase error is free within the reach of R306. -/
def State.startPull (s : State) (st t who : Nat) : State :=
  let reach := s.pullReach t
  let (r, s) := s.fresh (2 * reach + 1)
  let s := (s.bump 0xE0200 1).onMnt (fun m =>
    { m with pull := some (t, (r : Int) - reach), lastPull := some s.clock.ticks })
  s.mntGo st t who

/-- RETURN_TO_NOMINAL is entered (R315). -/
def State.startNominal (s : State) (who : Nat) : State := s.startPull 6 15 who

/-- No candidate is fit: HOLDOVER, or at once RETURN_TO_NOMINAL with less than 10 s of history or a hold time of 0 (R313, R315). -/
def State.enterHold (s : State) (who : Nat) : State :=
  let m := s.mnt
  if m.hist.length < 100 then s.startNominal who
  else
    let mean := (m.hist.foldl (· + ·) 0).fdiv m.hist.length
    let rate := if m.st = 2 ∨ m.st = 3 then mean else m.out
    let s := (s.bump 0xE020C 1).onMnt (fun x => { x with pull := none, hold := rate, out := rate, heldSince := s.clock.ticks })
    let s := s.mntGo 5 15 who
    let s := s.fire 26 (BitVec.ofNat 32 s.mnt.last) (toWord (rate.fdiv 100)) 0
    if s.fld 0xE0020 15 0 = 0 then s.startNominal who else s

/-- The best candidate of a state code: highest PRIO, ties to the lower index (R309). -/
def State.bestOf (s : State) (qual : Nat) : Option Nat :=
  (List.range 11).foldl (fun (a : Option Nat) c =>
    let x := s.cand c
    if x.active && x.qual == qual then
      (match a with
      | none => some c
      | some b => if (s.cand b).prio < x.prio then some c else a)
    else a) none

/-- The forced candidate, where FORCE names one. -/
def State.forced (s : State) : Option Nat := let f := s.fld regMntCtrl 3 0; if f ≤ 10 then some f else none

/-- The candidate Mantle would take now (R309, R311). -/
def State.mntBest (s : State) : Option Nat :=
  match s.forced with
  | some f => if (s.cand f).fit then some f else none
  | none => match s.bestOf 2 with
    | some c => some c
    | none => s.bestOf 3

/-- LOCKED and LOCKED_SUSPECT follow the selected reference (R316). -/
def State.mntSuspect (s : State) : State :=
  let q := (s.cand s.mnt.sel).qual
  if s.mnt.st = 2 ∧ q = 3 then s.mntGo 3 s.mnt.sel s.mnt.sel
  else if s.mnt.st = 3 ∧ q = 2 then s.mntGo 2 s.mnt.sel s.mnt.sel
  else s

/-- What Mantle does once the candidates or FORCE have changed (R309, R311, R313, R315, R316). `who`: 15 after a write of FORCE. -/
def State.mntEvaluate (s : State) (who : Option Nat) : State :=
  let m := s.mnt
  let best := s.mntBest
  if m.st = 7 then s
  else if m.st = 0 then
    (match best with
    | some t => s.startPull 1 t (who.getD t)
    | none => s)
  else if 5 ≤ m.st then
    (match best with
    | some t => s.startPull 4 t (who.getD t)
    | none => s)
  else if (s.cand m.sel).lost then
    (match best with
    | some t => s.startPull 4 t (who.getD m.sel)
    | none => s.enterHold (who.getD m.sel))
  else
    match s.forced with
    | some f =>
      if f = m.sel then s.mntSuspect
      else if (s.cand f).fit then s.startPull 4 f (who.getD f)
      else if (s.cand f).lost then s.enterHold (who.getD f)
      else s.mntSuspect
    | none => s.mntSuspect

/-! ### Qualification -/

/-- A candidate enters DISQUALIFIED, or meets another cause there (R307, R308, R318). -/
def State.disqualify (s : State) (c cause : Nat) : State :=
  let x := s.cand c
  let s := s.setCand c { x with qual := 0, cause := cause, offs := if cause = 1 then [] else x.offs }
  if x.qual = 0 then s
  else
    let s := s.bump 0xE0204 1
    if x.active then s.fire 25 (BitVec.ofNat 32 c) (BitVec.ofNat 32 cause) 0 else s

/-- The ODD test of R308 for an offset among the other candidates' last offsets. -/
def oddOut (tol : Nat) (o : Int) (others : List Int) : Bool :=
  let far := others.filter (fun a => decide (100 * tol < (o - a).natAbs))
  (List.range far.length).any (fun i => (List.range i).any (fun j => 
    decide ((far.getD i 0 - far.getD j 0).natAbs ≤ 50 * tol)))

/-- Last offsets of the candidates with edges that take part, but for one. -/
def State.otherOffsets (s : State) (c : Nat) : List Int :=
  ((List.range 11).filter (fun k => k != c && (s.cand k).active && (s.cand k).offs != [])).map (fun k => (s.cand k).offset)

/-- A measurement enters the history of a candidate; none where it has no edges. Its configuration acts from here on. A first
measurement more than 1,000 ppm off does not enter. -/
def MCand.measure (x : MCand) (cfg : Word) (o : Option Int) : MCand :=
  let x := { x with cfg := cfg }
  match o with
  | none => { x with offs := [] }
  | some v =>
    let x := { x with offset := v }
    if x.offs = [] ∧ 100000 < v.natAbs then x else { x with offs := (v :: x.offs).take 20 }

/-- The cause that keeps a candidate disqualified at a measurement, or 0 (R307, R308). -/
def State.candFault (s : State) (c : Nat) (edges : Bool) : Nat :=
  let x := s.cand c
  let tol := s.mntTol
  let b := s.candBlocked c x
  if b ≠ 0 then b
  else if ¬ edges then 1
  else if x.offs = [] then 7
  else if x.offs.length = 20 ∧ x.offs.all (fun o => decide (100 * tol < o.natAbs)) then 2
  else if oddOut tol x.offset (s.otherOffsets c) then 4
  else 0

/-- The transitions of R307. -/
def State.qualify (s : State) (c : Nat) (edges : Bool) : State :=
  let f := s.candFault c edges
  if f ≠ 0 then s.disqualify c f
  else
    let x := s.cand c
    let high := fun (o : Int) => decide (80 * s.mntTol < o.natAbs)
    let last := x.offs.take 10
    let wait := if x.ever then s.mntSeconds 0xE0018 2 3600 else 2
    if x.qual = 0 then s.setCand c { x with qual := 1, since := s.clock.ticks }
    else if x.qual = 1 ∧ x.since + wait * secTicks ≤ s.clock.ticks then s.setCand c { x with qual := 2, cause := 0, ever := true }
    else if x.qual = 2 ∧ last.length = 10 ∧ last.all high then (s.setCand c { x with qual := 3 }).bump 0xE0208 1
    else if x.qual = 3 ∧ last.length = 10 ∧ last.all (fun o => !high o) then s.setCand c { x with qual := 2 }
    else s

/-- CANDIDATE_MEASUREMENT (R307): `offs`: offset of each candidate with edges, in 0.01 ppm; `out`: the output rate the loop holds, in
0.001 ppm. -/
def execCandidateMeasurement (dt : Nat) (offs : List (Nat × Int)) (out : Int) (s : State) : Res :=
  let s := s.elapse dt
  let edge := fun (c : Nat) => (offs.find? (fun p => p.1 == c)).map (·.2)
  let s := (List.range 11).foldl (fun s c => s.setCand c ((s.cand c).measure (s.reg (0xE0100 + 4 * c)) (edge c))) s
  let s := (List.range 11).foldl (fun s c => s.qualify c (edge c).isSome) s
  let locked := s.mnt.st = 2 ∨ s.mnt.st = 3
  let s := if locked then s.onMnt (fun m => { m with out := out * 100, hist := (out * 100 :: m.hist).take 600 }) else s
  .next (s.mntEvaluate none)

/-- CANDIDATE_FAULT (R308): causes 1 and 3 are what the inputs show; the others act where their condition holds. -/
def execCandidateFault (dt c cause : Nat) (s : State) : Res :=
  let s := s.elapse dt
  let x := s.cand c
  let holds := cause = 1 ∨ cause = 3 ∨ ((5 ≤ cause ∧ cause ≤ 7) ∧ s.candBlocked c x = cause)
    ∨ (cause = 4 ∧ x.offs ≠ [] ∧ oddOut s.mntTol x.offset (s.otherOffsets c) = true)
  if 11 ≤ c ∨ ¬ holds then .next s else .next ((s.disqualify c cause).mntEvaluate none)

/-! ### The pull (R312) -/

/-- One step of R312 on v and e. -/
def pullStep (vmax acc v e : Int) : Int × Int :=
  let brake := v.sign = e.sign ∧ 2 * acc * (e.natAbs : Int) ≤ v * v
  let want := if brake then 0 else e.sign * vmax
  let d := want - v
  let v := v + (if acc < d then acc else if d < -acc then -acc else d)
  (v, e - v)

/-- A pull ends: the loop takes over, or Mantle runs free (R312, R315). -/
def State.pullEnds (s : State) (t : Nat) : State :=
  let s := s.onMnt (fun m => { m with pull := none })
  if t = 15 then ((s.onMnt (fun m => { m with out := 0 })).mntGo 0 15 15).fire 27 0 0 0 |>.mntEvaluate none
  else (s.mntGo 2 t t).mntSuspect

/-- PULL_UPDATE (R312): a step each 1 ms while a plane runs; while none runs the pull completes. -/
def execPullUpdate (dt : Nat) (s : State) : Res :=
  let s := s.elapse dt
  match s.mnt.pull with
  | none => .next s
  | some (t, e) =>
    let ref : Int := if t = 15 then 0 else 1000 * (s.cand t).offset
    if ¬ s.anyRun then .next ((s.onMnt (fun m => { m with out := ref })).pullEnds t)
    else
      let (v, e) := pullStep s.slewMax s.slewAcc (s.mnt.out - ref) e
      let e := if t = 4 then 0 else e
      let s := s.onMnt (fun m => { m with out := ref + v, pull := some (t, e) })
      if e.natAbs < 100000 ∧ (v.natAbs : Int) < s.slewAcc then .next (s.pullEnds t) else .next s

/-- REVERTIVE_SWITCH (R310). -/
def execRevertiveSwitch (dt : Nat) (s : State) : Res :=
  let s := s.elapse dt
  let m := s.mnt
  let held : Bool := match m.lastPull with
    | some t => decide (s.clock.ticks < t + s.mntSeconds 0xE001C 1 3600 * secTicks)
    | none => false
  match s.bestOf 2 with
  | some t =>
    if s.flag regMntCtrl 4 = true ∧ s.forced = none ∧ 1 ≤ m.st ∧ m.st ≤ 4 ∧ (s.cand m.sel).prio < (s.cand t).prio ∧ held = false then
      .next (s.startPull 4 t t)
    else .next s
  | none => .next s

/-- RETURN_TO_NOMINAL (R315): MNT_HOLD_S has passed in HOLDOVER. -/
def execReturnToNominal (dt : Nat) (s : State) : Res :=
  let s := s.elapse dt
  let h := s.fld 0xE0020 15 0
  if s.mnt.st = 5 ∧ h ≠ 65535 ∧ s.mnt.heldSince + h * secTicks ≤ s.clock.ticks then .next (s.startNominal 15) else .next s

/-- Device time was stepped while candidate 5 is the target or the selected reference (R313). -/
def State.ptpStepped (s : State) : State :=
  if s.mnt.sel = 5 ∧ 1 ≤ s.mnt.st ∧ s.mnt.st ≤ 4 then s.startPull 4 5 5 else s

/-! ### MNT_CTRL (R311, R319) -/

/-- FAMILY changes: every candidate starts over, and one that no longer matches is disqualified. -/
def State.familyChanged (s : State) : State :=
  (List.range 11).foldl (fun s c =>
    let s := s.setCand c { (s.cand c) with qual := 1, since := s.clock.ticks, offs := [] }
    if s.candBlocked c (s.cand c) = 7 then s.disqualify c 7 else s) s

/-- A write of MNT_CTRL: FAMILY and RATE only while the module is stopped, RATE 3 never. -/
def mntCtrlWrite (s : State) (o : Origin) (v : Word) : State :=
  if ¬ s.auditRoom 1 then s.bump 0x300 1
  else
    let old := s.reg regMntCtrl
    let v := v &&& 0x1F7F
    let fam := bitOf v 8 != bitOf old 8
    let rate := field v 6 5 != field old 6 5
    let bad := ((fam || rate) && !s.isStopped) || field v 6 5 == 3
    let v' := if bad then setBitOf (setField v 6 5 (field old 6 5)) 8 (bitOf old 8) else v
    let s := (s.setReg regMntCtrl v').auditNow (originCode o) (originId o) 0x01 0 (BitVec.ofNat 32 regMntCtrl) old v'
    let s := if bad then s.setFlag 0xE0004 16 true else s
    let s := if !bad && (fam || rate) then s.onMgt (fun m => { m with tick := { m.tick with captured := 0 } }) else s
    let s := if !bad && fam then s.familyChanged else s
    s.mntEvaluate (some 15)

/-- FORCE, FAMILY and RATE: a write of MNT_CTRL. -/
def execForce (v : Word) (origin : Origin) (s : State) : Res := .next (mntCtrlWrite s origin v)
def execFamily (v : Word) (origin : Origin) (s : State) : Res := .next (mntCtrlWrite s origin v)
def execRate (v : Word) (origin : Origin) (s : State) : Res := .next (mntCtrlWrite s origin v)

/-! ### Registers -/

/-- MNT_STATE, MNT_HOLD_FREQ, MNT_OUT_FREQ, MNT_PULL_NS and MNT_CAND_STATUS as Mantle stands. -/
def State.mntState (s : State) : Word :=
  let m := s.mnt
  BitVec.ofNat 32 (m.st + 256 * m.sel + 4096 * m.last + (if s.flag 0xE0004 16 then 65536 else 0))
def State.mntHoldFreq (s : State) : Word := toWord (s.mnt.hold.fdiv 100)
def State.mntOutFreq (s : State) : Word := toWord (s.mnt.out.fdiv 100)
def State.mntPullNs (s : State) : Word := match s.mnt.pull with | some (_, e) => toWord (e.fdiv 100000) | none => 0
def State.mntCandStatus (s : State) (c : Nat) : Word :=
  let x := s.cand c
  BitVec.ofNat 32 (x.qual + 256 * x.cause + 65536 * pattern 16 (satS 16 x.offset))

/-- Mantle is locked to PTP, so that frame boundaries fall on media numbers that are multiples of 32 (R297, R306). -/
def State.lockedToPtp (s : State) : Bool := (s.mnt.st == 2 || s.mnt.st == 3) && s.mnt.sel == 5

end Sys2Proof.Machine
end

