-- ==== Sys2Proof/Machine/Queue.lean ====
section
/-!
DEFINITION. Machine/Queue.lean: the elastic queue (R246 to R254): its word by word behaviour, and whole items pushed and
taken by the blocks that own the queues.
-/
namespace Sys2Proof.Machine

/-- A queue of an owner class of R253: base of its registers, BANK_WORDS and MAX_ITEM (R264, R271, R330, R362). -/
structure QShape where
  base : Nat
  bank : Nat
  item : Nat
  deriving DecidableEq, Repr

/-- The shape of a queue; none where there is no such queue. -/
def queueShape (owner inst : Nat) : Option QShape :=
  if owner = 0 ∧ inst < 16 ∧ inst % 4 < 3 then
    some { base := 0xC1000 + 0x4000 * (inst / 4) + 0x20 * (inst % 4)
           bank := if inst % 4 = 0 then 2048 else if inst % 4 = 1 then 4096 else 16384, item := 1154 }
  else if owner = 1 ∧ inst < 32 then
    some { base := 0xC1100 + 0x4000 * (inst / 8) + 0x20 * (inst % 8), bank := 2048, item := 1153 }
  else if owner = 2 ∧ inst < 16 then some { base := 0xF0100 + 0x800 * inst, bank := 1024, item := 32 }
  else if owner = 3 ∧ inst < 16 then some { base := 0xF0120 + 0x800 * inst, bank := 1024, item := 32 }
  else if owner = 4 ∧ inst < 4 then some { base := 0x100200 + 0x20 * inst, bank := 4096, item := 516 }
  else none

def qDflt (_ : Nat) : EQueue := EQueue.empty
def State.queue (s : State) (owner inst : Nat) : EQueue := Cells.get qDflt s.queues (256 * owner + inst)
def State.setQueue (s : State) (owner inst : Nat) (q : EQueue) : State :=
  { s with queues := Cells.put qDflt s.queues (256 * owner + inst) q }

/-- The fill of a queue (R250). -/
def EQueue.fillCount (q : EQueue) : Nat := q.drain.length + q.cm

/-- The conditions of R248 on the banks. -/
def EQueue.canSwap (q : EQueue) : Bool := q.drain == [] && (q.fillFull || decide (0 < q.cm))
/-- The banks swap; words of an open item have not begun. -/
def EQueue.swapped (q : EQueue) : EQueue :=
  { q with drain := q.fill.take q.cm, fill := [], cm := 0, fillFull := false }
/-- The swap of R248 with no open item. -/
def EQueue.trySwap (q : EQueue) : EQueue := if !q.opened && q.canSwap then q.swapped else q

/-- What one producer word does beside the queue itself: bad items, oversize items, flushed words, and whether it
committed an item. -/
structure QOut where
  bad : Nat
  ovr : Nat
  flushed : Nat
  commit : Bool
  deriving DecidableEq, Repr

def QOut.none : QOut := { bad := 0, ovr := 0, flushed := 0, commit := false }

/-- A word of an open item, or the first of one, is stored, or finds no room (R247). -/
def EQueue.storeWord (sh : QShape) (q : EQueue) (o : QOut) (x : Nat) (eoi bad : Bool) : EQueue × QOut :=
  if sh.bank ≤ q.fill.length then
    ({ q with fill := q.fill.take q.cm, opened := false, skip := !eoi }, { o with ovr := o.ovr + 1 })
  else
    let q := { q with fill := q.fill ++ [{ x := x, last := eoi }] }
    if eoi then
      if bad then ({ q with fill := q.fill.take q.cm, opened := false }, { o with bad := o.bad + 1 })
      else
        let cm := q.fill.length
        ({ q with cm := cm, opened := false, fillFull := q.fillFull || decide (sh.bank - cm < sh.item) },
          { o with commit := true })
    else (q, o)

/-- One producer word (R247). -/
def EQueue.word (sh : QShape) (q : EQueue) (x : Nat) (soi eoi bad : Bool) : EQueue × QOut :=
  if q.skip ∧ ¬ soi then (q, { QOut.none with flushed := if q.flushTail then 1 else 0 })
  else
    let q := if q.skip then { q with skip := false, flushing := q.flushing && !q.flushTail, flushTail := false } else q
    let cut := soi && q.opened
    let o := if cut then { QOut.none with bad := 1 } else QOut.none
    let q := if cut then { q with fill := q.fill.take q.cm, opened := false } else q
    if ¬ soi ∧ ¬ q.opened then
      ({ q with stray := true }, if q.stray then o else { o with bad := o.bad + 1 })
    else
      let q := if soi then (let q := if q.canSwap then q.swapped else q; { q with opened := true, stray := false }) else q
      q.storeWord sh o x eoi bad

/-- The counters and the level crossing of one word (R250, R254). -/
def State.queueEffects (s : State) (owner inst : Nat) (sh : QShape) (before : Nat) (q : EQueue) (o : QOut) : State :=
  let s := s.setQueue owner inst q
  let s := if o.bad = 0 then s else s.bump (sh.base + 0xC) o.bad
  let s := if o.ovr = 0 then s else s.bump (sh.base + 0x10) o.ovr
  let s := if o.flushed = 0 then s else s.bump (sh.base + 0x14) o.flushed
  let level := s.fld sh.base 23 0
  if o.commit ∧ level ≠ 0 ∧ before < level ∧ level ≤ q.fillCount ∧ level ≤ 2 * sh.bank then
    s.fire 33 (BitVec.ofNat 32 (256 * owner + inst)) (BitVec.ofNat 32 q.fillCount) 0
  else s

/-- A producer word enters the queue. -/
def State.queuePush (s : State) (owner inst : Nat) (sh : QShape) (x : Nat) (soi eoi bad : Bool) : State :=
  let q := s.queue owner inst
  let (q', o) := q.word sh x soi eoi bad
  s.queueEffects owner inst sh q.fillCount q' o

/-- QUEUE_WORD (R247): owner class and number of the queue, the word, and its start, end and bad marks. -/
def execQueueWord (owner inst x : Nat) (soi eoi bad : Bool) (s : State) : Res :=
  match queueShape owner inst with
  | some sh => .next (s.queuePush owner inst sh x soi eoi bad)
  | none => .next s

/-- QUEUE_SWAP (R248). -/
def execQueueSwap (owner inst : Nat) (s : State) : Res :=
  match queueShape owner inst with
  | some _ => .next (s.setQueue owner inst (s.queue owner inst).trySwap)
  | none => .next s

/-- A read finds no unread word: UNDERRUN and source 34 (R249). -/
def State.queueUnderrun (s : State) (owner inst : Nat) (sh : QShape) : State :=
  if s.flag (sh.base + 4) 30 then s
  else (s.setFlag (sh.base + 4) 30 true).fire 34 (BitVec.ofNat 32 (256 * owner + inst)) 0 0

/-- A parity failure of queue storage (R246, R371). -/
def State.queueParity (s : State) (owner inst : Nat) : State :=
  (s.bump 0x110210 1).noteEvent 42 (0x80 + owner) inst 0

/-- QUEUE_READ (R249): the word read stands in the queue's last word. -/
def execQueueRead (owner inst : Nat) (parity : Bool) (s : State) : Res :=
  match queueShape owner inst with
  | none => .next s
  | some sh =>
    let q := s.queue owner inst
    if q.flushing then .next s
    else match q.drain with
      | w :: ws =>
        let s := s.setQueue owner inst { q with drain := ws, lastRead := w.x }
        .next (if parity then s.queueParity owner inst else s)
      | [] => .next (s.queueUnderrun owner inst sh)

/-- A flush of both banks (R251). -/
def State.queueFlush (s : State) (owner inst : Nat) : State :=
  match queueShape owner inst with
  | none => s
  | some sh =>
    let q := s.queue owner inst
    if q.flushing then s
    else
      let s := s.bump (sh.base + 0x14) (q.drain.length + q.fill.length)
      s.setQueue owner inst
        { q with
          fill := [], cm := 0, drain := [], fillFull := false, opened := false
          skip := q.opened || q.skip, flushTail := q.opened, flushing := q.opened }

/-- Q_CTRL is written (R10, R251). -/
def State.flushWrite (s : State) (o : Origin) (owner inst : Nat) (v : Word) : State :=
  match queueShape owner inst with
  | none => s
  | some sh =>
    s.pulseWrite o (sh.base + 8) (if (s.queue owner inst).flushing then 1 else 0) (v &&& 1)
      (fun t => if bitOf v 0 then t.queueFlush owner inst else t)

def execFlush (owner inst : Nat) (v : Word) (s : State) : Res := .next (s.flushWrite .host owner inst v)

/-- The owner stops its producer: a flush in progress completes (R251). -/
def State.queueFlushDone (s : State) (owner inst : Nat) : State :=
  let q := s.queue owner inst
  s.setQueue owner inst { q with flushing := false, flushTail := false }

def execFlushDone (owner inst : Nat) (s : State) : Res :=
  match queueShape owner inst with
  | some _ => .next (s.queueFlushDone owner inst)
  | none => .next s

/-! ### Whole items -/

def State.pushGo (owner inst : Nat) (sh : QShape) (bad : Bool) : Bool → List Nat → State → State
  | _, [], s => s
  | soi, [x], s => s.queuePush owner inst sh x soi true bad
  | soi, x :: y :: xs, s => State.pushGo owner inst sh bad false (y :: xs) (s.queuePush owner inst sh x soi false bad)

/-- A block commits a whole item, or ends it as bad; the banks swap where they may. -/
def State.pushItem (s : State) (owner inst : Nat) (words : List Nat) (bad : Bool) : State :=
  match queueShape owner inst with
  | none => s
  | some sh =>
    let s := State.pushGo owner inst sh bad true words s
    s.setQueue owner inst (s.queue owner inst).trySwap

/-- The words of the first item of a list, and the rest. -/
def takeItem : List QWord → List Nat × List QWord
  | [] => ([], [])
  | w :: ws => if w.last then ([w.x], ws) else (let (a, b) := takeItem ws; (w.x :: a, b))

/-- The head item of the drain bank. -/
def EQueue.head (q : EQueue) : Option (List Nat) := if q.drain = [] then none else some (takeItem q.drain).1

/-- The consumer takes the head item; the banks then swap where they may. -/
def State.popItem (s : State) (owner inst : Nat) : State :=
  let q := s.queue owner inst
  let (a, b) := takeItem q.drain
  s.setQueue owner inst ({ q with drain := b, lastRead := a.getLastD q.lastRead }).trySwap

/-- Free words of the fill bank. -/
def EQueue.room (q : EQueue) (sh : QShape) : Nat := sh.bank - q.fill.length

/-- An item of `n` words would be committed now. -/
def State.itemFits (s : State) (owner inst n : Nat) : Bool :=
  match queueShape owner inst with
  | none => false
  | some sh =>
    let q := s.queue owner inst
    decide (n ≤ q.room sh) || (q.canSwap && decide (n ≤ sh.bank))

/-- Q_STATUS of a queue. -/
def State.queueStatus (s : State) (owner inst base : Nat) : Word :=
  let q := s.queue owner inst
  BitVec.ofNat 32 ((if q.drain = [] then 2 ^ 31 else 0) + (if s.flag (base + 4) 30 then 2 ^ 30 else 0)
    + (if q.flushing then 2 ^ 29 else 0) + (if q.fillFull then 2 ^ 28 else 0) + q.fillCount % 2 ^ 24)

/-- Bytes as 64-bit little-endian words, the last filled with zeros. -/
def toWords64 (fuel : Nat) (bs : List Byte) : List Nat :=
  match fuel with
  | 0 => []
  | f + 1 => if bs = [] then [] else leNat (bs.take 8) :: toWords64 f (bs.drop 8)

end Sys2Proof.Machine
end

