-- ==== Sys2Proof/Machine/Crypto.lean ====
section
/-!
DEFINITION. Machine/Crypto.lean: the cryptography R377 to R380 and R385 name: ECDSA and ECDH on P-384 (FIPS 186), HMAC and HKDF with
SHA-384 (RFC 5869), and AES-256-GCM (FIPS 197, SP 800-38D), after their published definitions.
-/
namespace Sys2Proof.Machine

/-! ### The curve P-384 -/

/-- A number handed on in evaluated form. -/
def evaluated {α : Type} (n : Nat) (k : Nat → α) : α :=
  match n with
  | 0 => k 0
  | m + 1 => k (m + 1)

/-- The field's prime, and the order of the group. -/
def p384 : Nat := 2 ^ 384 - 2 ^ 128 - 2 ^ 96 + 2 ^ 32 - 1
def n384 : Nat :=
  0xFFFFFFFFFFFFFFFFFFFFFFFFFFFFFFFFFFFFFFFFFFFFFFFFC7634D81F4372DDF581A0DB248B0A77AECEC196ACCC52973
/-- The constant of the curve y² = x³ − 3x + b. -/
def b384 : Nat :=
  0xB3312FA7E23EE7E4988E056BE3F82D19181D9C6EFE8141120314088F5013875AC656398D8A2ED19D2A85C8EDD3EC2AEF

/-- A point in Jacobian form: x = X ÷ Z², y = Y ÷ Z³; Z = 0 is the neutral point. -/
structure Point where
  x : Nat
  y : Nat
  z : Nat
  deriving DecidableEq, Repr

def Point.zero : Point := ⟨1, 1, 0⟩
/-- The base point. -/
def Point.base : Point :=
  { x := 0xAA87CA22BE8B05378EB1C71EF320AD746E1D3B628BA79B9859F741E082542A385502F25DBF55296C3A545E3872760AB7
    y := 0x3617DE4A96262C6F5D9E98BF9292DC29F8F41DBD289A147CE9DA3113B5F0B8C00A60B1CE1D7E819D7A431D7C90EA0E5F
    z := 1 }

/-- A difference modulo `m`, of numbers below it. -/
def subMod (m a b : Nat) : Nat := (a + m - b) % m

/-- The bits of a number below 2³⁸⁴, most significant first. -/
def bits384 (k : Nat) : List Bool := (List.range 384).map (fun i => k.testBit (383 - i))

/-- A power modulo `m`. -/
def powMod (m a k : Nat) : Nat :=
  (bits384 k).foldl (fun r b => evaluated (r * r % m) (fun q => if b then q * a % m else q)) 1
/-- The inverse modulo a prime. -/
def invMod (m a : Nat) : Nat := powMod m a (m - 2)

def Point.double (q : Point) : Point :=
  if q.z = 0 then q
  else
    let f := fun (a : Nat) (k : Nat → Point) => evaluated (a % p384) k
    f (q.z * q.z) fun d => f (q.y * q.y) fun g => f (q.x * g) fun b =>
    f (3 * subMod p384 q.x d * (q.x + d)) fun a =>
    f (a * a + 8 * (p384 - b)) fun x =>
    f (a * subMod p384 (4 * b % p384) x + 8 * (p384 - g * g % p384)) fun y =>
    f (2 * q.y * q.z) fun z => ⟨x, y, z⟩

def Point.add (q r : Point) : Point :=
  if q.z = 0 then r
  else if r.z = 0 then q
  else
    let f := fun (a : Nat) (k : Nat → Point) => evaluated (a % p384) k
    f (q.z * q.z) fun qq => f (r.z * r.z) fun rr =>
    f (q.x * rr) fun u => f (q.y * r.z % p384 * rr) fun s =>
    f (r.x * qq + p384 - u) fun h => f (r.y * q.z % p384 * qq + p384 - s) fun t =>
    if h = 0 then (if t = 0 then q.double else Point.zero)
    else
      f (h * h) fun h2 => f (h * h2) fun h3 => f (u * h2) fun v =>
      f (t * t + (p384 - h3) + 2 * (p384 - v)) fun x =>
      f (t * subMod p384 v x + (p384 - s * h3 % p384)) fun y =>
      f (h * q.z % p384 * r.z) fun z => ⟨x, y, z⟩

/-- k times a point. -/
def Point.times (k : Nat) (q : Point) : Point :=
  (bits384 k).foldl (fun r b => let d := r.double; if b then d.add q else d) Point.zero

/-- The affine coordinates; none of the neutral point. -/
def Point.affine (q : Point) : Option (Nat × Nat) :=
  if q.z = 0 then none
  else
    evaluated (invMod p384 q.z) fun i => evaluated (i * i % p384) fun j => some (q.x * j % p384, q.y * (i * j % p384) % p384)

/-- Affine coordinates of a point of the curve. -/
def onCurve (x y : Nat) : Bool :=
  decide (x < p384) && decide (y < p384) && y * y % p384 == (x * x % p384 * x + 3 * (p384 - x) + b384) % p384

/-- An uncompressed public key: 0x04, X, Y. -/
def readKey (b : List Byte) : Option Point :=
  let x := beNat ((b.drop 1).take 48)
  let y := beNat ((b.drop 49).take 48)
  if b.length = 97 ∧ leAt b 0 1 = 4 ∧ onCurve x y = true then some ⟨x, y, 1⟩ else none
/-- X and Y of a point, 48 bytes each. -/
def keyBytes (q : Point) : List Byte :=
  match q.affine with
  | some (x, y) => beBytes 48 x ++ beBytes 48 y
  | none => []

/-! ### ECDSA and ECDH -/

/-- A hash as the number that is signed. -/
def digest (msg : List Byte) : Nat := beNat (sha384 msg)

/-- R and S of a 96-byte signature. -/
def sigR (sig : List Byte) : Nat := beNat (sig.take 48)
def sigS (sig : List Byte) : Nat := beNat ((sig.drop 48).take 48)
def sigRange (sig : List Byte) : Bool :=
  sig.length == 96 && decide (0 < sigR sig) && decide (sigR sig < n384) && decide (0 < sigS sig) && decide (sigS sig < n384)

/-- The signature verifies over SHA-384 of the message under a key. -/
def ecdsaOk (key : Point) (msg sig : List Byte) : Bool :=
  sigRange sig &&
    evaluated (invMod n384 (sigS sig)) (fun w =>
      let q := (Point.base.times (digest msg * w % n384)).add (key.times (sigR sig * w % n384))
      match q.affine with
      | some (x, _) => x % n384 == sigR sig
      | none => false)

/-- The keys under which a signature could verify: those of the points R names by its first coordinate, s R − e G over r. -/
def ecdsaKeys (msg sig : List Byte) : List Point :=
  if ¬ sigRange sig then []
  else
    let w := invMod n384 (sigR sig)
    let e := digest msg % n384
    let base := Point.base.times (subMod n384 0 e * w % n384)
    ([sigR sig, sigR sig + n384].map (fun x =>
      let c := (x * x % p384 * x + 3 * (p384 - x % p384) + b384) % p384
      let y := powMod p384 c ((p384 + 1) / 4)
      if p384 ≤ x ∨ ¬ onCurve x y then []
      else [y, p384 - y].map (fun y => base.add ((⟨x, y, 1⟩ : Point).times (sigS sig * w % n384))))).flatten

/-- The signature verifies under the key whose uncompressed form has the given SHA-384: the module holds no more of the owner's key (R377). -/
def ownerSigned (hash msg sig : List Byte) : Bool :=
  (ecdsaKeys msg sig).any (fun q => sha384 (4 :: keyBytes q) == hash && ecdsaOk q msg sig)

/-- A secret key: a number that the derivation yields (R377), in the range of keys. -/
def secret (n : Nat) : Nat := n % (n384 - 1) + 1

/-- A signature with the nonce `k`. -/
def ecdsaSign (d k : Nat) (msg : List Byte) : List Byte :=
  match (Point.base.times k).affine with
  | some (x, _) => beBytes 48 (x % n384) ++ beBytes 48 (invMod n384 k * (digest msg + x % n384 * d) % n384)
  | none => []

/-- The ECDH secret: the first coordinate. -/
def ecdh (d : Nat) (key : Point) : Option (List Byte) := (key.times d).affine.map (fun q => beBytes 48 q.1)

/-! ### HMAC and HKDF -/

def xorBytes (a b : List Byte) : List Byte := List.zipWith (fun x y => x ^^^ y) a b

/-- HMAC-SHA-384 with a key of at most a block. -/
def hmac384 (key msg : List Byte) : List Byte :=
  let k := (key ++ List.replicate 128 0).take 128
  let pad := fun (x : Byte) => k.map (fun b => b ^^^ x)
  sha384 (pad 0x5C ++ sha384 (pad 0x36 ++ msg))

/-- The first 32 bytes of HKDF-SHA-384 with empty salt. -/
def hkdf384 (ikm info : List Byte) : List Byte := (hmac384 (hmac384 [] ikm) (info ++ [1])).take 32

/-! ### AES-256-GCM -/

/-- Products in the field of AES. -/
def gf8Double (a : Nat) : Nat := if a < 128 then 2 * a else (2 * a) ^^^ 0x11B
def gf8Mul (a b : Nat) : Nat :=
  ((List.range 8).foldl (fun (r : Nat × Nat) i => (if b.testBit i then r.1 ^^^ r.2 else r.1, gf8Double r.2)) (0, a)).1
/-- The inverse, the 254th power; 0 for 0. -/
def gf8Inv (a : Nat) : Nat := iter 6 (fun r => gf8Mul (gf8Mul r r) a) a |> fun r => gf8Mul r r
/-- SubBytes on one byte. -/
def aesSub (a : Nat) : Nat :=
  let i := gf8Inv a
  (List.range 5).foldl (fun r n => r ^^^ ((i * 2 ^ n) % 256 + i / 2 ^ (8 - n))) 0x63

/-- The next four bytes of the key schedule, the words so far newest first. -/
def aesKeyWord (ws : List (List Nat)) : List (List Nat) :=
  let i := ws.length
  let t := ws.getD 0 []
  let t := if i % 8 = 0 then List.zipWith (fun x y => x ^^^ y) ((t.drop 1 ++ t.take 1).map aesSub) [iter (i / 8 - 1) gf8Double 1, 0, 0, 0]
    else if i % 8 = 4 then t.map aesSub else t
  List.zipWith (fun x y => x ^^^ y) (ws.getD 7 []) t :: ws
/-- The fifteen round keys. -/
def aesKeys (key : List Byte) : List (List Nat) :=
  let first := (List.range 8).map (fun i => ((key.drop (4 * i)).take 4).map (fun b => b.toNat))
  let ws := (iter 52 aesKeyWord first.reverse).reverse
  (List.range 15).map (fun i => ((ws.drop (4 * i)).take 4).flatten)

/-- One column mixed. -/
def aesMix (c : List Nat) : List Nat :=
  (List.range 4).map (fun i =>
    let at_ := fun (j : Nat) => c.getD ((i + j) % 4) 0
    gf8Double (at_ 0) ^^^ gf8Double (at_ 1) ^^^ at_ 1 ^^^ at_ 2 ^^^ at_ 3)
/-- A round: bytes replaced, rows shifted, columns mixed but in the last, the key added. -/
def aesRound (last : Bool) (s key : List Nat) : List Nat :=
  let t := (List.range 16).map (fun i => aesSub (s.getD ((i + 4 * (i % 4)) % 16) 0))
  let t := if last then t else ((List.range 4).map (fun c => aesMix ((t.drop (4 * c)).take 4))).flatten
  List.zipWith (fun x y => x ^^^ y) t key
/-- A block of 16 bytes encrypted. -/
def aesBlock (keys : List (List Nat)) (b : List Byte) : List Byte :=
  let s := List.zipWith (fun x y => x ^^^ y) (b.map (fun x => x.toNat)) (keys.getD 0 [])
  let s := ((keys.drop 1).take 13).foldl (aesRound false) s
  (aesRound true s (keys.getD 14 [])).map (fun n => BitVec.ofNat 8 n)

/-- A product in the field of GCM, whose first bit is the most significant. -/
def ghashMul (x h : Nat) : Nat :=
  ((List.range 128).foldl (fun (r : Nat × Nat) i =>
    (if x.testBit (127 - i) then r.1 ^^^ r.2 else r.1, if r.2 % 2 = 1 then r.2 / 2 ^^^ (0xE1 * 2 ^ 120) else r.2 / 2)) (0, h)).1
/-- Zeros up to a multiple of 16 bytes. -/
def padTo16 (b : List Byte) : List Byte := b ++ List.replicate ((16 - b.length % 16) % 16) 0
def ghash (h : Nat) (b : List Byte) : Nat :=
  (List.range (b.length / 16)).foldl (fun y i => ghashMul (y ^^^ beNat ((b.drop (16 * i)).take 16)) h) 0
/-- The key stream added to a text, from counter 2 on. -/
def gcmCrypt (keys : List (List Nat)) (nonce b : List Byte) : List Byte :=
  xorBytes b (((List.range ((b.length + 15) / 16)).map (fun i => aesBlock keys (nonce ++ beBytes 4 ((i + 2) % 2 ^ 32)))).flatten)
/-- The tag of a ciphertext. -/
def gcmTag (keys : List (List Nat)) (nonce aad b : List Byte) : List Byte :=
  let h := beNat (aesBlock keys (List.replicate 16 0))
  let y := ghash h (padTo16 aad ++ padTo16 b ++ beBytes 8 (8 * aad.length) ++ beBytes 8 (8 * b.length))
  xorBytes (beBytes 16 y) (aesBlock keys (nonce ++ beBytes 4 1))
/-- The text in the clear, where the tag verifies. -/
def gcmOpen (key nonce aad b tag : List Byte) : Option (List Byte) :=
  let keys := aesKeys key
  if gcmTag keys nonce aad b = tag then some (gcmCrypt keys nonce b) else none

/-! ### The module's own keys (R377) -/

def attKey : Nat := secret Config.attSeed
def decKey : Nat := secret Config.decSeed
/-- SEC_ATT_PUB and SEC_DEC_PUB: X and Y. -/
def attPub : List Byte := keyBytes (Point.base.times attKey)
def decPub : List Byte := keyBytes (Point.base.times decKey)

end Sys2Proof.Machine
end

