-- ==== Sys2Proof/Machine/Memory.lean ====
section
/-!
DEFINITION. Machine/Memory.lean: the fast matrix's errors (R230, R232), DRAM refresh and power states (R236 to R239), and
the banks of the tile memories and the other SRAMs (R242 to R245).
-/
namespace Sys2Proof.Machine

/-! ### The fast matrix -/

/-- MTX_ERR_INFO records the first error until it is cleared (R230, R232). -/
def State.matrixError (s : State) (kind master target addr : Nat) : State :=
  if s.flag 0x30008 31 then s
  else
    (s.setReg 0x30008 (BitVec.ofNat 32 (2 ^ 31 + kind * 2 ^ 16 + (target % 16) * 2 ^ 8 + master % 16))).setReg64 0x3000C addr

/-- A request outside its target gets a decode error (R232). -/
def State.decodeError (s : State) (master target addr : Nat) : State :=
  (s.bump 0x30100 1).matrixError 1 master target addr

/-- LOCK_BROKEN (R230): the locked sequence of a master at a target is broken. -/
def execLockBroken (dt master target addr : Nat) (s : State) : Res :=
  .next ((((s.elapse dt).bump 0x30104 1)).matrixError 2 master target addr)

/-! ### DRAM -/

/-- One refresh of a channel (R236). -/
def DramChan.refresh (c : DramChan) (k : RefreshKind) : DramChan × Bool :=
  match k with
  | .due burst =>
    if c.selfRefresh then (c, false)
    else if burst then
      if 0 < c.ahead then ({ c with ahead := c.ahead - 1 }, false)
      else if c.owed < 8 then ({ c with owed := c.owed + 1 }, true) else (c, false)
    else ({ c with ahead := c.ahead - 1 }, false)
  | .early => if c.owed = 0 ∧ c.ahead < 8 ∧ ¬ c.selfRefresh then ({ c with ahead := c.ahead + 1 }, false) else (c, false)
  | .insert => ({ c with owed := c.owed - 1 }, false)

/-- REFRESH (R236). -/
def execRefresh (dt ch : Nat) (kind : RefreshKind) (s : State) : Res :=
  let s := s.elapse dt
  if 4 ≤ ch then .next s
  else
    let (c, postponed) := (s.chan ch).refresh kind
    let s := s.onChan ch (fun _ => c)
    .next (if postponed then s.bump 0x40108 1 else s)

/-- FORCED_REFRESH (R236): with 8 refreshes owed they are issued at the next 2 KiB boundary. -/
def execForcedRefresh (dt ch : Nat) (s : State) : Res :=
  let s := s.elapse dt
  if ch < 4 ∧ (s.chan ch).owed = 8 then .next ((s.onChan ch (fun c => { c with owed := 0 })).bump 0x4010C 1)
  else .next s

/-- The case estimate in 0.1 °C (R408). -/
def State.caseTemp (s : State) : Int := signed 16 (s.fld 0x130008 15 0)

/-- REFRESH_RATE_CHECK (R237): `req` is the mask of channels whose memory asks for the quartered interval. -/
def execRefreshRateCheck (dt req : Nat) (s : State) : Res :=
  let s := s.elapse dt
  let mask := if 1050 < s.caseTemp then 15 else req % 16
  let old := s.dram.hot
  let s := { s with dram := { s.dram with hot := mask } }
  let s := if mask ≠ 0 ∧ old = 0 then s.fire 61 (BitVec.ofNat 32 mask) 3 0 else s
  .next (if mask = 0 ∧ old ≠ 0 then s.fire 61 (BitVec.ofNat 32 old) 4 0 else s)

/-- POWER_DOWN_ENTRY (R238): PD_IDLE cycles of 1.875 ns have passed without a request. -/
def execPowerDownEntry (dt ch : Nat) (s : State) : Res :=
  let s := s.elapse dt
  let idle := s.fld 0x40000 15 0
  if ch < 4 ∧ idle ≠ 0 ∧ ¬ (s.chan ch).selfRefresh ∧ 8 * (s.chan ch).lastReq + 15 * idle ≤ 8 * s.now then
    .next (s.onChan ch (fun c => { c with powerDown := true }))
  else .next s

/-- A channel enters self-refresh, with its source 61 entry (R239, R255). -/
def State.enterSelfRefresh (s : State) (ch : Nat) : State :=
  (s.onChan ch (fun c => { c with selfRefresh := true, powerDown := false, owed := 0, ahead := 0 })).fire 61
    (BitVec.ofNat 32 (2 ^ ch)) 1 0

/-- SELF_REFRESH_ENTRY (R239): in standby; `arrives`: a request comes before the entry command is issued. -/
def execSelfRefreshEntry (dt ch : Nat) (arrives : Bool) (s : State) : Res :=
  let s := s.elapse dt
  if s.mgt.modState ≠ 5 ∨ 4 ≤ ch ∨ (s.chan ch).selfRefresh then .next s
  else if arrives then .next (s.bump 0x40110 1)
  else .next (s.enterSelfRefresh ch)

/-- DMC_STATUS as the controller stands. -/
def State.dmcStatus (s : State) : Word :=
  let ks := [0, 1, 2, 3]
  let bits := fun (f : DramChan → Bool) => ks.foldl (fun a k => a + (if f (s.chan k) then 2 ^ k else 0)) 0
  BitVec.ofNat 32 ((if s.dram.hot ≠ 0 then 4096 else 0) + 256 * ks.foldl (fun a k => max a (s.chan k).owed) 0
    + 16 * bits (·.powerDown) + bits (·.selfRefresh))

/-! ### SRAM banks -/

/-- Base of the register block of an SRAM: 0 to 15 tile of cluster c, 0x40 object delay, 0x41 voice (R255). -/
def sramBlock (mem : Nat) : Nat :=
  if mem < 16 then 0x60800 + 0x1000 * mem else if mem = 0x40 then 0x88000 else 0xB8000

/-- The physical bank that serves a logical bank of a tile (R242). -/
def State.tileMap (s : State) (c l : Nat) : Nat :=
  s.fld (0x60810 + 0x1000 * c + 4 * (l / 6)) (5 * (l % 6) + 4) (5 * (l % 6))
def State.setTileMap (s : State) (c l p : Nat) : State :=
  s.setFld (0x60810 + 0x1000 * c + 4 * (l / 6)) (5 * (l % 6) + 4) (5 * (l % 6)) p

/-- The physical bank a byte offset lies in. -/
def State.sramBank (s : State) (mem offset : Nat) : Nat :=
  if mem < 16 then s.tileMap mem (offset / 16 % 16) else offset / 262144

/-- A failing word of an SRAM is found, by access or scrub (R245, R369). -/
def State.sramFail (s : State) (mem offset : Nat) : State :=
  let b := sramBlock mem
  let s := s.bump (b + 0x40) 1
  let s := if s.flag b 31 then s
    else (s.setReg b (BitVec.ofNat 32 (2 ^ 31 + (if s.flag b 30 then 2 ^ 30 else 0) + s.sramBank mem offset % 64 * 2 ^ 24))).setReg
      (b + 4) (BitVec.ofNat 32 (offset % 2 ^ 24))
  let s := (s.bump 0x110208 1).noteEvent 42 mem offset 0
  if mem < 16 ∧ ¬ s.parWords.contains (mem, offset / 16) then { s with parWords := s.parWords ++ [(mem, offset / 16)] } else s

def tileDflt (_ : Nat) : Tile := Tile.idle0
def State.tile (s : State) (c : Nat) : Tile := Cells.get tileDflt s.tiles c
def State.setTile (s : State) (c : Nat) (t : Tile) : State := { s with tiles := Cells.put tileDflt s.tiles c t }

def regBankState (c : Nat) : Nat := 0x6080C + 0x1000 * c
/-- SPARE of a tile; 31 where none is left. -/
def State.spare (s : State) (c : Nat) : Nat := s.fld (regBankState c) 4 0
def State.bankRetired (s : State) (c p : Nat) : Bool := s.flag (regBankState c) (15 + p)
/-- No spare remains (R244). -/
def State.noSpare (s : State) (c : Nat) : State :=
  (s.setFld (regBankState c) 4 0 31).setFlag (sramBlock c) 30 true
/-- A physical bank is retired. -/
def State.retireBank (s : State) (c p : Nat) : State :=
  ((s.setFlag (regBankState c) (15 + p) true).bump (sramBlock c + 0x48) 1)

/-- The serving bank with the next physical index after the spare, cyclically, skipping retired banks (R243). -/
def State.nextBank (s : State) (c : Nat) : Nat :=
  let sp := s.spare c
  match ((List.range 16).map (fun i => (sp + 1 + i) % 17)).find? (fun p => !s.bankRetired c p) with
  | some p => p
  | none => sp

/-- A copy into the spare begins. -/
def State.startCopy (s : State) (c victim : Nat) (retire : Bool) (cmd : Option Nat) (req : Req) : State :=
  let t := s.tile c
  (s.setTile c { t with phase := 2, victim := victim, retire := retire, cmd := cmd, req := req }).setFlag (regBankState c) 8
    true

/-- The interval between rotations in ns (R394). -/
def State.rotateNs (s : State) : Nat := 1000000 * max 10 (s.fld 0x120008 15 0)

/-- The log entry of a CTL_ACTION (R449). -/
def State.ctlLog (s : State) (i act t arg time : Nat) : State :=
  (s.auditRelease 1).chainEntry time (s.cmdOrigin i).1 (s.cmdOrigin i).2 0x03 0 (BitVec.ofNat 32 (t + 256 * act + 0x920000)) 0
    (BitVec.ofNat 32 arg)
/-- The log entry of a control action of firmware or Vigil (R449). -/
def State.ownLog (s : State) (origin act t arg time : Nat) : State :=
  (s.auditRelease 1).chainEntry time origin 0 0x03 0 (BitVec.ofNat 32 (t + 256 * act)) 0 (BitVec.ofNat 32 arg)

/-- A change taken by firmware or Vigil waits for audit space (R19, R387). -/
def State.waitAudit (s : State) (c : Instr) : State :=
  s.onAudit (fun a => { a with waiting := if a.waiting.contains c then a.waiting else a.waiting ++ [c] })

/-- A spare failed its march test: retired, with source 54 (R243, R393); a ROTATE that asked for the test ends with it. -/
def State.spareFails (s : State) (c : Nat) : State :=
  let p := s.spare c
  let t := s.tile c
  let s := ((s.retireBank c p).noSpare c).setTile c { t with phase := 0, cmd := none }
  let s := (s.auditReserve 1).ownLog 4 4 (0xD0 + c) p s.now
  let s := (s.bump 0x12011C 1).fire 54 (BitVec.ofNat 32 (4 + 256 * c + 3 * 65536)) (BitVec.ofNat 32 p) 0
  match t.cmd with
  | some i => (s.ctlLog i 5 (0xD0 + c) 0 s.now).finish 0 i stOk
  | none => s

/-- SPARE_ROTATION (R243, R394): the march test of the spare ends with `pass`; the copy then begins. -/
def execSpareRotation (dt c : Nat) (pass : Bool) (s : State) : Res :=
  let s := s.elapse dt
  let t := s.tile c
  let due := t.phase = 1 ∨ (t.phase = 0 ∧ s.flag 0x120000 1 ∧ t.last + s.rotateNs ≤ s.now)
  if 16 ≤ c ∨ s.spare c = 31 ∨ ¬ due then .next s
  else if pass then
    .next (s.startCopy c (s.nextBank c) false t.cmd (if t.phase = 1 then t.req else s.request 0 0))
  else if ¬ s.auditRoom 1 then .next (s.waitAudit (.spareRotation 0 c false))
  else .next (s.spareFails c)

/-- The plane a cluster belongs to: 1 Render, 2 Voice (R15). -/
def State.clusterPlane (s : State) (c : Nat) : Nat := if c < s.mgt.split then 1 else 2
/-- Live data of a cluster: its plane runs (R20). -/
def State.clusterLive (s : State) (c : Nat) : Bool :=
  if s.clusterPlane c = 1 then s.mgt.render.run else s.mgt.voice.run

/-- RETIRE_BANK of the spare itself: nothing is copied (R244). -/
def State.retireSpare (s : State) (c i : Nat) : State :=
  let p := s.spare c
  let s := (s.retireBank c p).noSpare c
  (s.ctlLog i 4 (0xD0 + c) p s.now).finish 0 i stOk

/-- An accepted RETIRE_BANK begins its copy; a ROTATE whose march test still runs ends with MGT_NO_SPARE (R394). -/
def State.retireStart (s : State) (c bank i : Nat) (q : Req) : State :=
  let asked := (s.tile c).cmd
  let s := s.setTile c { s.tile c with phase := 0, cmd := none, next := none }
  let s := if bank = s.spare c then
      (if s.clusterLive c then s.setTile c { s.tile c with phase := 3, victim := bank, retire := true, cmd := some i, req := q }
      else s.retireSpare c i)
    else s.startCopy c bank true (some i) q
  match asked with
  | some j => (s.auditRelease 1).finish 0 j 0x0E06
  | none => s

/-- The exchange of R243 or R244: the spare takes the place of the copied bank; the audit entry and the completion of the
command that asked for it, stamped with `time`; then a RETIRE_BANK that waited. -/
def State.tileExchange (s : State) (c time : Nat) : State :=
  let t := s.tile c
  let sp := s.spare c
  let s := match (List.range 16).find? (fun l => s.tileMap c l == t.victim) with
    | some l => s.setTileMap c l sp
    | none => s
  let s := if t.retire then (s.retireBank c t.victim).noSpare c else s.setFld (regBankState c) 4 0 t.victim
  let s := (s.setFlag (regBankState c) 8 false).setTile c { Tile.idle0 with last := s.now }
  let act := if t.retire then 4 else 5
  let s := match t.cmd with
    | some i => (s.ctlLog i act (0xD0 + c) (if t.retire then t.victim else 0) time).finishAt 0 i stOk 0 time none
    | none => (s.auditReserve 1).ownLog 4 act (0xD0 + c) t.victim time
  match t.next with
  | some (bank, i, q) => s.retireStart c bank i q
  | none => s

/-- BANK_COPY_DONE (R243): the copy is complete; the exchange is a control action on the tile (R20). -/
def execBankCopyDone (dt c : Nat) (s : State) : Res :=
  let s := s.elapse dt
  let t := s.tile c
  if 16 ≤ c ∨ t.phase ≠ 2 then .next s
  else if s.clusterLive c then
    .next (s.setTile c { t with phase := 3, req := if t.cmd.isSome then t.req else s.request 0 0 })
  else if t.cmd.isNone ∧ ¬ s.auditRoom 1 then .next (s.waitAudit (.bankCopyDone 0 c))
  else .next (s.tileExchange c s.now)

/-- Distinct failing words of a physical bank in this epoch (R244). -/
def State.failingWords (s : State) (c bank : Nat) : Nat :=
  (s.parWords.filter (fun p => p.1 == c && s.tileMap c (p.2 % 16) == bank)).length

/-- BANK_RETIRE (R244): `failed`: a Vigil test of the bank failed. -/
def execBankRetire (dt c bank : Nat) (failed : Bool) (s : State) : Res :=
  let s := s.elapse dt
  let serving := (List.range 16).any (fun l => s.tileMap c l == bank)
  let due := failed || decide (max 1 (s.fld (sramBlock c + 8) 19 16) ≤ s.failingWords c bank)
  if 16 ≤ c ∨ ¬ serving ∨ ¬ due then .next s
  else if s.spare c = 31 then .next (s.setFlag (sramBlock c) 30 true)
  else if 2 ≤ (s.tile c).phase then .next s
  else
    let asked := (s.tile c).cmd
    let s := (s.setTile c { s.tile c with phase := 0, cmd := none }).startCopy c bank true none (s.request 0 0)
    .next (match asked with
      | some i => (s.auditRelease 1).finish 0 i 0x0E06
      | none => s)

/-- SCRUB_PASS (R245): an SRAM is read in full; `fails` are the offsets of its failing words. -/
def execScrubPass (dt mem : Nat) (fails : List Nat) (s : State) : Res :=
  let s := s.elapse dt
  if ¬ (mem < 16 ∨ mem = 0x40 ∨ mem = 0x41) then .next s
  else
    let s := fails.foldl (fun s o => s.sramFail mem o) s
    .next (if s.fld (sramBlock mem + 8) 15 0 = 0 then s else s.bump (sramBlock mem + 0x44) 1)

end Sys2Proof.Machine
end

