-- ==== Sys2Proof/Machine/Pcm.lean ====
section
/-!
DEFINITION. Machine/Pcm.lean: the octets of ITU-T G.711 (R131). The spec names the recommendation; its tables, and that a full-scale code is
a full-scale Q1.31 sample (+3.17 dBm0 of R133), are PRESUMED.
-/
namespace Sys2Proof.Machine

/-- A µ-law octet as a 14-bit sample. -/
def muExpand (b : Nat) : Int :=
  let u := 255 - b % 256
  let m : Int := (((2 * (u % 16) + 33) * 2 ^ (u / 16 % 8) - 33 : Nat) : Int)
  if 128 ≤ u then -m else m

/-- An A-law octet as a 13-bit sample. -/
def aExpand (b : Nat) : Int :=
  let u := (b % 256) ^^^ 0x55
  let e := u / 16 % 8
  let m : Int := ((if e = 0 then 2 * (u % 16) + 1 else (2 * (u % 16) + 33) * 2 ^ (e - 1) : Nat) : Int)
  if 128 ≤ u then m else -m

/-- A Q1.31 sample as a µ-law octet. -/
def muCompress (x : Int) : Nat :=
  let m := min (x.natAbs / 2 ^ 18) 8158 + 33
  let e := Nat.log2 m - 5
  255 - ((if x < 0 then 128 else 0) + 16 * e + m / 2 ^ (e + 1) % 16)

/-- A Q1.31 sample as an A-law octet. -/
def aCompress (x : Int) : Nat :=
  let m := min (x.natAbs / 2 ^ 19) 4095
  let e := if m < 32 then 0 else Nat.log2 m - 4
  ((if x < 0 then 0 else 128) + 16 * e + (if e = 0 then m / 2 else m / 2 ^ e % 16)) ^^^ 0x55

/-- A sample of G.711 in Q1.31. -/
def g711Expand (aLaw : Bool) (b : Nat) : Int := if aLaw then aExpand b * 2 ^ 19 else muExpand b * 2 ^ 18
def g711Compress (aLaw : Bool) (x : Int) : Nat := if aLaw then aCompress x else muCompress x

/-- The first `n` samples of the media of held packets, each by its start. -/
def g711Media (aLaw : Bool) (held : List (Int × List Byte)) (n : Nat) : List Int :=
  (List.range n).map (fun (i : Nat) =>
    match held.find? (fun h => decide (h.1 ≤ (i : Int)) && decide ((i : Int) < h.1 + (h.2.length : Int))) with
    | some h => g711Expand aLaw (h.2.getD ((i : Int) - h.1).toNat 0).toNat
    | none => 0)

end Sys2Proof.Machine
end

