-- ==== Sys2Proof/Machine/Frame.lean ====
section
/-!
DEFINITION. Machine/Frame.lean: Ethernet, IP, UDP and RTP in wire order: reading a received frame and building the headers
of a transmitted one. Frames are held from the destination address to the last byte before the FCS.
-/
namespace Sys2Proof.Machine

/-- The one's complement sum of 16-bit words, folded. -/
def foldSum (v : Nat) : Nat := let a := v % 65536 + v / 65536; let b := a % 65536 + a / 65536; b % 65536 + b / 65536
/-- Sum of the big-endian 16-bit words of a byte sequence; an odd last byte counts as the high byte. -/
def sum16 : List Byte → Nat
  | a :: b :: r => a.toNat * 256 + b.toNat + sum16 r
  | [a] => a.toNat * 256
  | [] => 0
/-- The Internet checksum. -/
def inetSum (bs : List Byte) : Nat := 65535 - foldSum (foldSum (sum16 bs))

/-- IEEE 802.3 CRC-32 of a frame, as its four FCS bytes. -/
def fcs (bs : List Byte) : List Byte := leBytes 4 (crcRunR 0xEDB88320 0xFFFFFFFF bs ^^^ 0xFFFFFFFF)

/-- What a received frame is. -/
structure Parsed where
  dst : Nat
  src : Nat
  /-- TCI of one 802.1Q tag. -/
  tag : Option Nat
  etherType : Nat
  /-- Bytes after the type field. -/
  body : List Byte
  deriving DecidableEq, Repr

def parseEth (f : List Byte) : Parsed :=
  let t := beAt f 12 2
  if t = 0x8100 then
    { dst := beAt f 0 6, src := beAt f 6 6, tag := some (beAt f 14 2), etherType := beAt f 16 2, body := f.drop 18 }
  else { dst := beAt f 0 6, src := beAt f 6 6, tag := none, etherType := t, body := f.drop 14 }

/-- A UDP datagram in IPv4 without options or IPv6 without extension headers, not a fragment. -/
structure Udp where
  ipv6 : Bool
  srcIp : List Byte
  dstIp : List Byte
  srcPort : Nat
  dstPort : Nat
  /-- Both checksums are right; a zero UDP checksum passes for IPv4. -/
  sumOk : Bool
  payload : List Byte
  deriving DecidableEq, Repr

def parseUdp (p : Parsed) : Option Udp :=
  let b := p.body
  if p.etherType = 0x0800 then
    if beAt b 0 1 = 0x45 ∧ beAt b 9 1 = 17 ∧ beAt b 6 2 % 0x4000 = 0 ∧ 28 ≤ beAt b 2 2 then
      let u := (b.drop 20).take (beAt b 2 2 - 20)
      let len := beAt u 4 2
      let pseudo := (b.drop 12).take 8 ++ [0, 17] ++ beBytes 2 len
      let hdrOk := decide (foldSum (foldSum (sum16 (b.take 20))) = 65535)
      let csum := beAt u 6 2
      some { ipv6 := false, srcIp := (b.drop 12).take 4, dstIp := (b.drop 16).take 4, srcPort := beAt u 0 2, dstPort := beAt u 2 2
             sumOk := hdrOk && (csum == 0 || decide (foldSum (foldSum (sum16 (pseudo ++ u.take len))) = 65535))
             payload := (u.take len).drop 8 }
    else none
  else if p.etherType = 0x86DD then
    if beAt b 0 1 / 16 = 6 ∧ beAt b 6 1 = 17 then
      let u := (b.drop 40).take (beAt b 4 2)
      let len := beAt u 4 2
      let pseudo := (b.drop 8).take 32 ++ beBytes 4 len ++ [0, 0, 0, 17]
      some { ipv6 := true, srcIp := (b.drop 8).take 16, dstIp := (b.drop 24).take 16, srcPort := beAt u 0 2, dstPort := beAt u 2 2
             sumOk := beAt u 6 2 != 0 && decide (foldSum (foldSum (sum16 (pseudo ++ u.take len))) = 65535)
             payload := (u.take len).drop 8 }
    else none
  else none

/-- An RTP packet (RFC 3550): header fields and the payload without CSRC list, extension and padding; none where the version
is not 2 or the packet is cut short. -/
structure Rtp where
  marker : Bool
  pt : Nat
  seq : Nat
  ts : Nat
  ssrc : Nat
  payload : List Byte
  deriving DecidableEq, Repr

def parseRtp (b : List Byte) : Option Rtp :=
  let b0 := beAt b 0 1
  let cc := b0 % 16
  let hdr := 12 + 4 * cc
  let ext := if b0.testBit 4 then 4 + 4 * beAt b (hdr + 2) 2 else 0
  let pad := if b0.testBit 5 then (b.getLast?.getD 0).toNat else 0
  if b0 / 64 ≠ 2 ∨ b.length < hdr + ext + pad then none
  else
    some { marker := (beAt b 1 1).testBit 7, pt := beAt b 1 1 % 128, seq := beAt b 2 2, ts := beAt b 4 4, ssrc := beAt b 8 4
           payload := (b.take (b.length - pad)).drop (hdr + ext) }

/-- Ethernet header with an optional tag. -/
def ethHeader (dst src : List Byte) (tag : Option Nat) (etherType : Nat) : List Byte :=
  dst ++ src ++ (match tag with | some t => beBytes 2 0x8100 ++ beBytes 2 t | none => []) ++ beBytes 2 etherType

/-- UDP datagram with its checksum; a computed 0 is sent as 0xFFFF. -/
def udpDatagram (pseudoIps : List Byte) (ipv6 : Bool) (sport dport : Nat) (payload : List Byte) : List Byte :=
  let len := 8 + payload.length
  let h := beBytes 2 sport ++ beBytes 2 dport ++ beBytes 2 len
  let pseudo := pseudoIps ++ (if ipv6 then beBytes 4 len ++ [0, 0, 0, 17] else [0, 17] ++ beBytes 2 len)
  let c := inetSum (pseudo ++ h ++ [0, 0] ++ payload)
  h ++ beBytes 2 (if c = 0 then 0xFFFF else c) ++ payload

/-- IPv4 packet without options, DF set. -/
def ipv4Packet (dscp ttl ident : Nat) (src dst udp : List Byte) : List Byte :=
  let a := [0x45, BitVec.ofNat 8 (dscp * 4)] ++ beBytes 2 (20 + udp.length) ++ beBytes 2 ident ++ [0x40, 0]
    ++ beBytes 1 ttl ++ [17]
  let c := inetSum (a ++ [0, 0] ++ src ++ dst)
  a ++ beBytes 2 c ++ src ++ dst ++ udp

/-- IPv6 packet with flow label 0. -/
def ipv6Packet (dscp hops : Nat) (src dst udp : List Byte) : List Byte :=
  let tc := dscp * 4
  beBytes 4 (6 * 2 ^ 28 + tc * 2 ^ 20) ++ beBytes 2 udp.length ++ [17] ++ beBytes 1 hops ++ src ++ dst ++ udp

/-- RTP packet, version 2 without padding, extension or CSRC. -/
def rtpPacket (marker : Bool) (pt seq ts ssrc : Nat) (payload : List Byte) : List Byte :=
  [0x80, BitVec.ofNat 8 (pt + if marker then 128 else 0)] ++ beBytes 2 seq ++ beBytes 4 ts ++ beBytes 4 ssrc ++ payload

end Sys2Proof.Machine
end

