-- ==== Sys2Proof/Machine/Rings.lean ====
section
/-!
DEFINITION. Machine/Rings.lean: the host interface: polling, ring states, the ring 0 commands of R219, completions that
waited, the status page, interrupt holdoff, and the PCI Express events of R203.
-/
namespace Sys2Proof.Machine

/-! ### Register writes of the host interface -/

/-- A logged register takes a value: discarded and counted while the audit buffer is full (R387). -/
def State.loggedWrite (s : State) (o : Origin) (off : Nat) (v : Word) : State :=
  if s.auditRoom 1 then
    let old := s.reg off
    (s.setReg off v).auditNow (originCode o) (originId o) 0x01 0 (BitVec.ofNat 32 off) old v
  else s.bump 0x300 1

/-- A set-up write that is not accepted (R218, R226). -/
def State.setupDiscard (s : State) : State := (s.bump 0x10120 1).setFlag regHifStatus 4 true

/-- The states in which a ring's registers accept writes (R218). -/
def RingState.idle : RingState → Bool
  | .disabled | .stopped | .error => true
  | _ => false

/-- A ring starts with its index at 0, in a new life (R218). -/
def State.startRing (s : State) (r : Nat) : State :=
  s.onRing r (fun x => { Ring.empty with state := .running, epoch := x.epoch + 1, waiting := x.waiting, lost := x.lost })

/-- The value HIF_RING_CFG takes: CMODE fixed for ring 0 and device-to-host rings, LOG2SIZE kept where out of range. -/
def ringCfgValue (r : Nat) (old v : Word) : Word :=
  let v := v &&& 0x8000FF9F
  let v := setBitOf v 7 (if r = 0 then true else if isD2h r then false else bitOf v 7)
  if 4 ≤ field v 4 0 ∧ field v 4 0 ≤ 16 then v else setField v 4 0 (field old 4 0)

/-- HIF_RING_CFG is written (R218); before READY only rings 0, 1, 2 and 6 may be enabled (R416). -/
def ringCfgWrite (s : State) (o : Origin) (r : Nat) (v : Word) : State :=
  if ¬ (s.ring r).state.idle ∨ (s.mgt.modState < 3 ∧ bitOf v 31 ∧ ¬ (r ≤ 2 ∨ r = 6)) then s.setupDiscard
  else if ¬ s.auditRoom 1 then s.bump 0x300 1
  else
    let off := regRing r + 8
    let bad := ¬ (4 ≤ field v 4 0 ∧ field v 4 0 ≤ 16)
    let s' := s.loggedWrite o off (ringCfgValue r (s.reg off) v)
    let s' := if bad then s'.setupDiscard else s'
    if bitOf v 31 then s'.startRing r
    else if (s.ring r).state = .disabled then s'
    else s'.onRing r (fun x => { x with state := .disabled })

/-- HIF_RING_CFG.ENABLE (R218). -/
def execEnable (ring : Nat) (v : Word) (s : State) : Res :=
  .next (if ring < 64 then ringCfgWrite s .host ring v else s)

/-- Every host-to-device ring has come to rest (R218). -/
def State.h2dIdle (s : State) : Bool :=
  (List.range 64).all (fun r => isD2h r || (s.ring r).state.idle)

/-- With RUN at 0 the device-to-host rings stop once every host-to-device ring is at rest (R218). -/
def State.stopD2h (s : State) : State :=
  if ¬ s.flag regHifCtrl 0 ∧ s.h2dIdle then
    s.eachRing (fun r s => if isD2h r ∧ (s.ring r).state = .running then s.stopRing r 0 else s)
  else s

/-- HIF_CTRL.RUN is written (R218): 1 starts polling, with WRITE_SEQ restarting; 0 stops every host-to-device ring,
and the device-to-host rings after them. -/
def runWrite (s : State) (o : Origin) (v : Word) : State :=
  if ¬ s.auditRoom 1 then s.bump 0x300 1
  else
    let was := s.flag regHifCtrl 0
    let s := s.loggedWrite o regHifCtrl (v &&& 1)
    if bitOf v 0 then (if was then s else s.onHost (fun h => { h with writeSeq := 0 }))
    else if was then
      (s.eachRing (fun r s => if ¬ isD2h r ∧ (s.ring r).state = .running then s.stopRing r 0 else s)).stopD2h
    else s

def execRun (v : Word) (s : State) : Res := .next (runWrite s .host v)

/-! ### Polling (R209, R210) -/

/-- A doorbell entry of one ring is taken (R210 steps 2 to 4). -/
def State.takeDoorbell (s : State) (r : Nat) (e : DWord) : State :=
  let x := s.ring r
  if x.state ≠ .running then s
  else if e.toNat / 2 ^ 50 ≠ 0 ∨ (e.toNat / 2 ^ 32) % 2 ^ 16 ≠ s.ringGen r then s.bump 0x10104 1
  else
    let idx := e.toNat % 2 ^ 32
    let ok :=
      if isD2h r then decide (idxSub idx x.doorIndex ≤ idxSub x.wr x.doorIndex)
      else decide (idxSub x.fetched x.cons ≤ idxSub idx x.cons) && decide (idxSub idx x.cons ≤ s.ringSize r)
    if ok then
      s.setRing r { x with doorIndex := idx, notifyOff := e.getLsbD 48, paused := !isD2h r && e.getLsbD 49 }
    else s.stopRing r 1

/-- The doorbell entries of a page, from ring `r` on. -/
def State.takeDoorbells : Nat → List DWord → State → State
  | _, [], s => s
  | r, e :: es, s => State.takeDoorbells (r + 1) es (s.takeDoorbell r e)

/-- A descriptor as fetched: words 0 to 7. -/
def mkDesc (index : Nat) (ws : List Word) : Desc :=
  { index := index, w0 := ws.getD 0 0, w1 := ws.getD 1 0, w2 := ws.getD 2 0, w3 := ws.getD 3 0, w4 := ws.getD 4 0,
    w5 := ws.getD 5 0, w6 := ws.getD 6 0, peer := none, phase := .fetched }

/-- Bytes 0 to 27 of a descriptor. -/
def Desc.body (d : Desc) : List Byte :=
  ([d.w0, d.w1, d.w2, d.w3, d.w4, d.w5, d.w6].map (fun w => leBytes 4 w.toNat)).flatten

/-- In standby every ring 0 command but NOP and PWR_WAKE ends with PWR_IN_STANDBY (R419, R420). -/
def State.standbyGate (s : State) (d : Desc) : Desc :=
  if (s.mgt.modState = 5 ∨ s.pwr.standby.isSome) ∧ d.phase = .fetched ∧ d.opcode ≠ 0 ∧ d.opcode ≠ 0xE3 then { d with phase := .done 0x0D02 0 s.now none }
  else d

/-- One fetched descriptor joins its ring: a failed seal or an unaccepted opcode ends it at once (R206, R208). -/
def State.takeDesc (s : State) (r : Nat) (ws : List Word) : State :=
  let x := s.ring r
  let d := mkDesc (2 ^ 32 * x.epoch + x.fetched) ws
  let badSeal := entrySeal r x.fetched d.body ≠ (ws.getD 7 0).toNat
  let d := if badSeal then { d with phase := .done stBadSeal 0 s.now none }
    else if ringAccepts r d.opcode then d
    else { d with phase := .done stBadOpcode 0 s.now none }
  let d := if r = 0 then s.standbyGate d else d
  let s := if badSeal then s.bump 0x1010C 1 else s
  let s := s.setRing r
    { x with fetched := idxAdd x.fetched 1, descs := x.descs ++ [d],
             cons := if s.toRing1 r then idxAdd x.cons 1 else x.cons }
  s

/-- Up to `n` of the descriptors host memory answers with join the ring; a PCIe completion error stops it (R210). -/
def State.fetchGo (r : Nat) : Nat → List (Option (List Word)) → State → State
  | 0, _, s => s
  | _, [], s => s
  | _ + 1, none :: _, s => (s.bump 0x10110 1).stopRing r 2
  | n + 1, some ws :: l, s => State.fetchGo r n l (s.takeDesc r ws)

/-- A ring fetches up to `burst` descriptors, fewer where 64 would be outstanding (R210 step 5, R214). -/
def State.fetchRing (s : State) (r burst : Nat) (l : List (Option (List Word))) : State :=
  let x := s.ring r
  if isD2h r ∨ x.state ≠ .running ∨ x.paused ∨ ((s.mgt.modState = 5 ∨ s.pwr.standby.isSome) ∧ r ≠ 0) ∨ (s.toRing1 r ∧ 256 ≤ s.host.wait1.length) then s
  else
    let n := min burst (min (64 - x.descs.length) (idxSub x.doorIndex x.fetched))
    let s' := State.fetchGo r n l s
    let s' := if s'.toRing1 r ∧ (s'.ring r).fetched ≠ x.fetched then s'.consumerWrite r else s'
    s'.retire r

/-- BURST of a ring: 0 means 256. -/
def State.burst (s : State) (r : Nat) : Nat :=
  let b := s.fld (regRing r + 8) 15 8
  if b = 0 then 256 else b

/-- What host memory answers for one ring, in index order. -/
def answersFor (fetch : List (Nat × Option (List Word))) (r : Nat) : List (Option (List Word)) :=
  (fetch.filter (fun p => p.1 == r)).map (·.2)

/-- A poll (R210): `page` is the doorbell page as read, `fetch` what host memory answers to the descriptor reads. -/
def execDoorbellPoll (page : Option (List DWord)) (fetch : List (Nat × Option (List Word))) (s : State) : Res :=
  if ¬ s.flag regHifCtrl 0 ∨ ¬ s.linkOk then .next s
  else
    let s := s.bump 0x10100 1
    match page with
    | none =>
      let s := (s.bump 0x10108 1).onHost (fun h => { h with pageFails := h.pageFails + 1 })
      .next (if 16 ≤ s.host.pageFails then s.setFlag regHifStatus 3 true else s)
    | some es =>
      let s := s.onHost (fun h => { h with pageFails := 0 })
      let s := State.takeDoorbells 0 (es.take 64) s
      let s := match s.host.hostReset with
        | some w => (s.ring2Entry 5 0 (BitVec.ofNat 32 w) 0 s.now).onHost (fun h => { h with hostReset := none })
        | none => s
      .next (s.eachRing (fun r s => s.fetchRing r (s.burst r) (answersFor fetch r)))

/-! ### NOP and the ring 0 commands of R219 -/

/-- Opcode 0x00 (R206). -/
def execNop (ring : Nat) (s : State) : Res :=
  match s.nextDesc ring 0 with
  | none => .next s
  | some d =>
    if d.w0 = 0 ∧ d.w1 = 0 ∧ d.w2 = 0 ∧ d.w3 = 0 ∧ d.w4 = 0 ∧ d.w5 = 0 then
      .next (s.finishAt ring d.index stOk 0 s.now (some 0))
    else .next (s.finish ring d.index stBadDesc)

/-- ABORT's search and outcome (R223): a descriptor that has ended and waits for an earlier one to complete is past its commit point and
has not completed; the ABORT of a withdrawn one that waits so ends after it. -/
def abortTarget (s : State) (d : Desc) (t : Nat) : State :=
  let wait := fun (s : State) (i st : Nat) =>
    (s.setPhase 0 d.index .committed).onHost (fun h => { h with lateAborts := h.lateAborts ++ [(d.index, t, i, st)] })
  match (s.ring t).descs.find? (fun x => x.w6 == d.w1) with
  | none => s.finish 0 d.index stNotFound
  | some x =>
    if x.phase = .committed ∨ x.isDone then wait s x.index stTooLate
    else (wait (s.withdraw t x.index) x.index stOk).retire t

/-- Ring 0 opcode 0xA1; `fetch` is what host memory answers for the target ring's posted descriptors (R223). -/
def execAbort (fetch : List (Option (List Word))) (s : State) : Res :=
  match s.nextDesc 0 0xA1 with
  | none => .next s
  | some d =>
    let t := field d.w0 21 16
    if field d.w0 31 22 ≠ 0 ∨ d.flags ≠ 0 ∨ d.w2 ≠ 0 ∨ d.w3 ≠ 0 ∨ d.w4 ≠ 0 ∨ d.w5 ≠ 0 then
      .next (s.finish 0 d.index stBadDesc)
    else if t ≤ 1 ∨ isD2h t then .next (s.finish 0 d.index stBadRing)
    else .next (abortTarget (s.fetchRing t 65536 fetch) d t)

/-- The four register writes of RING_SETUP, each logged (R219, R383); the base's low bits are ignored (R204). -/
def ringSetupWrites (s : State) (t : Nat) (d : Desc) : State :=
  let b := regRing t
  let cfg : Word := BitVec.ofNat 32 (field d.w1 15 8 * 256 + field d.w1 4 0)
  let cfg := setBitOf cfg 7 (if isD2h t then false else bitOf d.w1 7)
  let cfg := setBitOf cfg 31 (bitOf d.w0 8)
  let s := s.loggedWrite d.origin b (d.w2 &&& 0xFFFFFE00)
  let s := s.loggedWrite d.origin (b + 4) d.w3
  let s := s.loggedWrite d.origin (b + 8) cfg
  s.loggedWrite d.origin (b + 12) (BitVec.ofNat 32 (field d.w1 31 16))

/-- Ring 0 opcode 0xA2 (R219). -/
def execRingSetup (s : State) : Res :=
  match s.nextDesc 0 0xA2 with
  | none => .next s
  | some d =>
    let t := field d.w0 21 16
    if field d.w0 31 22 ≠ 0 ∨ field d.w0 15 9 ≠ 0 ∨ field d.w1 31 16 = s.ringGen t ∨ field d.w1 4 0 < 4
        ∨ 16 < field d.w1 4 0 then .next (s.finish 0 d.index stBadDesc)
    else if t ≤ 1 then .next (s.finish 0 d.index stBadRing)
    else if ¬ (s.ring t).state.idle then .next (s.finish 0 d.index stRingBusy)
    else if ¬ s.auditRoom 4 then .next (s.stall 0 .ringSetup)
    else
      let s := ringSetupWrites s t d
      let s := if bitOf d.w0 8 then s.startRing t
        else s.onRing t (fun x => 
            { Ring.empty with state := x.state, errCause := x.errCause, epoch := x.epoch + 1, waiting := x.waiting, lost := x.lost })
      .next (s.finish 0 d.index stOk)

/-- Ring 0 opcode 0xA3 (R220): it completes when RING_STOPPED brings the ring to rest. -/
def execRingStop (s : State) : Res :=
  match s.nextDesc 0 0xA3 with
  | none => .next s
  | some d =>
    let t := field d.w0 21 16
    if field d.w0 31 22 ≠ 0 ∨ d.flags ≠ 0 ∨ d.w1 ≠ 0 ∨ d.w2 ≠ 0 ∨ d.w3 ≠ 0 ∨ d.w4 ≠ 0 ∨ d.w5 ≠ 0 then
      .next (s.finish 0 d.index stBadDesc)
    else if t ≤ 1 then .next (s.finish 0 d.index stBadRing)
    else if (s.ring t).state ≠ .running then .next (s.finish 0 d.index stRingBusy)
    else
      let s := s.setPhase 0 d.index .committed
      let s := s.onRing t (fun x => { x with stopCmd := some d.index })
      .next (s.stopRing t 0)

/-- The last outstanding completion of the ring has been written: none waits for ring 1 (R218, R220). -/
def State.allWritten (s : State) (ring : Nat) : Bool :=
  (s.ring ring).descs.isEmpty && !s.host.wait1.any (fun e => (e.getD 20 0).toNat == ring)

/-- A STOPPING ring with nothing outstanding enters STOPPED, or ERROR with its RING_ERROR entry, and the RING_STOP that
named it completes. After RUN is written 0 the device-to-host rings stop last (R218). -/
def execRingStopped (ring : Nat) (s : State) : Res :=
  let x := s.ring ring
  if x.state = .stopping ∧ s.allWritten ring then
    if x.errCause ≠ 0 then
      let s := s.setRing ring { x with state := .error, stopCmd := none }
      let s := s.ring2Entry 2 ring (BitVec.ofNat 32 x.errCause) (BitVec.ofNat 32 x.stopIndex) s.now
      .next (match x.stopCmd with | some i => s.finish 0 i stOk | none => s).stopD2h
    else
      let s := s.setRing ring { x with state := .stopped, stopCmd := none }
      .next (match x.stopCmd with | some i => s.finish 0 i stOk | none => s).stopD2h
  else .next s

/-! ### What waited for room -/

/-- Waiting completions go to ring 1 while it has room (R214). -/
def State.drain1Go : List (List Byte) → State → State
  | [], s => s.onHost (fun h => { h with wait1 := [] })
  | e :: es, s =>
    if s.d2hFull 1 then s.onHost (fun h => { h with wait1 := e :: es })
    else State.drain1Go es (s.writeRing1 e (e.getD 20 0).toNat)

/-- Waiting completions and records are written once their ring has room (R205, R214). -/
def execD2hRingDrain (ring : Nat) (s : State) : Res :=
  if ring = 1 then .next (State.drain1Go s.host.wait1 s)
  else if isD2h ring then .next (s.drain ring)
  else .next s

/-- Byte RING_STATE of a ring on the status page (R217). -/
def State.ringStateByte (s : State) (r : Nat) : Byte :=
  let x := s.ring r
  let full := if isD2h r then x.state == .running && decide (s.ringSize r ≤ idxSub x.wr x.doorIndex)
    else s.toRing1 r && decide (256 ≤ s.host.wait1.length)
  BitVec.ofNat 8 (x.state.code + (if x.paused then 8 else 0) + (if x.stalled then 16 else 0) + (if full then 32 else 0))

/-- The 512 bytes of the status page (R217). -/
def State.statusPage (s : State) (seq : Nat) : List Byte :=
  leBytes 8 s.now ++ leBytes 4 seq ++ leBytes 4 s.mgtStatus.toNat ++ leBytes 8 s.host.fired.toNat
    ++ (List.range 64).map s.ringStateByte ++ List.replicate 424 0

/-- The status page is written while RUN is 1 (R217). -/
def execStatusPageWrite (dt : Nat) (s : State) : Res :=
  let s := s.elapse dt
  if s.flag regHifCtrl 0 ∧ s.linkOk then
    let seq := s.host.writeSeq + 1
    let s := s.emit (.mem (s.reg64 0x10020) (s.statusPage seq))
    .next (s.onHost (fun h => { h with writeSeq := seq, lastPage := s.now, fired := 0 }))
  else .next s

/-- The holdoff of a source ends: one message covers the firings it held (R221); dropped where the source is disabled
by then (R441). -/
def execHoldoffEnd (dt src : Nat) (s : State) : Res :=
  let s := s.elapse dt
  let t := Cells.get (fun _ => 0) s.host.holdUntil src
  if t ≠ 0 ∧ t ≤ s.now then
    let held := s.host.held.getLsbD src
    let s := s.onHost (fun h =>
      { h with holdUntil := Cells.put (fun _ => 0) h.holdUntil src 0, held := h.held &&& ~~~(bit64 src) })
    .next (if held then s.message src else s)
  else .next s

/-! ### PCI Express resets and link events (R203) -/

/-- The host interface returns to its reset state; accepted operations are dropped, committed ones run on, and nothing is written back
for them: their rings begin a new life. -/
def State.hostReset (s : State) (kind : Nat) : State :=
  let s := s.eachRing (fun r s => State.withdrawGo r (s.ring r).descs s)
  let s := { s with regs := s.regs.filter (fun p => p.1 < 0x10000 || 0x1FFFF < p.1) }
  let s := s.eachRing (fun r s => s.onRing r (fun x => { Ring.empty with epoch := x.epoch + 1, waiting := x.waiting, lost := x.lost }))
  let s := s.onHost (fun h =>
    { HostIf.empty with
        out := h.out, lastRead := h.lastRead, hostReset := some kind,
        linkWidth := if kind = 0 then h.linkWidth else 0,
        linkSpeed := if kind = 0 then h.linkSpeed else 0 })
  let s := s.setFlag regHifStatus 2 true
  s.auditLate 0 0x0D 0 (BitVec.ofNat 32 kind) 0 0

def execFunctionLevelReset (s : State) : Res := .next (s.hostReset 0)
def execPerstN (s : State) : Res := .next (s.hostReset 1)

/-- Bus Master Enable is cleared, or the link goes down without a reset. -/
def execLinkDown (linkUp bme : Bool) (s : State) : Res :=
  .next (s.onHost (fun h =>
    { h with
        bme := h.bme && bme, linkWidth := if linkUp then h.linkWidth else 0,
        linkSpeed := if linkUp then h.linkSpeed else 0 }))

/-- Bus Master Enable is set again or the link returns: what waited is written. -/
def execPcieLinkRestored (width speed : Nat) (s : State) : Res :=
  let s := s.onHost (fun h => { h with bme := true, linkWidth := width, linkSpeed := speed })
  let due := s.host.dueMsi
  let s := s.onHost (fun h => { h with dueMsi := 0 })
  let s := (List.range 64).foldl (fun (s : State) (v : Nat) => if due.getLsbD v then s.sendMsi v else s) s
  let s := State.drain1Go s.host.wait1 s
  .next (s.eachRing (fun r s => if isD2h r then s.drain r else s.retire r))

/-- The host masks or unmasks a vector; its pending message is sent as it is unmasked (R221). -/
def State.vectorMask (s : State) (vec : Nat) (mask : Bool) : State :=
  if mask then s.onHost (fun h => { h with vecMask := h.vecMask ||| bit64 vec })
  else
    let pend := s.host.vecPend.getLsbD vec
    let s := s.onHost (fun h =>
      { h with msixEnable := true, vecMask := h.vecMask &&& ~~~(bit64 vec), vecPend := h.vecPend &&& ~~~(bit64 vec) })
    if pend then s.sendMsi vec else s

/-- An entry of the MSI-X table with word `k` of its address and data written. -/
def msixEntry (e : DWord × Word) (k : Nat) (v : Word) : DWord × Word :=
  if k = 0 then ((e.1.extractLsb' 32 32 ++ v : BitVec (32 + 32)), e.2)
  else if k = 1 then ((v ++ e.1.extractLsb' 0 32 : BitVec (32 + 32)), e.2)
  else (e.1, v)

/-- A host write of a dword of BAR2: the MSI-X table of 64 entries of 16 bytes (R201). -/
def State.msixWrite (s : State) (off : Nat) (v : Word) : State :=
  let i := off / 16
  if 64 ≤ i then s
  else if off % 16 = 12 then s.vectorMask i (bitOf v 0)
  else
    s.onHost (fun h => { h with
      msixTab := Cells.put (fun _ => ((0, 0) : DWord × Word)) h.msixTab i
        (msixEntry (Cells.get (fun _ => ((0, 0) : DWord × Word)) h.msixTab i) (off % 16 / 4) v) })

/-- MSIX_VECTOR_UNMASK (R221). -/
def execMsixVectorUnmask (vec : Nat) (s : State) : Res := .next (s.vectorMask vec false)

end Sys2Proof.Machine
end

