-- ==== Sys2Proof/Machine/Net.lean ====
section
/-!
DEFINITION. Machine/Net.lean: the network MACs: link state (R258, R259), MDIO (R260), filter writes (R261), transmit
descriptors and segmentation offload (R270 to R278), gates (R272 to R274), launch time (R289, R290), timestamps (R285 to
R288) and low-power idle (R279).
-/
namespace Sys2Proof.Machine

def macDflt (_ : Nat) : Mac := Mac.reset
def State.mac (s : State) (n : Nat) : Mac := Cells.get macDflt s.macs n
def State.onMac (s : State) (n : Nat) (f : Mac → Mac) : State :=
  { s with macs := Cells.put macDflt s.macs n (f (s.mac n)) }
def regNet (n off : Nat) : Nat := 0xC0000 + 0x4000 * n + off

def netBadDesc : Nat := 0x0801
def netBadLength : Nat := 0x0802
def netBadSso : Nat := 0x0803
def netLinkDown : Nat := 0x0804
def netDisabled : Nat := 0x0805
def netLate : Nat := 0x0806
def netGateNever : Nat := 0x0807
def netParity : Nat := 0x0808
def timLaunchFar : Nat := 0x0909

/-- FLAGS of a transmit completion (R277). -/
def txTsLost : Nat := 1
def txLateSent : Nat := 2
def txLateDropped : Nat := 4
def txCsumSkipped : Nat := 8
def txTruncated : Nat := 16
def txCorrupted : Nat := 32

/-- 1 Gb/s. -/
def State.netGig (s : State) (n : Nat) : Bool := s.flag (regNet n 0) 1
/-- NETn_MAXLEN in force: the nearer limit outside 64 to 9,216. -/
def State.netMaxLen (s : State) (n : Nat) : Nat := min 9216 (max 64 (s.fld (regNet n 0xC) 13 0))
def State.lateNs (s : State) (n : Nat) : Nat := min 1000000 (s.reg (regNet n 0x14)).toNat
def State.twNs (s : State) (n : Nat) : Nat := 1000 * max 17 (s.fld (regNet n 0x1C) 15 0)
/-- Wire time of a frame of `len` bytes without FCS, in ns (R272). -/
def wireNs (gig : Bool) (len : Nat) : Nat := if gig then 8 * (len + 24) else (8 * (len + 24) + 9) / 10

/-! ### Ends of frames -/

/-- The descriptor of a job completes once every frame has ended (R277, R278). -/
def State.jobDone (s : State) (n : Nat) (j : TxJob) : State :=
  if j.ended < j.total then s
  else
    let s := s.onMac n (fun m => { m with jobs := m.jobs.filter (fun k => !(k.ring == j.ring && k.index == j.index)) })
    let status := if 0 < j.sent then stOk else j.status
    let time := if 0 < j.sent then j.time else s.now
    s.finishAt j.ring j.index status j.flags time (some (BitVec.ofNat 32 j.sent))

/-- One frame of a job ends: sent at `time`, or not sent with a status. -/
def State.frameEnds (s : State) (n : Nat) (m : TxMeta) (sent : Option Nat) (flags status : Nat) : State :=
  if m.src ≠ 0 then s
  else
    match (s.mac n).jobs.find? (fun j => j.ring == m.ring && j.index == m.index) with
    | none => s
    | some j =>
      let j := { j with
        ended := j.ended + 1, flags := j.flags ||| flags, sent := j.sent + (if sent.isSome then 1 else 0)
        time := sent.getD j.time, status := if sent.isNone ∧ j.status = 0 then status else j.status }
      let s := s.onMac n (fun x => { x with jobs := x.jobs.map (fun k => if k.ring == j.ring && k.index == j.index then j else k) })
      s.jobDone n j

/-- A frame that link state keeps off the wire (R258). -/
def State.frameLinkDown (s : State) (n : Nat) (m : TxMeta) (flags : Nat) : State :=
  (s.bump (regNet n 0x134) 1).frameEnds n m none flags (if (s.mac n).st = 0 then netDisabled else netLinkDown)

/-! ### Segmentation offload (R275, R276) -/

/-- Fields of an SSO record. -/
def ssoPayload (r : List Byte) : Nat := leAt r 0 4
def ssoSeg (r : List Byte) : Nat := leAt r 4 2
def ssoHdr (r : List Byte) : Nat := leAt r 6 1
def ssoOpts (r : List Byte) : Nat := leAt r 7 1
def ssoL3 (r : List Byte) : Nat := leAt r 8 1
def ssoIpv6 (r : List Byte) : Bool := (ssoOpts r).testBit 0
def ssoRtp (r : List Byte) : Bool := (ssoOpts r).testBit 1
def ssoCsum (r : List Byte) : Bool := (ssoOpts r).testBit 2
def ssoEach (r : List Byte) : Bool := (ssoOpts r).testBit 3
def ssoFrames (r : List Byte) : Nat := ceilDiv (ssoPayload r) (ssoSeg r)

/-- The record obeys R275 for a largest payload per frame and a launch time. -/
def ssoOk (r : List Byte) (maxLen time : Nat) : Bool :=
  let t := r.drop 32
  let l3 := ssoL3 r
  let iv := leAt r 24 4
  decide (1 ≤ ssoPayload r) && decide (ssoPayload r ≤ 262144) && decide (1 ≤ ssoSeg r)
    && decide (ssoSeg r + 4 + ssoHdr r ≤ maxLen)
    && (ssoHdr r == l3 + (if ssoIpv6 r then 48 else 28) + (if ssoRtp r then 12 else 0))
    && decide (ssoOpts r < 16) && (l3 == 14 || l3 == 18) && (leAt r 9 3 == 0) && (leAt r 30 2 == 0)
    && (if l3 = 18 then beAt t 12 2 == 0x8100 else true)
    && (beAt t (l3 - 2) 2 == if ssoIpv6 r then 0x86DD else 0x0800)
    && (if ssoIpv6 r then beAt t l3 1 / 16 == 6 && beAt t (l3 + 6) 1 == 17 else beAt t l3 1 == 0x45 && beAt t (l3 + 9) 1 == 17)
    && (if ssoRtp r then beAt t (ssoHdr r - 12) 1 % 16 == 0 else true)
    && (!ssoIpv6 r || ssoCsum r) && decide (ssoFrames r ≤ 4096)
    && (if time = 0 then iv == 0 else decide (1000 ≤ iv) && decide (iv ≤ 1000000000))

/-- Bytes of a list replaced from position `i` on. -/
def putBytes (l : List Byte) (i : Nat) (bs : List Byte) : List Byte := l.take i ++ bs ++ l.drop (i + bs.length)

/-- The UDP checksum of a frame is computed and written (R270); none where the frame is not one it applies to. -/
def udpChecksum (f : List Byte) : Option (List Byte) :=
  let l3 := if beAt f 12 2 = 0x8100 then 18 else 14
  let ty := beAt f (l3 - 2) 2
  let go := fun (l4 : Nat) (pseudo : Nat → List Byte) =>
    let len := beAt f (l4 + 4) 2
    let c := inetSum (pseudo len ++ (putBytes ((f.drop l4).take len) 6 [0, 0]))
    putBytes f (l4 + 6) (beBytes 2 (if c = 0 then 0xFFFF else c))
  if ty = 0x0800 ∧ beAt f l3 1 = 0x45 ∧ beAt f (l3 + 9) 1 = 17 ∧ beAt f (l3 + 6) 2 % 0x4000 = 0 then
    some (go (l3 + 20) (fun len => (f.drop (l3 + 12)).take 8 ++ [0, 17] ++ beBytes 2 len))
  else if ty = 0x86DD ∧ beAt f l3 1 / 16 = 6 ∧ beAt f (l3 + 6) 1 = 17 then
    some (go (l3 + 40) (fun len => (f.drop (l3 + 8)).take 32 ++ beBytes 4 len ++ [0, 0, 0, 17]))
  else none

/-- Frame `i` of an SSO (R276). -/
def ssoFrame (r payload : List Byte) (i : Nat) : List Byte :=
  let l3 := ssoL3 r
  let t := (r.drop 32).take (ssoHdr r)
  let pay := (payload.drop (i * ssoSeg r)).take (min (ssoSeg r) (ssoPayload r - i * ssoSeg r))
  let ipLen := ssoHdr r - l3 + pay.length
  let l4 := l3 + (if ssoIpv6 r then 40 else 20)
  let t :=
    if ssoIpv6 r then putBytes t (l3 + 4) (beBytes 2 (ipLen - 40))
    else
      let t := putBytes t (l3 + 2) (beBytes 2 ipLen)
      let t := putBytes t (l3 + 4) (beBytes 2 (beAt t (l3 + 4) 2 + i))
      let t := putBytes t (l3 + 10) [0, 0]
      putBytes t (l3 + 10) (beBytes 2 (inetSum ((t.drop l3).take 20)))
  let t := putBytes t (l4 + 4) (beBytes 2 (ipLen - (l4 - l3)))
  let t := putBytes t (l4 + 6) [0, 0]
  let t := if ssoRtp r then
      let q := ssoHdr r - 12
      putBytes (putBytes t (q + 2) (beBytes 2 (beAt t (q + 2) 2 + i))) (q + 4) (beBytes 4 (beAt t (q + 4) 4 + i * leAt r 12 4))
    else t
  let f := t ++ pay
  if ssoCsum r then (udpChecksum f).getD f else f

/-- Launch time of frame `i` of a timed SSO (R276). -/
def ssoLaunch (r : List Byte) (time i : Nat) : Nat := time + i * (leAt r 24 4 * 65536 + leAt r 28 2) / 65536

/-! ### From descriptors to queues (R271, R289) -/

/-- A frame padded to 60 bytes (R270). -/
def padFrame (f : List Byte) : List Byte := f ++ List.replicate (60 - f.length) 0

/-- A frame enters its class queue: a header word with its number, then its bytes. -/
def State.intoClass (s : State) (n : Nat) (m : TxMeta) (f : List Byte) : State :=
  let id := (s.mac n).nextId
  let s := s.onMac n (fun x => 
      { x with nextId := id + 1, metas := Cells.put (fun _ => none) x.metas id (some m) })
  s.pushItem 1 (8 * n + m.tc) (id :: toWords64 (f.length + 1) f) false

/-- The next frame of a job and what is known of it. -/
def TxJob.next (j : TxJob) : TxMeta × List Byte :=
  let i := j.built
  let f := if j.record = [] then j.payload else padFrame (ssoFrame j.record j.payload i)
  let l := if j.launch = 0 then 0 else if j.record = [] then j.launch else ssoLaunch j.record j.launch i
  let stamp := if j.record = [] then j.stamp else ssoEach j.record || (j.stamp && i == 0)
  ({ src := 0, ring := j.ring, index := j.index, sso := i, tc := j.tc, len := f.length, launch := l, stamp := stamp,
     lateSend := j.lateSend, skipped := false }, f)

/-- The next frame of one job moves on; false where it has to wait for room. -/
def State.pumpJob (s : State) (n : Nat) (j : TxJob) : State × Bool :=
  let (m, f) := j.next
  let x := s.mac n
  let ok := if x.st = 0 ∨ (x.st ≠ 2 ∧ m.launch = 0) then true
    else if m.launch ≠ 0 then decide (x.launch.length < 64)
    else s.itemFits 1 (8 * n + m.tc) (1 + (f.length + 7) / 8)
  if ¬ ok then (s, false)
  else
    let s := s.onMac n (fun x => 
      { x with jobs := x.jobs.map (fun k => if k.ring == j.ring && k.index == j.index then { k with built := k.built + 1 } else k) })
    let s := if j.record = [] then s else s.bump (regNet n 0x150) 1
    if x.st = 0 ∨ (x.st ≠ 2 ∧ m.launch = 0) then (s.frameLinkDown n m 0, true)
    else if m.launch ≠ 0 then (s.onMac n (fun x => { x with launch := x.launch ++ [(m, f)] }), true)
    else (s.intoClass n m f, true)

/-- The transmit DMA moves frames while there is room: the high ring first (R271). -/
def State.pumpGo (n : Nat) : Nat → State → State
  | 0, s => s
  | k + 1, s =>
    let pick := fun (r : Nat) => (s.mac n).jobs.find? (fun j => j.ring == r && decide (j.built < j.total))
    let try_ := fun (r : Nat) => match pick r with
      | some j => s.pumpJob n j
      | none => (s, false)
    let (a, moved) := try_ (24 + 4 * n)
    if moved then State.pumpGo n k a
    else
      let (b, moved) := try_ (25 + 4 * n)
      if moved then State.pumpGo n k b else s

def State.pump (s : State) (n : Nat) : State :=
  State.pumpGo n ((s.mac n).jobs.foldl (fun a j => a + (j.total - j.built)) 0) s

/-- The descriptor a transmit ring's DMA would serve now (R271). -/
def State.txNext (s : State) (ring op : Nat) : Option Desc :=
  let n := (ring - 24) / 4
  if ring < 24 ∨ 40 ≤ ring ∨ 2 ≤ (ring - 24) % 4 then none
  else if (ring - 24) % 4 = 1 ∧ (s.ring (ring - 1)).descs.any (fun d => d.phase == .fetched) then none
  else if (s.mac n).jobs.any (fun j => j.ring == ring && decide (j.built < j.total)) then none
  else s.nextDesc ring op

/-- Checks of a transmit descriptor before its data (R278, R289). -/
def txCheck (s : State) (n : Nat) (d : Desc) (badDesc badLen : Bool) : Option Nat :=
  if badDesc then some netBadDesc
  else if badLen then some netBadLength
  else if (s.mac n).st = 0 then some netDisabled
  else if s.now + 10000000000 < d.time then some timLaunchFar
  else none

/-- A transmit descriptor is refused; one refused for link state counts its frame. -/
def State.txRefuse (s : State) (n ring index st : Nat) : State :=
  let s := if st = netDisabled then s.bump (regNet n 0x134) 1 else s
  s.finishAt ring index st 0 s.now (some 0)

/-- TX_FRAME (R270): `data` is the frame in host memory. -/
def execTxFrame (ring : Nat) (data : Option (List Byte)) (s : State) : Res :=
  match s.txNext ring 0x40 with
  | none => .next s
  | some d =>
    let n := (ring - 24) / 4
    let len := d.w1.toNat
    match txCheck s n d (field d.w0 31 19 ≠ 0 || field d.w0 15 11 ≠ 0) (len < 14 || s.netMaxLen n < len + 4) with
    | some st => .next (s.txRefuse n ring d.index st)
    | none =>
      match data with
      | none => .next ((s.bump 0x10110 1).txRefuse n ring d.index stDmaError)
      | some bs =>
        let f := bs.take len
        let sum := if bitOf d.w0 10 then udpChecksum f else some f
        let s := s.setPhase ring d.index .accepted
        let j : TxJob :=
          { ring := ring, index := d.index, tc := field d.w0 18 16, launch := d.time, stamp := bitOf d.w0 8
            lateSend := bitOf d.w0 9, record := [], payload := padFrame (sum.getD f), total := 1, built := 0, ended := 0
            sent := 0, flags := if sum.isNone then txCsumSkipped else 0, status := 0, time := 0 }
        .next ((s.onMac n (fun m => { m with jobs := m.jobs ++ [j] })).pump n)

/-- TX_SSO (R275): `record` and `payload` are what host memory answers. -/
def execTxSso (ring : Nat) (record payload : Option (List Byte)) (s : State) : Res :=
  match s.txNext ring 0x41 with
  | none => .next s
  | some d =>
    let n := (ring - 24) / 4
    let rec0 := record.getD []
    let badLen := d.addr % 32 ≠ 0 || (record.isSome && d.w1.toNat ≠ 32 + ssoHdr rec0)
    match txCheck s n d (field d.w0 31 19 ≠ 0 || field d.w0 15 10 ≠ 0) badLen with
    | some st =>
      if st = netBadLength ∨ st = netBadDesc ∨ record = none ∨ ssoOk rec0 (s.netMaxLen n) d.time then
        .next (s.txRefuse n ring d.index st)
      else .next (s.txRefuse n ring d.index netBadSso)
    | none =>
      match record with
      | none => .next ((s.bump 0x10110 1).txRefuse n ring d.index stDmaError)
      | some r =>
        if ¬ ssoOk r (s.netMaxLen n) d.time then .next (s.txRefuse n ring d.index netBadSso)
        else
          match payload with
          | none => .next ((s.bump 0x10110 1).txRefuse n ring d.index stDmaError)
          | some p =>
            let s := s.setPhase ring d.index .accepted
            let j : TxJob :=
              { ring := ring, index := d.index, tc := field d.w0 18 16, launch := d.time, stamp := bitOf d.w0 8
                lateSend := bitOf d.w0 9, record := r, payload := p, total := ssoFrames r, built := 0, ended := 0
                sent := 0, flags := 0, status := 0, time := 0 }
            .next ((s.onMac n (fun m => { m with jobs := m.jobs ++ [j] })).pump n)

/-- A frame of the voice or stream engine enters its class queue; while the MAC is not UP it counts as not sent (R127,
R258). -/
def State.engineFrame (s : State) (n : Nat) (m : TxMeta) (f : List Byte) : State :=
  if (s.mac n).st ≠ 2 then s.bump (regNet n 0x134) 1 else s.intoClass n m f

/-! ### Gates (R272 to R274) -/

/-- Whole cycle of a list as segments: cut at the cycle, the last entry held to its end (R273). -/
def cutCycle : Nat → List (Nat × Nat) → List (Nat × Nat)
  | _, [] => []
  | r, [(g, _)] => if r = 0 then [] else [(g, r)]
  | r, (g, d) :: e :: es => if r ≤ d then (if r = 0 then [] else [(g, r)]) else (g, d) :: cutCycle (r - d) (e :: es)

/-- The admin list as segments. -/
def State.adminSegs (s : State) (n : Nat) : List (Nat × Nat) :=
  let len := min 256 (s.fld (regNet n 0x414) 8 0)
  let cycle := min 1000000000 (max 1000 (s.reg (regNet n 0x410)).toNat)
  let es := (List.range len).map (fun e => (s.fld (regNet n 0x800 + 4 * e) 31 24, s.fld (regNet n 0x800 + 4 * e) 23 0))
  let live := es.filter (fun p => p.2 != 0)
  if live = [] then (match es.getLast? with | some (g, _) => [(g, cycle)] | none => []) else cutCycle cycle live

/-- Gates that control: none do while the list is disabled or empty. -/
def Gates.active (g : Gates) : Bool := g.en && g.segs != []
def segOpen (tc : Nat) (p : Nat × Nat) : Bool := p.1.testBit tc
/-- The gate of a class is open. -/
def Gates.isOpen (g : Gates) (tc : Nat) : Bool := !g.active || segOpen tc (g.segs.getD g.pos (255, 0))
/-- Length of the open run at the head of a list of segments. -/
def openRun (tc : Nat) : List (Nat × Nat) → Nat
  | [] => 0
  | p :: ps => if segOpen tc p then p.2 + openRun tc ps else 0
/-- Time to the gate's next closing; none where it never closes. -/
def Gates.closesIn (g : Gates) (tc now : Nat) : Option Nat :=
  if !g.active || g.segs.all (segOpen tc) then none
  else some ((g.until_ - now) + openRun tc (g.segs.drop (g.pos + 1) ++ g.segs))
/-- The longest continuous open interval of a class; none where there is no limit (R272). -/
def Gates.longest (g : Gates) (tc : Nat) : Option Nat :=
  if !g.active || g.segs.all (segOpen tc) then none
  else some ((List.range g.segs.length).foldl (fun a i => max a (openRun tc (g.segs.drop i ++ g.segs))) 0)

/-- GATE_CHANGE (R274): a write of NETn_GATE_CTRL. -/
def gateCtrlWrite (s : State) (o : Origin) (n : Nat) (v : Word) : State :=
  if (s.mac n).gates.change.isSome then s.setFlag (regNet n 0x404) 17 true
  else if ¬ s.auditRoom 1 then s.bump 0x300 1
  else
    let s := s.loggedWrite o (regNet n 0x400) (v &&& 3)
    if bitOf v 1 then
      let base := s.reg64 (regNet n 0x408)
      let cycle := min 1000000000 (max 1000 (s.reg (regNet n 0x410)).toNat)
      let t := if s.now + 1000 ≤ base then base else base + ceilDiv (s.now + 1000 - base) cycle * cycle
      s.onMac n (fun m => { m with gates := { m.gates with change := some t } })
    else s

def execGateChange (mac : Nat) (v : Word) (origin : Origin) (s : State) : Res :=
  .next (if mac < 4 then gateCtrlWrite s origin mac v else s)

/-- A step of the operational list from segment `pos` on. -/
def Gates.advance (g : Gates) : Gates :=
  let p := if g.pos + 1 < g.segs.length then g.pos + 1 else 0
  { g with pos := p, until_ := g.until_ + (g.segs.getD p (0, 0)).2 }

/-- The admin entries of a list become operational. -/
def State.copyGates (s : State) (n len : Nat) : State :=
  (List.range len).foldl (fun s e => s.setReg (regNet n 0xC00 + 4 * e) (s.reg (regNet n 0x800 + 4 * e))) s

/-- GATE_LIST_SWITCH (R274). -/
def execGateListSwitch (dt mac : Nat) (s : State) : Res :=
  let s := s.elapse dt
  match (s.mac mac).gates.change with
  | none => .next s
  | some t =>
    if s.now < t then .next s
    else
      let len := min 256 (s.fld (regNet mac 0x414) 8 0)
      let en := s.flag (regNet mac 0x400) 0
      let segs := s.adminSegs mac
      let g : Gates := { en := en, segs := segs, pos := 0, until_ := t + (segs.getD 0 (0, 0)).2, change := none }
      let ovr := match (s.mac mac).line with
        | some f => decide (t < f.finish) && !g.isOpen f.meta_.tc
        | none => false
      let s := (s.copyGates mac len).onMac mac (fun m => { m with gates := g })
      let s := (s.setReg64 (regNet mac 0x418) t).setFlag (regNet mac 0x400) 1 false
      let s := (s.setFld (regNet mac 0x404) 8 0 len).setFlag (regNet mac 0x404) 16 en
      .next (if ovr then s.bump (regNet mac 0x13C) 1 else s)

/-- GATE_ENTRY_ADVANCE (R273). -/
def execGateEntryAdvance (dt mac : Nat) (s : State) : Res :=
  let s := s.elapse dt
  let g := (s.mac mac).gates
  .next (if g.active ∧ g.until_ ≤ s.now then s.onMac mac (fun m => { m with gates := g.advance }) else s)

/-! ### Selection (R272, R290, R299) -/

/-- Where a class's head frame stands. -/
inductive HeadAt where
  | stream (i : Nat)
  | launch
  | queue
  deriving DecidableEq, Repr

/-- The bytes and number of a class queue's head item. -/
def State.classHead (s : State) (n tc : Nat) : Option (TxMeta × List Byte) :=
  match (s.queue 1 (8 * n + tc)).head with
  | some (id :: ws) =>
    (match Cells.get (fun _ => none) (s.mac n).metas id with
    | some m => some (m, ((ws.map (leBytes 8)).flatten).take m.len)
    | none => none)
  | _ => none

/-- The head of a class: a launched frame or due stream packet goes ahead of the queue; of two, the earlier launch time,
and the stream packet where they are equal. -/
def State.headOf (s : State) (n tc : Nat) : Option (HeadAt × TxMeta × List Byte) :=
  let x := s.mac n
  let st := (x.streamQ.zipIdx.find? (fun p => p.1.1.tc == tc)).map (fun p => (HeadAt.stream p.2, p.1.1, p.1.2))
  let la := if x.launched then (match x.launch.head? with
    | some (m, f) => if m.tc = tc then some (HeadAt.launch, m, f) else none
    | none => none) else none
  match st, la with
  | some a, some b => if a.2.1.launch ≤ b.2.1.launch then some a else some b
  | some a, none => some a
  | none, some b => some b
  | none, none => (s.classHead n tc).map (fun p => (HeadAt.queue, p.1, p.2))

/-- The head leaves the place it stood in. -/
def State.takeHead (s : State) (n tc : Nat) (h : HeadAt) : State :=
  match h with
  | .stream i => s.onMac n (fun x => { x with streamQ := x.streamQ.eraseIdx i })
  | .launch => s.onMac n (fun x => { x with launch := x.launch.drop 1, launched := false })
  | .queue =>
    let id := (((s.queue 1 (8 * n + tc)).head).getD []).headD 0
    (s.onMac n (fun x => { x with metas := Cells.put (fun _ => none) x.metas id none })).popItem 1 (8 * n + tc)

/-- Withdrawn frames at the head of a class queue are passed over (R223). -/
def State.skipWithdrawn (n tc : Nat) : Nat → State → State
  | 0, s => s
  | k + 1, s =>
    match (s.queue 1 (8 * n + tc)).head with
    | some (id :: _) =>
      if Cells.get (fun _ => none) (s.mac n).metas id = none then State.skipWithdrawn n tc k (s.popItem 1 (8 * n + tc)) else s
    | _ => s

/-- A frame that could never fit its gate is removed (R272). -/
def State.dropNever (s : State) (n tc : Nat) : State :=
  let s := State.skipWithdrawn n tc (s.queue 1 (8 * n + tc)).fillCount s
  match s.headOf n tc with
  | none => s
  | some (h, m, f) =>
    match (s.mac n).gates.longest tc with
    | some l =>
      if l < wireNs (s.netGig n) f.length then
        ((s.takeHead n tc h).bump (regNet n 0x138) 1).frameEnds n m none 0 netGateNever
      else s
    | none => s

/-- A launch time ahead protects itself: the frame must be off the wire by then (R290). -/
def State.protectedOk (s : State) (n : Nat) (h : HeadAt) (m : TxMeta) (finish : Nat) : Bool :=
  let x := s.mac n
  let la := match x.launch.head? with
    | some (k, _) => !x.launched && h != .launch && decide (m.tc ≤ k.tc) && decide (s.now < k.launch)
        && decide (k.launch < finish)
    | none => false
  !la && !(x.upcoming.any (fun p => decide (m.tc ≤ p.2) && decide (s.now < p.1) && decide (p.1 < finish)))

/-- The class's head may start now. -/
def State.eligible (s : State) (n tc : Nat) : Option (HeadAt × TxMeta × List Byte) :=
  match s.headOf n tc with
  | none => none
  | some (h, m, f) =>
    let g := (s.mac n).gates
    let w := wireNs (s.netGig n) f.length
    let fits := match g.closesIn tc s.now with
      | some c => decide (w ≤ c)
      | none => true
    if g.isOpen tc && fits && s.protectedOk n h m (s.now + w) then some (h, m, f) else none

/-- A timed frame goes late: after its limit, or because a step skipped its time (R290, R299). -/
def State.isLate (s : State) (n : Nat) (m : TxMeta) : Bool :=
  m.launch != 0 && (m.skipped || decide (m.launch + s.lateNs n < s.now))

/-- The head starts on the wire: for a host frame, its commit point (R224, R276). -/
def State.startFrame (s : State) (n : Nat) (h : HeadAt) (m : TxMeta) (f : List Byte) : State :=
  let s := s.takeHead n m.tc h
  let s := if m.src = 0 then s.setPhase m.ring m.index .committed else s
  let s := if s.isLate n m then s.bump (regNet n 0x140) 1 else s
  (s.onMac n (fun x => 
    { x with line := some { meta_ := m, bytes := f, start := s.now, finish := s.now + wireNs (s.netGig n) f.length } })).pump n

/-- TRANSMIT_SELECTION (R272): when the line is free the highest eligible class starts its head frame. -/
def execTransmitSelection (dt mac : Nat) (s : State) : Res :=
  let s := s.elapse dt
  let x := s.mac mac
  if x.st ≠ 2 ∨ x.line.isSome ∨ x.lpiTx ∨ s.now < x.wakeAt then .next s
  else
    let s := [7, 6, 5, 4, 3, 2, 1, 0].foldl (fun s tc => s.dropNever mac tc) s
    match [7, 6, 5, 4, 3, 2, 1, 0].findSome? (fun tc => s.eligible mac tc) with
    | some (h, m, f) => .next (s.startFrame mac h m f)
    | none => .next s

/-- A transmit timestamp is queued for ring 40 + n, or lost (R285, R287, R288). -/
def State.txStamp (s : State) (n : Nat) (m : TxMeta) (start : Nat) : State × Bool :=
  if 128 ≤ (s.ring (40 + n)).waiting.length then
    (((s.bump (regNet n 0x148) 1).onMac n (fun x => { x with tsLost := true })).fireRing 19 (40 + n), true)
  else
    let late := s.isLate n m
    let cookie := match s.descAt m.ring m.index with
      | some d => d.w6
      | none => 0
    let corr := signed 16 (s.fld (0xD0040 + 4 * n) 31 16)
    let e : D2h :=
      { code := 1, flags := if (s.mac n).tsLost then 1 else 0, bits := m.sso, w1 := cookie, w2 := BitVec.ofNat 32 m.index
        w3 := BitVec.ofNat 32 (m.ring + (if late then 256 else 0)), time := ((start : Int) + corr).toNat, payload := [] }
    ((s.onMac n (fun x => { x with tsLost := false })).enqueue (40 + n) e, false)

/-- FRAME_TRANSMITTED (R277): the frame on the wire ends; `parity`: one of its queue words failed parity. -/
def execFrameTransmitted (dt mac : Nat) (parity : Bool) (s : State) : Res :=
  let s := s.elapse dt
  match (s.mac mac).line with
  | none => .next s
  | some f =>
    if s.now < f.finish then .next s
    else
      let s := s.onMac mac (fun x => { x with line := none, idleSince := s.now })
      let m := f.meta_
      if parity then
        let s := ((s.bump (regNet mac 0x14C) 1).queueParity 1 (8 * mac + m.tc))
        .next (s.frameEnds mac m none txCorrupted netParity)
      else
        let s := (s.bump (regNet mac 0x128) 1).onMac mac (fun x => 
            { x with txOctets := (x.txOctets + f.bytes.length) % 2 ^ 64 })
        let late := m.launch != 0 && (m.skipped || decide (m.launch + s.lateNs mac < f.start))
        let (s, lost) := if m.stamp then s.txStamp mac m f.start else (s, false)
        .next (s.frameEnds mac m (some f.start) ((if late then txLateSent else 0) + (if lost then txTsLost else 0)) 0)

/-- LAUNCH (R290): the head of the launch queue enters selection. -/
def execLaunch (dt mac : Nat) (s : State) : Res :=
  let s := s.elapse dt
  let x := s.mac mac
  match x.launch.head? with
  | none => .next s
  | some (m, _) =>
    if x.launched ∨ s.now < m.launch then .next s
    else if x.st ≠ 2 then
      .next (((s.onMac mac (fun x => { x with launch := x.launch.drop 1 })).frameLinkDown mac m 0).pump mac)
    else .next (s.onMac mac (fun x => { x with launched := true }))

/-- LATE_DROP (R290): a head not started by L + LATE_NS, LATE_SEND clear. -/
def execLateDrop (dt mac : Nat) (s : State) : Res :=
  let s := s.elapse dt
  match (s.mac mac).launch.head? with
  | none => .next s
  | some (m, _) =>
    if m.lateSend ∨ m.skipped ∨ s.now < m.launch + s.lateNs mac then .next s
    else
      let s := (s.onMac mac (fun x => { x with launch := x.launch.drop 1, launched := false })).bump (regNet mac 0x144) 1
      let single := match (s.mac mac).jobs.find? (fun j => j.ring == m.ring && j.index == m.index) with
        | some j => j.record == []
        | none => true
      .next ((s.frameEnds mac m none (if single then 0 else txLateDropped) netLate).pump mac)

/-! ### Link state (R258, R259) -/

/-- A MAC's STATE changes: source 59 (R259). -/
def State.macState (s : State) (n st : Nat) : State :=
  if (s.mac n).st = st then s
  else
    let s := s.onMac n (fun x => { x with st := st, idleSince := s.now })
    s.fire 59 (BitVec.ofNat 32 (0x10 + n)) (BitVec.ofNat 32 st) 0

/-- A frame being received as the MAC leaves UP ends as a bad item of its queue (R258). -/
def State.macRxCut (s : State) (n : Nat) (rx : Option Nat) : State :=
  match rx with
  | some q => if q < 3 then (s.bump (regNet n 0x114) 1).bump (regNet n 0x1000 + 0x20 * q + 0xC) 1 else s
  | none => s

/-- A transmit queue gives up everything it holds. -/
def State.dropQueue (s : State) (owner inst : Nat) : State :=
  let q := s.queue owner inst
  s.setQueue owner inst { q with fill := q.fill.drop q.cm, cm := 0, drain := [], fillFull := false }

/-- Frames in the class queues, the launch queue (where `all`) and on the wire end without being sent whole. -/
def State.macFail (s : State) (n : Nat) (all : Bool) : State :=
  let x := s.mac n
  let s := match x.line with
    | some f => (s.onMac n (fun x => { x with line := none })).frameLinkDown n f.meta_ txTruncated
    | none => s
  let queued := x.metas.filterMap (·.2)
  let s := s.onMac n (fun x => { x with metas := [], streamQ := [] })
  let s := x.streamQ.foldl (fun s p => s.frameLinkDown n p.1 0) s
  let s := queued.foldl (fun s m => s.frameLinkDown n m 0) s
  let timed := if all then x.launch else if x.launched then x.launch.take 1 else []
  let s := s.onMac n (fun x => { x with launch := x.launch.drop timed.length, launched := false })
  timed.foldl (fun s p => s.frameLinkDown n p.1 0) s

/-- The MAC leaves UP for ACQUIRING or FAULT. -/
def State.macDown (s : State) (n st : Nat) (rx : Option Nat) : State :=
  let up := (s.mac n).st = 2
  let s := if up then (s.bump (regNet n 0x15C) 1).macRxCut n rx else s
  let s := s.macState n st
  if up then
    let s := s.macFail n false
    let s := (List.range 8).foldl (fun s tc => s.dropQueue 1 (8 * n + tc)) s
    (s.onMac n (fun x => { x with lpiTx := false })).pump n
  else s

/-- The MAC is disabled: all of its queues are flushed (R258, R251). -/
def State.macDisable (s : State) (n : Nat) : State :=
  let s := if (s.mac n).st = 2 then s.bump (regNet n 0x15C) 1 else s
  let s := s.macState n 0
  let s := s.macFail n true
  let s := [4 * n, 4 * n + 1, 4 * n + 2].foldl (fun s i => (s.queueFlush 0 i).queueFlushDone 0 i) s
  let s := (List.range 8).foldl (fun s tc => (s.queueFlush 1 (8 * n + tc)).queueFlushDone 1 (8 * n + tc)) s
  (s.onMac n (fun x => 
    { x with
        lock := false, anDone := false, localFault := false, remoteFault := false, lpiRx := false, lpiTx := false
        headAt := [] })).pump n

/-- NETn_CTRL takes a value: a mode change, logged as it takes effect (R19, R259, R449). -/
def State.macCtrlApply (s : State) (n : Nat) (v : Word) (origin oid time : Nat) : State :=
  let old := s.reg (regNet n 0)
  let new := v &&& 7
  let s := (s.setReg (regNet n 0) new).chainEntry time origin oid 0x01 0 (BitVec.ofNat 32 (regNet n 0)) old new
  let standby := s.mgt.modState = 5
  let en0 := bitOf old 0
  let en1 := bitOf new 0
  let s := if en0 ∧ (¬ en1 ∨ bitOf old 1 ≠ bitOf new 1) ∧ ¬ standby then s.macDisable n else s
  if en1 ∧ (¬ en0 ∨ bitOf old 1 ≠ bitOf new 1) ∧ ¬ standby then s.macState n 1 else s

/-- A write of NETn_CTRL: at a render frame boundary while the MAC carries live data and ENABLE or SPEED changes, else at
once (R20, R259). -/
def macCtrlWrite (s : State) (o : Origin) (n : Nat) (v : Word) : State :=
  if ¬ s.auditRoom 1 then s.bump 0x300 1
  else
    let old := s.reg (regNet n 0)
    let s := s.auditReserve 1
    if bitOf old 0 ∧ s.anyRun ∧ (bitOf old 0 ≠ bitOf v 0 ∨ bitOf old 1 ≠ bitOf v 1) then
      s.onMgt (fun m =>
        { m with modeWrites := m.modeWrites ++
            [{ off := regNet n 0, v := v, origin := originCode o, originId := originId o, req := s.request 0 0 }] })
    else (s.auditRelease 1).macCtrlApply n v (originCode o) (originId o) s.now

/-- NET_ENABLE (R259): a write of NETn_CTRL that changes ENABLE. -/
def execNetEnable (mac : Nat) (v : Word) (origin : Origin) (s : State) : Res :=
  .next (if mac < 4 then macCtrlWrite s origin mac v else s)
/-- NET_SPEED (R259): a write of NETn_CTRL that changes SPEED. -/
def execNetSpeed (mac : Nat) (v : Word) (origin : Origin) (s : State) : Res :=
  .next (if mac < 4 then macCtrlWrite s origin mac v else s)

/-- BLOCK_LOCK (R258): lock or synchronisation is reached; `an`: auto-negotiation is complete. -/
def execBlockLock (mac : Nat) (an : Bool) (s : State) : Res :=
  if mac < 4 ∧ (s.mac mac).st = 1 then
    let gig := s.netGig mac
    let s := s.onMac mac (fun x => { x with lock := true, anDone := gig && s.flag (regNet mac 0) 2 && an })
    .next (if gig ∧ s.flag (regNet mac 0) 2 ∧ ¬ an then s else s.macState mac 2)
  else .next s

/-- MAC_LOCK_LOSS (R258). -/
def execMacLockLoss (mac : Nat) (rx : Option Nat) (s : State) : Res :=
  if mac < 4 ∧ (s.mac mac).st ≠ 0 then
    let s := s.onMac mac (fun x => 
      { x with lock := false, anDone := false, localFault := false, remoteFault := false, lpiRx := false })
    .next (s.macDown mac 1 rx)
  else .next s

/-- MAC_FAULT (R258): at 10 Gb/s, from UP. -/
def execMacFault (mac : Nat) (localF remoteF : Bool) (rx : Option Nat) (s : State) : Res :=
  if mac < 4 ∧ (s.mac mac).st = 2 ∧ ¬ s.netGig mac then
    .next ((s.macDown mac 3 rx).onMac mac (fun x => { x with localFault := localF, remoteFault := remoteF }))
  else .next s

/-- MAC_FAULT_CLEAR (R258): the fault has been clear for 1 ms. -/
def execMacFaultClear (dt mac : Nat) (s : State) : Res :=
  let s := s.elapse dt
  if mac < 4 ∧ (s.mac mac).st = 3 then
    .next ((s.onMac mac (fun x => { x with localFault := false, remoteFault := false })).macState mac 2)
  else .next s

/-- NETn_STATUS as the MAC stands. -/
def State.netStatus (s : State) (n : Nat) : Word :=
  let x := s.mac n
  let b := fun (c : Bool) (k : Nat) => if c then 2 ^ k else 0
  BitVec.ofNat 32 (x.st * 2 ^ 28 + b x.lpiRx 5 + b x.lpiTx 4 + b x.anDone 3 + b x.remoteFault 2 + b x.localFault 1 + b x.lock 0)

/-! ### MDIO and filter (R260, R261) -/

def regMdioCmd : Nat := regNet 0 0x44
def regMdioData : Nat := regNet 0 0x48

/-- A write of NET0_MDIO_CMD (R260). -/
def mdioCmdWrite (s : State) (o : Origin) (v : Word) : State :=
  if s.flag regMdioCmd 31 then s.setFlag regMdioCmd 27 true
  else if ¬ s.auditRoom 1 then s.bump 0x300 1
  else
    let err := s.flag regMdioCmd 27 && !bitOf v 27
    let s := s.loggedWrite o regMdioCmd (setBitOf (v &&& 0xF01F1F00) 27 err)
    let div := max 9 (s.fld (regNet 0 0x40) 7 0)
    if bitOf v 31 then { s with mdioEnd := s.now + 64 * 8 * (div + 1) } else s

def execMdioStart (v : Word) (origin : Origin) (s : State) : Res := .next (mdioCmdWrite s origin v)

/-- MDIO_DONE (R260): `data`: what the PHY drove; none where it did not drive the turnaround bit low. -/
def execMdioDone (dt : Nat) (data : Option (BitVec 16)) (s : State) : Res :=
  let s := s.elapse dt
  if ¬ s.flag regMdioCmd 31 ∨ s.now < s.mdioEnd then .next s
  else
    let op := s.fld regMdioCmd 29 28
    let c22 := s.flag regMdioCmd 30
    let bad := c22 && (op == 0 || op == 2)
    let read := op == 3 || (op == 2 && !c22)
    let s := s.setFlag regMdioCmd 31 false
    if bad then
      let s := s.setFlag regMdioCmd 27 true
      .next (if op = 2 then s.setReg regMdioData 0xFFFF else s)
    else if read then
      match data with
      | some d => .next (s.setReg regMdioData (d.setWidth 32))
      | none => .next ((s.setFlag regMdioCmd 27 true).setReg regMdioData 0xFFFF)
    else .next s

/-- DA_LO (R261): held until the entry's DA_HI write. -/
def execDaLo (mac e : Nat) (v : Word) (origin : Origin) (s : State) : Res :=
  .next (if mac < 4 ∧ e < 32 then s.loggedWrite origin (regNet mac 0x200 + 8 * e) v else s)

/-- A write of NETn_DA_HI commits the whole entry. -/
def daHiWrite (s : State) (o : Origin) (n e : Nat) (v : Word) : State :=
  if ¬ s.auditRoom 1 then s.bump 0x300 1
  else
    let s := s.loggedWrite o (regNet n 0x204 + 8 * e) (v &&& 0x8000FFFF)
    let lo := s.reg (regNet n 0x200 + 8 * e)
    let addr := beNat (leBytes 4 lo.toNat ++ leBytes 2 (field v 15 0))
    s.onMac n (fun x => 
      { x with filter := Cells.put (fun _ => 0) x.filter e (addr + (if bitOf v 31 then 2 ^ 48 else 0)) })

def execDaHi (mac e : Nat) (v : Word) (origin : Origin) (s : State) : Res :=
  .next (if mac < 4 ∧ e < 32 then daHiWrite s origin mac e v else s)

/-! ### Low-power idle (R279) and octet counters (R280) -/

/-- Some frame could be selected now. -/
def State.anyEligible (s : State) (n : Nat) : Bool := [7, 6, 5, 4, 3, 2, 1, 0].any (fun tc => (s.eligible n tc).isSome)
/-- A launch-queue frame is due within `ns`. -/
def State.launchWithin (s : State) (n ns : Nat) : Bool := (s.mac n).launch.any (fun p => decide (p.1.launch ≤ s.now + ns))

def execLpiEntry (dt mac : Nat) (s : State) : Res :=
  let s := s.elapse dt
  let x := s.mac mac
  let idle := 1000 * max 1 (s.fld (regNet mac 0x18) 15 0)
  if mac < 4 ∧ s.flag (regNet mac 0x18) 16 ∧ x.st = 2 ∧ s.netGig mac ∧ ¬ x.lpiTx ∧ x.line.isNone ∧ ¬ s.anyEligible mac
      ∧ x.idleSince + idle ≤ s.now ∧ ¬ s.launchWithin mac (2 * s.twNs mac) then
    .next ((s.onMac mac (fun x => { x with lpiTx := true })).bump (regNet mac 0x154) 1)
  else .next s

def execLpiWake (dt mac : Nat) (s : State) : Res :=
  let s := s.elapse dt
  if (s.mac mac).lpiTx ∧ (s.anyEligible mac ∨ s.launchWithin mac (s.twNs mac) ∨ ¬ s.flag (regNet mac 0x18) 16) then
    .next (s.onMac mac (fun x => { x with lpiTx := false, wakeAt := s.now + s.twNs mac }))
  else .next s

def execLpiReceive (mac : Nat) (on : Bool) (s : State) : Res :=
  if mac < 4 ∧ (s.mac mac).st = 2 then
    let rise := on && !(s.mac mac).lpiRx
    let s := s.onMac mac (fun x => { x with lpiRx := on })
    .next (if rise then s.bump (regNet mac 0x158) 1 else s)
  else .next s

/-- A read of an octet counter LO latches its HI word (R280). -/
def execOctetCounterRead (mac : Nat) (tx : Bool) (s : State) : Res :=
  if 4 ≤ mac then .next s
  else
    let off := regNet mac (if tx then 0x12C else 0x104)
    let v := if tx then (s.mac mac).txOctets else (s.mac mac).rxOctets
    let lo : Word := BitVec.ofNat 32 v
    .next ((s.setReg (off + 4) (BitVec.ofNat 32 (v / 2 ^ 32))).onHost (fun h => { h with lastRead := some (off, lo) }))

/-! ### Receive buffers (R265) -/

/-- RX_BUF: a well-formed descriptor becomes an available buffer; a receive ring's accepted descriptors are its buffers. -/
def execRxBuf (ring : Nat) (s : State) : Res :=
  if ring < 26 ∨ 40 ≤ ring ∨ (ring - 24) % 4 < 2 then .next s
  else
    match s.nextDesc ring 0x48 with
    | none => .next s
    | some d =>
      if field d.w0 31 8 ≠ 0 ∨ d.w4 ≠ 0 ∨ d.w5 ≠ 0 then .next (s.finish ring d.index netBadDesc)
      else if d.w1.toNat % 64 ≠ 0 ∨ d.w1.toNat < 256 ∨ 16384 < d.w1.toNat ∨ d.addr % 32 ≠ 0 then
        .next (s.finish ring d.index netBadLength)
      else .next (s.setPhase ring d.index .accepted)

end Sys2Proof.Machine
end

