-- ==== Sys2Proof/Machine/Streams.lean ====
section
/-!
DEFINITION. Machine/Streams.lean: audio streams: their commands (R294 to R296), media numbers (R297), packets sent (R298,
R299, R303) and received (R300, R301), and the ingress blocks built from them (R302).
-/
namespace Sys2Proof.Machine

def timStrBusy : Nat := 0x0901
def timStrIdle : Nat := 0x0902
def timStrRecord : Nat := 0x0903
def timStrSize : Nat := 0x0904
def timStrCapacity : Nat := 0x0905
def timStrBandwidth : Nat := 0x0906
def timStrOverlap : Nat := 0x0907
def timStrMatch : Nat := 0x0908
def timFuture : Nat := 0x090A

def regStr (i : Nat) : Nat := 0xD8000 + 0x20 * i

/-! ### Media numbers (R297) -/

/-- round(t × fs ÷ 10⁹), halves up. -/
def mediaAt (t fs : Nat) : Nat := (2 * t * fs + 1000000000) / 2000000000
/-- The same of an instant that a 32-bit timestamp names, which may lie before the counter's zero. -/
def mediaOf (t : Int) (fs : Nat) : Int := (2 * t * fs + 1000000000) / 2000000000
/-- M_n of the frame now open. -/
def State.mediaNow (s : State) : Nat := s.ing.media.headD 0
/-- The instant of a media number: of the sample of the open frame or, for an earlier number, of the last frame that starts at or
before it. -/
def State.mediaInstant (s : State) (m : Nat) : Nat :=
  if s.mediaNow ≤ m then s.sampleInstant (m - s.mediaNow)
  else
    match s.ing.media.findIdx? (fun p => decide (p ≤ m)) with
    | some k => s.pastSample k (m - s.ing.media.getD k 0)
    | none => s.instantAgo (s.mediaNow - m)

/-! ### Records (R295, R296) -/

/-- Bytes of a sample on the wire. -/
def strBytes (r : List Byte) : Nat := strEnc r + 2
def strPayload (r : List Byte) : Nat := strSpp r * strChannels r * strBytes r
/-- Bytes of a frame of the stream without FCS. -/
def strFrame (r : List Byte) : Nat :=
  14 + (if strVlan r = 0 then 0 else 4) + (if strAaf r then 24 else 20 + (if strIpv6 r then 40 else 20)) + strPayload r
/-- MACs the stream uses. -/
def strMacs (r : List Byte) : List Nat := if strRed r then [0, 1] else [strMac r]
/-- MACs it sends on, each with its path. -/
def strSends (r : List Byte) : List (Nat × Nat) :=
  if strRed r then ([(0, 0), (1, 1)] : List (Nat × Nat)).filter (fun p => (leAt r 13 1).testBit p.1) else [(0, strMac r)]

/-- The fields and reserved bits of a record. -/
def strOk (r : List Byte) : Bool :=
  decide (leAt r 0 1 < 128) && decide (strEnc r ≤ 2) && (strEnc r != 2 || strAaf r) && decide (1 ≤ strChannels r)
    && decide (strChannels r ≤ 64)
    && (if strTx r then decide (strPlaneTc r < 8) else decide (1 ≤ strPlaneTc r) && decide (strPlaneTc r ≤ 3))
    && decide (1 ≤ strSpp r) && decide (strSpp r ≤ 192) && decide (strFirst r < 4096) && decide (strPt r < 128)
    && decide (leAt r 11 1 < 64) && decide (1 ≤ leAt r 12 1) && decide (leAt r 13 1 < 4)
    && (!(strTx r && strRed r) || leAt r 13 1 != 0)
    && decide (strDelay r ≤ if strTx r then 1000000 else 8000) && decide (leAt r 28 4 ≤ 100000000)

/-- Streams of one direction that are not IDLE. -/
def State.openStreams (s : State) (tx : Bool) : List (Nat × Stream) := s.streams.filter (fun p => p.2.st != 0 && strTx p.2.record == tx)

/-- Line time in a second that a stream takes on a MAC, in bits × SPP. -/
def strBits (r : List Byte) (fs : Nat) : Nat := (strFrame r + 24) * 8 * fs / strSpp r
/-- The traffic of a MAC in one direction with a further record stays within 80 % of its rate (R296). -/
def State.strFits (s : State) (r : List Byte) (n : Nat) : Bool :=
  let uses := fun (q : List Byte) => if strTx q then (strSends q).any (fun p => p.2 == n) else (strMacs q).contains n
  let rs := ((s.openStreams (strTx r)).map (fun p => p.2.record)).filter uses
  decide (10 * ((r :: rs).foldl (fun a q => a + strBits q s.renderRate) 0) ≤ 8 * (if s.netGig n then 1000000000 else 10000000000))

/-- What a receive stream matches on (R300). -/
def strKey (r : List Byte) : List Nat × List Byte :=
  ([if strRed r then 4 else strMac r, strVlan r % 4096, if strAaf r then 1 else 0, if strIpv6 r then 1 else 0],
    if strAaf r then (r.drop 32).take 8
    else (r.drop 40).take 64 ++ (r.drop 14).take 2)

/-- The checks of STR_START in the order of R296. -/
def strStartCheck (s : State) (i : Nat) (d : Desc) (data : Option (List Byte)) : Option Nat :=
  let r := data.getD []
  let have_ := data.isSome
  let others := fun (tx : Bool) => (s.openStreams tx).map (fun p => p.2.record)
  let lim := if s.rateClass = 2 then 1024 else 2048
  let chans := (others (strTx r)).foldl (fun a q => a + strChannels q) (strChannels r)
  if (s.stream i).st ≠ 0 then some timStrBusy
  else if d.w1 ≠ 128 ∨ d.addr % 32 ≠ 0 ∨ (have_ ∧ ¬ strOk r) then some timStrRecord
  else if have_ ∧ (1440 < strPayload r ∨ (strMacs r).any (fun n => decide (s.netMaxLen n < strFrame r + 4))) then some timStrSize
  else if have_ ∧ (128 ≤ (others (strTx r)).length ∨ lim < chans) then some timStrCapacity
  else if have_ ∧ ¬ (strMacs r).all (s.strFits r) then some timStrBandwidth
  else if have_ ∧ (4096 < strFirst r + strChannels r ∨ (¬ strTx r ∧ s.feederClash
      { kind := 1, num := i, first := strFirst r, count := strChannels r, plane := 3 })) then some timStrOverlap
  else if have_ ∧ ¬ strTx r ∧ (s.openStreams false).any (fun q => 2 ≤ q.2.st && strKey q.2.record == strKey r) then
    some timStrMatch
  else if s.now + 3600000000000 < d.time then some timFuture
  else if ¬ have_ then some stDmaError
  else none

/-- STR_START (R294): accepted, the stream is ARMED until its boundary. -/
def execStrStart (data : Option (List Byte)) (s : State) : Res :=
  match s.nextDesc 0 0xB1 with
  | none => .next s
  | some d =>
    let i := field d.w0 23 16
    if field d.w0 31 24 ≠ 0 ∨ d.flags ≠ 0 then .next (s.finish 0 d.index stBadDesc)
    else
      match strStartCheck s i d (data.map (·.take 128)) with
      | some st => .next ((if st = stDmaError then s.bump 0x10110 1 else s).finish 0 d.index st)
      | none =>
        if ¬ s.auditRoom 1 then .next (s.stall 0 (.strStart data))
        else
          let s := (s.setPhase 0 d.index .accepted).auditReserve 1
          .next (s.setStream i
            { Stream.idle0 with
              st := 1, record := (data.getD []).take 128, ops := (s.stream i).ops ++ [(true, s.request d.index d.time)] })

/-- STR_STOP (R294). -/
def execStrStop (s : State) : Res :=
  match s.nextDesc 0 0xB2 with
  | none => .next s
  | some d =>
    let i := field d.w0 23 16
    let x := s.stream i
    if field d.w0 31 24 ≠ 0 ∨ d.flags ≠ 0 then .next (s.finish 0 d.index stBadDesc)
    else if x.st = 0 then .next (s.finish 0 d.index timStrIdle)
    else if d.w1 ≠ 0 ∨ d.w2 ≠ 0 ∨ d.w3 ≠ 0 then .next (s.finish 0 d.index timStrRecord)
    else if s.now + 3600000000000 < d.time then .next (s.finish 0 d.index timFuture)
    else if ¬ s.auditRoom 1 then .next (s.stall 0 .strStop)
    else
      let s := (s.setPhase 0 d.index .accepted).auditReserve 1
      .next (s.setStream i
        { x with st := if x.st = 2 then 3 else x.st, ops := x.ops ++ [(false, s.request d.index d.time)] })

/-- STREAM_STATE_CHANGE (R304): the oldest command of the stream whose boundary F has come takes effect. -/
def execStreamStateChange (stream : Nat) (s : State) : Res :=
  let x := s.stream stream
  match x.ops with
  | [] => .next s
  | (start, q) :: rest =>
    if ¬ s.reqDue q then .next s
    else
      let t := s.mgt.tick.last
      let crc : Word := BitVec.ofNat 32 (crc32c x.record)
      let s := (s.auditRelease 1).chainEntry t (s.cmdOrigin q.index).1 (s.cmdOrigin q.index).2 0x05 0 (BitVec.ofNat 32 (stream + 256 * (if start then 0xB1 else 0xB2)))
        (if start then 0 else crc) (if start then crc else 0)
      let s := s.setStream stream
        (if start then
          { x with
            st := if rest = [] then 2 else 3, ops := rest, got := [], started := false, conceal := []
            nextP := ceilDiv s.mediaNow (strSpp x.record) * strSpp x.record }
        else { Stream.idle0 with ops := rest })
      .next (s.finishAt 0 q.index stOk 0 t none)

/-! ### Transmit (R298, R299, R303) -/

/-- The egress sample with a media number, and whether its block is bad: frames newest first; a number no frame holds
repeats the sample before it. -/
def egressAt : List (Nat × Block) → Nat → Int × Bool
  | [], _ => (0, false)
  | (m0, b) :: r, m => if m0 ≤ m then (b.samples.getD (min 31 (m - m0)) 0, b.isBad) else egressAt r m

/-- Samples of one packet: SPP times the channels, interleaved. -/
def State.packetSamples (s : State) (r : List Byte) (p : Nat) : List (Int × Bool) :=
  let hist := (List.range (strChannels r)).map (fun c => 
      s.ing.media.zip (Cells.get (fun _ => []) s.mix.egress (strFirst r + c)))
  ((List.range (strSpp r)).map (fun i => hist.map (fun h => egressAt h (p + i)))).flatten

/-- A Q1.31 value on the wire (R298). -/
def wireSample (enc : Nat) (v : Int) : List Byte :=
  if enc = 0 then beBytes 2 (pattern 16 (satS 16 (roundShift v 16)))
  else if enc = 1 then beBytes 3 (pattern 24 (satS 24 (roundShift v 8)))
  else beBytes 4 (pattern 32 (satS 32 v))

/-- nsr of IEEE 1722 for a render rate. -/
def aafNsr (fs : Nat) : Nat :=
  if fs = 44100 then 4 else if fs = 48000 then 5 else if fs = 88200 then 6 else if fs = 96000 then 7
  else if fs = 176400 then 8 else 9
/-- AAF format of an encoding, and its bit depth. -/
def aafFormat (enc : Nat) : Nat := if enc = 0 then 4 else if enc = 1 then 3 else 2

/-- The AVTPDU of an AAF packet (IEEE 1722). -/
def aafPacket (r payload : List Byte) (p pres fs : Nat) : List Byte :=
  [2, 0x81] ++ beBytes 1 (p / strSpp r % 256) ++ [0] ++ (r.drop 32).take 8 ++ beBytes 4 pres
    ++ beBytes 1 (aafFormat (strEnc r)) ++ beBytes 2 (aafNsr fs * 4096 + strChannels r) ++ beBytes 1 (8 * strBytes r)
    ++ beBytes 2 payload.length ++ [0, 0] ++ payload

/-- The frame of a packet on one path (0 A, 1 B). -/
def streamFrame (r payload : List Byte) (path p pres fs : Nat) : List Byte :=
  let dst := (r.drop (104 + 6 * path)).take 6
  let src := (r.drop (116 + 6 * path)).take 6
  let tag := if strVlan r = 0 then none else some (strVlan r)
  if strAaf r then ethHeader dst src tag 0x22F0 ++ aafPacket r payload p pres fs
  else
    let n := p / strSpp r
    let rtp := rtpPacket false (strPt r) (n % 65536) ((p + strOffset r) % 2 ^ 32) (leAt r 16 4) payload
    let sip := (r.drop (72 + 16 * path)).take (if strIpv6 r then 16 else 4)
    let dip := (r.drop (40 + 16 * path)).take (if strIpv6 r then 16 else 4)
    let udp := udpDatagram (sip ++ dip) (strIpv6 r) (strPort r) (strPort r) rtp
    let ip := if strIpv6 r then ipv6Packet (leAt r 11 1) (leAt r 12 1) sip dip udp
      else ipv4Packet (leAt r 11 1) (leAt r 12 1) (n % 65536) sip dip udp
    ethHeader dst src tag (if strIpv6 r then 0x86DD else 0x0800) ++ ip

/-- Snuffer has brought the egresses to zero: stream packets are withheld (R411). -/
def State.snuffDone (s : State) : Bool :=
  s.mix.snuffed && [1, 2, 3].all (fun p => decide ((s.mix.ramp p).total ≤ (s.mix.ramp p).done + 32))

/-- The packet is handed to the launch scheduler of each MAC it goes out on. -/
def State.launchPacket (s : State) (i : Nat) (r payload : List Byte) (p at_ : Nat) : State :=
  let pres := (s.mediaInstant p + leAt r 28 4) % 2 ^ 32
  let s := if (strSends r).any (fun q => (s.mac q.2).st == 2) then s.bump (regStr i + 4) 1 else s
  (strSends r).foldl (fun s q =>
    if (s.mac q.2).st ≠ 2 then s.bump (regNet q.2 0x134) 1
    else
      let f := padFrame (streamFrame r payload q.1 p pres s.renderRate)
      let m : TxMeta :=
        { src := 2, ring := i, index := 0, sso := 0, tc := strPlaneTc r % 8, len := f.length, launch := at_, stamp := false
          lateSend := true, skipped := false }
      s.onMac q.2 (fun x => { x with streamQ := x.streamQ ++ [(m, f)] })) s

/-- STREAM_PACKET_LAUNCH (R299): the next packet of a transmit stream, at the egress instant of P + SPP plus LAUNCH_NS. -/
def execStreamPacketLaunch (dt stream : Nat) (s : State) : Res :=
  let s := s.elapse dt
  let x := s.stream stream
  let r := x.record
  let p := x.nextP
  let at_ := s.mediaInstant (p + strSpp r) + strDelay r
  if ¬ (2 ≤ x.st ∧ strTx r) ∨ s.mediaNow + 32 < p + strSpp r ∨ s.now < at_ then .next s
  else
    let vs := s.packetSamples r p
    let bad := vs.any (·.2)
    let s := s.setStream stream { x with nextP := p + strSpp r }
    let s := if bad then s.bump (regStr stream + 0x1C) 1 else s
    if (bad ∧ ¬ strConceal r) ∨ s.snuffDone then .next s
    else .next (s.launchPacket stream r ((vs.map (fun v => wireSample (strEnc r) v.1)).flatten) p at_)

/-- The launch instants the streams will need next, per MAC, for the protection of R290. -/
def State.upcomingFor (s : State) (n : Nat) : List (Nat × Nat) :=
  ((s.openStreams true).filter (fun p => decide (2 ≤ p.2.st) && (strSends p.2.record).any (fun q => q.2 == n))).map (fun p =>
    (s.mediaInstant (p.2.nextP + strSpp p.2.record) + strDelay p.2.record, strPlaneTc p.2.record % 8))

def State.noteUpcoming (s : State) : State :=
  s.macs.foldl (fun t q => t.onMac q.1 (fun x => { x with upcoming := s.upcomingFor q.1 })) s

/-! ### Receive (R300, R301) -/

/-- Path of a stream on a MAC; none where it does not use it. -/
def strPath (r : List Byte) (n : Nat) : Option Nat :=
  if strRed r then (if n = 0 then some 0 else if n = 1 then some 1 else none) else if strMac r = n then some 0 else none

/-- The VLAN of a frame agrees with a record's (R300, R125). -/
def vlanOk (tag : Option Nat) (vlan : Nat) : Bool :=
  match tag with
  | none => vlan == 0
  | some t => vlan != 0 && t % 4096 == vlan % 4096

/-- A frame belongs to a receive stream (R300). -/
def strMatches (r : List Byte) (n : Nat) (p : Parsed) (u : Option Udp) : Bool :=
  match strPath r n with
  | none => false
  | some path =>
    vlanOk p.tag (strVlan r) &&
      (if strAaf r then p.etherType == 0x22F0 && beAt p.body 0 1 == 2 && (p.body.drop 4).take 8 == (r.drop 32).take 8
       else
        match u with
        | none => false
        | some u =>
          let w := if strIpv6 r then 16 else 4
          let src := (r.drop (72 + 16 * path)).take 16
          u.ipv6 == strIpv6 r && u.dstIp == (r.drop (40 + 16 * path)).take w && u.dstPort == strPort r
            && (allZero src || u.srcIp == src.take w))

/-- The running receive stream a frame belongs to. -/
def State.streamFor (s : State) (n : Nat) (p : Parsed) (u : Option Udp) : Option Nat :=
  (s.streams.find? (fun q => decide (2 ≤ q.2.st) && !strTx q.2.record && strMatches q.2.record n p u)).map (·.1)

/-- The number with low `bits` bits `v` nearest to `near`. -/
def extendNear (bits v near : Nat) : Int :=
  let m : Int := 2 ^ bits
  let base := (near : Int) / m * m + v % m
  if near + m / 2 < base then base - m else if base + m / 2 < near then base + m else base

/-- Values of a packet's payload, one list per sample. -/
def unpack (r payload : List Byte) : List (List Int) :=
  let b := strBytes r
  let ch := strChannels r
  (List.range (strSpp r)).map (fun i => (List.range ch).map (fun c => 
      signed 32 (beAt payload ((i * ch + c) * b) b * 2 ^ (8 * (4 - b)))))

/-- First media number and payload of a packet, where it agrees with the record. -/
def State.packetOf (s : State) (r : List Byte) (p : Parsed) (u : Option Udp) : Option (Int × List Byte) :=
  let fs := s.renderRate
  if strAaf r then
    let b := p.body
    let pay := (b.drop 24).take (beAt b 20 2)
    if (beAt b 1 1).testBit 0 ∧ beAt b 16 1 = aafFormat (strEnc r) ∧ beAt b 17 1 / 16 = aafNsr fs
        ∧ beAt b 17 2 % 1024 = strChannels r ∧ beAt b 19 1 = 8 * strBytes r ∧ beAt b 20 2 = strPayload r
        ∧ pay.length = strPayload r ∧ ¬ (beAt b 22 1).testBit 4 then
      some (mediaOf (extendNear 32 (beAt b 12 4) s.now) fs, pay)
    else none
  else
    match u.bind (fun u => parseRtp u.payload) with
    | none => none
    | some q =>
      if q.pt = strPt r ∧ q.payload.length = strPayload r then
        some (extendNear 32 (q.ts + 2 ^ 32 - strOffset r % 2 ^ 32) (mediaAt s.now fs), q.payload)
      else none

/-- The samples of a packet find their places (R301): what is held, and whether some were late or early. -/
def placeSamples (path low high : Nat) (p : Int) : List (List Int) → List RxSample → List RxSample × Bool × Bool
  | [], got => (got, false, false)
  | v :: vs, got =>
    let late := decide (p < (low : Int))
    let early := decide ((high : Int) < p)
    let dup := got.any (fun g => g.path == path && (g.media : Int) == p)
    let got := if late || early || dup then got else got ++ [{ path := path, media := p.toNat, values := v }]
    let (got, l, e) := placeSamples path low high (p + 1) vs got
    (got, late || l, early || e)

/-- STREAM_PACKET_RECEIVE (R300, R301): a frame matched to stream `i`; `parity`: a queue word of it failed parity. -/
def State.streamRx (s : State) (i n : Nat) (p : Parsed) (u : Option Udp) (parity : Bool) : State :=
  let x := s.stream i
  let r := x.record
  match (if parity then none else s.packetOf r p u), strPath r n with
  | some (m, pay), some path =>
    let (got, late, early) := placeSamples path s.mediaNow (mediaAt s.now s.renderRate + 8160) (m + strDelay r) (unpack r pay) x.got
    let s := s.setStream i
      { x with
        got := got, started := true, seenA := if path = 0 then some s.now else x.seenA
        seenB := if path = 1 then some s.now else x.seenB }
    let s := s.bump (regStr i + 4) 1
    let s := if late then s.bump (regStr i + 8) 1 else s
    if early then s.bump (regStr i + 0xC) 1 else s
  | _, _ => s.bump (regStr i + 0x10) 1

/-! ### Ingress blocks (R302) -/

/-- The sample with a media number on a path. -/
def gotAt (got : List RxSample) (path m c : Nat) : Option Int :=
  (got.find? (fun g => g.path == path && g.media == m)).map (fun g => g.values.getD c 0)

/-- One channel's block: samples, 0 whole or 1 merged or 2 missing. -/
def buildBlock (got : List RxSample) (m0 c : Nat) : List Int × Nat :=
  let a := (List.range 32).map (fun i => gotAt got 0 (m0 + i) c)
  let b := (List.range 32).map (fun i => gotAt got 1 (m0 + i) c)
  let all := fun (l : List (Option Int)) => l.all (·.isSome)
  let xs := fun (l : List (Option Int)) => l.map (·.getD 0)
  if all a then (xs a, 0)
  else if all b then (xs b, 0)
  else
    let m := List.zipWith (fun p q => match p with | some v => some v | none => q) a b
    if all m then (xs m, 1) else (silence, 2)

/-- The channels of one receive stream at the tick that commits the frame with media number `m0`. -/
def State.streamChannels (i m0 : Nat) : Nat → State → List (Nat × Block) → State × List (Nat × Block)
  | 0, s, out => (s, out)
  | c + 1, s, out =>
    let x := s.stream i
    let plane := planeTag (strPlaneTc x.record)
    let ch := strFirst x.record + c
    if ¬ x.started then
      State.streamChannels i m0 c s ((ch, { samples := silence, flags := flagAbsent, plane := plane }) :: out)
    else
      let (xs, k) := buildBlock x.got m0 c
      let con := Cells.get (fun _ => Conceal.start) x.conceal c
      let (ys, con) := con.next (k != 2) xs
      let s := s.setStream i { x with conceal := Cells.put (fun _ => Conceal.start) x.conceal c con }
      let s := if k = 1 then s.bump (regStr i + 0x14) 1 else if k = 2 then s.bump (regStr i + 0x18) 1 else s
      State.streamChannels i m0 c s ((ch, { samples := ys, flags := if k = 2 then flagConcealed else 0, plane := plane }) :: out)

/-- The boundary F at which the stream stops has come: no sample of a block that commits now is placed (R304). -/
def State.stopsNow (s : State) (x : Stream) : Bool :=
  match x.ops with
  | (false, q) :: _ => s.reqDue q
  | _ => false

/-- Ingress blocks of all receive streams; what lies before the next frame is dropped. -/
def State.streamIngress (s : State) (m0 m1 : Nat) : State × List (Nat × Block) :=
  (s.openStreams false).foldl (fun (a : State × List (Nat × Block)) p =>
    let run := decide (2 ≤ p.2.st) && !s.stopsNow p.2
    if run then
      let (t, l) := State.streamChannels p.1 m0 (strChannels p.2.record) a.1 []
      let x := t.stream p.1
      (t.setStream p.1 { x with got := x.got.filter (fun g => decide (m1 ≤ g.media)) }, a.2 ++ l)
    else
      (a.1, a.2 ++ (List.range (strChannels p.2.record)).map (fun c =>
        (strFirst p.2.record + c, { samples := silence, flags := flagAbsent, plane := planeTag (strPlaneTc p.2.record) })))) (s, [])

/-- TIM_STR_STATE of a stream. -/
def State.strState (s : State) (i : Nat) : Word :=
  let x := s.stream i
  let seen := fun (t : Option Nat) => match t with
    | some t => decide (s.now ≤ t + 10000000)
    | none => false
  BitVec.ofNat 32 (x.st * 2 ^ 30 + (if strTx x.record then 2 ^ 29 else 0) + (if seen x.seenA then 2 ^ 28 else 0)
    + (if seen x.seenB then 2 ^ 27 else 0))

end Sys2Proof.Machine
end

