-- ==== Sys2Proof/Machine/Voice.lean ====
section
/-!
DEFINITION. Machine/Voice.lean: voice channels: records, call control (R119 to R124), capacity and degradation (R130, R139),
events (R136), keys (R135), received packets (R125, R126, R128, R129), and the ends of a channel (R119).
-/
namespace Sys2Proof.Machine

def voxBadChannel : Nat := 0x0501
def voxBusy : Nat := 0x0502
def voxBadRecord : Nat := 0x0504
def voxCodecRate : Nat := 0x0505
def voxPortInUse : Nat := 0x0506
def voxCapacity : Nat := 0x0507
def voxImmutable : Nat := 0x0508
def voxWrongRing : Nat := 0x0509
def voxFuture : Nat := 0x050A
def voxNotRunning : Nat := 0x050B
def wckNoClusters : Nat := 0x0601

def regVox (off : Nat) : Nat := 0xB0000 + off

def voxDflt (_ : Nat) : VoxChan := VoxChan.idle0
def State.voxChan (s : State) (v : Nat) : VoxChan := Cells.get voxDflt s.vox.chans v
def State.setVox (s : State) (v : Nat) (c : VoxChan) : State :=
  { s with vox := { s.vox with chans := Cells.put voxDflt s.vox.chans v c } }
def State.onVox (s : State) (v : Nat) (f : VoxChan → VoxChan) : State := s.setVox v (f (s.voxChan v))
/-- Channels that are not IDLE, in index order. -/
def State.voxOpenList (s : State) : List Nat := (s.vox.chans.filter (fun p => p.2.st != 0)).map (·.1)

/-! ### The channel record (R121) -/

def recCodec (r : List Byte) : Nat := leAt r 0 1
def recWide (r : List Byte) : Bool := (leAt r 1 1).testBit 0
def recFrame20 (r : List Byte) : Bool := (leAt r 1 1).testBit 1
def recG726 (r : List Byte) : Nat := leAt r 1 1 / 4 % 4
def recMac (r : List Byte) : Nat := leAt r 9 1 % 4
def recTc (r : List Byte) : Nat := leAt r 9 1 / 4 % 8
def recIpv6 (r : List Byte) : Bool := (leAt r 9 1).testBit 5
def recSsrcLock (r : List Byte) : Bool := (leAt r 9 1).testBit 6
def recRemoteCheck (r : List Byte) : Bool := (leAt r 9 1).testBit 7
def recVlan (r : List Byte) : Nat := leAt r 10 2
def recIpBytes (r : List Byte) : Nat := if recIpv6 r then 16 else 4
def recLocalIp (r : List Byte) : List Byte := (r.drop 24).take (recIpBytes r)
def recRemoteIp (r : List Byte) : List Byte := (r.drop 40).take (recIpBytes r)
def recLocalPort (r : List Byte) : Nat := leAt r 56 2
def recRemotePort (r : List Byte) : Nat := leAt r 58 2
def recJbMin (r : List Byte) : Nat := leAt r 66 2
def recJbMax (r : List Byte) : Nat := leAt r 68 2
def recJbInit (r : List Byte) : Nat := leAt r 70 2
def recJbAdapt (r : List Byte) : Nat := leAt r 72 1
def recEc (r : List Byte) : Nat := leAt r 73 1
def recDet (r : List Byte) : Nat := leAt r 74 1
def recThresh (r : List Byte) : Int := signed 16 (leAt r 76 2)
def recHang (r : List Byte) : Nat := leAt r 78 2
def recKeySrc (r : List Byte) : Nat := leAt r 80 1
def recKeyMode (r : List Byte) : Nat := leAt r 81 1
def recEvtRing (r : List Byte) : Nat := leAt r 82 1
def recPrio (r : List Byte) : Nat := leAt r 83 1
/-- Frame length in ms, channel rate and RTP clock (R117, R131). -/
def recFrameMs (r : List Byte) : Nat := if recFrame20 r then 20 else 10
def recRate (r : List Byte) : Nat := if recWide r then 16000 else 8000
def recClock (r : List Byte) : Nat := if recCodec r = 4 then 48000 else 8000

/-- Every field is in range and every reserved bit zero. -/
def voxRecOk (r : List Byte) : Bool :=
  decide (recCodec r ≤ 4) && decide (leAt r 1 1 / 16 % 4 ≤ 2) && decide (leAt r 2 1 < 2) && decide (leAt r 3 1 < 128)
    && decide (6000 ≤ leAt r 4 4) && decide (leAt r 4 4 ≤ 128000) && decide (leAt r 8 1 < 128)
    && (recIpv6 r || (allZero ((r.drop 28).take 12) && allZero ((r.drop 44).take 12)))
    && decide (1 ≤ recLocalPort r) && decide (1 ≤ recRemotePort r) && decide (leAt r 64 1 < 64) && decide (1 ≤ leAt r 65 1)
    && decide (2 ≤ recJbMin r) && decide (recJbMin r ≤ 500) && decide (recJbMin r ≤ recJbMax r) && decide (recJbMax r ≤ 500)
    && decide (recJbMin r ≤ recJbInit r) && decide (recJbInit r ≤ recJbMax r) && decide (1 ≤ recJbAdapt r)
    && decide (recJbAdapt r ≤ 8) && decide (recEc r < 32) && decide (recEc r / 2 % 4 ≤ 2) && decide (recDet r < 32)
    && (leAt r 75 1 == 0) && decide (-7000 ≤ recThresh r) && decide (recThresh r ≤ -1000) && decide (recHang r ≤ 2000)
    && decide (recKeySrc r ≤ 8) && decide (recKeyMode r ≤ 2) && decide (recEvtRing r ≤ 3) && decide (recPrio r < 8)
    && allZero ((r.drop 90).take 38)

/-- Codec and rate go together. -/
def voxRateOk (r : List Byte) : Bool :=
  if recCodec r = 2 then recWide r
  else if recCodec r = 4 then recWide r || leAt r 1 1 / 16 % 4 == 0
  else !recWide r

/-- Cost in thousands of cycles per 10 ms (R130). -/
def voxCost (r : List Byte) : Nat :=
  match recCodec r with
  | 2 => 144
  | 3 => 96
  | 4 => if recWide r then 360 else 240
  | _ => 12
/-- Cost of a channel as it now runs: a reduced Opus encoder takes 60 % (R139). -/
def VoxChan.cost (c : VoxChan) : Nat := if c.reduced then voxCost c.rec_ * 6 / 10 else voxCost c.rec_

def sameField (a b : List Byte) (i n : Nat) : Bool := (a.drop i).take n == (b.drop i).take n
/-- The fields VOX_MODIFY may not change (R122). -/
def voxSameFixed (a b : List Byte) : Bool :=
  recCodec a == recCodec b && leAt a 1 1 % 4 == leAt b 1 1 % 4 && recMac a == recMac b && recIpv6 a == recIpv6 b
    && sameField a b 24 16 && sameField a b 56 2
/-- Two channels would receive the same packets (R122). -/
def voxSamePort (a b : List Byte) : Bool :=
  recMac a == recMac b && recIpv6 a == recIpv6 b && recLocalIp a == recLocalIp b && recLocalPort a == recLocalPort b

/-! ### Instants -/

/-- The sampling instant of a render sample of the Voice plane, counted from its first (R116, R30). -/
def State.voxInstant (s : State) (pos : Nat) : Nat :=
  let f0 := 32 * s.mgt.voice.frame
  if f0 ≤ pos then s.sampleInstant (pos - f0) else s.instantAgo (f0 - pos)
/-- t_k. -/
def State.voxTick (s : State) (k : Nat) : Nat := s.voxInstant (k * s.renderRate / 100)
/-- t_k of the last voice tick: the TIME64 of an event that no audio decides (R136). Where the event falls between ticks, the tick before it
counts (DESIGN CHOICE: the spec names no tick). -/
def State.voxLastTick (s : State) : Nat := s.voxTick (s.vox.nextK - 1)
/-- A tick lies on the channel's grid. -/
def onGrid (r : List Byte) (k : Nat) : Bool := !recFrame20 r || k % 2 == 0
/-- The channel's next processing tick. -/
def State.voxNextTick (s : State) (r : List Byte) : Nat :=
  let k := s.vox.nextK
  if onGrid r k then k else k + 1

/-! ### Events (R136) -/

def State.voxEvent (s : State) (v code : Nat) (w1 w2 time : Nat) : State :=
  let r := 20 + recEvtRing (s.voxChan v).rec_
  let full := s.d2hFull r
  let s := s.writeOrDrop r (regVox 0x12C)
    { code := code, flags := 0, bits := v, w1 := BitVec.ofNat 32 w1, w2 := BitVec.ofNat 32 w2, w3 := 0, time := time,
      payload := [] }
  if full then s.setFlag (regVox 4) 19 true else s.fireRing 10 r

/-! ### Capacity and degradation (R130, R139) -/

/-- A block of R24 is out of service. -/
def State.isOut (s : State) (t : Nat) : Bool := Cells.get (fun _ => 0) s.mgt.out t != 0
/-- Voice-plane cores in service. -/
def State.voiceCores (s : State) : Nat :=
  ((List.range 128).filter (fun t => decide (s.mgt.split ≤ t / 8) && !s.isOut t)).length
/-- VOX_CAP: 90 % of 12,000 thousand cycles per core. -/
def State.voxCap (s : State) : Nat := 10800 * s.voiceCores
/-- VOX_ADMITTED. -/
def State.voxAdmitted (s : State) : Nat :=
  s.vox.chans.foldl (fun a p => if p.2.st = 0 ∨ p.2.suspended then a else a + p.2.cost) 0

/-- Channels by PRIO ascending, then index descending. -/
def State.degradeOrder (s : State) : List Nat :=
  sortBy (fun a b =>
    let pa := recPrio (s.voxChan a).rec_
    let pb := recPrio (s.voxChan b).rec_
    decide (pa < pb) || (pa == pb && decide (b ≤ a))) s.voxOpenList

/-- First content position of the mix block of the frame now open: three frames back, 29 samples in (R92). -/
def State.voxMixPos (s : State) : Int := 32 * ((s.mgt.voice.frame : Int) - 3) + 29

/-- 11 ms in channel samples: sample `g` of Rout, counted from tick 0, is presented 11 ms after `g` ÷ f_ch, which is sample `g` + this of
the grid that starts with the plane (R117). -/
def routDelay (fch : Nat) : Nat := 11 * fch / 1000

/-- Rout from sample `g` on falls to zero over 10 ms at the channel rate (R139, R455). -/
def VoxChan.fadeOut (c : VoxChan) (g : Int) : VoxChan :=
  let i := (g - ((c.rinEnd : Int) - c.rin.length)).toNat
  { c with rin := c.rin.take i ++ rampBlock unity 0 (recRate c.rec_ / 100) 0 (c.rin.drop i) }

/-- The first sample of Rout that no mix block has taken yet. -/
def State.routNext (s : State) (r : List Byte) : Int :=
  let fch := recRate r
  let h : Int := (s.voxMixPos + 32) * fch
  (h + (s.renderRate - 1)).fdiv s.renderRate - routDelay fch

/-- One channel goes down a step: 1 an Opus encoder is reduced, 2 the channel is suspended. While it is suspended its transmit RTP timestamp
stands still and its staged frame is not sent (DESIGN CHOICE: R139 says only that it stops encoding). -/
def State.degradeOne (step : Nat) (s : State) (v : Nat) : State :=
  let c := s.voxChan v
  if s.voxAdmitted ≤ s.voxCap then s
  else if step = 1 then (if recCodec c.rec_ = 4 ∧ ¬ c.reduced then s.setVox v { c with reduced := true } else s)
  else if c.suspended then s
  else (s.setVox v { c.fadeOut (s.routNext c.rec_) with suspended := true, task := none }).voxEvent v 0x8E 0 0 s.voxLastTick

/-- The manager forgets everything: the next packet is a first one (R129, R141). -/
def VoxChan.flushJitter (c : VoxChan) : VoxChan :=
  { c with jb := { Jitter.empty with newSsrc := c.jb.newSsrc }, concealMs := 0, mute := 0 }

/-- One channel goes up a step: 1 a suspended channel resumes with a resync, 2 an encoder returns to full effort. -/
def State.restoreOne (step : Nat) (s : State) (v : Nat) : State :=
  let c := s.voxChan v
  if step = 1 then
    if c.suspended ∧ s.voxAdmitted + c.cost ≤ s.voxCap then
      let s := (s.setVox v { c.flushJitter with suspended := false }).bump (regVox 0x11C) 1
      (s.voxEvent v 0x8F 0 0 s.voxLastTick).voxEvent v 0x8C 0 0 s.voxLastTick
    else s
  else if c.reduced ∧ s.voxAdmitted + (voxCost c.rec_ - c.cost) ≤ s.voxCap ∧ ¬ c.suspended then
    s.setVox v { c with reduced := false }
  else s

/-- DEGRADE (R139): down while the cost exceeds the capacity, and back as it allows. -/
def State.voxDegrade (s : State) : State :=
  if ¬ s.flag (regVox 0) 16 then s
  else
    let order := s.degradeOrder
    let s := order.foldl (State.degradeOne 1) s
    let s := order.foldl (State.degradeOne 2) s
    let up := order.reverse
    let s := up.foldl (State.restoreOne 1) s
    if s.voxOpenList.any (fun v => (s.voxChan v).suspended) then s else up.foldl (State.restoreOne 2) s

/-! ### Echo units (R140) -/

/-- An echo unit is bypassed. -/
def State.ecuOut (s : State) (u : Nat) : Bool := s.isOut (0xB0 + u)

/-- A channel starts cold (R141): canceller, jitter buffer, detectors and keys. -/
def VoxChan.cold (c : VoxChan) (now : Nat) : VoxChan :=
  { c.flushJitter with
      coef := [], near := false, noise := [], erle := 0, convMs := 0, converged := false, ecDisabled := false, quiet := 0, quietAt := 0
      coldAt := now, forced := true, digit := none, cptOn := false, hostKey := false, opsKey := false, opsPrev := false, opsLong := false
      opsInds := [], talk := [], lowRun := 0, offAt := none }

/-- An echo unit leaves service (true) or returns: each of its channels in use writes ECHO_BYPASS, and on the return starts
cold. -/
def State.ecuSwitch (s : State) (u : Nat) (out : Bool) : State :=
  (s.voxOpenList.filter (fun v => v / 32 == u)).foldl (fun s v =>
    let s := if out then s else s.onVox v (fun c => c.cold s.now)
    s.voxEvent v 0x90 (if out then 1 else 0) 0 s.voxLastTick) s

/-! ### Call control (R120 to R124) -/

/-- A refused descriptor (R122). -/
def State.voxRefuse (s : State) (ring index st : Nat) : State := (s.bump (regVox 0x100) 1).finish ring index st

/-- Checks common to all five opcodes, up to the record: CHAN and reserved bits, the split, and the channel's state. Where no cluster
serves the Voice plane, every VOX_OPEN with a well-formed word 0 gets the status of R15 (DESIGN CHOICE: R122 gives it no place among the
others; it comes after VOX_BAD_CHANNEL and before all that are left). -/
def voxCheck (s : State) (d : Desc) (flagsOk : Bool) (v : Nat) (opening modify : Bool) : Option Nat :=
  let c := s.voxChan v
  if field d.w0 31 25 ≠ 0 ∨ 512 ≤ v ∨ ¬ flagsOk then some voxBadChannel
  else if opening ∧ 16 ≤ s.fld 0x80 4 0 then some wckNoClusters
  else if opening then (if c.st ≠ 0 then some voxBusy else none)
  else if c.st = 0 ∨ (modify ∧ c.st = 3) then some voxIdleSt
  else none

/-- Checks that come after the record. -/
def voxCheckEnd (s : State) (ring : Nat) (d : Desc) (v : Nat) (opening timed : Bool) : Option Nat :=
  if ¬ opening ∧ (s.voxChan v).ring ≠ ring then some voxWrongRing
  else if timed ∧ s.now + 3600000000000 < d.time then some voxFuture
  else if ¬ s.mgt.voice.run then some voxNotRunning
  else none

/-- VOX_OPEN (R123): an accepted open is STARTING until its effective tick. -/
def execVoxOpen (ring : Nat) (data : Option (List Byte)) (s : State) : Res :=
  match s.nextDesc ring 0x30 with
  | none => .next s
  | some d =>
    let v := field d.w0 24 16
    let r := (data.getD []).take 128
    let have_ := data.isSome
    let bad :=
      match voxCheck s d (d.flags == 0) v true false with
      | some st => some st
      | none =>
        if d.w1 ≠ 128 ∨ d.addr % 32 ≠ 0 ∨ (have_ ∧ ¬ voxRecOk r) then some voxBadRecord
        else if have_ ∧ ¬ voxRateOk r then some voxCodecRate
        else if have_ ∧ s.voxOpenList.any (fun u => voxSamePort (s.voxChan u).rec_ r) then some voxPortInUse
        else if have_ ∧ s.voxCap < s.voxAdmitted + voxCost r then some voxCapacity
        else match voxCheckEnd s ring d v true true with
          | some st => some st
          | none => if have_ then none else some stDmaError
    match bad with
    | some st => .next ((if st = stDmaError then s.bump 0x10110 1 else s).voxRefuse ring d.index st)
    | none =>
      if ¬ s.auditRoom 1 then .next (s.stall ring (.voxOpen ring data))
      else
        let s := (s.setPhase ring d.index .accepted).auditReserve 1
        let op : VoxOp := { op := 0x30, record := r, ecReset := false, req := s.request d.index d.time }
        .next (s.setVox v { VoxChan.idle0 with st := 1, ring := ring, rec_ := r, ops := [op] })

/-- VOX_MODIFY (R124). -/
def execVoxModify (ring : Nat) (data : Option (List Byte)) (s : State) : Res :=
  match s.nextDesc ring 0x31 with
  | none => .next s
  | some d =>
    let v := field d.w0 24 16
    let c := s.voxChan v
    let r := (data.getD []).take 128
    let have_ := data.isSome
    let bad :=
      match voxCheck s d (d.flags == 0 || d.flags == 2) v false true with
      | some st => some st
      | none =>
        if d.w1 ≠ 128 ∨ d.addr % 32 ≠ 0 ∨ (have_ ∧ ¬ voxRecOk r) then some voxBadRecord
        else if have_ ∧ ¬ voxRateOk r then some voxCodecRate
        else if have_ ∧ ¬ voxSameFixed c.rec_ r then some voxImmutable
        else match voxCheckEnd s ring d v false true with
          | some st => some st
          | none => if have_ then none else some stDmaError
    match bad with
    | some st => .next ((if st = stDmaError then s.bump 0x10110 1 else s).voxRefuse ring d.index st)
    | none =>
      if ¬ s.auditRoom 1 then .next (s.stall ring (.voxModify ring data))
      else
        let s := (s.setPhase ring d.index .accepted).auditReserve 1
        let op : VoxOp := { op := 0x31, record := r, ecReset := bitOf d.w0 9, req := s.request d.index d.time }
        .next (s.onVox v (fun c => { c with ops := c.ops ++ [op] }))

/-- VOX_CLOSE (R119, R123). -/
def execVoxClose (ring : Nat) (s : State) : Res :=
  match s.nextDesc ring 0x32 with
  | none => .next s
  | some d =>
    let v := field d.w0 24 16
    let bad :=
      match voxCheck s d (d.flags == 0) v false false with
      | some st => some st
      | none => if d.w1 ≠ 0 then some voxBadRecord else voxCheckEnd s ring d v false true
    match bad with
    | some st => .next (s.voxRefuse ring d.index st)
    | none =>
      if ¬ s.auditRoom 1 then .next (s.stall ring (.voxClose ring))
      else
        let s := (s.setPhase ring d.index .accepted).auditReserve 1
        let op : VoxOp := { op := 0x32, record := [], ecReset := false, req := s.request d.index d.time }
        .next (s.onVox v (fun c => { c with st := if c.st = 2 then 3 else c.st, ops := c.ops ++ [op] }))

/-- VOX_KEY (R135). -/
def execVoxKey (ring : Nat) (s : State) : Res :=
  match s.nextDesc ring 0x33 with
  | none => .next s
  | some d =>
    let v := field d.w0 24 16
    let bad :=
      match voxCheck s d (d.flags == 0 || d.flags == 1) v false false with
      | some st => some st
      | none => if d.w1 ≠ 0 then some voxBadRecord else voxCheckEnd s ring d v false true
    match bad with
    | some st => .next (s.voxRefuse ring d.index st)
    | none =>
      let q := s.request d.index d.time
      .next ((s.setPhase ring d.index .accepted).onVox v (fun c => { c with keyReqs := c.keyReqs ++ [(q, bitOf d.w0 8)] }))

/-- VOX_QUERY (R137): the result is written at the channel's next processing tick. -/
def execVoxQuery (ring : Nat) (s : State) : Res :=
  match s.nextDesc ring 0x34 with
  | none => .next s
  | some d =>
    let v := field d.w0 24 16
    let bad :=
      match voxCheck s d (d.flags == 0) v false false with
      | some st => some st
      | none => if d.w1 ≠ 64 ∨ d.addr % 32 ≠ 0 then some voxBadRecord else voxCheckEnd s ring d v false false
    match bad with
    | some st => .next (s.voxRefuse ring d.index st)
    | none =>
      .next ((s.setPhase ring d.index .accepted).onVox v (fun c => { c with queries := c.queries ++ [(d.index, d.addr)] }))

/-! ### A channel becomes IDLE (R119) -/

/-- The audit entry of a call that takes effect (R384): CRC-32C of the records. -/
def State.callAudit (s : State) (v : Nat) (op : Nat) (old new : List Byte) : State :=
  let crc := fun (r : List Byte) => if r = [] then (0 : Word) else BitVec.ofNat 32 (crc32c r)
  s.auditWrite 0 0x04 0 (BitVec.ofNat 32 (v + 65536 * op)) (crc old) (crc new)

/-- What a channel still had to do ends: its closes with OK, the rest with the status of a channel that is IDLE. -/
def State.voxEndOps (s : State) (v time : Nat) (c : VoxChan) : State :=
  let s := c.ops.foldl (fun s o =>
    if o.op = 0x32 then
      let s := if c.closedAt.isSome ∧ (c.ops.find? (fun p => p.op == 0x32)).map (·.req.index) = some o.req.index then s
        else s.callAudit v 0x32 c.rec_ []
      s.finishAt c.ring o.req.index stOk 0 time none
    else (s.auditRelease 1).finishAt c.ring o.req.index (if o.op = 0x30 then voxNotRunning else voxIdleSt) 0 time none) s
  let s := c.keyReqs.foldl (fun s q => s.finishAt c.ring q.1.index voxIdleSt 0 time none) s
  c.queries.foldl (fun s q => s.finishAt c.ring q.1 voxIdleSt 0 time none) s

/-- The channel becomes IDLE and writes CLOSED. -/
def State.voxToIdle (s : State) (v reason time : Nat) : State :=
  let c := s.voxChan v
  let s := s.voxEvent v 0x91 reason 0 s.voxLastTick
  (s.setVox v .idle0).voxEndOps v time c

/-- The Voice plane stops: every channel becomes IDLE at once. -/
def State.voxStopAll (s : State) : State :=
  s.voxOpenList.foldl (fun s v => s.voxToIdle v 1 s.mgt.tick.last) s

/-- CHANNEL_IDLE (R119): the last Rout sample of a CLOSING channel has been presented. -/
def execChannelIdle (dt chan : Nat) (s : State) : Res :=
  let s := s.elapse dt
  let c := s.voxChan chan
  match c.closedAt with
  | some t =>
    if c.st = 3 ∧ t + 11000000 ≤ s.now then .next (s.voxToIdle chan 0 (t + 11000000)).voxDegrade else .next s
  | none => .next s

/-! ### Keys (R135) -/

def VoxChan.key (c : VoxChan) : Bool := c.hostKey || c.opsKey

/-- One indication of the operator channel acts. -/
def VoxChan.opsAct (c : VoxChan) (i : OpsInd) : VoxChan :=
  let mode := recKeyMode c.rec_
  match i.kind with
  | 0 => { c with opsPrev := c.opsKey, opsLong := false, opsKey := if mode = 1 then !c.opsKey else true }
  | 1 =>
    if mode = 0 then { c with opsKey := false }
    else if mode = 2 ∧ (i.long ∨ c.opsLong ∨ c.opsPrev) then { c with opsKey := false }
    else c
  | 2 => { c with opsLong := true }
  | _ => { c with opsKey := false }

/-- An indication of operator channel `c` reaches the voice engine: channels in operation that take their key from it. -/
def State.opsIndicate (s : State) (c kind : Nat) (long : Bool) : State :=
  let i : OpsInd := { kind := kind, long := long, req := s.request 0 0 }
  (s.voxOpenList.filter (fun v =>
      let x := s.voxChan v
      2 ≤ x.st && x.closedAt.isNone && recKeySrc x.rec_ == c + 1)).foldl (fun s v =>
    s.onVox v (fun x => { x with opsInds := x.opsInds ++ [i] })) s

/-- KEY_CHANGE (R135): what has come due for a channel at the boundary just opened. -/
def execKeyChange (chan : Nat) (s : State) : Res :=
  let c := s.voxChan chan
  let due := c.keyReqs.filter (fun q => s.reqDue q.1)
  let inds := c.opsInds.filter (fun i => s.reqDue i.req)
  if c.st = 0 ∨ (due = [] ∧ inds = []) then .next s
  else
    let c1 := inds.foldl VoxChan.opsAct
      { c with
        hostKey := match due.getLast? with | some (_, k) => k | none => c.hostKey
        keyReqs := c.keyReqs.filter (fun q => !s.reqDue q.1), opsInds := c.opsInds.filter (fun i => !s.reqDue i.req) }
    let t := s.mgt.tick.last
    let s := s.setVox chan c1
    let b := fun (x : Bool) (n : Nat) => if x then n else 0
    let s := if c1.key = c.key then s
      else s.voxEvent chan 0x8A (b c1.key 1 + b c1.hostKey 2 + b c1.opsKey 4) 0 s.voxLastTick
    .next (due.foldl (fun s q => s.finishAt c.ring q.1.index stOk 0 t none) s)

/-! ### Received packets (R125, R126, R128, R129) -/

/-- Media of a payload in RTP clock units; none where it is not a whole 10 ms to 60 ms (R126). Opus: the table of contents of
RFC 6716. -/
def voxUnits (r payload : List Byte) : Option Nat :=
  let n := payload.length
  let tenth := fun (per : Nat) => if n % per = 0 then some (n / per) else none
  let tens := match recCodec r with
    | 4 =>
      let toc := beAt payload 0 1
      let cfg := toc / 8
      let quarter := if cfg < 12 then [4, 8, 16, 24].getD (cfg % 4) 4 else if cfg < 16 then [4, 8].getD (cfg % 2) 4
        else [1, 2, 4, 8].getD (cfg % 4) 1
      let frames := match toc % 4 with | 0 => 1 | 3 => beAt payload 1 1 % 64 | _ => 2
      if n = 0 ∨ quarter * frames % 4 ≠ 0 then none else some (quarter * frames / 4)
    | 3 => tenth (20 + 10 * recG726 r)
    | _ => tenth 80
  match tens with
  | some k => if 1 ≤ k ∧ k ≤ 6 then some (k * recClock r / 100) else none
  | none => none

/-- A `bits`-bit number extended to the value nearest a running one (RFC 3550 A.1). -/
def extendInt (bits : Nat) (last : Int) (v : Nat) : Int := last + signed bits (pattern bits ((v : Int) - last))

def msNs : Int := 1000000

/-- Ceiling to whole ms. -/
def ceilMs (x : Int) : Int := (x + (msNs - 1)).fdiv msNs * msNs

/-- target of R128 under the record's limits. -/
def jbTarget (r : List Byte) (s : Int) : Int := max (recJbMin r * msNs) (min (recJbMax r * msNs) (ceilMs s + 2 * msNs))

/-- The manager takes an accepted packet (R128): `next` is the instant of the next processing tick. Answers the manager and
e. -/
def Jitter.arrive (j : Jitter) (r : List Byte) (next ta : Nat) (seq ts : Nat) : Jitter × Int :=
  let clk : Int := recClock r
  let first := j.packets == 0
  let rel : Int := if first then 0 else j.lastRel + signed 32 (pattern 32 ((ts : Int) - j.lastTs))
  let ext : Int := if first then seq else extendInt 16 j.lastSeq seq
  let d : Int := ta - (rel * 1000000000).fdiv clk
  let j := if first then { j with winPrev := d, winCur := d, winStart := ta, s := 0 }
    else if 1000000000 ≤ (ta : Int) - j.winStart then { j with winPrev := j.winCur, winCur := d, winStart := ta }
    else { j with winCur := min j.winCur d }
  let dmin := min j.winPrev j.winCur
  let e := d - dmin
  let sv := if j.s < e then e else j.s - (j.s - e).fdiv (2 ^ recJbAdapt r)
  let q := if first then (((next : Int) - dmin - recJbInit r * msNs) * clk).fdiv 1000000000 else j.q
  ({ j with packets := j.packets + 1, s := sv, target := jbTarget r sv, q := q, lastTs := ts, lastRel := rel, lastSeq := ext }, e)

/-- A packet finds its place, or is late, a duplicate or one too many (R129). -/
def State.voxHold (s : State) (v : Nat) (p : Rtp) (units : Nat) : State :=
  let c := s.voxChan v
  let j := c.jb
  let spurt := p.marker || (decide (1 < j.packets) && decide (j.mediaEnd + (6 * recClock c.rec_ / 100 : Nat) ≤ j.lastRel)) || c.mute == 2
  let held := j.held.foldl (fun a h => a + h.payload.length) 0
  if j.seen.contains j.lastSeq then
    (s.setVox v { c with stats := { c.stats with dup := c.stats.dup + 1 } }).bump (regVox 0x108) 1
  else
    let stop : Int := j.lastRel + (units : Int)
    let j := { j with mediaEnd := if j.packets = 1 then stop else max j.mediaEnd stop }
    if stop ≤ j.q then
      (s.setVox v { c with jb := j, stats := { c.stats with late := c.stats.late + 1 } }).bump (regVox 0x104) 1
    else if 65536 < held + p.payload.length then (s.setVox v { c with jb := j }).bump (regVox 0x10C) 1
    else
      s.setVox v { c with
        jb := { j with
          seen := j.lastSeq :: j.seen
          held := j.held ++ [{ ts := j.lastRel, dur := units, spurt := spurt, payload := p.payload }] } }

/-- Figures of RFC 3550 A.3 and A.8 for an accepted packet. -/
def VoxStats.take (x : VoxStats) (clk ta : Nat) (p : Rtp) : VoxStats :=
  let transit : Int := (ta * clk / 1000000000 : Nat) - (p.ts : Int)
  let same := x.ssrc == some p.ssrc
  let d : Int := (signed 32 (pattern 32 (transit - x.transit))).natAbs
  let ext := extendInt 16 x.highSeq p.seq
  if same then
    { x with
      received := x.received + 1, transit := transit, jitter16 := x.jitter16 + d - (x.jitter16 + 8).fdiv 16
      highSeq := max x.highSeq ext }
  else
    { x with
      received := x.received + 1, transit := transit, jitter16 := if x.ssrc.isNone then 0 else x.jitter16
      expected := if x.ssrc.isNone then 0 else x.expected + (x.highSeq - x.baseSeq + 1)
      baseSeq := p.seq, highSeq := p.seq, ssrc := some p.ssrc }

/-- An accepted packet reaches the manager; three in a row beyond 1 s restart it (R128, R129). -/
def State.voxAccept (s : State) (v ta : Nat) (p : Rtp) (units : Nat) : State :=
  let c := s.voxChan v
  let next := s.voxTick (s.voxNextTick c.rec_)
  let c := { c with stats := c.stats.take (recClock c.rec_) ta p, lastRx := s.now, rxTimedOut := false }
  let (j, e) := c.jb.arrive c.rec_ next ta p.seq p.ts
  let far := decide (1000000000 < e.natAbs)
  if far ∧ 2 ≤ j.excess then
    let c := c.flushJitter
    let (j, _) := c.jb.arrive c.rec_ next ta p.seq p.ts
    ((s.setVox v { c with jb := j }).bump (regVox 0x11C) 1 |>.voxEvent v 0x8C 0 0 s.voxLastTick).voxHold v p units
  else (s.setVox v { c with jb := { j with excess := if far then j.excess + 1 else 0 } }).voxHold v p units

/-- The channel a frame belongs to (R125). -/
def State.voxFor (s : State) (n : Nat) (p : Parsed) (u : Option Udp) : Option Nat :=
  match u with
  | none => none
  | some u =>
    (s.vox.chans.find? (fun q =>
      let r := q.2.rec_
      2 ≤ q.2.st && recMac r == n && vlanOk p.tag (recVlan r) && u.ipv6 == recIpv6 r && u.dstIp == recLocalIp r
        && u.dstPort == recLocalPort r)).map (·.1)

/-- RTP_RECEIVE (R125, R126): a frame of channel `v`; `ta` is the receive timestamp of its first bit. -/
def State.voxRx (s : State) (v : Nat) (u : Udp) (ta : Nat) : State :=
  let c := s.voxChan v
  let r := c.rec_
  if c.closedAt.isSome then s
  else if recRemoteCheck r ∧ ¬ (u.srcIp = recRemoteIp r ∧ u.srcPort = recRemotePort r) then s.bump (regVox 0x114) 1
  else if ¬ u.sumOk then s.bump (regVox 0x118) 1
  else
    match parseRtp u.payload with
    | none => s.bump (regVox 0x110) 1
    | some p =>
      match (if p.pt = leAt r 8 1 then voxUnits r p.payload else none) with
      | none => s.bump (regVox 0x110) 1
      | some units =>
        match c.stats.ssrc with
        | none => s.voxAccept v ta p units
        | some old =>
          if p.ssrc = old then (s.onVox v (fun c => { c with jb := { c.jb with newSsrc := (0, 0) } })).voxAccept v ta p units
          else if recSsrcLock r then s.bump (regVox 0x114) 1
          else
            let n := if c.jb.newSsrc.1 = p.ssrc ∧ 0 < c.jb.newSsrc.2 then c.jb.newSsrc.2 + 1 else 1
            if n < 3 then (s.onVox v (fun c => { c with jb := { c.jb with newSsrc := (p.ssrc, n) } })).bump (regVox 0x114) 1
            else
              let s := (s.onVox v (fun c => { c.flushJitter with jb := Jitter.empty })).bump (regVox 0x11C) 1
              let s := (s.voxEvent v 0x8B p.ssrc old s.voxLastTick).voxEvent v 0x8C 1 0 s.voxLastTick
              s.voxAccept v ta p units

/-! ### Time-driven steps -/

/-- RX_TIMEOUT (R129). -/
def execRxTimeout (dt chan : Nat) (s : State) : Res :=
  let s := s.elapse dt
  let c := s.voxChan chan
  let ms := s.fld (regVox 0) 15 0
  if 2 ≤ c.st ∧ c.closedAt.isNone ∧ ms ≠ 0 ∧ ¬ c.rxTimedOut ∧ c.lastRx + ms * 1000000 ≤ s.now then
    .next ((s.setVox chan { c with rxTimedOut := true }).voxEvent chan 0x8D 0 0 s.voxLastTick)
  else .next s

/-- CONCEALMENT_LIMIT (R129): concealment has run 60 ms. -/
def execConcealmentLimit (dt chan : Nat) (s : State) : Res :=
  let s := s.elapse dt
  let c := s.voxChan chan
  .next (if c.st ≠ 0 ∧ 60 ≤ c.concealMs ∧ c.mute = 0 then s.setVox chan { c with mute := 1 } else s)

/-- The talk state goes off at the block where the hangover ended. -/
def State.talkOffAct (s : State) (v pos : Nat) : State :=
  let c := s.voxChan v
  let s := s.setVox v { c with talk := c.talk ++ [(pos, false)], offAt := none }
  if (recDet c.rec_).testBit 4 then s.voxEvent v 0x89 0 0 (s.voxInstant pos) else s

/-- TALK_OFF (R134). -/
def execTalkOff (dt chan : Nat) (s : State) : Res :=
  let s := s.elapse dt
  match (s.voxChan chan).offAt with
  | some pos => .next (s.talkOffAct chan pos)
  | none => .next s

/-- EC_ENABLED (R133): 250 ms of quiet on both sides bring a bypassed canceller back. -/
def execEcEnabled (dt chan : Nat) (s : State) : Res :=
  let s := s.elapse dt
  let c := s.voxChan chan
  if c.st ≠ 0 ∧ c.ecDisabled ∧ 25 ≤ c.quiet then
    .next ((s.setVox chan { c with ecDisabled := false }).voxEvent chan 0x86 0 0 c.quietAt)
  else .next s

/-- NLP_FORCE_END (R141): 2 s after the cold start. -/
def execNlpForceEnd (dt chan : Nat) (s : State) : Res :=
  let s := s.elapse dt
  let c := s.voxChan chan
  .next (if c.st ≠ 0 ∧ c.forced ∧ c.coldAt + 2000000000 ≤ s.now then s.setVox chan { c with forced := false } else s)

/-- CODEC_TASK_MISSED (R139): the task is not done 8 ms after its tick. -/
def execCodecTaskMissed (dt chan : Nat) (s : State) : Res :=
  let s := s.elapse dt
  let c := s.voxChan chan
  match c.task with
  | some t =>
    if t.missed ∨ s.now < t.tickAt + 8000000 then .next s
    else
      .next (((s.setVox chan { c with task := some { t with missed := true } }).bump (regVox 0x128) 1).voxDegrade)
  | none => .next s

end Sys2Proof.Machine
end

