-- ==== Sys2Proof/Machine/VoiceTick.lean ====
section
/-!
DEFINITION. Machine/VoiceTick.lean: what a voice tick does (R116 to R118, R127, R128, R132 to R134, R137, R138): playout, echo
cancellation, codec tasks, packets, detection, and the calls that take effect at it; and what the mix fabric takes from the
voice channels (R94, R101).
-/
namespace Sys2Proof.Machine

/-! ### Levels -/

def sumSq (xs : List Int) : Int := xs.foldl (fun a x => a + x * x) 0
/-- The RMS level of a block is at or above a level in 0.01 dBFS. -/
def atLeast (code : Int) (xs : List Int) : Bool :=
  decide ((xs.length : Int) * 2 ^ 62 * (F32.exp10Ratio code 1000).toIntAway 40 ≤ sumSq xs * 2 ^ 40)
/-- The level of a block in 0.01 dBFS, as 16 bits. -/
def levelWord (xs : List Int) : Nat :=
  let p := sumSq xs
  if p ≤ 0 then 0x8000
  else pattern 16 (satS 16 (((F32.ofInt 1000).mul (F32.ofRatio p (xs.length * 2 ^ 62)).log10).toIntAway 0))

/-- The first render sample at or after the presentation of Rout sample `g` (R117). In the 44.1 kHz family that presentation falls between
two render samples, and the spec gives no rounding for what takes effect there: the model takes the later one (DESIGN CHOICE). -/
def routPos (fs fch g : Nat) : Nat := ceilDiv ((g + routDelay fch) * fs) fch

/-! ### Rate conversion (R118) -/

/-- The sum of a symmetric filter at a place of a grid on which input sample `i` stands at `i` × `step`; inputs farther than `w` have no
tap. -/
def resample (tap : Nat → Int) (step w : Nat) (at_ : Int) (x : Int → Int) : Int :=
  let lo := (at_ - w + (step - 1)).fdiv step
  let n := ((at_ + w).fdiv step - lo + 1).toNat
  satS 32 (roundShift ((List.range n).foldl (fun a (i : Nat) => a + tap (at_ - (lo + i) * step).natAbs * x (lo + i)) 0) 30)

/-- How far the filters reach: 1 ms, the least lookahead of the two directions (R117, R138). -/
def resampleReach (fs fch : Nat) : Nat := fs * fch / 1000

/-! ### Talk state (R134) -/

/-- Talk state at a render position. -/
def VoxChan.talkAt (c : VoxChan) (pos : Nat) : Bool :=
  match (c.talk.filter (fun p => decide (p.1 ≤ pos))).getLast? with
  | some (_, b) => b
  | none => false

/-- One 10 ms block of Rin, presented at `pos`, is judged. -/
def State.voxTalk (s : State) (v pos : Nat) (xs : List Int) : State :=
  let s := match (s.voxChan v).offAt with
    | some p => s.talkOffAct v p
    | none => s
  let c := s.voxChan v
  let on : Bool := match c.talk.getLast? with | some (_, b) => b | none => false
  if atLeast (recThresh c.rec_) xs then
    if on then s.setVox v { c with lowRun := 0 }
    else
      let s := s.setVox v { c with lowRun := 0, talk := c.talk ++ [(pos, true)] }
      if (recDet c.rec_).testBit 4 then s.voxEvent v 0x88 (levelWord xs) 0 (s.voxInstant pos) else s
  else if on ∧ ¬ atLeast (recThresh c.rec_ - 300) xs then
    let n := c.lowRun + 1
    s.setVox v { c with lowRun := n, offAt := if max 1 (ceilDiv (recHang c.rec_) 10) ≤ n then some pos else none }
  else s.setVox v { c with lowRun := 0 }

/-! ### A codec task ends (R127, R129, R138) -/

/-- Fades and silence of unbroken concealment over the 10 ms pieces of a frame (R129). -/
def muteGo (n : Nat) : List Bool → List Int → Nat × Nat → List Int × (Nat × Nat)
  | [], xs, st => (xs, st)
  | miss :: ps, xs, (ms, mute) =>
    let x := xs.take n
    let (y, st) :=
      if ¬ miss then (x, (0, 0))
      else if mute = 1 ∨ (60 ≤ ms ∧ mute = 0) then (rampBlock unity 0 n 0 x, (ms + 10, 2))
      else if mute = 2 then (List.replicate x.length 0, (ms + 10, 2))
      else (x, (ms + 10, 0))
    let (ys, st) := muteGo n ps (xs.drop n) st
    (y ++ ys, st)

/-- The RTP packet of a channel (R127). -/
def voxFrame (c : VoxChan) (payload : List Byte) : List Byte :=
  let r := c.rec_
  let tag := if recVlan r = 0 then none else some (recVlan r)
  let rtp := rtpPacket c.txMark (leAt r 3 1) c.txSeq c.txTs (leAt r 60 4) payload
  let udp := udpDatagram (recLocalIp r ++ recRemoteIp r) (recIpv6 r) (recLocalPort r) (recRemotePort r) rtp
  let ip := if recIpv6 r then ipv6Packet (leAt r 64 1) (leAt r 65 1) (recLocalIp r) (recRemoteIp r) udp
    else ipv4Packet (leAt r 64 1) (leAt r 65 1) c.txId (recLocalIp r) (recRemoteIp r) udp
  ethHeader ((r.drop 12).take 6) ((r.drop 18).take 6) tag (if recIpv6 r then 0x86DD else 0x0800) ++ ip

/-- The packet of a frame is queued, or the frame is not sent; the timestamp advances either way. -/
def State.voxSend (s : State) (v : Nat) (t : VoxTask) : State :=
  let c := s.voxChan v
  let r := c.rec_
  let step := recFrameMs r * recClock r / 1000
  let (enc, pay) := if t.missed then (c.enc, none)
    else if recCodec r ≤ 1 then (c.enc, some (t.sout.map (fun x => BitVec.ofNat 8 (g711Compress (recCodec r = 1) x))))
    else Config.voxEncode r c.reduced c.enc t.sout
  let c := { c with enc := enc }
  let after : VoxChan := { c with txTs := (c.txTs + step) % 2 ^ 32 }
  match pay with
  | none => s.setVox v { after with txMark := c.txMark || !t.missed }
  | some p =>
    let f := padFrame (voxFrame c p)
    let m : TxMeta :=
      { src := 1, ring := v, index := 0, sso := 0, tc := recTc r, len := f.length, launch := 0, stamp := false
        lateSend := false, skipped := false }
    let s := s.setVox v { after with
      txMark := false, txSeq := (c.txSeq + 1) % 65536, txId := (c.txId + 1) % 65536
      stats := { c.stats with sent := c.stats.sent + 1, octets := c.stats.octets + p.length, lastTs := c.txTs } }
    s.engineFrame (recMac r) m f

/-- The frame of a task reaches Rout: decoded or concealed, then queued for presentation at the channel rate. A G.711 frame that nothing
conceals or adjusts, after one that nothing concealed, is the expansion of its octets (R131). -/
def State.voxRout (s : State) (v : Nat) (t : VoxTask) : State × List Int :=
  let c := s.voxChan v
  let r := c.rec_
  let fch := recRate r
  let n := fch * recFrameMs r / 1000
  let lead := if t.missed then 0 else t.lead
  let (dec, ys) := if lead = n then (c.dec, []) else Config.voxDecode r c.dec (if t.missed then [] else t.held) t.units (n - lead)
  let plain := decide (recCodec r ≤ 1) && !t.missed && !t.pieces.any id && c.concealMs == 0 && t.units == ((n - lead : Nat) : Int)
  let ys := if plain then g711Media (recCodec r = 1) t.held (n - lead) else ys
  let xs := ((List.replicate lead 0 ++ ys) ++ List.replicate n 0).take n
  let pieces := if t.missed then t.pieces.map (fun _ => true) else t.pieces
  let (xs, ms, mute) := muteGo (fch / 100) pieces xs (c.concealMs, c.mute)
  let start := t.k * fch / 100
  let rin := (if c.rin = [] then [] else c.rin ++ List.replicate (start - c.rinEnd) 0) ++ xs
  let lost := (pieces.filter id).length
  let s := if 0 < lost then s.bump (regVox 0x120) lost else s
  (s.setVox v { c with
    dec := dec, concealMs := ms, mute := mute
    marks := if t.missed then c.marks ++ [(start, start + n)] else c.marks
    stats := { c.stats with concealed := c.stats.concealed + lost }
    rin := rin.drop (rin.length - 4096), rinEnd := start + n }, xs)

/-- Blocks of 10 ms of Rin and Sin below −36 dBm0, −42.18 dBFS: how many in a row, and the Sin instant of the 25th (R133); `at_` is the
instant of the first. -/
def quietRun (n at_ : Nat) (xs ys : List Int) (q : Nat × Nat) : Nat × Nat :=
  (List.range (xs.length / n)).foldl (fun (q : Nat × Nat) i =>
    let a := (xs.drop (i * n)).take n
    let b := (ys.drop (i * n)).take n
    if atLeast (-4218) a || atLeast (-4218) b then (0, q.2)
    else (q.1 + 1, if q.1 = 24 then at_ + 10000000 * i else q.2)) q

/-- The codec task of a channel ends. -/
def State.voxFinish (s : State) (v : Nat) : State :=
  let c := s.voxChan v
  match c.task with
  | none => s
  | some t =>
    let (s, xs) := (s.setVox v { c with task := none }).voxRout v t
    let n := recRate c.rec_ / 100
    let q := quietRun n (t.tk - (recFrameMs c.rec_ + 1) * 1000000) xs t.sin (c.quiet, c.quietAt)
    let s := s.onVox v (fun c => { c with quiet := q.1, quietAt := q.2 })
    let fs := s.renderRate
    let s := (List.range (recFrameMs c.rec_ / 10)).foldl (fun s i =>
      s.voxTalk v (routPos fs (100 * n) ((t.k + i) * n)) ((xs.drop (i * n)).take n)) s
    s.voxSend v t

/-- The tasks that reach 8 ms after their tick by an instant end before it (R138). -/
def State.voxFinishBy (s : State) (t : Nat) : State :=
  s.voxOpenList.foldl (fun s v =>
    match (s.voxChan v).task with
    | some x => if x.tickAt + 8000000 ≤ t then s.voxFinish v else s
    | none => s) s

/-! ### Playout (R128) -/

/-- Media from `a` to `b` is all held. -/
def covered (held : List VoxPkt) : Nat → Int → Int → Bool
  | 0, a, b => decide (b ≤ a)
  | k + 1, a, b =>
    if b ≤ a then true
    else
      match held.find? (fun h => decide (h.ts ≤ a) && decide (a < h.ts + (h.dur : Int))) with
      | some h => covered held k (h.ts + h.dur) b
      | none => false

/-- One processing tick of the manager: the step and the new playout position (R128). -/
def Jitter.playout (j : Jitter) (r : List Byte) (tk : Nat) (talk : Bool) : Jitter × Int :=
  let clk : Int := recClock r
  let depth : Int := (tk : Int) - (min j.winPrev j.winCur + (j.q * 1000000000).fdiv clk)
  let diff := depth - j.target
  let spurt := j.held.any (fun h => h.spurt && decide (h.ts ≤ j.q) && decide (j.q < h.ts + (h.dur : Int)))
  let lim : Int := if talk then (if 40 * msNs < (diff.natAbs : Int) then 1250000 else 0) else 2500000
  let lim := lim * (recFrameMs r : Int) / 10
  let step : Int := if j.packets < 50 then 0 else if spurt then diff else max (-lim) (min lim diff)
  ({ j with q := j.q + (recFrameMs r : Int) * clk / 1000 + (step * clk).fdiv 1000000000, depth := depth }, step)

/-- The codec task of a channel for the tick. -/
def VoxChan.stage (c : VoxChan) (fs k tickAt tk : Nat) (sin sout : List Int) : VoxChan × Bool :=
  let r := c.rec_
  let fch := recRate r
  let n := fch * recFrameMs r / 1000
  let base : VoxTask :=
    { k := k, tickAt := tickAt, tk := tk, lead := n, units := 0, held := [], pieces := List.replicate (recFrameMs r / 10) false
      sin := sin, sout := sout, missed := false }
  if c.jb.packets = 0 then ({ c with task := some base }, false)
  else
    let j := c.jb
    let (j2, step) := j.playout r tk (c.talkAt (k * fs / 100))
    let np := recFrameMs r / 10
    let span := j2.q - j.q
    let fuel := j.held.length + 1
    let pieces := (List.range np).map (fun (i : Nat) =>
      let a := j.q + span * i / np
      let b := j.q + span * (i + 1) / np
      if span ≤ 0 then !covered j.held fuel j.q (j.q + 1)
      else decide (0 < b) && !covered j.held fuel (max 0 a) b)
    let lead := if 0 ≤ j.q then 0 else min n ((-j.q).toNat * fch / recClock r)
    let from_ := max 0 j.q
    let t := { base with
      lead := lead, units := j2.q - from_, held := j.held.map (fun h => (h.ts - from_, h.payload)), pieces := pieces }
    let j2 := { j2 with held := j2.held.filter (fun h => decide (j2.q < h.ts + (h.dur : Int))) }
    ({ c with jb := j2, task := some t }, step != 0)

/-! ### Sin and the canceller (R117, R132) -/

/-- Egress sample of a destination at a render position of the plane; newest frame first, `f` its number. -/
def egressPos (h : List Block) (f pos : Nat) : Int :=
  if f < pos / 32 then 0 else ((h.getD (f - pos / 32) Block.absent).samples).getD (pos % 32) 0

/-- The Sin frame of a tick at the channel rate: the samples from 11 or 21 ms to 1 ms before t_k (R117). -/
def State.voxSin (s : State) (v k : Nat) : List Int :=
  let c := s.voxChan v
  let fs := s.renderRate
  let fch := recRate c.rec_
  let ms := recFrameMs c.rec_
  let h := Cells.get (fun _ => []) s.mix.egress (0x1000 + v)
  let first : Int := (k * fch / 100 : Nat) - ((ms + 1) * fch / 1000 : Nat)
  (List.range (fch * ms / 1000)).map (fun (i : Nat) =>
    resample (Config.voxTap false fs fch) fch (resampleReach fs fch) ((first + i) * fs)
      (fun p => if p < 0 then 0 else egressPos h s.mgt.voice.frame p.toNat))

/-- Rin from index `i` on. -/
def rinWindow (rin : List Int) (stop : Nat) (i : Int) (n : Nat) : List Int :=
  let first : Int := (stop : Int) - rin.length
  (List.range n).map (fun (k : Nat) => if i + (k : Int) < first then 0 else rin.getD (i + (k : Int) - first).toNat 0)

/-- Least Q1.15 gain of the non-linear processor in double talk: −10 dB. -/
def duckFloor : Nat := 10363

/-- The canceller over 10 ms of Sin (R132): `far` ends with the Rin samples of the block, after 2,047 earlier ones. Near-end speech freezes
the coefficients in the block that has it. -/
def VoxChan.cancelBlock (c : VoxChan) (far sin : List Int) : VoxChan × List Int :=
  let n := sin.length
  let cut := fun (xs : List Int) => (xs ++ List.replicate n 0).take n
  let res := List.zipWith (fun x e => satS 32 (x - e)) sin (cut (Config.echoPredict c.coef far n))
  let now := far.drop 2047
  let near := Config.echoNear now sin res
  let active := Config.echoActive now
  let nlp := if c.forced then 2 else recEc c.rec_ / 2 % 4
  let gain : Int := (max duckFloor (min 32768 (Config.echoDuck now res)) : Nat)
  let erle := if active then Config.echoEnhance c.erle sin res else c.erle
  let out :=
    if nlp ≠ 0 ∧ active ∧ ¬ near then
      cut (if (recEc c.rec_).testBit 3 then Config.echoNoise c.noise n else Config.echoSuppress res)
    else if nlp = 2 ∧ active then res.map (fun x => roundShift (x * gain) 15)
    else res
  ({ c with
      coef := if near then c.coef else (Config.echoAdapt c.forced c.coef far res).take 4096
      near := near, noise := if active then c.noise else Config.echoBackground c.noise sin
      erle := erle, convMs := if ¬ active then c.convMs else if 2000 ≤ erle then c.convMs + 10 else 0 }, out)

/-- Convergence (R132, R141): 500 ms of Rin activity at 20 dB, once after a cold start. -/
def State.voxConverge (s : State) (v at_ : Nat) : State :=
  let c := s.voxChan v
  if 500 ≤ c.convMs ∧ ¬ c.converged then
    (s.setVox v { c with converged := true, forced := false }).voxEvent v 0x87 c.erle 0 at_
  else s

/-- The 10 ms blocks of a Sin frame; `start` is the Rin index of the first sample, `at_` the instant of the first block. -/
def State.cancelGo (v n : Nat) : Nat → Int → Nat → List Int → State → State × List Int
  | 0, _, _, _, s => (s, [])
  | k + 1, start, at_, sin, s =>
    let c := s.voxChan v
    let (c, out) := c.cancelBlock (rinWindow c.rin c.rinEnd (start - 2047) (2047 + n)) (sin.take n)
    let (s, rest) := State.cancelGo v n k (start + n) (at_ + 10000000) (sin.drop n) ((s.setVox v c).voxConverge v at_)
    (s, out ++ rest)

/-- The canceller (R132); bypassed: Sout is Sin and the coefficients stand still. -/
def State.voxCancel (s : State) (v k : Nat) (sin : List Int) : State × List Int :=
  let c := s.voxChan v
  let r := c.rec_
  if s.ecuOut (v / 32) ∨ recEc r % 2 = 0 ∨ c.ecDisabled then (s, sin)
  else
    let fch := recRate r
    let start : Int := (k * fch / 100 : Nat) - ((recFrameMs r + 12) * fch / 1000 : Nat) - (192 * fch / s.renderRate : Nat)
    State.cancelGo v (fch / 100) (recFrameMs r / 10) start (s.voxTick k - (recFrameMs r + 1) * 1000000) sin s

/-! ### Calls take effect (R119, R123, R124) -/

/-- An accepted call whose effective tick is this one. -/
def opDue (r : List Byte) (k tk : Nat) (o : VoxOp) : Bool :=
  onGrid r k && decide (o.req.time ≤ tk) && decide (o.req.accTime + 10000000 ≤ tk)

/-- One call acts. -/
def State.voxAct (s : State) (v tk : Nat) (o : VoxOp) : State :=
  let c := s.voxChan v
  let rest := c.ops.filter (fun p => p.req.index != o.req.index)
  match o.op with
  | 0x30 =>
    let s := s.callAudit v 0x30 [] c.rec_
    let closing := rest.any (fun p => p.op == 0x32)
    let c := { c.cold s.now with
      st := if closing then 3 else 2, ops := rest, lastRx := s.now, txSeq := leAt c.rec_ 88 2, txTs := leAt c.rec_ 84 4 }
    (s.setVox v c).finishAt c.ring o.req.index stOk 0 tk none
  | 0x31 =>
    if c.st < 2 ∨ c.closedAt.isSome then s
    else
      let s := s.callAudit v 0x31 c.rec_ o.record
      let c := { c with rec_ := o.record, ops := rest, jb := { c.jb with target := jbTarget o.record c.jb.s } }
      let c := if o.ecReset then c.cold s.now else c
      (s.setVox v c).finishAt c.ring o.req.index stOk 0 tk none
  | _ =>
    if c.st < 2 ∨ c.closedAt.isSome then s
    else
      let s := s.callAudit v 0x32 c.rec_ []
      let n := recRate c.rec_ / 200
      let keep := c.rin.length - n
      let rin := c.rin.take keep ++ rampBlock unity 0 n 0 (c.rin.drop keep)
      (s.setVox v { c with st := 3, closedAt := some tk, rin := rin }).setPhase c.ring o.req.index .committed

def State.voxActs (s : State) (k tk : Nat) : State :=
  s.voxOpenList.foldl (fun s v =>
    let c := s.voxChan v
    (c.ops.filter (opDue c.rec_ k tk)).foldl (fun s o => s.voxAct v tk o) s) s

/-! ### Detection (R132 to R134) -/

/-- A channel that processes at tick `k`. -/
def VoxChan.works (c : VoxChan) (k : Nat) : Bool :=
  decide (2 ≤ c.st) && c.closedAt.isNone && !c.suspended && onGrid c.rec_ k

/-- The frequencies of ITU-T Q.23 in Hz (PRESUMED: R134 names the recommendation). -/
def dtmfLow : List Nat := [697, 770, 852, 941]
def dtmfHigh : List Nat := [1209, 1336, 1477, 1633]
/-- Digits by low and high tone, as R136 codes them. -/
def dtmfDigits : List Nat := [1, 2, 3, 12, 4, 5, 6, 13, 7, 8, 9, 14, 10, 0, 11, 15]

/-- The tone of a list that a frequency in mHz is within `tol` thousandths of. -/
def toneOf (tol : Nat) (l : List Nat) (f : Nat) : Option Nat :=
  l.findIdx? (fun (x : Nat) => decide (1000 * x - f ≤ tol * x) && decide (f - 1000 * x ≤ tol * x))

/-- The digit of a pair of tones within a tolerance. -/
def dtmfDigit (tol lo hi : Nat) : Option Nat :=
  match toneOf tol dtmfLow lo, toneOf tol dtmfHigh hi with
  | some a, some b => dtmfDigits[4 * a + b]?
  | _, _ => none

/-- The digit that is recognised (R134): what lies between the limits of acceptance and of rejection is for the detector to say. -/
def dtmfFound (lo hi : Nat) (lvlLo lvlHi : Int) (ms : Nat) (accept : Bool) : Option Nat :=
  let inside := fun (l : Int) => decide (-3000 ≤ l) && decide (l ≤ 0)
  let sure := inside lvlLo && inside lvlHi && decide (lvlHi ≤ lvlLo + 400) && decide (lvlLo ≤ lvlHi + 800) && decide (40 ≤ ms)
  match dtmfDigit 15 lo hi, dtmfDigit 35 lo hi with
  | some d, _ => if sure then some d else if accept ∧ 20 ≤ ms then some d else none
  | none, some d => if accept ∧ 20 ≤ ms then some d else none
  | none, none => none

/-- A call-progress tone is accepted (R134): one or two tones of 300 to 660 Hz at −40 dBm0 or above for 100 ms. -/
def cptFound (f1 f2 : Nat) (level : Int) (ms : Nat) : Bool :=
  decide (300000 ≤ f1) && decide (f1 ≤ 660000) && (f2 == 0 || (decide (300000 ≤ f2) && decide (f2 ≤ 660000)))
    && decide (-4000 ≤ level) && decide (100 ≤ ms)

/-- An answer tone (R133), and whether its reversals are those that bypass a canceller. -/
def ansFound (freq : Nat) (level : Int) : Bool := decide (2079000 ≤ freq) && decide (freq ≤ 2121000) && decide (-3100 ≤ level)
def reversalsFound (phase interval : Nat) : Bool :=
  decide (155 ≤ phase) && decide (phase ≤ 205) && decide (425 ≤ interval) && decide (interval ≤ 475)

/-- A frequency in Hz. -/
def hz (f : Nat) : Nat := (f + 500) / 1000 % 65536

/-- What the detectors find in the frame of the tick (R133, R134). -/
def State.voxObserve (s : State) (k tk : Nat) (o : VoiceObs) : State :=
  let rinAt := tk + 11000000
  let sinAt := fun (c : VoxChan) => tk - (recFrameMs c.rec_ + 1) * 1000000
  let det := fun (c : VoxChan) (n : Nat) => (recDet c.rec_).testBit n
  let dir := fun (c : VoxChan) => if det c 3 then 256 else 0
  let at_ := fun (c : VoxChan) => if det c 3 then sinAt c else rinAt
  match o with
  | .dtmf v lo hi ll lh ms onset accept =>
    let c := s.voxChan v
    if c.works k ∧ det c 0 ∧ c.digit.isNone then
      match dtmfFound lo hi ll lh ms accept with
      | some d => (s.setVox v { c with digit := some d }).voxEvent v 0x80 (d + dir c) 0 onset
      | none => s
    else s
  | .dtmfBreak v gap ms ended =>
    let c := s.voxChan v
    match c.digit with
    | some d =>
      if c.works k ∧ 20 ≤ gap ∧ (40 ≤ gap ∨ ended) then
        let s := s.setVox v { c with digit := none }
        if det c 0 then s.voxEvent v 0x81 (d + dir c) ms (at_ c) else s
      else s
    | none => s
  | .cpt v f1 f2 level ms =>
    let c := s.voxChan v
    if c.works k ∧ det c 1 ∧ ¬ c.cptOn ∧ cptFound f1 f2 level ms then
      (s.setVox v { c with cptOn := true }).voxEvent v 0x82 (hz f1 + 65536 * hz f2) (pattern 16 level) (at_ c)
    else s
  | .cptEnd v ms =>
    let c := s.voxChan v
    if c.works k ∧ c.cptOn then
      let s := s.setVox v { c with cptOn := false }
      if det c 1 then s.voxEvent v 0x83 ms 0 (at_ c) else s
    else s
  | .answer v sin freq level phase interval =>
    let c := s.voxChan v
    let rev := reversalsFound phase interval
    if ¬ c.works k ∨ ¬ ansFound freq level then s
    else
      let t := if sin then sinAt c else rinAt
      let s := if det c 2 then s.voxEvent v 0x84 ((if rev then 1 else 0) + if sin then 256 else 0) 0 t else s
      if rev ∧ (recEc c.rec_).testBit 4 ∧ ¬ c.ecDisabled then
        (s.setVox v { c with ecDisabled := true, quiet := 0 }).voxEvent v 0x85 0 0 t
      else s

/-! ### VOX_QUERY (R137) -/

def State.voxResult (s : State) (v tk : Nat) : List Byte :=
  let c := s.voxChan v
  let x := c.stats
  let b := fun (p : Bool) (n : Nat) => if p then n else 0
  let lost : Int := if x.ssrc.isNone then 0 else x.expected + (x.highSeq - x.baseSeq + 1) - x.received
  let tenth := fun (d : Int) => satU 16 (d.fdiv 100000).toNat
  leBytes 8 tk ++ leBytes 4 x.received ++ leBytes 4 x.sent ++ leBytes 4 (pattern 32 lost) ++ leBytes 4 x.late ++ leBytes 4 x.dup
    ++ leBytes 4 (pattern 32 (x.jitter16.fdiv 16)) ++ leBytes 4 (pattern 32 x.highSeq) ++ leBytes 4 (x.ssrc.getD 0)
    ++ leBytes 2 (tenth c.jb.depth) ++ leBytes 2 (tenth c.jb.target) ++ leBytes 2 (satU 16 c.erle)
    ++ leBytes 1 (b c.converged 1 + b c.ecDisabled 2 + b (s.ecuOut (v / 32)) 4 + b (c.talkAt (32 * s.mgt.voice.frame)) 8
        + b c.key 16 + b c.suspended 32 + b (decide (c.jb.packets < 50)) 64)
    ++ [0] ++ leBytes 4 x.concealed ++ leBytes 4 x.octets ++ leBytes 4 x.lastTs ++ leBytes 4 0

def State.voxQueries (s : State) (v tk : Nat) : State :=
  let c := s.voxChan v
  let s := s.setVox v { c with queries := [] }
  c.queries.foldl (fun s q => (s.emit (.mem q.2 (s.voxResult v tk))).finishAt c.ring q.1 stOk 0 tk none) s

/-! ### VOICE_TICK (R116) -/

/-- One channel processes. -/
def State.voxProcess (s : State) (k tk v : Nat) : State :=
  let c := s.voxChan v
  if c.works k then
    let sin := s.voxSin v k
    let (s, sout) := s.voxCancel v k sin
    let (c, stepped) := (s.voxChan v).stage s.renderRate k s.now tk sin sout
    let s := s.setVox v c
    if stepped then s.bump (regVox 0x124) 1 else s
  else s

/-- The render frame that carries the next voice tick has been opened. -/
def State.voiceDue (s : State) : Bool := s.mgt.voice.run && decide (s.vox.nextK * s.renderRate ≤ 3200 * s.mgt.voice.frame)

/-- Voice tick k. -/
def State.voiceTick (s : State) (obs : List VoiceObs) : State :=
    let k := s.vox.nextK
    let tk := s.voxTick k
    let s := s.voxOpenList.foldl State.voxFinish s
    let s := (s.voxActs k tk).voxDegrade
    let s := s.voxOpenList.foldl (fun s v => s.voxProcess k tk v) s
    let s := obs.foldl (fun s o => s.voxObserve k tk o) s
    let s := s.voxOpenList.foldl (fun s v =>
      let c := s.voxChan v
      if decide (2 ≤ c.st) && onGrid c.rec_ k then s.voxQueries v tk else s) s
    { s with vox := { s.vox with nextK := k + 1 } }

/-! ### What the mix fabric takes (R94, R101, R117) -/

/-- Rout of a channel over a mix block, and its flags: each render sample is the filter of R118 over the channel samples around it. -/
def VoxChan.routBlock (c : VoxChan) (fs : Nat) (pos : Int) : List Int × Nat :=
  let fch := recRate c.rec_
  let d := routDelay fch
  let w := resampleReach fs fch
  let lo := (pos * fch - w).fdiv fs - d
  let near := rinWindow (c.rin ++ [0]) (c.rinEnd + 1) lo (((pos + 31) * fch + w).fdiv fs - d - lo + 1).toNat
  let hit := c.marks.any (fun m => decide (((m.1 + d : Nat) : Int) * fs < (pos + 32) * fch) && decide (pos * fch < ((m.2 + d : Nat) : Int) * fs))
  (if c.rin = [] then silence
    else (List.range 32).map (fun (i : Nat) =>
      resample (Config.voxTap true fs fch) fs w ((pos + i) * fch) (fun h => near.getD (h - d - lo).toNat 0)),
    if hit then flagConcealed else 0)

/-- What lies before a position is done with. -/
def VoxChan.drop (c : VoxChan) (fs : Nat) (pos : Int) : VoxChan :=
  let fch := recRate c.rec_
  { c with
    marks := c.marks.filter (fun m => decide (pos * fch < ((m.2 + routDelay fch : Nat) : Int) * fs))
    talk := (match (c.talk.filter (fun p => decide ((p.1 : Int) ≤ pos))).getLast? with | some p => [p] | none => [])
      ++ c.talk.filter (fun p => decide (pos < (p.1 : Int))) }

/-- Samples of a block during which a channel talks, as one span for each decision. -/
def VoxChan.talkSpans (c : VoxChan) (v : Nat) (pos : Int) : List (Nat × Nat × Nat) :=
  (c.talk.zipIdx.filter (fun p => p.1.2)).filterMap (fun p =>
    let a := ((p.1.1 : Int) - pos).toNat
    let b := match c.talk[p.2 + 1]? with | some q => ((q.1 : Int) - pos).toNat | none => 32
    if min 32 a < min 32 b then some (v, min 32 a, min 32 b) else none)

/-- Talkers and keys of the mix block (R101). -/
def State.voxTalkers (s : State) : Talk :=
  let pos := s.voxMixPos
  let work := s.vox.chans.filter (fun p => decide (2 ≤ p.2.st))
  { talking := (work.map (fun p => p.2.talkSpans p.1 pos)).flatten, keyed := (work.filter (fun p => p.2.key)).map (·.1)
    inUse := s.voxOpenList }

/-- After the mix block: the samples it used are gone. -/
def State.voxAdvance (s : State) : State :=
  let pos := s.voxMixPos + 32
  s.voxOpenList.foldl (fun s v => s.onVox v (fun c => c.drop s.renderRate pos)) s

/-- VOX_STATUS, VOX_CAP, VOX_ADMITTED and VOX_ECU_STATUS as they stand. -/
def State.voxStatus (s : State) : Word :=
  let b := fun (p : Bool) (n : Nat) => if p then 2 ^ n else 0
  let open_ := s.vox.chans.filter (fun p => p.2.st != 0)
  BitVec.ofNat 32 (b (s.flag (regVox 4) 19) 19 + b ((List.range 16).any s.ecuOut) 18 + b (open_.any (fun p => p.2.suspended)) 17
    + b (open_.any (fun p => p.2.reduced)) 16 + open_.length)
def State.ecuStatus (s : State) (u : Nat) : Word :=
  let open_ := s.vox.chans.filter (fun p => p.2.st != 0 && p.1 / 32 == u)
  BitVec.ofNat 32 ((if s.ecuOut u then 0 else 65536) + 256 * (open_.filter (fun p => p.2.converged)).length + open_.length)

end Sys2Proof.Machine
end

