-- ==== Sys2Proof/Machine/Wick.lean ====
section
/-!
DEFINITION. Machine/Wick.lean: the dataflow scheduler: graphs and their validation (R143 to R145, R164), instances and releases
(R146 to R148), levels and back-pressure (R149, R155 to R157), granting (R150 to R152, R159, R161), aging (R158), and the
trace (R162, R163).
-/
namespace Sys2Proof.Machine

/-! ### Node records (R144) -/

def ndNode (r : List Byte) : Nat := leAt r 0 2
def ndPlane (r : List Byte) : Nat := leAt r 2 1 % 4
def ndKind (r : List Byte) : Nat := leAt r 2 1 / 4 % 4
def ndRelease (r : List Byte) : Nat := leAt r 2 1 / 16 % 4
def ndFlowMode (r : List Byte) : Nat := leAt r 2 1 / 64
def ndLevel (r : List Byte) : Nat := leAt r 3 1 % 16
def ndClass (r : List Byte) : Nat := leAt r 3 1 / 16 % 8
def ndTarget (r : List Byte) : Nat := leAt r 4 1
def ndOffset (r : List Byte) : Nat := leAt r 5 1 % 4
def ndGrid (r : List Byte) : Nat := leAt r 5 1 / 4 % 2
def ndDlPct (r : List Byte) : Nat := leAt r 6 1
def ndInCount (r : List Byte) : Nat := leAt r 8 2
def ndRepeat (r : List Byte) : Nat := leAt r 10 2
def ndEdgeFirst (r : List Byte) : Nat := leAt r 12 2
def ndEdgeCount (r : List Byte) : Nat := leAt r 14 2
def ndFlowBase (r : List Byte) : Nat := leAt r 16 2
def ndKernel (r : List Byte) : Nat := leAt r 18 2
def ndArg (r : List Byte) : Nat := leAt r 20 4
def ndCost (r : List Byte) : Nat := leAt r 24 4
def ndIngress (r : List Byte) : Nat := leAt r 28 2

/-- Every field is in range and every reserved bit zero. -/
def nodeOk (r : List Byte) : Bool :=
  (ndPlane r == 1 || ndPlane r == 2) && decide (ndKind r ≤ 2) && decide (ndFlowMode r ≤ 2) && decide (ndClass r ≤ 6)
    && decide (leAt r 3 1 < 128)
    && (if ndKind r = 1 then decide (ndTarget r < 16) else if ndKind r = 2 then ndTarget r == 10 else ndTarget r == 0)
    && decide (leAt r 5 1 < 8) && decide (1 ≤ ndDlPct r) && decide (ndDlPct r ≤ 100) && (leAt r 7 1 == 0)
    && decide (ndInCount r ≤ 4096) && decide (1 ≤ ndRepeat r) && decide (ndRepeat r ≤ 4096) && decide (4096 ≤ ndEdgeFirst r)
    && decide (ndEdgeFirst r ≤ 16383) && decide (ndEdgeCount r ≤ 256)
    && decide (1 ≤ ndCost r) && decide (ndCost r ≤ 16777215) && decide (ndIngress r < 4096) && (leAt r 30 2 == 0)

/-- Nodes of images on a plane, each with its image. -/
def planeNodes (imgs : List Image) (p : Nat) : List (Image × List Byte) :=
  (imgs.map (fun i => (i.nodes.filter (fun r => ndPlane r == p)).map (fun r => (i, r)))).flatten

/-- Images in force on a plane. -/
def State.planeImages (s : State) (p : Nat) : List Image := if p = 1 then s.imgs.render else s.imgs.voice
/-- Nodes in force. -/
def State.liveNodes (s : State) : List (Image × List Byte) := planeNodes s.imgs.render 1 ++ planeNodes s.imgs.voice 2
def State.nodeOf (s : State) (n : Nat) : Option (Image × List Byte) := s.liveNodes.find? (fun p => ndNode p.2 == n)
/-- A kernel among images, for a plane, with the image that holds it (R144, R194). -/
def kernelIn (imgs : List Image) (p id : Nat) : Option (Image × Kernel) :=
  imgs.findSome? (fun i => (i.kernels.find? (fun k => k.id == id && k.plane == p)).map (fun k => (i, k)))
/-- The code of an image, in the upper 256 KiB of the program memories of a plane (R196). -/
def State.codeBase (s : State) (p id : Nat) : Nat :=
  let l := (s.planeImages p).map (fun i => (i.id, i.code.length))
  placeAt (fun i => Config.codeGap i p) 16 0x40000 (0x40000 - l.foldl (fun a x => a + x.2) 0) l id
/-- Clusters of a plane under the split in force. -/
def State.planeClusters (s : State) (p : Nat) : Nat := if p = 1 then s.mgt.split else 16 - s.mgt.split
/-- What lies in the tile memories of a plane, with its bytes: Gualbin's part (R89), under a number no image has, and the images. -/
def State.tileItems (s : State) (p : Nat) : List (Nat × Nat) :=
  (2 ^ 32, gualbinTile s.sliceList.length (s.planeClusters p) p) :: (s.planeImages p).map (fun i => (i.id, i.tileBytes))
/-- The tile region of an image, at the same offset in every cluster of a plane (R196). -/
def State.tileBase (s : State) (p id : Nat) : Nat :=
  let l := s.tileItems p
  placeAt (fun i => Config.tileGap i p) 256 0 (0x400000 - l.foldl (fun a x => a + x.2) 0) l id
/-- Gualbin's part of the tile memories of a plane (R89). -/
def State.gualbinTileBase (s : State) (p : Nat) : Nat := s.tileBase p (2 ^ 32)
/-- The DRAM region of an image, among the customer image regions (R234). -/
def Image.dramBase (i : Image) : Nat := 0x80000000 + 4096 * (Config.dramSlot i.id % ((2 ^ 32 - i.dramBytes) / 4096 + 1))
/-- The kernel of a node in force, and its image. -/
def State.kernelOf (s : State) (r : List Byte) : Option (Image × Kernel) := kernelIn (s.planeImages (ndPlane r)) (ndPlane r) (ndKernel r)
/-- The plane runs, and the ramp of a stop has not ended: from the boundary after it on, no further instance comes (R23). -/
def State.planeRuns (s : State) (p : Nat) : Bool :=
  let x := if p = 1 then s.mgt.render else s.mgt.voice
  x.run && !(match x.rampEnd with | some (n, _) => decide (n ≤ s.mgt.tick.count) | none => false)
/-- Nodes of a grid whose plane runs. -/
def State.gridNodes (s : State) (g : Nat) : List (Image × List Byte) :=
  s.liveNodes.filter (fun p => ndGrid p.2 == g && s.planeRuns (ndPlane p.2))
/-- Successors of a node, by the edge records of images (R144). -/
def successors (imgs : List Image) (r : List Byte) : List Nat :=
  ((imgs.map (fun i => i.edges)).flatten.filter (fun e =>
    decide (ndEdgeFirst r ≤ e.1) && decide (e.1 < ndEdgeFirst r + ndEdgeCount r))).map (·.2)
/-- Successors of a node in force. -/
def State.succOf (s : State) (r : List Byte) : List Nat := successors (s.planeImages (ndPlane r)) r

/-- The flow of an item (R145). -/
def nodeFlow (r : List Byte) (key : Nat) : Nat :=
  if ndFlowMode r = 0 then 0 else if ndFlowMode r = 1 then ndFlowBase r else 1 + (ndFlowBase r + key - 1) % 0xEFFF
/-- Period of a grid in ns (R147). -/
def State.gridNs (s : State) (g : Nat) : Nat := if g = 0 then s.samplesNs 32 else 10000000
/-- Deadline of a node's item in an instance (R147): none while the tick it counts from is yet to come. -/
def State.deadlineOf (s : State) (i : WInst) (r : List Byte) : Option Nat :=
  (i.ticks[ndOffset r]?).map (fun t => t + ndDlPct r * s.gridNs (ndGrid r) / 100)
/-- A deadline has passed. -/
def State.pastDeadline (s : State) (d : Option Nat) : Bool := match d with | some d => decide (d < s.now) | none => false

/-! ### Registers that act at a boundary -/

/-- The value in force of a register whose change waits for the next render frame boundary while a plane runs. -/
def State.effReg (s : State) (off : Nat) : Word := (Cells.get (fun _ => none) s.heldRegs off).getD (s.reg off)
def State.wckTimeout (s : State) : Nat := min 100000000 (max 1000 (s.effReg 0x50008).toNat)
def State.wckAge (s : State) : Nat := min 1000000000 (max 1000 (s.effReg 0x50004).toNat)
def State.classCeil (s : State) (c : Nat) : Nat := min 13 (field (s.effReg (0x50080 + 4 * c)) 3 0)
def State.levelCap (s : State) (l : Nat) : Nat := s.fld (0x50040 + 4 * l) 12 0

/-! ### Trace (R162, R163) -/

def State.onWick (s : State) (f : Wick → Wick) : State := { s with wick := f s.wick }

/-- A record joins the trace buffer, which ring 5 drains; source 50 at the upward crossing of LEVEL. -/
def State.traceRecord (s : State) (r : TraceRec) : State :=
  let before := s.wick.trace.length
  let s := (s.onWick (fun w => { w with trace := w.trace ++ [r] })).drain 5
  let l := min 4096 (max 1 (s.fld 0x5000C 28 16))
  if before < l ∧ l ≤ s.wick.trace.length then s.fireOpen 50 else s

/-- The plane of an item: its node's, or for a Vigil item its cluster's. -/
def State.itemPlane (s : State) (it : WItem) : Nat :=
  match it.vigil with
  | some c => if c < s.mgt.split then 1 else 2
  | none => match s.nodeOf it.node with | some (_, r) => ndPlane r | none => 0

/-- A record that finds the buffer full is lost. -/
def State.traceLost (s : State) : State :=
  ((s.bump 0x5012C 1).setFlag 0x50000 17 true).onWick (fun w => { w with lost := w.lost + 1 })

/-- A decision is traced where its event is enabled; a LOST record goes before the first after a loss. -/
def State.trace (s : State) (code : Nat) (it : WItem) (core : Nat) (abort slice : Bool) : State :=
  if ¬ s.flag 0x5000C 31 ∨ ¬ s.flag 0x5000C code then s
  else
    let s := if s.wick.lost = 0 ∨ 4096 ≤ s.wick.trace.length then s
      else
        (s.traceRecord { time := s.now, event := 0x0A, level := 0, plane := 0, abort := false, slice := false, node := 0
                         flow := satU 16 s.wick.lost, core := 0xFF, inst := 0 }).onWick (fun w => { w with lost := 0 })
    if 4096 ≤ s.wick.trace.length then s.traceLost
    else
      s.traceRecord { time := s.now, event := code, level := it.level, plane := s.itemPlane it, abort := abort, slice := slice
                      node := it.node, flow := it.flow, core := core, inst := it.num % 256 }

/-! ### Levels (R149, R155 to R157) -/

def State.levelFill (s : State) (l : Nat) : Nat := (s.wick.items.filter (fun i => i.level == l)).length
def State.reserveFill (s : State) : Nat := (s.wick.items.filter (·.reserve)).length
/-- The level holds CAP items. -/
def State.levelFull (s : State) (l : Nat) : Bool := decide (s.levelCap l ≤ s.levelFill l)
/-- The ready list has an entry outside the reserve. -/
def State.listRoom (s : State) : Bool := decide (s.wick.items.length < 7680 + s.reserveFill)
/-- A producer enters the level directly: it is OPEN. -/
def State.levelOpen (s : State) (l : Nat) : Bool := !s.wick.full.contains l && s.listRoom

/-- A host mailbox node, and its ring (R198). -/
def mailboxRing (node : Nat) : Option Nat := if 0x3FC ≤ node ∧ node ≤ 0x3FF then some (60 + (node - 0x3FC)) else none

/-- The level a POST goes to; none for a mailbox. -/
def State.postLevel (s : State) (q : WPost) : Option Nat :=
  match mailboxRing q.target with
  | some _ => none
  | none => match s.nodeOf q.target with | some (_, r) => some (ndLevel r) | none => some 0

/-- The levels take their state after a change: FULL where the fill has reached CAP, or a POST is blocked that waited for a FULL level;
source 48 for each level that becomes FULL (R156, R157). -/
def State.levelSettle (s : State) : State :=
  let old := s.wick.full
  let full := (List.range 16).filter (fun l =>
    s.levelFull l || (old.contains l && s.wick.blocked.any (fun q => s.postLevel q == some l)))
  (full.filter (fun l => !old.contains l)).foldl (fun s _ => s.fireOpen 48) (s.onWick (fun w => { w with full := full }))

/-- Earlier waiting items of the flow rise to the level (R151): those that became ready before `ready`. -/
def State.raiseEarlier (s : State) (ready flow level : Nat) : State :=
  if flow = 0 then s
  else
    (List.range s.wick.items.length).foldl (fun s i =>
      match s.wick.items[i]? with
      | some it =>
        if it.flow = flow ∧ it.level < level ∧ it.ready < ready then
          let it := { it with level := level, tLvl := s.now }
          (s.onWick (fun w => { w with items := w.items.set i it })).trace 0x03 it 0xFF false false
        else s
      | none => s) s

/-- An item enters the ready list. -/
def State.enterItem (s : State) (it : WItem) : State :=
  let t := (s.onWick (fun w => { w with items := w.items ++ [it] })).raiseEarlier it.ready it.flow it.level
  (t.onWick (fun w => { w with reserveMax := max w.reserveMax t.reserveFill })).levelSettle

/-- An item whose producer cannot wait (R156). -/
def State.releaseItem (s : State) (it : WItem) : State :=
  if s.levelOpen it.level then s.enterItem it
  else if s.reserveFill < 512 then
    let it := { it with reserve := true }
    (((s.bump 0x50118 1).enterItem it).trace 0x07 it 0xFF false false).fireOpen 48
  else ((s.bump 0x5011C 1).trace 0x08 it 0xFF false false).fireOpen 48

/-- A new item of a node in an instance. -/
def State.newItem (s : State) (i : WInst) (r : List Byte) (key data : Nat) : WItem :=
  { node := ndNode r, grid := i.grid, num := i.num, key := key % 65536, data := data % 2 ^ 32, level := ndLevel r
    ready := s.now, tLvl := s.now, flow := nodeFlow r (key % 65536), deadline := s.deadlineOf i r, reserve := false, vigil := none }

/-! ### Instances (R146, R148) -/

def State.instOf (s : State) (g num : Nat) : Option WInst := s.wick.insts.find? (fun i => i.grid == g && i.num == num)
/-- The newest live instance of a grid. -/
def State.newestInst (s : State) (g : Nat) : Option WInst := (s.wick.insts.filter (fun i => i.grid == g)).getLast?

/-- Work of an instance waits or is in service. -/
def State.instWorks (s : State) (g num : Nat) : Bool :=
  let mine := fun (x : WItem) => x.vigil.isNone && x.grid == g && x.num == num
  s.wick.items.any mine || s.wick.tasks.any (fun t => mine t.item)

/-- An item of an instance has completed or expired: where it was the last, and no tick is to come that releases more, the join
counters of the instance free (R148). -/
def State.joinsFree (s : State) (g num : Nat) : State :=
  let more := match s.instOf g num with
    | some i => (s.gridNodes g).any (fun p => ndRelease p.2 == 1 && decide (i.ticks.length ≤ ndOffset p.2))
    | none => false
  if s.instWorks g num || more then s
  else s.onWick (fun w => { w with joins := w.joins.filter (fun j => !(j.grid == g && j.num == num)) })

/-- An item expires (R147). -/
def State.expireItem (s : State) (it : WItem) : State := (s.bump 0x50120 1).trace 0x06 it 0xFF false false

/-- Waiting items that a test picks expire. -/
def State.expireWhere (s : State) (p : WItem → Bool) : State :=
  let gone := s.wick.items.filter p
  let s := s.onWick (fun w => { w with items := w.items.filter (fun i => !p i) })
  (gone.foldl (fun s i => (s.expireItem i).joinsFree i.grid i.num) s).levelSettle

/-- An instance is retired to make room (R148). -/
def State.retireInst (s : State) (i : WInst) : State :=
  let mine := fun (g n : Nat) => g == i.grid && n == i.num
  let s := s.expireWhere (fun x => x.vigil.isNone && mine x.grid x.num)
  let s := s.onWick (fun w =>
    { w with
      joins := w.joins.filter (fun j => !mine j.grid j.num), insts := w.insts.filter (fun x => !mine x.grid x.num) })
  (s.setFlag 0x50000 19 true).fireOpen 48

/-- An instance still has work, or a deadline ahead; without nodes of its grid it lasts until the next tick. -/
def State.instLive (s : State) (i : WInst) : Bool :=
  s.instWorks i.grid i.num || (s.gridNodes i.grid).any (fun p => !s.pastDeadline (s.deadlineOf i p.2))

/-- Instances that are over leave. -/
def State.pruneInsts (s : State) : State :=
  let keep := s.wick.insts.filter s.instLive
  s.onWick (fun w =>
    { w with insts := keep, joins := w.joins.filter (fun j => keep.any (fun i => i.grid == j.grid && i.num == j.num)) })

/-- The instant of a tick joins the instances of its grid, and waiting items whose deadline counts from it get theirs (R147). -/
def State.tickInsts (s : State) (g : Nat) : State :=
  let t := s.mgt.tick.last
  let s := s.onWick (fun w =>
    { w with insts := w.insts.map (fun i => if i.grid = g ∧ i.ticks.length < 4 then { i with ticks := i.ticks ++ [t] } else i) })
  s.onWick (fun w => { w with items := w.items.map (fun it =>
    if it.grid = g ∧ it.vigil.isNone ∧ it.deadline.isNone then
      (match s.instOf g it.num, s.nodeOf it.node with
      | some i, some (_, r) => { it with deadline := s.deadlineOf i r }
      | _, _ => it)
    else it) })

/-- A plane whose nodes may lie on a grid runs: the grid has an instance at each of its ticks. -/
def State.gridRuns (s : State) (g : Nat) : Bool := !(s.gridNodes g).isEmpty || s.planeRuns (g + 1)

/-- A tick of a grid: a new instance, and the items that tick release (R146, R148). -/
def State.wickTick (s : State) (g num : Nat) : State :=
  let nodes := s.gridNodes g
  let s := s.pruneInsts
  if ¬ s.gridRuns g then s
  else
    let live := s.wick.insts.filter (fun i => i.grid == g)
    let s := if 4 ≤ live.length then (match live.head? with | some i => s.retireInst i | none => s) else s
    let s := (s.onWick (fun w => { w with insts := w.insts ++ [{ grid := g, num := num, ticks := [] }] })).tickInsts g
    (s.wick.insts.filter (fun i => i.grid == g)).foldl (fun s i =>
      (nodes.filter (fun p => ndRelease p.2 == 1 && i.num + ndOffset p.2 == num)).foldl (fun s p =>
        (List.range (ndRepeat p.2)).foldl (fun s k => s.releaseItem (s.newItem i p.2 k i.num)) s) s) s

/-- A committed ingress block (R146). -/
def State.wickIngress (s : State) (chan seq : Nat) : State :=
  (s.liveNodes.filter (fun p => ndRelease p.2 == 3 && ndIngress p.2 == chan && s.planeRuns (ndPlane p.2))).foldl (fun s p =>
    match s.newestInst (ndGrid p.2) with
    | some i => s.releaseItem (s.newItem i p.2 (seq % 65536) i.num)
    | none => s) s

/-- Every channel that some node takes its items from. -/
def State.ingressChannels (s : State) : List Nat :=
  ((s.liveNodes.filter (fun p => ndRelease p.2 == 3)).map (fun p => ndIngress p.2)).eraseDups

/-! ### Posts (R153, R155, R197, R198) -/

/-- What a POST comes to. -/
inductive Posted where
  | done | block | expired
  deriving DecidableEq, Repr

/-- A POST would need a join counter that does not exist yet. -/
def State.needsJoin (s : State) (q : WPost) : Bool :=
  match s.nodeOf q.target with
  | some (_, r) => decide (1 < ndInCount r) && !(s.wick.joins.any (fun j => j.node == q.target && j.grid == q.grid && j.num == q.num))
  | none => false

/-- A POST is tried; `oldest`: it is the oldest that waits for its level, and takes the entry that has become free (R155, R157). -/
def State.tryPost (s : State) (q : WPost) (oldest : Bool) : Posted × State :=
  match mailboxRing q.target with
  | some r =>
    if s.d2hFull r then (.block, s)
    else
      let s := s.writeD2h r
        { code := 1, flags := 0, bits := q.src, w1 := BitVec.ofNat 32 (q.key + 65536 * (q.num % 256)), w2 := BitVec.ofNat 32 q.data
          w3 := 0, time := q.since, payload := [] }
      (.done, s.fireRing 23 r)
  | none =>
    match s.nodeOf q.target, s.instOf q.grid q.num with
    | some (_, r), some i =>
      let it := s.newItem i r q.key q.data
      if s.pastDeadline it.deadline then (.expired, s.expireItem it)
      else
        let n := ndInCount r
        let j := s.wick.joins.find? (fun j => j.node == q.target && j.grid == q.grid && j.num == q.num)
        let c := match j with | some j => j.count | none => 0
        let others := s.wick.joins.filter (fun j => !(j.node == q.target && j.grid == q.grid && j.num == q.num))
        if n ≤ c + 1 then
          if (if oldest then !s.levelFull it.level && s.listRoom else s.levelOpen it.level) then
            (.done, (s.onWick (fun w => { w with joins := others })).enterItem it)
          else (.block, s)
        else if j.isNone ∧ 16384 ≤ s.wick.joins.length then (.block, s)
        else
          (.done, s.onWick (fun w =>
            { w with joins := others ++ [{ node := q.target, grid := q.grid, num := q.num, count := c + 1 }] }))
    | _, _ => if q.core.isNone then (.block, s) else (.expired, s)

/-- What a blocked POST waits for: a mailbox ring (100 up), a join counter (200), a graph not yet in force (201), or its level. -/
def State.postPlace (s : State) (q : WPost) : Nat :=
  match mailboxRing q.target with
  | some r => 100 + r
  | none =>
    if s.needsJoin q then 200
    else match s.nodeOf q.target with | some (_, r) => ndLevel r | none => 201

def WPost.item (s : State) (q : WPost) : WItem :=
  { node := q.target, grid := q.grid, num := q.num, key := q.key, data := q.data, level := (s.postLevel q).getD 0, ready := q.since
    tLvl := q.since
    flow := match s.nodeOf q.target with | some (_, r) => nodeFlow r q.key | none => 0
    deadline := none, reserve := false, vigil := none }

/-- Blocked POSTs stand in the order they blocked, those of one instant by core index and a host's last (R155). -/
def postBefore (a b : WPost) : Bool :=
  decide (a.since < b.since) || (a.since == b.since && decide (a.core.getD 128 ≤ b.core.getD 128))

/-- A POST blocks (R155). -/
def State.blockPost (s : State) (q : WPost) : State :=
  ((s.bump 0x5010C 1).onWick (fun w =>
    { w with blocked := w.blocked.filter (fun x => postBefore x q) ++ q :: w.blocked.filter (fun x => !postBefore x q) })).trace 0x04
      (q.item s) (q.core.getD 0xFF) false false

/-- Register numbers of a core (R173). -/
def coreDflt (_ : Nat) : LCore := LCore.idle0
def State.core (s : State) (c : Nat) : LCore := Cells.get coreDflt s.lan.cores c
def State.setCore (s : State) (c : Nat) (x : LCore) : State :=
  { s with lan := { s.lan with cores := Cells.put coreDflt s.lan.cores c x } }
def State.onCore (s : State) (c : Nat) (f : LCore → LCore) : State := s.setCore c (f (s.core c))

/-- The result of a core's POST returns: it can be read from the next bundle on. -/
def State.postReturn (s : State) (c dest code : Nat) : State :=
  s.onCore c (fun x => { x with freeze := none, flight := x.flight ++ [{ land := x.issued, reg := dest, val := code }] })

/-- A post that waited has ended: 0 posted, 1 timed out, 3 expired. -/
def State.postEnds (s : State) (q : WPost) (code : Nat) : State :=
  match q.core with
  | some c =>
    (match (s.core c).freeze with
    | some (.post d) => s.postReturn c d code
    | _ => s)
  | none =>
    if code = 0 then s.finishAt q.ring q.index stOk 0 s.now (some (BitVec.ofNat 32 (q.num % 256 + 256 * (s.postLevel q).getD 0)))
    else s.finish q.ring q.index 0x0708

/-- A host's POST joins the newest live instance of its grid (R197). -/
def State.aimPost (s : State) (q : WPost) : WPost :=
  if q.core.isSome then q else { q with num := ((s.newestInst q.grid).map (·.num)).getD q.num }

/-- The oldest blocked POST of each place is tried in turn; `tried` are the places that still block. -/
def State.admitGo : List WPost → List Nat → State → State
  | [], _, s => s
  | q :: qs, tried, s =>
    let a := s.aimPost q
    let l := s.postPlace a
    if tried.contains l then State.admitGo qs tried s
    else
      let (p, t) := s.tryPost a true
      match p with
      | .block => State.admitGo qs (l :: tried) s
      | _ =>
        let t := (t.onWick (fun w => { w with blocked := w.blocked.filter (fun x => !(x == q)) })).levelSettle
        let t := if p == .done then t.trace 0x05 (a.item t) (a.core.getD 0xFF) false false else t
        t.postEnds a (if p == .done then 0 else 3)

/-- POST_ADMIT (R155): an entry of a level, a join counter or a mailbox has become free. -/
def execPostAdmit (s : State) : Res := .next (State.admitGo s.wick.blocked [] s)

/-- POST_TIMEOUT (R155): posts blocked for WCK_POST_TIMEOUT_NS end. -/
def execPostTimeout (dt : Nat) (s : State) : Res :=
  let s := s.elapse dt
  let due := s.wick.blocked.filter (fun q => decide (q.since + s.wckTimeout ≤ s.now))
  let s := (s.onWick (fun w => { w with blocked := w.blocked.filter (fun q => !due.contains q) })).levelSettle
  .next (due.foldl (fun s q =>
    ((s.bump 0x50110 1).trace 0x09 (q.item s) (q.core.getD 0xFF) false false).postEnds q 1) s)

/-! ### Granting (R150 to R152, R159 to R161) -/

/-- A removal or reset of a block holding this core stops grants from boundary F − 1 on (R21). -/
def State.stopGrant (s : State) (t : Nat) : Bool :=
  s.mgt.ctl.any (fun c => c.reserved && (c.action == 1 || c.action == 3) && (c.target == t || (0xC0 ≤ c.target && c.target % 16 == t / 8 && c.target < 0xD0))
    && decide (c.req.time ≤ s.mgt.tick.last + s.samplesNs 32) && (c.req.accOnTick || decide (c.req.accFrame + 1 ≤ s.mgt.tick.count)))

/-- The highest-numbered core in service of a cluster. -/
def State.topCore (s : State) (c : Nat) : Option Nat :=
  ((List.range 8).filter (fun k => !s.isOut (8 * c + k))).getLast?.map (fun k => 8 * c + k)

/-- The item may go to the resource: a core by number, or engine 0x80 + e (R150). -/
def State.eligibleItem (s : State) (res : Nat) (it : WItem) : Bool :=
  let flowFree := it.flow == 0 || (!(s.wick.tasks.any (fun t => t.item.flow == it.flow))
    && !(s.wick.items.any (fun e => e.flow == it.flow && decide (e.ready < it.ready))))
  if s.wick.quarantine.contains it.node then false
  else
    match it.vigil with
    | some c => decide (res < 128) && res / 8 == c
    | none =>
      match s.nodeOf it.node with
      | none => false
      | some (_, r) =>
        flowFree && !s.pastDeadline it.deadline
          && (if 128 ≤ res then ndKind r == 2 && ndTarget r + 128 == res
              else ndPlane r == s.clusterPlane (res / 8) && (ndKind r == 0 || (ndKind r == 1 && ndTarget r == res / 8)))

/-- Highest level, then first ready, then lower node, then lower key. -/
def beatsItem (a b : WItem) : Bool :=
  decide (b.level < a.level) || (a.level == b.level && (decide (a.ready < b.ready) || (a.ready == b.ready &&
    (decide (a.node < b.node) || (a.node == b.node && decide (a.key < b.key))))))

/-- The item Wick would grant: of the eligible ones, the one that no other comes before. -/
def State.pickGo (s : State) (res : Nat) : List WItem → Option WItem → Option WItem
  | [], best => best
  | it :: l, best =>
    State.pickGo s res l
      (if s.eligibleItem res it then
        (match best with
        | none => some it
        | some b => if beatsItem it b then some it else some b)
      else best)

/-- The state a task starts in (R152, R186): where the kernel is placed, its tile region for a customer kernel. -/
def taskEntry (x : LCore) (g : List Nat) (p7 pc : Nat) : LCore :=
  let put := fun (t : Cells Word) (k v : Nat) => Cells.put (fun _ => 0) t k (BitVec.ofNat 32 v)
  let r := put (put (put (put (put (put [] 0 (g.getD 0 0)) 1 (g.getD 1 0)) 2 (g.getD 2 0)) 3 (g.getD 3 0)) 39 p7) 74 0xF00
  { x with
    st := 1, r := r, acc := [], tcmp := 0, pc := pc % 2 ^ 19, issued := 0, flight := [], bundle := [], branch := none, chain := []
    inHandler := false, dmaPend := false, freeze := none }

/-- An item is granted. -/
def State.grant (s : State) (res : Nat) (it : WItem) (slice : Bool) : State :=
  let s := (s.onWick (fun w =>
    { w with items := w.items.erase it, tasks := w.tasks ++ [{ item := it, res := res, slice := slice }] })).levelSettle
  let s := ((s.bump 0x50100 1).trace 0x01 it res false slice)
  if 128 ≤ res then s
  else
    let g0 := it.node + 4096 * it.level + 65536 * (it.num % 256) + (if slice then 2 ^ 24 else 0)
    let (arg, p7, pc) := match it.vigil, s.nodeOf it.node with
      | none, some (_, r) =>
        let p := ndPlane r
        (match s.kernelOf r with
        | some (i, k) => (ndArg r, s.tileBase p i.id, s.codeBase p i.id + k.entry)
        | none => (ndArg r, 0, 0))
      | _, _ => (0, 0, 0)
    s.onCore res (fun x => taskEntry x [g0, it.flow + 65536 * it.key, arg, it.data] p7 pc)

/-- DISPATCH (R150): a core in WAIT.TASK or an engine asks. -/
def execDispatch (dt res : Nat) (s : State) : Res :=
  let s := s.elapse dt
  let ask := if res < 128 then
      (s.core res).st == 0 && !s.isOut res && !s.stopGrant res && s.clusterLive (res / 8)
    else decide (res < 144)
  if ¬ ask then .next s
  else
    let cl := res / 8
    let mine := decide (res < 128) && s.wick.guard && s.wick.slices.contains cl && s.topCore cl == some res
    let slice := if mine then s.wick.items.find? (fun i => i.vigil == some cl && !s.wick.quarantine.contains i.node) else none
    let past := if mine then s.onWick (fun w => { w with slices := w.slices.filter (· != cl) }) else s
    match slice with
    | some it => .next ((past.bump 0x50128 1).grant res it true)
    | none =>
      match State.pickGo s res s.wick.items none with
      | some it => .next (past.grant res it false)
      | none => .next s

/-- A task leaves service (R152, R160). An aborted task of a customer node leaves an output block of its plane bad (R18, R364). -/
def State.taskEnds (s : State) (t : WTask) (abort : Bool) : State :=
  let s := s.onWick (fun w => { w with tasks := w.tasks.filter (fun x => !(x == t)) })
  let s := (s.trace 0x02 t.item t.res abort t.slice).joinsFree t.item.grid t.item.num
  if ¬ abort then s
  else
    let s := s.bump 0x50124 1
    if t.item.vigil.isSome then s else s.badBlock (s.itemPlane t.item)

def State.taskOf (s : State) (res : Nat) : Option WTask := s.wick.tasks.find? (fun t => t.res == res)

/-- The task of a core is aborted (R188): its blocked POST is withdrawn, its registers are lost, its transfers run on. -/
def State.abortTask (s : State) (c : Nat) : State :=
  match s.taskOf c with
  | none => s
  | some t =>
    let s := (s.onWick (fun w => { w with blocked := w.blocked.filter (fun q => q.core != some c) })).levelSettle
    let s := s.onCore c (fun x =>
      { LCore.idle0 with
        dma := x.dma, aovSeen := x.aovSeen, segs := x.segs, passDone := x.passDone
        st := if x.st = 1 then 0 else x.st })
    s.taskEnds t true

/-- EXPIRE (R147): items not granted by their deadline. -/
def execExpire (dt : Nat) (s : State) : Res :=
  let s := s.elapse dt
  .next (s.expireWhere (fun i => s.pastDeadline i.deadline))

/-! ### Aging (R158) -/

/-- The class of an item. -/
def State.itemClass (s : State) (it : WItem) : Nat :=
  if it.vigil.isSome then 7 else match s.nodeOf it.node with | some (_, r) => ndClass r | none => 0

/-- One item of the scan. -/
def State.ageOne (s : State) (i : Nat) : State :=
  match s.wick.items[i]? with
  | none => s
  | some it =>
    let ceil := s.classCeil (s.itemClass it)
    if ceil ≤ it.level ∨ s.now < it.tLvl + s.wckAge then s
    else
      let it := { it with level := it.level + 1, tLvl := s.now }
      let s := ((s.onWick (fun w => { w with items := w.items.set i it })).trace 0x03 it 0xFF false false).bump 0x50104 1
      let s := if it.level = ceil then (s.bump 0x50108 1).fireOpen 49 else s
      s.raiseEarlier it.ready it.flow it.level

/-- AGING_SCAN: every waiting item in ready order. -/
def execAgingScan (dt : Nat) (s : State) : Res :=
  let s := s.elapse dt
  .next ((List.range s.wick.items.length).foldl State.ageOne s).levelSettle

/-! ### WCK_LEVEL (R149) -/

/-- A write of WCK_LEVEL[l].CAP. -/
def levelCapWrite (s : State) (o : Origin) (l : Nat) (v : Word) : State :=
  let cap := field v 12 0
  let others := (List.range 16).foldl (fun a k => if k = l then a else a + s.levelCap k) 0
  if s.anyRun ∨ cap < 16 ∨ 7680 < cap ∨ 7680 < others + cap then s.setFlag 0x50000 18 true
  else (s.loggedWrite o (0x50040 + 4 * l) (BitVec.ofNat 32 cap)).levelSettle

def execLevelCapWrite (l : Nat) (v : Word) (origin : Origin) (s : State) : Res :=
  .next (if l < 16 then levelCapWrite s origin l v else s)

/-- WCK_STATUS as it stands. -/
def State.wckStatus (s : State) : Word :=
  let bp := (List.range 16).foldl (fun a l => if s.wick.full.contains l then a + 2 ^ l else a) 0
  BitVec.ofNat 32 ((s.reg 0x50000).toNat / 2 ^ 17 * 2 ^ 17 + (if s.wick.guard then 2 ^ 16 else 0) + bp)

/-! ### Validation (R145, R164) -/

/-- Objects and outputs in use. -/
def State.inUse (s : State) : Nat × Nat :=
  ((s.rnd.objects.live.objs.filter (fun p => p.2.enable)).length, s.sliceList.length)

/-- Cycles a second of Gualbin's render graph: the table of R164 for the objects and outputs in use. -/
def State.gualbinLoad (s : State) : Nat :=
  let (objs, outs) := s.inUse
  (objs * 2000 + outs * 16000 + 600000 + (objs + 2 * outs) * 300 + 256 * 400) * (s.renderRate / 32)

/-- Items a second that a node releases. -/
def State.nodeRate (s : State) (r : List Byte) : Nat :=
  (if ndGrid r = 0 then s.renderRate / 32 else 100) * (if ndRelease r = 1 then ndRepeat r else 1)

/-- Clusters a plane needs (R164): by tile memory, which R89 adds to for the Render plane (24,960 bytes an output, 96 KiB of work space a
cluster), and by load. -/
def State.planeNeed (s : State) (imgs : List Image) (p : Nat) : Nat :=
  let nodes := planeNodes imgs p
  let mine := imgs.filter (fun i => if p = 1 then i.render else i.voice)
  let own := mine.foldl (fun a i => a + i.tileBytes) 0
  let tile := if p = 1 then ceilDiv (own + s.inUse.2 * 24960) (4194304 - 98304) else ceilDiv own 4194304
  let d := nodes.foldl (fun a n => a + ndCost n.2 * s.nodeRate n.2) (if p = 1 then s.gualbinLoad else 0)
  max (max tile (ceilDiv d 8640000000)) (if nodes = [] then 0 else 1)

/-- The nodes that can be ordered with every successor behind them are removed in rounds; a cycle leaves some. -/
def acyclic (succ : Nat → List Nat) : Nat → List Nat → Bool
  | 0, ns => ns == []
  | k + 1, ns =>
    let rest := ns.filter (fun n => (succ n).any ns.contains)
    if rest = [] then true else acyclic succ k rest

def noDup (l : List Nat) : Bool := l.eraseDups.length == l.length

/-- The images that a start of a plane brings into force (R196): held ones, or what replaces them. -/
def Images.next (m : Images) (p : Nat) : List Image :=
  let mine := fun (i : Image) => if p = 1 then i.render else i.voice
  let new := m.staged.filter mine
  m.held.filter (fun i => mine i && !new.any (fun j => j.id == i.id)) ++ new

/-- The images a plane will run with if the planes of a mask start (bit 0 Render, bit 1 Voice). -/
def State.imagesFor (s : State) (planes p : Nat) : List Image :=
  if planes.testBit (p - 1) || !s.planeRuns p then s.imgs.next p else s.planeImages p

/-- Edges that belong to a node of the plane. -/
def ownedEdges (imgs : List Image) (p : Nat) : List Nat :=
  let nodes := planeNodes imgs p
  ((imgs.map (fun i => i.edges)).flatten.map (·.1)).filter (fun e =>
    nodes.any (fun n => decide (ndEdgeFirst n.2 ≤ e) && decide (e < ndEdgeFirst n.2 + ndEdgeCount n.2)))

/-- Checks of all graphs that will run once the planes of a mask start, in the order of R145. -/
def State.validate (s : State) (planes : Nat) : Option Nat :=
  let ps := [1, 2].filter (fun p => planes.testBit (p - 1) || s.planeRuns p)
  let imgs := s.imagesFor planes
  let split := min 16 (s.fld 0x80 4 0)
  let room := fun (p : Nat) => if p = 1 then split else 16 - split
  let strange := ((ps.map imgs).flatten.map (·.nodes)).flatten.any (fun r => !(ndPlane r == 1 || ndPlane r == 2))
  let all := ((ps.map (fun p => planeNodes (imgs p) p)).flatten).map (·.2)
  let edges := (ps.map (fun p => ((imgs p).map (fun i => i.edges)).flatten.map (·.1)))
  let find := fun (n : Nat) => all.find? (fun m => ndNode m == n)
  let succ := fun (r : List Byte) => successors (imgs (ndPlane r)) r
  let edgeIdx := fun (r : List Byte) => (List.range (ndEdgeCount r)).map (fun k => ndEdgeFirst r + k)
  let ticks := all.filter (fun r => ndRelease r == 1)
  if ps.any (fun p => planes.testBit (p - 1) && decide (room p < s.planeNeed (imgs p) p))
      ∨ all.any (fun r => ndKind r == 1 && decide (ndTarget r < 16) && (if ndTarget r < split then 1 else 2) != ndPlane r) then
    some wckNoClusters
  else if ¬ (all.all (fun r => decide (1024 ≤ ndNode r) && decide (ndNode r ≤ 4095)) && noDup (all.map ndNode)
      && edges.all (fun l => noDup l && l.all (fun e => decide (4096 ≤ e) && decide (e ≤ 16383)))
      && noDup ((ps.map (fun p => ownedEdges (imgs p) p)).flatten)
      && all.all (fun r => (edgeIdx r).all (fun k => decide (4096 ≤ k) && decide (k ≤ 16383)
        && (imgs (ndPlane r)).any (fun i => i.edges.any (fun e => e.1 == k))))
      && all.all (fun r => (succ r).all (fun m => (find m).isSome))) then some 0x0602
  else if strange ∨ ¬ all.all (fun r => nodeOk r && (kernelIn (imgs (ndPlane r)) (ndPlane r) (ndKernel r)).isSome
      && (succ r).all (fun m => match find m with
        | some q => ndPlane q == ndPlane r && ndGrid q == ndGrid r
        | none => false)) then some 0x0603
  else if ¬ acyclic (fun n => match find n with | some r => succ r | none => []) (all.length + 1) (all.map ndNode) then some 0x0604
  else if (List.range 16).any (fun l => [0, 1].any (fun g =>
      decide (s.levelCap l < (ticks.filter (fun r => ndLevel r == l && ndGrid r == g)).foldl (fun a r => a + ndRepeat r) 0))) then
    some 0x0605
  else if all.any (fun r => ndFlowMode r != 0 && !(decide (1 ≤ ndFlowBase r) && decide (ndFlowBase r ≤ 0xEFFF))) then some 0x0606
  else none

/-- WCK_NEED after an attempt to start the planes of a mask. -/
def State.noteNeed (s : State) (planes : Nat) : State :=
  s.setReg 0x50014 (BitVec.ofNat 32 (min 16 (s.planeNeed (s.imagesFor planes 1) 1)
    + 65536 * min 16 (s.planeNeed (s.imagesFor planes 2) 2)))

/-- An accepted image is held from the start of the last of its planes that it came into force with (R196). -/
def Images.settle (m : Images) : Images :=
  let done := m.staged.filter (fun i => (!i.render || m.render.contains i) && (!i.voice || m.voice.contains i))
  { m with
    held := m.held.filter (fun i => !done.any (fun j => j.id == i.id)) ++ done
    staged := m.staged.filter (fun i => !done.contains i) }

/-- Gualbin's graph of a plane, inside its ranges of nodes and edges (R143). -/
def State.gualbinFor (s : State) (p : Nat) : List (List Byte) × List (Nat × Nat) :=
  let g := Config.gualbinGraph p s.inUse.1 s.inUse.2
  ((g.1.filter (fun r => r.length == 32 && decide (ndNode r < 1024))).take 1024, (g.2.filter (fun e => decide (e.1 < 4096))).take 4096)

/-- Graphs, images and code of a starting plane come into force (R143, R144, R196): held images, with their code in the upper half
of every program memory of the plane. -/
def State.graphStart (s : State) (p : Nat) : State :=
  let mine := s.imgs.next p
  let s := { s with imgs := (if p = 1 then { s.imgs with render := mine } else { s.imgs with voice := mine }).settle }
  let clusters := (List.range 16).filter (fun c => if p = 1 then decide (c < s.mgt.split) else decide (s.mgt.split ≤ c))
  let prog := clusters.foldl (fun m c => mine.foldl (fun m i => m.store (524288 * c + s.codeBase p i.id) i.code) m) s.lan.prog
  let s := { s with lan := { s.lan with prog := prog } }
  s.onWick (fun w =>
    { w with
      quarantine := w.quarantine.filter (fun n => match s.nodeOf n with | some (_, r) => ndPlane r != p | none => false)
      gualbin := Cells.put (fun _ => ([], [])) w.gualbin p (s.gualbinFor p) })

/-! ### Vigil items (R391) -/

/-- The sequencer keeps two CORE items waiting for each cluster whose plane runs. -/
def State.vigilPost (s : State) : State :=
  if ¬ s.flag 0x120000 0 then s
  else
    (List.range 16).foldl (fun s c =>
      let n := (s.wick.items.filter (fun i => i.vigil == some c)).length
      if ¬ s.clusterLive c then s
      else
        (List.range (2 - n)).foldl (fun s _ =>
          let it : WItem :=
            { node := Config.vigilNode c % 1024, grid := 0, num := s.ing.frame, key := 0, data := 0, level := 0, ready := s.now, tLvl := s.now
              flow := 0, deadline := none, reserve := false, vigil := some c }
          s.releaseItem it) s) s

end Sys2Proof.Machine
end

