-- ==== Sys2Proof/Machine/Images.lean ====
section
/-!
DEFINITION. Machine/Images.lean: image loading (R378, R379, R194 to R196) and host mailboxes (R197 to R199).
-/
namespace Sys2Proof.Machine

def secBadFormat : Nat := 0x0B01
def secBadSigner : Nat := 0x0B02
def secBadSig : Nat := 0x0B03
def secRollback : Nat := 0x0B04
def secBadTag : Nat := 0x0B05
def lanBadImage : Nat := 0x0701
def lanKernelId : Nat := 0x0702
def lanBadCode : Nat := 0x0703
def lanCodeFull : Nat := 0x0704
def lanDramFull : Nat := 0x0705

/-! ### The content of a customer image (R194, R195) -/

/-- Record size of a section of an image. -/
def imageType : Nat → Option Nat
  | 0x70 => some 32 | 0x71 => some 32 | 0x72 => some 4 | 0x73 => some 16 | 0x74 => some 16 | _ => none

/-- The sections of a payload: TYPE and records; none where one is cut short, unknown or has reserved bytes set. -/
def imageSections : Nat → List Byte → Option (List (Nat × List Byte))
  | 0, _ => some []
  | _, [] => some []
  | k + 1, b =>
    match imageType (leAt b 0 2) with
    | none => none
    | some size =>
      let n := leAt b 2 2 * size
      if b.length < 8 + n ∨ leAt b 4 4 ≠ 0 then none
      else (imageSections k (b.drop (8 + n))).map (fun l => (leAt b 0 2, (b.drop 8).take n) :: l)

/-- A byte sequence cut into records. -/
def records (size : Nat) (b : List Byte) : List (List Byte) :=
  (List.range (b.length / size)).map (fun i => (b.drop (i * size)).take size)

/-- All records of one TYPE, in payload order. -/
def ofType (l : List (Nat × List Byte)) (type size : Nat) : List (List Byte) :=
  ((l.filter (fun p => p.1 == type)).map (fun p => records size p.2)).flatten

/-- The image header's fields are in range. -/
def headerOk (r : List Byte) : Bool :=
  decide (1 ≤ leAt r 0 2) && decide (leAt r 0 2 ≤ 255) && decide (leAt r 2 1 < 4) && (leAt r 3 1 == 0)
    && (leAt r 4 4 % 256 == 0) && decide (leAt r 4 4 ≤ 1048576) && (leAt r 8 4 % 4096 == 0)
    && decide (leAt r 8 4 ≤ 4294963200) && allZero (r.drop 12)

/-- A kernel record's fields are in range, but for its ID. -/
def kernelOk (hdr r : List Byte) : Bool :=
  let p := leAt r 2 1
  ((p == 1 && (leAt hdr 2 1).testBit 0) || (p == 2 && (leAt hdr 2 1).testBit 1)) && (leAt r 3 1 == 0)
    && (leAt r 4 4 % 16 == 0) && allZero (r.drop 12)

def kernelOf (r : List Byte) : Kernel := { id := leAt r 0 2, plane := leAt r 2 1, entry := leAt r 4 4, length := leAt r 8 4 }

/-- The words of a bundle from its CLASS fields (R175): at most two of classes 0 and 1, one of 2 and 3, one of 4 to 6, one EXT and
not last. -/
def classesOk (ws : List Word) : Bool :=
  let cls := ws.map (fun w => field w 30 28)
  let n := fun (p : Nat → Bool) => (cls.filter p).length
  decide (n (fun c => c ≤ 1) ≤ 2) && decide (n (fun c => c == 2 || c == 3) ≤ 1)
    && decide (n (fun c => 4 ≤ c && c ≤ 6) ≤ 1) && decide (n (fun c => c == 7) ≤ 1) && (cls.getLast?.getD 7 != 7)

/-- Code words bundle by bundle; `cur` are the words of the open bundle, oldest first. -/
def codeOk : List Word → List Word → Bool
  | cur, [] => cur == []
  | cur, w :: ws =>
    let b := cur ++ [w]
    if bitOf w 31 then decide (b.length ≤ 5) && classesOk b && !Config.codeIllegal b && codeOk [] ws
    else decide (b.length < 5) && codeOk b ws

/-- The code of a kernel lies in the image code and holds no ILLEGAL word. -/
def kernelCodeOk (code : List Byte) (k : Kernel) : Bool :=
  decide (k.entry + k.length ≤ code.length) && (k.length % 4 == 0)
    && codeOk [] ((records 4 ((code.drop k.entry).take k.length)).map (fun b => wordAt b 0))

/-- Customer code of a plane held by images, in bytes. -/
def codeBytes (imgs : List Image) (p : Nat) : Nat :=
  (imgs.filter (fun i => if p = 1 then i.render else i.voice)).foldl (fun a i => a + i.code.length) 0
def dramHeld (imgs : List Image) : Nat := imgs.foldl (fun a i => a + i.dramBytes) 0

/-- The images that will be held once those accepted have replaced theirs. -/
def Images.coming (m : Images) : List Image := m.held.filter (fun i => !m.staged.any (fun j => j.id == i.id)) ++ m.staged

/-- An accepted image: held at once where no image with its IMAGE_ID is; otherwise it waits for the next starts of its planes (R196). -/
def Images.accept (m : Images) (i : Image) : Images :=
  let rest := m.staged.filter (fun j => j.id != i.id)
  if m.held.any (fun j => j.id == i.id) ∧ (i.render || i.voice) then { m with staged := rest ++ [i] }
  else { m with held := m.held.filter (fun j => j.id != i.id) ++ [i], staged := rest }

/-- An image payload checked against the images held (R195): its refusal, or the image. -/
def checkImage (m : Images) (svn : Nat) (body : List Byte) : Nat ⊕ Image :=
  match imageSections (body.length + 1) body with
  | none => .inl lanBadImage
  | some l =>
    let ks := ofType l 0x73 16
    match ofType l 0x70 32 with
    | [h] =>
      let id := leAt h 0 2
      let others := m.coming.filter (fun i => i.id != id)
      let code := (ofType l 0x74 16).flatten
      let kernels := ks.map kernelOf
      let img : Image :=
        { id := id, render := (leAt h 2 1).testBit 0, voice := (leAt h 2 1).testBit 1, tileBytes := leAt h 4 4, dramBytes := leAt h 8 4
          kernels := kernels, code := code, nodes := ofType l 0x71 32
          edges := (ofType l 0x72 4).map (fun r => (leAt r 0 2, leAt r 2 2)), svn := svn }
      if ¬ headerOk h ∨ ¬ ks.all (kernelOk h) then .inl lanBadImage
      else if ¬ kernels.all (fun k => decide (0x400 ≤ k.id) && decide (k.id ≤ 0xFFF)) ∨ ¬ noDup (kernels.map (·.id))
          ∨ kernels.any (fun k => (m.held ++ m.staged).any (fun i => i.id != id && i.kernels.any (fun q => q.id == k.id))) then
        .inl lanKernelId
      else if ¬ kernels.all (kernelCodeOk code) then .inl lanBadCode
      else if (img.render ∧ 262144 < codeBytes (others ++ [img]) 1) ∨ (img.voice ∧ 262144 < codeBytes (others ++ [img]) 2) then
        .inl lanCodeFull
      else if 4294967296 < dramHeld (others ++ [img]) then .inl lanDramFull
      else .inr img
    | _ => .inl lanBadImage

/-! ### IMG_LOAD (R378, R379) -/

/-- Step 1: format of the envelope. -/
def envelopeOk (b : List Byte) : Bool :=
  (leAt b 0 4 == 0x47564C4D) && (leAt b 4 1 == 1 || leAt b 4 1 == 2) && decide (leAt b 5 1 < 2) && (leAt b 6 2 == 0)
    && (leAt b 12 4 + 384 == b.length) && allZero ((b.drop 113).take 15) && allZero ((b.drop 237).take 3)
    && allZero ((b.drop 352).take 32)

/-- Step 3: SIG verifies under SIGNER, over the header up to it and the body as stored. -/
def imageSigned (b : List Byte) : Bool :=
  match readKey ((b.drop 16).take 97) with
  | some k => ecdsaOk k (b.take 256 ++ b.drop 384) ((b.drop 256).take 96)
  | none => false

/-- Step 5: the body of an encrypted image in the clear. -/
def imagePlain (b : List Byte) : Option (List Byte) :=
  match (readKey ((b.drop 128).take 97)).bind (ecdh decKey) with
  | some z =>
    let key := hkdf384 z (b.take 240 ++ List.replicate 16 0 ++ (b.drop 256).take 128)
    gcmOpen key ((b.drop 225).take 12) (b.take 240) (b.drop 384) ((b.drop 240).take 16)
  | none => none

/-- Steps 1 to 5: the status of the first failure and whether source 47 fires, or the body in the clear. -/
def State.openImage (s : State) (b : List Byte) : (Nat × Bool) ⊕ List Byte :=
  let type := leAt b 4 1
  let signer := sha384 ((b.drop 16).take 97)
  if ¬ envelopeOk b then .inl (secBadFormat, false)
  else if ¬ (if type = 1 then signer == Config.rootHash else s.sec.ownerHash == some signer) then .inl (secBadSigner, true)
  else if ¬ imageSigned b then .inl (secBadSig, true)
  else if leAt b 8 4 < (if type = 1 then s.sec.fwMin else s.sec.ownerMin) then .inl (secRollback, true)
  else if leAt b 5 1 = 1 then
    (match imagePlain b with
    | some p => .inr p
    | none => .inl (secBadTag, true))
  else .inr (b.drop 384)

/-- A refused image. -/
def State.imageRefused (s : State) (ring index status : Nat) (fires : Bool) : State :=
  let s := if fires then s.fire 47 2 (BitVec.ofNat 32 status) (BitVec.ofNat 32 (ring + 256 * (index % 2 ^ 24))) else s
  s.finish ring index status

/-- An accepted image is held and logged. -/
def State.holdImage (s : State) (type id svn : Nat) (body : List Byte) (imgs : Images) : State :=
  { s with imgs := imgs }.auditNow 0 0 0x06 0 (BitVec.ofNat 32 (type + 256 * id)) (BitVec.ofNat 32 svn)
    (BitVec.ofNat 32 (crc32c body))

/-- Firmware writes a new firmware image into the slot that did not boot, and marks it as written last once it is whole; `cut`: the bytes
written as a loss of power cuts the write short (R414). -/
def Pwr.writeSlot (p : Pwr) (img : List Byte) (cut : Option Nat) : Pwr :=
  let got := match cut with | some n => img.take n | none => img
  let p := if p.booted = 0 then { p with slotB := some (leAt got 8 4, got) } else { p with slotA := some (leAt got 8 4, got) }
  if cut.isSome then p else { p with newest := 1 - p.booted }

/-- Firmware writes an image into the slot that did not boot (R414). -/
def State.flashImage (s : State) (b : List Byte) (cut : Option Nat) : State := { s with pwr := s.pwr.writeSlot b cut }

/-- The image of `len` bytes that host memory answers with: its envelope header, then its body; none where a read fails. -/
def imageRead (len : Nat) (head body : Option (List Byte)) : Option (List Byte) :=
  match head, body with
  | some h, some b => some ((h.take 384 ++ b).take len)
  | _, _ => none

/-- Opcode 0x70 on rings 6 and 7: `head` and `body` are the image as host memory answers; `cut` says where a loss of power ends the flash
write of a firmware image. -/
def execImgLoad (ring : Nat) (head body : Option (List Byte)) (cut : Option Nat) (s : State) : Res :=
  match s.nextDesc ring 0x70 with
  | none => .next s
  | some d =>
    let len := d.w1.toNat
    if d.flags ≠ 0 ∨ d.spec ≠ 0 ∨ d.w4 ≠ 0 ∨ d.w5 ≠ 0 ∨ d.addr % 32 ≠ 0 then .next (s.finish ring d.index stBadDesc)
    else if len < 384 ∨ 16777216 < len then .next (s.finish ring d.index secBadFormat)
    else if ¬ s.auditRoom 1 then .next (s.stall ring (.imgLoad ring head body cut))
    else
      match imageRead len head body with
      | none => .next (s.finish ring d.index stDmaError)
      | some b =>
        match s.openImage b with
        | .inl (st, fires) => .next (s.imageRefused ring d.index st fires)
        | .inr body =>
          let svn := leAt b 8 4
          if leAt b 4 1 = 1 then
            let s := s.holdImage 1 0 svn body { s.imgs with boot := some b, bootSvn := svn }
            .next ((s.flashImage b cut).finish ring d.index stOk)
          else
            match checkImage s.imgs svn body with
            | .inl st => .next (s.finish ring d.index st)
            | .inr img =>
              .next ((s.holdImage 2 img.id svn body (s.imgs.accept img)).finish ring d.index stOk)

/-- LAN_CUST_CODE and LAN_CUST_DRAM. -/
def State.lanCustCode (s : State) : Word :=
  BitVec.ofNat 32 (ceilDiv (codeBytes s.imgs.held 1) 1024 + 65536 * ceilDiv (codeBytes s.imgs.held 2) 1024)
def State.lanCustDram (s : State) : Word := BitVec.ofNat 32 (dramHeld s.imgs.held / 1024)

/-! ### MBX_POST (R197, R199) -/

def execMbxPost (ring : Nat) (s : State) : Res :=
  match s.nextDesc ring 0x80 with
  | none => .next s
  | some d =>
    let node := field d.w0 27 16
    let found := (s.liveNodes.map (·.2) ++ (((s.imgs.held ++ s.imgs.staged).map (fun i => i.nodes)).flatten)).find?
      (fun r => ndNode r == node)
    if s.wick.blocked.any (fun q => q.core.isNone && q.ring == ring) then .next s
    else if field d.w0 31 28 ≠ 0 ∨ d.flags ≠ 0 ∨ field d.w1 31 16 ≠ 0 ∨ d.w3 ≠ 0 ∨ node < 1024 then
      .next (s.finish ring d.index 0x0706)
    else
      match found with
      | none => .next (s.finish ring d.index 0x0706)
      | some r =>
        if ndRelease r ≠ 0 then .next (s.finish ring d.index 0x0706)
        else if ¬ s.planeRuns (ndPlane r) then .next (s.finish ring d.index 0x0707)
        else
          let q : WPost :=
            { core := none, ring := ring, index := d.index, target := node, key := field d.w1 15 0, data := d.w2.toNat, src := 0
              grid := ndGrid r, num := 0, since := s.now }
          let q := s.aimPost q
          let s := s.setPhase ring d.index .accepted
          match s.tryPost q false with
          | (.done, s) => .next (s.postEnds q 0)
          | (.expired, s) => .next (s.postEnds q 3)
          | (.block, s) => .next (s.blockPost q)

end Sys2Proof.Machine
end

