-- ==== Sys2Proof/Machine/Sec.lean ====
section
/-!
DEFINITION. Machine/Sec.lean: the key store's commands (R377), boundary scan and debug access (R380, R443).
-/
namespace Sys2Proof.Machine

def secOwnerSet : Nat := 0x0B06
def secOtpFull : Nat := 0x0B07
def regSecDiscard : Nat := 0x140040

def State.onSec (s : State) (f : Sec → Sec) : State := { s with sec := f s.sec }

/-- SEC_STATUS (R443). -/
def State.secStatus (s : State) : Word :=
  let x := s.sec
  BitVec.ofNat 32 (x.ownerSteps + 256 * x.fwSteps + 65536 * satU 8 x.dbgFails + 2 ^ 28 * x.dbgLevel
    + (if x.ownerHash.isSome then 2 ^ 31 else 0))

/-- DBG_MAX in force: 3 acts as 2 (R443). -/
def State.dbgMax (s : State) : Nat := min 2 (s.fld 0x140004 1 0)

/-- SEC_SET_OWNER (R377): `data` is the 48-byte hash as host memory answers. -/
def execSecSetOwner (data : Option (List Byte)) (s : State) : Res :=
  match s.nextDesc 0 0xD2 with
  | none => .next s
  | some d =>
    if s.sec.ownerHash.isSome then .next (s.finish 0 d.index secOwnerSet)
    else if ¬ s.auditRoom 1 then .next (s.stall 0 (.secSetOwner data))
    else
      match data with
      | none => .next (s.finish 0 d.index stDmaError)
      | some b =>
        let h := (b ++ List.replicate 48 0).take 48
        let s := s.onSec (fun x => { x with ownerHash := some h })
        let s := s.auditNow (originCode d.origin) (originId d.origin) 0x07 2 (BitVec.ofNat 32 (Config.keyField 0)) (BitVec.ofNat 32 (crc32c (List.replicate 48 0)))
          (BitVec.ofNat 32 (crc32c h))
        .next (s.finish 0 d.index stOk)

/-- The SVN of the held image of a TYPE: the newest customer image for TYPE 2. -/
def State.heldSvn (s : State) (type : Nat) : Option Nat :=
  if type = 1 then s.imgs.boot.map (fun _ => s.imgs.bootSvn)
  else if type ≠ 2 then none else (s.imgs.held ++ s.imgs.staged).getLast?.map (fun i => i.svn)

/-- A minimum rises by one OTP step. -/
def Sec.commit (x : Sec) (type svn : Nat) : Sec :=
  if type = 1 then { x with fwMin := svn, fwSteps := x.fwSteps - 1 } else { x with ownerMin := svn, ownerSteps := x.ownerSteps - 1 }

/-- SEC_COMMIT_SVN (R377). -/
def execSecCommitSvn (s : State) : Res :=
  match s.nextDesc 0 0xD1 with
  | none => .next s
  | some d =>
    let type := d.w1.toNat
    match s.heldSvn type with
    | none => .next (s.finish 0 d.index stNotFound)
    | some svn =>
      let old := if type = 1 then s.sec.fwMin else s.sec.ownerMin
      if svn ≤ old then .next (s.finish 0 d.index stOk)
      else if (if type = 1 then s.sec.fwSteps else s.sec.ownerSteps) = 0 then .next (s.finish 0 d.index secOtpFull)
      else if ¬ s.auditRoom 1 then .next (s.stall 0 .secCommitSvn)
      else
        let s := s.onSec (fun x => x.commit type svn)
        let s := s.auditNow (originCode d.origin) (originId d.origin) 0x07 0 (BitVec.ofNat 32 (Config.keyField type)) (BitVec.ofNat 32 old) (BitVec.ofNat 32 svn)
        .next (s.finish 0 d.index stOk)

/-! ### The JTAG port (R380) -/

/-- Boundary scan has taken the pins of the AC-coupled lanes. -/
def State.lanesTaken (s : State) : Bool := 3 ≤ s.sec.jtag && s.sec.jtag ≤ 5
/-- Boundary scan has taken every pin. -/
def State.pinsTaken (s : State) : Bool := s.sec.jtag == 3

/-- An instruction is selected; `out` is what its data register shifts out. -/
def State.jtagSelect (s : State) (n : Nat) (out : List Byte) : State := s.onSec (fun x => { x with jtag := n, tdo := out })

/-- An instruction that takes pins is selected: logged, and source 47 fires. -/
def State.jtagTake (s : State) (n : Nat) (pins : List Byte) : State :=
  let s := (s.jtagSelect n pins).auditLate 3 0x09 0 (BitVec.ofNat 32 (Config.jtagCode n)) 0 0
  s.fire 47 3 (BitVec.ofNat 32 (Config.jtagCode n)) 0

def execBypass (s : State) : Res := .next (s.jtagSelect 0 [0])
def execIdcode (s : State) : Res := .next (s.jtagSelect 1 (leBytes 4 Config.idcode))
/-- `pins` is what the boundary cells capture. -/
def execSamplePreload (pins : List Byte) (s : State) : Res := .next (s.jtagSelect 2 pins)
def execExtest (pins : List Byte) (s : State) : Res := .next (s.jtagTake 3 pins)
def execExtestPulse (pins : List Byte) (s : State) : Res := .next (s.jtagTake 4 pins)
def execExtestTrain (pins : List Byte) (s : State) : Res := .next (s.jtagTake 5 pins)

/-- DBG_CHALLENGE: 32 fresh bytes, the serial number, 8 zero bytes; none within 1 s of a failed response. -/
def execDbgChallenge (dt : Nat) (s : State) : Res :=
  let s := s.elapse dt
  if s.now < s.sec.waitUntil then .next (s.jtagSelect 6 [])
  else
    let (r, s) := s.freshBytes 32
    let c := r ++ leBytes 8 Config.serial.toNat ++ List.replicate 8 0
    .next (((s.jtagSelect 6 c)).onSec (fun x => { x with challenge := some c }))

/-- A debug response fails (R380, R443). -/
def State.dbgFail (s : State) : State :=
  let s := s.onSec (fun x => { x with dbgFails := satU 8 (x.dbgFails + 1), waitUntil := s.now + 1000000000 })
  s.fire 47 4 (BitVec.ofNat 32 s.sec.dbgFails) 0

/-- The owner has signed the outstanding challenge and LEVEL (R380). -/
def State.dbgSigned (s : State) (level : Nat) (sig : List Byte) : Bool :=
  match s.sec.challenge, s.sec.ownerHash with
  | some c, some h => ownerSigned h (c ++ leBytes 1 level) sig
  | _, _ => false

/-- DBG_RESPONSE: LEVEL and a signature. -/
def execDbgResponse (level : Nat) (sig : List Byte) (s : State) : Res :=
  let signed := s.dbgSigned level sig
  let s := (s.jtagSelect 7 []).onSec (fun x => { x with challenge := none })
  if ¬ signed ∨ level = 0 ∨ s.dbgMax < level then .next s.dbgFail
  else .next ((s.onSec (fun x => { x with dbgLevel := level })).auditLate 3 0x09 0 (BitVec.ofNat 32 level) 0 0)

end Sys2Proof.Machine
end

