-- ==== Sys2Proof/Machine/Ports.lean ====
section
/-!
DEFINITION. Machine/Ports.lean: the audio ports (R322 to R334): configuration, frames in and out, slot masks, slips and glitches, the
rate meter, port states, and taps.
-/
namespace Sys2Proof.Machine

def portDflt (_ : Nat) : Port := Port.reset
def State.port (s : State) (p : Nat) : Port := Cells.get portDflt s.ports p
def State.onPort (s : State) (p : Nat) (f : Port → Port) : State :=
  { s with ports := Cells.put portDflt s.ports p (f (s.port p)) }
def State.portMaster (s : State) (p : Nat) : Bool := s.flag (regTdm p) 30
def State.portWidth (s : State) (p : Nat) : Nat := slotWidth (s.fld (regTdm p) 27 26)
def State.cfgRefused (s : State) (p : Nat) : State := s.setFlag (regTdm p + 0x20) 31 true

/-- A mode write waits for its boundary with its log entry reserved (R20, R23, R449). -/
def State.modeRequest (s : State) (o : Origin) (off : Nat) (v : Word) : State :=
  (s.auditReserve 1).onMgt (fun m =>
    { m with modeWrites := m.modeWrites ++
        [{ off := off, v := v, origin := originCode o, originId := originId o, req := s.request 0 0 }] })

/-! ### Configuration (R324) -/

/-- A class changes: source 38 (R332). -/
def State.portClass (s : State) (p cls : Nat) : State :=
  let x := s.port p
  if x.cls = cls then s
  else
    (s.onPort p (fun x => { x with cls := cls })).fire 38 (BitVec.ofNat 32 (p + 256 * cls + 4096 * x.cls))
      (BitVec.ofNat 32 x.rate) 0

/-- The checks of R323, R325, the encodings and R453 for an enable. -/
def State.portCfgOk (s : State) (p : Nat) (v : Word) : Bool :=
  let r := 2 ^ s.rateClass
  let fb := field v 10 0
  let w := slotWidth (field v 27 26)
  let n := s.fld (regTdm p + 4) 15 0
  let m := s.fld (regTdm p + 8) 23 0
  field v 29 28 != 3 && field v 27 26 != 3 && decide (32 ≤ fb) && decide (fb * r ≤ 1024)
    && (field v 29 28 == 0 || (fb % 2 == 0 && decide (w ≤ fb / 2)))
    && (!bitOf v 30 || (decide (1 ≤ n) && decide (2 ≤ m) && n * 2048 == fb * r * m))
    && !(s.setReg (regTdm p) v).feederClash ((s.setReg (regTdm p) v).portFeeder p)

/-- The port starts: a slave in ACQUIRE, a master at the next tick (R333). -/
def State.portEnabled (s : State) (p : Nat) : State :=
  let s := s.portClass p 0
  s.onPort p (fun x => { x with st := if s.portMaster p then 0 else 1, wins := 0, next := none, lastStart := none, mark := false })

/-- The port is DISABLED: its queues are flushed (R333). -/
def State.portDisabled (s : State) (p : Nat) : State :=
  let s := (s.queueFlush 2 p).queueFlushDone 2 p
  let s := (s.queueFlush 3 p).queueFlushDone 3 p
  s.onPort p (fun x => { x with st := 0, next := none, got := [], sent := [], sdo := [], mark := false })

/-- TDMpp_CFG takes a value, logged as it takes effect. -/
def State.tdmApply (s : State) (p : Nat) (v : Word) (origin oid time : Nat) : State :=
  let old := s.reg (regTdm p)
  let s := (s.setReg (regTdm p) v).chainEntry time origin oid 0x01 0 (BitVec.ofNat 32 (regTdm p)) old v
  if bitOf old 31 = bitOf v 31 then s else if bitOf v 31 then s.portEnabled p else s.portDisabled p

/-- A write of TDMpp_CFG (R324). -/
def tdmCfgWrite (s : State) (o : Origin) (p : Nat) (v : Word) : State :=
  let old := s.reg (regTdm p)
  let v := v &&& 0xFFC007FF
  let on := bitOf old 31
  if on ∧ setBitOf v 31 true ≠ setBitOf old 31 true then s.cfgRefused p
  else if ¬ on ∧ bitOf v 31 ∧ ¬ s.portCfgOk p v then s.cfgRefused p
  else if ¬ s.auditRoom 1 then s.bump 0x300 1
  else if on ∧ ¬ bitOf v 31 ∧ (s.port p).st ≠ 0 ∧ s.anyRun then s.modeRequest o (regTdm p) v
  else ((s.auditReserve 1).auditRelease 1).tdmApply p v (originCode o) (originId o) s.now

def execPortEnable (port : Nat) (v : Word) (origin : Origin) (s : State) : Res :=
  .next (if port < 16 then tdmCfgWrite s origin port v else s)
def execPortDisable (port : Nat) (v : Word) (origin : Origin) (s : State) : Res :=
  .next (if port < 16 then tdmCfgWrite s origin port v else s)

/-- A write of TDMpp_DIV_N, TDMpp_DIV_M or TDMpp_MAP (`i` 1 to 3): discarded whole where it changes anything while ENABLE is 1. -/
def portFieldWrite (s : State) (o : Origin) (p i : Nat) (v : Word) : State :=
  let off := regTdm p + 4 * i
  let v := v &&& (if i = 1 then 0xFFFF else if i = 2 then 0xFFFFFF else 0x3FFF0FFF)
  if s.flag (regTdm p) 31 ∧ v ≠ s.reg off then s.cfgRefused p else s.loggedWrite o off v

/-- PORT_CFG_WRITE: `i` is the register's place: 0 TDMpp_CFG, 1 to 3 as above. -/
def execPortCfgWrite (port i : Nat) (v : Word) (origin : Origin) (s : State) : Res :=
  .next (if 16 ≤ port ∨ 4 ≤ i then s else if i = 0 then tdmCfgWrite s origin port v else portFieldWrite s origin port i v)

/-! ### Slot masks (R329) -/

/-- A mask is written; `last`: the write arrives during the last slot of a frame. -/
def maskWrite (s : State) (o : Origin) (p : Nat) (tx : Bool) (v : Word) (last : Bool) : State :=
  if ¬ s.auditRoom 1 then s.bump 0x300 1
  else
    let s := s.loggedWrite o (regTdm p + (if tx then 0x14 else 0x10)) v
    s.onPort p (fun x => if tx then { x with txNew := some (v.toNat, last) } else { x with rxNew := some (v.toNat, last) })

/-- MASK_WRITE. -/
def execMaskWrite (port : Nat) (tx : Bool) (v : Word) (last : Bool) (origin : Origin) (s : State) : Res :=
  .next (if port < 16 then maskWrite s origin port tx v last else s)

/-- One mask at a frame start: live value, what still waits, and whether it changed. -/
def maskStart (live : Nat) : Option (Nat × Bool) → Nat × Option (Nat × Bool) × Bool
  | none => (live, none, false)
  | some (m, true) => (live, some (m, false), false)
  | some (m, false) => (m, none, true)

/-- Written masks take effect at a frame start: source 39. -/
def State.masksStart (s : State) (p : Nat) : State :=
  let x := s.port p
  let (rl, rn, rc) := maskStart x.rxLive x.rxNew
  let (tl, tn, tc) := maskStart x.txLive x.txNew
  let s := s.onPort p (fun x => { x with rxLive := rl, rxNew := rn, txLive := tl, txNew := tn })
  let s := if rc then s.fire 39 (BitVec.ofNat 32 p) (BitVec.ofNat 32 rl) 0 else s
  if tc then s.fire 39 (BitVec.ofNat 32 (p + 256)) (BitVec.ofNat 32 tl) 0 else s

/-! ### Frames (R326 to R328) -/

/-- Instant of a render sample counted from the frame now open, before it or after. -/
def State.gridInstant (s : State) (i : Int) : Int :=
  if 0 ≤ i then (s.sampleInstant i.toNat : Int) else (s.instantAgo (-i).toNat : Int)

/-- First render sample at or after the present instant, by its index since the first tick. -/
def State.gridNow (s : State) : Nat :=
  let base := 32 * s.mgt.tick.count
  (List.range 128).foldl (fun (a : Nat) (k : Nat) =>
    let i : Nat := 127 - k
    if (s.now : Int) ≤ s.gridInstant (i : Int) then base + i else a) (base + 128)

/-- A slot sample of a width as an ingress value, and an egress value as a slot sample (R328). -/
def slotIn (w v : Nat) : Int := signed w v * (2 ^ (32 - w) : Nat)
def slotOut (w : Nat) (v : Int) : Int := satS w (roundShift v (32 - w))

/-- The mapping of a frame start (R326, R327): the sample index it stands for, how many samples the port repeats on receive, and
whether it drops this frame. -/
def State.portMap (s : State) (p : Nat) : Nat × Nat × Bool :=
  let x := s.port p
  match x.next with
  | none => (s.gridNow, 0, false)
  | some e =>
    if s.portMaster p then (e, 0, false)
    else
      let base : Int := 32 * s.mgt.tick.count
      let phi := fun (k : Nat) => s.gridInstant ((k : Int) - base) - s.now
      let period := s.gridInstant 1 - s.gridInstant 0
      if phi e < 0 then
        let n := ((List.range 64).find? (fun k => decide (0 ≤ phi (e + k)))).getD 64
        (e + n, n, false)
      else if period < phi e then (e - 1, 0, true)
      else (e, 0, false)

/-- Frames of content index `e` to `e + n − 1` are the frame before once more. -/
def repeats (x : Port) (e n : Nat) : List PortFrame :=
  (List.range n).map (fun i => { idx := e + i, mask := x.rxLive, kind := 1, vals := x.last, con := true })

/-- The receive side of one frame with content index `e`. -/
def State.portReceive (s : State) (p e : Nat) (sdi : List Nat) (glitch con : Bool) : State :=
  let x := s.port p
  let w := s.portWidth p
  let n := s.portSlots p
  let vals := (List.range n).map (fun i => if x.rxLive.testBit i then slotIn w (sdi.getD i 0) else 0)
  let words := ((List.range n).filter (fun i => x.rxLive.testBit i)).map (fun i => pattern 32 (slotIn w (sdi.getD i 0)))
  let s := s.pushItem 2 p words glitch
  let s := if glitch then (s.bump (regTdm p + 0x200) 1).setFlag (regTdm p + 0x20) 30 true else s
  let f : PortFrame :=
    { idx := e, mask := x.rxLive, kind := if glitch ∨ words = [] then 2 else 0, vals := if glitch then [] else vals
      con := glitch || con }
  s.onPort p (fun x => { x with got := x.got ++ [f], last := f.vals, mark := false })

/-- The egress value of a DEST at a sample index; none where no block holds it yet. -/
def State.egressSample (s : State) (dest idx : Nat) : Option Int :=
  let now := s.mgt.tick.count
  if now = 0 ∨ now < idx / 32 then none
  else
    match (Cells.get (fun _ => []) s.mix.egress dest)[now - idx / 32]? with
    | some b => some (b.samples.getD (idx % 32) 0)
    | none => some 0

/-- The transmit side of one frame with egress sample index `e`. -/
def State.portTransmit (s : State) (p e : Nat) : State :=
  let x := s.port p
  let w := s.portWidth p
  let n := s.portSlots p
  let first := s.fld (regTdm p + 0xC) 11 0
  let on := (List.range n).filter (fun i => x.txLive.testBit i)
  let vals := (List.range n).map (fun i =>
    if x.txLive.testBit i then slotOut w ((s.egressSample (first + i) e).getD 0) else 0)
  let s := if on = [] then s
    else if (s.egressSample first e).isSome then
      (s.pushItem 3 p (on.map (fun i => pattern 32 (vals.getD i 0))) false).popItem 3 p
    else (match queueShape 3 p with | some sh => s.queueUnderrun 3 p sh | none => s)
  s.onPort p (fun x => { x with sent := x.sent ++ [vals], sdo := vals })

/-- TDM_FRAME (R326): the frame that starts now; `sdi`: its slots as received; `len`: its length in BCLK periods. -/
def execTdmFrame (dt port : Nat) (sdi : List Nat) (len : Nat) (s : State) : Res :=
  let s := s.elapse dt
  let x := s.port port
  if 16 ≤ port ∨ s.pinsTaken ∨ ¬ s.flag (regTdm port) 31 then .next s
  else if x.st = 3 then .next (s.onPort port (fun x => { x with st := 1, lastStart := some s.now }))
  else if x.st ≠ 2 then .next (s.onPort port (fun x => { x with lastStart := some s.now }))
  else
    let s := s.masksStart port
    let fb := s.fld (regTdm port) 10 0
    let glitch := !s.portMaster port && !(decide (fb ≤ len + 1) && decide (len ≤ fb + 1))
    let (e, again, dropped) := s.portMap port
    let lag := if x.next = none then (if s.gridInstant ((e : Int) - 32 * s.mgt.tick.count) = s.now then 0 else 1) else x.txLag
    let slip := again ≠ 0 ∨ dropped
    let s := if slip then
        ((s.bump (regTdm port + 0x204) (if dropped then 1 else again)).setFlag (regTdm port + 0x20) 29 true)
      else s
    let s := s.onPort port (fun x => { x with txLag := lag, got := x.got ++ repeats x (e + 1 - again) again })
    let s := if dropped then s.onPort port (fun x => { x with mark := true })
      else s.portReceive port (e + 1) sdi glitch (slip || x.mark)
    let s := s.portTransmit port (e - lag)
    .next (s.onPort port (fun x => { x with lastStart := some s.now, next := some (e + 1) }))

/-! ### The meter and the states (R332 to R334) -/

/-- Entry into LOST or MISMATCH: source 32 (R334). DEDUCED: the frames that wait in the receive queue are dropped with it, as R333 does for
a disabled port. -/
def State.portFault (s : State) (p st : Nat) : State :=
  let s := s.onPort p (fun x => { x with st := st, next := none, got := [], sdo := [] })
  let s := (s.queueFlush 2 p).queueFlushDone 2 p
  s.fire 32 (BitVec.ofNat 32 (p + 256 * st)) (BitVec.ofNat 32 (s.port p).cls) 0

/-- The class of two windows. -/
def classOf (a b : Nat) : Nat :=
  let near := fun (r x : Nat) => decide (1000 * r ≤ x + r) && decide (x ≤ 1000 * r + r)
  match [1, 2, 3, 4, 5, 6].find? (fun c => near (classRate c) a && near (classRate c) b) with
  | some c => c
  | none => 15

/-- RATE_WINDOW (R332): edges in the window and the time from first to last, in ns. -/
def execRateWindow (dt port edges span : Nat) (s : State) : Res :=
  let s := s.elapse dt
  if 16 ≤ port then .next s
  else
    let x := s.port port
    let rate := if edges < 2 ∨ span = 0 then 0 else (2 * (edges - 1) * 1000000000000 + span) / (2 * span)
    let wins := if rate = 0 then 0 else min 2 (x.wins + 1)
    let s := s.onPort port (fun x => { x with rate := rate, prev := rate, wins := wins })
    let s := s.portClass port (if wins < 2 then 0 else classOf rate x.prev)
    let diff := if x.prev < rate then rate - x.prev else x.prev - rate
    let changed := rate ≠ 0 ∧ x.prev ≠ 0 ∧ 100 * x.prev < 1000000 * diff
    let s := if changed then
        s.fire (if port < 8 then 28 else 29) (BitVec.ofNat 32 port) (BitVec.ofNat 32 rate) (BitVec.ofNat 32 x.prev)
      else s
    let cls := (s.port port).cls
    if s.portMaster port then .next s
    else if x.st = 2 ∧ changed then
      if classRate cls = s.renderRate then
        .next (((s.queueFlush 2 port).queueFlushDone 2 port).onPort port (fun x => 
          { x with st := 1, mark := true, next := none, got := [] }))
      else .next (s.portFault port 4)
    else if x.st = 1 ∧ cls ≠ 0 ∧ classRate cls ≠ s.renderRate then .next (s.portFault port 4)
    else .next s

/-- PORT_LOST (R334): no frame start for two frame periods. -/
def execPortLost (dt port : Nat) (s : State) : Res :=
  let s := s.elapse dt
  let x := s.port port
  let due : Bool := match x.lastStart with
    | some t => decide (t + 2000000000 / s.renderRate ≤ s.now)
    | none => false
  if 16 ≤ port ∨ x.st ≠ 2 ∨ s.portMaster port ∨ ¬ due then .next s
  else .next ((s.bump (regTdm port + 0x208) 1).portFault port 3)

/-! ### Taps (R331) -/

/-- Bytes of a sample, and of a record, in a tap. -/
def tapBytes (w pack : Nat) : Nat := if w = 16 then 2 else if w = 32 then 4 else if pack = 1 ∨ pack = 2 then 4 else 3
def tapRecord (slots b : Nat) : Nat := 64 * ceilDiv (32 * slots * b) 64

/-- A DRAM range lies wholly in an image region or in the host window (R234). -/
def State.tapRange (s : State) (a n : Nat) : Bool :=
  (decide (0x180000000 ≤ a) && decide (a + n ≤ 0x1C0000000))
    || (s.imgs.held ++ s.imgs.staged).any (fun i => decide (i.dramBase ≤ a) && decide (a + n ≤ i.dramBase + i.dramBytes))

/-- PACK of a direction, and its buffer's address. -/
def tapPack (v : Word) (tx : Bool) : Nat := let p := if tx then field v 5 4 else field v 7 6; if p = 3 then 0 else p
def State.tapBase (s : State) (p : Nat) (tx : Bool) : Nat := 256 * s.fld (regTdm p + (if tx then 0x38 else 0x34)) 26 0
def State.tapFits (s : State) (p : Nat) (v : Word) (tx : Bool) : Bool :=
  s.tapRange (s.tapBase p tx)
    (2 ^ min 12 (field v 3 0) * tapRecord (s.portSlots p) (tapBytes (s.portWidth p) (tapPack v tx)))

/-- A write of TDMpp_TAP_CFG. -/
def tapCfgWrite (s : State) (o : Origin) (p : Nat) (v : Word) : State :=
  let v := v &&& 0xC00000FF
  if (bitOf v 31 ∧ ¬ s.tapFits p v false) ∨ (bitOf v 30 ∧ ¬ s.tapFits p v true) then s.cfgRefused p
  else s.loggedWrite o (regTdm p + 0x30) v

/-- One sample on the wire in the form of a tap. -/
def tapSample (w pack : Nat) (v : Int) : List Byte :=
  if w = 24 ∧ pack = 2 then leBytes 4 (pattern 32 (v * 256)) else leBytes (tapBytes w pack) (pattern 32 v)

/-- A record of 32 frames of slot values on the wire. -/
def tapData (w pack slots : Nat) (frames : List (List Int)) : List Byte :=
  ((List.range 32).map (fun i => ((List.range slots).map (fun k => tapSample w pack ((frames.getD i []).getD k 0))).flatten)).flatten

/-- A tap writes its next record. -/
def State.tapWrite (s : State) (p : Nat) (t : Tap) (frames : List (List Int)) : State × Tap :=
  let w := s.portWidth p
  let n := s.portSlots p
  let a := t.base + t.done % 2 ^ t.log2 * tapRecord n (tapBytes w t.pack)
  let s := s.dramWrite a (tapRecord n (tapBytes w t.pack))
  ({ s with lan := { s.lan with dram := Memory.store s.lan.dram a (tapData w t.pack n frames) } }, { t with done := t.done + 1 })

/-- A change of TAP_CFG takes effect at a boundary; a tap that is enabled starts at record 0. -/
def State.tapSwitch (s : State) (p : Nat) : State :=
  let x := s.port p
  let v := s.reg (regTdm p + 0x30)
  let mk := fun (tx : Bool) (old : Option Tap) =>
    if ¬ bitOf v (if tx then 30 else 31) then none
    else match old with
      | some t => some { t with pack := tapPack v tx, log2 := min 12 (field v 3 0) }
      | none => some { pack := tapPack v tx, log2 := min 12 (field v 3 0), base := s.tapBase p tx, done := 0 }
  if v = x.tapCfg then s
  else s.onPort p (fun x => { x with tapCfg := v, rxTap := mk false x.rxTap, txTap := mk true x.txTap })

/-! ### At the frame tick -/

/-- The values of the received frames of one block from the queue, in order: content index, values, whether CONCEALED. -/
def State.portItems (p : Nat) : List PortFrame → State → List (Nat × List Int × Bool) × State
  | [], s => ([], s)
  | f :: fs, s =>
    let sh := queueShape 2 p
    let (vals, s) := if f.kind = 0 then
        match (s.queue 2 p).head, sh with
        | some ws, _ =>
          let on := (List.range f.vals.length).filter (fun i => f.mask.testBit i)
          ((List.range f.vals.length).map (fun i => signed 32 (((on.zip ws).find? (fun q => q.1 == i)).elim 0 (·.2))), s.popItem 2 p)
        | none, some sh => (f.vals.map (fun _ => 0), s.queueUnderrun 2 p sh)
        | none, none => (f.vals, s)
      else (f.vals, s)
    let (l, s) := State.portItems p fs s
    ((f.idx, vals, f.con) :: l, s)

/-- The ingress blocks of one port for the frame that ends, `flag` the parity flag its queue gives them; and its taps. -/
def State.portBlocks (s : State) (p flag : Nat) : State × List (Nat × Block) :=
  let x := s.port p
  let f := s.portFeeder p
  let n := f.count
  let hi := 32 * s.mgt.tick.count
  let live := x.st == 2 && x.next.isSome
  let (got, s) := if live then State.portItems p (x.got.filter (fun g => decide (g.idx < hi))) s else ([], s)
  let at_ := fun (i : Nat) => got.find? (fun g => g.1 + 32 == hi + i)
  let val := fun (i c : Nat) => match at_ i with | some g => g.2.1.getD c 0 | none => 0
  let con := got.any (fun g => g.2.2)
  let flags := (if live then (if con then flagConcealed else 0) ||| flag else flagPortAbsent)
  let blocks := (List.range n).map (fun c =>
    (f.first + c, ({ samples := (List.range 32).map (fun i => val i c), flags := flags, plane := f.plane } : Block)))
  let w := s.portWidth p
  let rx := (List.range 32).map (fun i => (List.range n).map (fun c => (val i c).fdiv (2 ^ (32 - w) : Nat)))
  let (s, rt) := match x.rxTap with
    | some t => let (s, t) := s.tapWrite p t rx; (s, some t)
    | none => (s, none)
  let (s, tt) := match x.txTap with
    | some t => let (s, t) := s.tapWrite p t x.sent; (s, some t)
    | none => (s, none)
  (s.onPort p (fun y => 
    { y with got := y.got.filter (fun g => decide (hi ≤ g.idx)), sent := [], rxTap := rt, txTap := tt }), blocks)

/-- What a boundary brings a port: a master starts, a slave that has its rate locks, taps change (R325, R331, R333). -/
def State.portTick (s : State) (p : Nat) : State :=
  let x := s.port p
  let en := s.flag (regTdm p) 31
  let s := s.tapSwitch p
  if s.portMaster p then
    if en then s.onPort p (fun x => { x with st := 2, next := some (32 * s.mgt.tick.count), txLag := 0 }) else s
  else if x.st = 1 ∧ classRate x.cls = s.renderRate then
    s.onPort p (fun x => { x with st := 2, next := none, got := [], lastStart := some s.now })
  else s

/-- TDMpp_STATUS and TDMpp_TAP_WIDX as the port stands. -/
def State.tdmStatus (s : State) (p : Nat) : Word :=
  let x := s.port p
  (s.reg (regTdm p + 0x20) &&& 0xE0000000) ||| BitVec.ofNat 32 (2 ^ 24 * x.st + 2 ^ 16 * x.cls)
def State.tapWidx (s : State) (p : Nat) : Word :=
  let n := fun (t : Option Tap) => match t with | some t => t.done % 65536 | none => 0
  BitVec.ofNat 32 (65536 * n (s.port p).rxTap + n (s.port p).txTap)

end Sys2Proof.Machine
end

