-- ==== Sys2Proof/Machine/Time.lean ====
section
/-!
DEFINITION. Machine/Time.lean: the hardware clock (R281 to R284), time triggers (R291), and the pulse outputs and inputs
(R292).
-/
namespace Sys2Proof.Machine

def State.onTim (s : State) (f : TimeBlock → TimeBlock) : State := { s with tim := f s.tim }

def regTimCtrl : Nat := 0xD0000
def regTimStatus : Nat := 0xD0004
def regTrig (t : Nat) : Nat := 0xD0100 + 0x10 * t
def regPtpValid : Nat := 0xE0008

/-- The firmware owns the servo (R284). -/
def State.servoOwned (s : State) : Bool := s.flag regTimCtrl 17
/-- A write of the increment or step that the servo's owner does not make. -/
def State.servoDiscards (s : State) (o : Origin) : Bool := s.servoOwned && o != .firmware

/-! ### Increment and step -/

/-- TIM_INCR_FRAC (R282): the fraction is held. -/
def execTimIncrFrac (v : Word) (origin : Origin) (s : State) : Res :=
  if s.servoDiscards origin then .next s
  else .next { (s.setReg 0xD0014 v) with clock := { s.clock with heldFrac := v.toNat } }

/-- The increment limits of R282: 1.990 ns and 2.010 ns as 32.32, the nearest values inside. -/
def incrMin : Nat := 8546984920
def incrMax : Nat := 8632884264

/-- TIM_INCR_NS (R282): the pair is committed, clamped to its range. -/
def State.incrWrite (s : State) (v : Word) : State :=
  let pair := v.toNat * 2 ^ 32 + s.clock.heldFrac
  let new := min incrMax (max incrMin pair)
  let s := s.setReg 0xD0018 v
  let s := { s with clock := { s.clock with incr := new } }
  if new = pair then s else s.setFlag regTimStatus 1 true
def execTimIncrNs (v : Word) (origin : Origin) (s : State) : Res :=
  if s.servoDiscards origin then .next s else .next (s.incrWrite v)

/-- Timed frames whose launch a forward step skipped (R29, R290). -/
def skipLaunches (old new : Nat) (ms : Cells Mac) : Cells Mac :=
  ms.map (fun p => (p.1,
    { p.2 with launch := p.2.launch.map (fun q => 
        if old < q.1.launch ∧ q.1.launch ≤ new then ({ q.1 with skipped := true }, q.2) else q) }))

/-- An accepted step (R29, R283): the counter, the TIME entries of the audit log and of ring 2. Seconds and servo ticks that a backward
step brings again come again (R292). -/
def State.applyStep (s : State) (o : Origin) (step : Int) : State :=
  let old := s.now
  let new := (((old : Int) + step) % 2 ^ 64).toNat
  let frac := s.clock.acc % 2 ^ 32
  let s := { s with clock := { s.clock with acc := new * 2 ^ 32 + frac } }
  let s := { s with macs := skipLaunches old new s.macs }
  let s := s.onMgt (fun m => { m with tick := { m.tick with stepped := true } })
  let s := s.onTim (fun t => { t with ppsLast := min t.ppsLast (new - 1), servoLast := min t.servoLast (new - 1) })
  let s := s.bump 0xD0200 1
  let s := s.chainEntry new (originCode o) (originId o) 0x08 0 0 (BitVec.ofNat 32 old) (BitVec.ofNat 32 new)
  (s.ring2Entry 3 0 (BitVec.ofNat 32 old) (BitVec.ofNat 32 (old / 2 ^ 32)) new).ptpStepped

/-- A write of TIM_STEP_CTRL (R29, R283): a 1 in GO applies the step, or refuses a backward one while a plane runs. -/
def stepWrite (s : State) (o : Origin) (v : Word) : State :=
  if s.servoDiscards o then s
  else if ¬ s.auditRoom 2 then s.bump 0x300 1
  else
    let s := s.auditNow (originCode o) (originId o) 0x01 0 0xD0024 0 (v &&& 1)
    if ¬ bitOf v 0 then s
    else
      let step := signed 64 (s.reg64 0xD001C)
      if step < 0 ∧ s.anyRun then
        let target := (((s.now : Int) + step) % 2 ^ 64).toNat
        let s := (s.bump 0xD0204 1).setFlag regTimStatus 2 true
        s.ring2Entry 4 0 (BitVec.ofNat 32 target) (BitVec.ofNat 32 (target / 2 ^ 32)) s.now
      else s.applyStep o step

/-- GO (R283). -/
def execGo (v : Word) (origin : Origin) (s : State) : Res := .next (stepWrite s origin v)

/-- TIM_NOW_READ (R281): the high word and the fraction are latched. -/
def execTimNowRead (s : State) : Res :=
  let lo : Word := BitVec.ofNat 32 s.now
  let s := s.setReg 0xD000C (BitVec.ofNat 32 (s.now / 2 ^ 32))
  let s := s.setReg 0xD0010 (BitVec.ofNat 32 (s.clock.acc / 2 ^ 16 % 2 ^ 16))
  .next (s.onHost (fun h => { h with lastRead := some (0xD0008, lo) }))

/-- SYNC_RECEIPT_TIMEOUT (R284): `expired`: the syncReceiptTimeout of the firmware's instance; or no PTP message for 3 s. -/
def execSyncReceiptTimeout (dt : Nat) (expired : Bool) (s : State) : Res :=
  let s := s.elapse dt
  if s.servoOwned ∧ (expired ∨ s.tim.ptpLast + 3000000000 ≤ s.now) then
    .next ((s.setFlag regPtpValid 0 false).onTim (fun t => { t with syncRun := 0 }))
  else .next s

/-! ### Triggers (R291) -/

def trigDflt (_ : Nat) : Trigger := Trigger.off
def State.trig (s : State) (t : Nat) : Trigger := Cells.get trigDflt s.tim.triggers t
def State.setTrig (s : State) (t : Nat) (x : Trigger) : State :=
  s.onTim (fun b => { b with triggers := Cells.put trigDflt b.triggers t x })
def setBitNat (n i : Nat) (b : Bool) : Nat := if b then n ||| 2 ^ i else if n.testBit i then n - 2 ^ i else n
def State.setGpio (s : State) (t : Nat) (b : Bool) : State := s.onTim (fun x => { x with gpio := setBitNat x.gpio t b })

/-- The series a write of EN starts: instants before the enable are not in it. -/
def startTrigger (now start period count : Nat) (old : Trigger) : Trigger :=
  let k := if start < now ∧ period ≠ 0 then ceilDiv (now - start) period else 0
  let left := if period = 0 then some 1 else if count = 0 then none else some (count - k)
  { running := left != some 0, next := start + k * period, left := left, period := period, pulseEnd := old.pulseEnd }

/-- A write of TIM_TRIG_CTRL (R291). -/
def trigWrite (s : State) (o : Origin) (t : Nat) (v : Word) : State :=
  if ¬ s.auditRoom 1 then s.bump 0x300 1
  else
    let s := s.loggedWrite o (regTrig t) v
    let s := if bitOf v 30 then s else s.setGpio t false
    let x := s.trig t
    if bitOf v 31 then
      s.setTrig t (startTrigger s.now (s.reg64 (regTrig t + 4)) (s.reg (regTrig t + 12)).toNat (field v 15 0) x)
    else s.setTrig t { x with running := false }

def execTriggerEnable (t : Nat) (v : Word) (origin : Origin) (s : State) : Res :=
  .next (if t < 8 then trigWrite s origin t v else s)

/-- Nanoseconds of one CK_TIME tick, rounded up: an instant met at its first tick is on time. -/
def State.tickNs (s : State) : Nat := s.clock.incr / 2 ^ 32 + 1

/-- Another series has an earlier instant due, so it acts first (R29). -/
def State.trigEarlier (s : State) (x : Trigger) : Bool := s.tim.triggers.any (fun p => p.2.running && decide (p.2.next < x.next))

/-- TRIGGER_FIRE (R291): every instant of the series that has come acts, as one firing, in the order of R29. -/
def execTriggerFire (dt t : Nat) (s : State) : Res :=
  let s := s.elapse dt
  let x := s.trig t
  if ¬ x.running ∨ s.now < x.next ∨ s.trigEarlier x then .next s
  else
    let due := if x.period = 0 then 1 else (s.now - x.next) / x.period + 1
    let c := match x.left with
      | some l => min l due
      | none => due
    let at_ := if c = 1 ∧ s.now < x.next + s.tickNs then x.next else s.now
    let left := x.left.map (fun l => l - c)
    let drive := s.flag (regTrig t) 30
    let width := 1000 * max 1 (s.fld (regTrig t) 29 16)
    let s := s.fireAt 31 (BitVec.ofNat 32 (t + 65536 * c)) (BitVec.ofNat 32 x.next) (BitVec.ofNat 32 (x.next / 2 ^ 32)) at_
    let s := if drive then s.setGpio t true else s
    .next (s.setTrig t
      { x with
        next := x.next + c * x.period, left := left, running := left != some 0 && x.period != 0
        pulseEnd := if drive then max x.pulseEnd (at_ + width) else x.pulseEnd })

/-- TRIGGER_PULSE_END (R291). -/
def execTriggerPulseEnd (dt t : Nat) (s : State) : Res :=
  let s := s.elapse dt
  if (s.trig t).pulseEnd ≤ s.now ∧ s.tim.gpio.testBit t then .next (s.setGpio t false) else .next s

/-! ### Pulse-per-second and servo tick (R292) -/

/-- The last instant at or before now that is a multiple of `per` plus `off`; none before the first. -/
def lastMultiple (now per off : Nat) : Option Nat := if now < off ∨ per = 0 then none else some ((now - off) / per * per + off)

/-- PPS_OUT_EN is set: seconds already past raise nothing. -/
def State.ppsArm (s : State) : State :=
  let off := min 999999999 (s.reg 0xD0034).toNat
  s.onTim (fun t => { t with ppsLast := (lastMultiple s.now 1000000000 off).getD 0 })

/-- PPS_OUT (R292): it rises at each second plus offset and falls after WIDTH_MS. -/
def execPpsOut (dt : Nat) (s : State) : Res :=
  let s := s.elapse dt
  let en := s.flag regTimCtrl 15
  let off := min 999999999 (s.reg 0xD0034).toNat
  let width := 1000000 * min 999 (max 1 (s.fld 0xD0030 31 22))
  if ¬ en then .next (s.onTim (fun t => { t with ppsHigh := false }))
  else
    match lastMultiple s.now 1000000000 off with
    | none => .next s
    | some e =>
      if s.tim.ppsLast < e then
        .next (s.onTim (fun t => { t with ppsHigh := decide (s.now < e + width), ppsFall := e + width, ppsLast := e }))
      else if s.tim.ppsFall ≤ s.now then .next (s.onTim (fun t => { t with ppsHigh := false }))
      else .next s

/-- PPS_IN (R292): a rising edge now. -/
def execPpsIn (dt : Nat) (s : State) : Res :=
  let s := s.elapse dt
  let glitch := match s.tim.ppsIn with
    | some e => decide (s.now < e + 500000000)
    | none => false
  if glitch then .next (s.bump 0xD0208 1)
  else
    let t := s.now
    let s := (s.onTim (fun b => { b with ppsIn := some t })).setReg64 0xD0028 t
    .next (if s.flag regTimCtrl 16 then s.fire 30 1 (BitVec.ofNat 32 t) (BitVec.ofNat 32 (t / 2 ^ 32)) else s)

/-- SERVO_TICK (R292). -/
def execServoTick (dt : Nat) (s : State) : Res :=
  let s := s.elapse dt
  match lastMultiple s.now (1000000 * min 1000 (s.fld regTimCtrl 9 0)) 0 with
  | none => .next s
  | some e =>
    if s.tim.servoLast < e then .next ((s.onTim (fun t => { t with servoLast := e })).fireAt 30 0 0 0 e) else .next s

end Sys2Proof.Machine
end

