-- ==== Sys2Proof/Machine/Link.lean ====
section
/-!
DEFINITION. Machine/Link.lean: the Birlor Link's ports, frames, markers, addresses and topology (R342 to R345, R350 to R356), its
registers, and the slice map (R360).
-/
namespace Sys2Proof.Machine

def State.onLink (s : State) (f : Link → Link) : State := { s with link := f s.link }
def lpDflt (_ : Nat) : LinkPort := LinkPort.reset
def State.lport (s : State) (p : Nat) : LinkPort := Cells.get lpDflt s.link.ports p
def State.onLport (s : State) (p : Nat) (f : LinkPort → LinkPort) : State :=
  s.onLink (fun l => { l with ports := Cells.put lpDflt l.ports p (f (s.lport p)) })

def regLnkPort (p : Nat) : Nat := 0x100100 + 0x40 * p
def State.isHead (s : State) : Bool := s.straps.head
def State.ringEn (s : State) : Bool := s.flag 0x100000 1
/-- HEAD_ID of this module. -/
def ownHeadId : Nat := Config.serial.toNat % 2 ^ 32
/-- The port is IN_SERVICE, and boundary scan has not taken its lanes. -/
def State.linkUp (s : State) (p : Nat) : Bool := (s.lport p).st == 3 && !s.lanesTaken
/-- Another head's markers arrive on this head's LINK_UP: the port is disconnected, and carries only markers (R354). -/
def State.markersOnly (s : State) (p : Nat) : Bool := s.isHead && p == 0 && s.link.conflict == 4
/-- The port carries link frames. -/
def State.linkOpen (s : State) (p : Nat) : Bool := s.linkUp p && !s.markersOnly p
def State.anyLink (s : State) : Bool := s.linkUp 0 || s.linkUp 1

/-! ### Link frames (R343) -/

/-- A link frame with its CRC. -/
def linkFrame (cls origin dest hops part seq arg : Nat) (payload : List Byte) : List Byte :=
  let b := leBytes 1 cls ++ leBytes 1 origin ++ leBytes 1 dest ++ leBytes 1 hops ++ leBytes 2 payload.length ++ leBytes 2 part
    ++ leBytes 4 seq ++ leBytes 4 arg ++ payload
  b ++ leBytes 4 (crc32c b)

/-- A payload in parts of 2,048 bytes; at least one. -/
def linkParts : Nat → List Byte → List (List Byte)
  | 0, b => [b]
  | n + 1, b => if b.length ≤ 2048 then [b] else b.take 2048 :: linkParts n (b.drop 2048)

/-- A frame leaves a port that carries link frames. -/
def State.linkPut (s : State) (p : Nat) (f : List Byte) : State :=
  if s.linkOpen p then s.onLink (fun l => { l with out := l.out ++ [(p, f)] }) else s

/-- The next SEQ of this module in a class. -/
def State.linkSeq (s : State) (cls : Nat) : Nat × State :=
  let n := Cells.get (fun _ => 0) s.link.seqs cls
  (n, s.onLink (fun l => { l with seqs := Cells.put (fun _ => 0) l.seqs cls ((n + 1) % 2 ^ 32) }))

/-- One frame of this module out of each of some ports. -/
def State.linkSend (s : State) (ps : List Nat) (cls dest part arg : Nat) (payload : List Byte) : State :=
  let (n, s) := s.linkSeq cls
  ps.foldl (fun s p => s.linkPut p (linkFrame cls s.link.addr dest 0 part n arg payload)) s

/-- A message in parts, numbered from `part` on, under one ARG. -/
def State.linkSendAll (s : State) (ps : List Nat) (cls dest part arg : Nat) (payload : List Byte) : State :=
  ((linkParts payload.length payload).zipIdx).foldl (fun s q => s.linkSend ps cls dest (part + q.2) arg q.1) s

/-- The ports the head broadcasts out of. -/
def State.castPorts (s : State) : List Nat := if s.ringEn then [0, 1] else [1]

/-! ### States, breaks and the primary path (R344, R355, R356) -/

/-- The port brought the head's markers in the last cycle. -/
def State.toHead (s : State) (p : Nat) : Bool :=
  s.linkUp p && (match (s.lport p).headAt with | some t => decide (s.mgt.tick.count ≤ t + 1) | none => false)

/-- A break notice out of every port in service but one. -/
def State.breakNotice (s : State) : State := s.linkSend [0, 1] 1 0 0 0xFFFFFFFF []

/-- The primary path is lost: the other port takes over where it leads to the head, else the module is isolated. -/
def State.pathLost (s : State) (p : Nat) : State :=
  if s.toHead (1 - p) then (s.onLink (fun l => { l with primary := 1 - p, topo := 3 })).breakNotice
  else s.onLink (fun l => { l with topo := 4 })

/-- A port has left service. -/
def State.linkLeft (s : State) (p : Nat) : State :=
  if s.isHead then
    let t := if s.link.topo = 2 then 3 else if s.anyLink then s.link.topo else 0
    let s := s.onLink (fun l => { l with topo := t })
    if p = 0 ∧ s.link.conflict = 4 then
      (s.onLink (fun l => { l with conflict := 0 })).fire 60 (BitVec.ofNat 32 (s.link.addr + 768)) 4 0
    else s
  else if p = s.link.primary then s.pathLost p
  else if s.link.topo = 2 then s.onLink (fun l => { l with topo := 3 })
  else s

/-- A port changes state: source 59 (R344). -/
def State.linkState (s : State) (p st : Nat) : State :=
  let old := (s.lport p).st
  if old = st then s
  else
    let s := s.onLport p (fun x => if st < 2 then { x with st := st, good := 0, delays := [], headAt := none } else { x with st := st })
    let s := s.fire 59 (BitVec.ofNat 32 p) (BitVec.ofNat 32 st) 0
    let s := if old = 3 then s.linkLeft p else s
    if st = 3 ∧ s.link.topo = 0 then s.onLink (fun l => { l with topo := if s.isHead then 1 else 4 }) else s

/-- LNK_PORT_CFG takes a value. -/
def State.linkApply (s : State) (p : Nat) (v : Word) (origin oid time : Nat) : State :=
  let old := s.reg (regLnkPort p)
  let s := (s.setReg (regLnkPort p) v).chainEntry time origin oid 0x01 0 (BitVec.ofNat 32 (regLnkPort p)) old v
  if bitOf old 0 = bitOf v 0 then s
  else if bitOf v 0 then (if (s.lport p).st = 0 then s.linkState p 1 else s)
  else (s.linkState p 0).onLport p (fun x => { x with lanes := 0 })

/-- LINK_PORT_ENABLE (R344): a disable of a port in use waits for a render frame boundary (R19, R20). -/
def linkPortWrite (s : State) (o : Origin) (p : Nat) (v : Word) : State :=
  let v := v &&& 1
  if ¬ s.auditRoom 1 then s.bump 0x300 1
  else if bitOf (s.reg (regLnkPort p)) 0 ∧ ¬ bitOf v 0 ∧ (s.lport p).st ≠ 0 ∧ s.anyRun then s.modeRequest o (regLnkPort p) v
  else ((s.auditReserve 1).auditRelease 1).linkApply p v (originCode o) (originId o) s.now

def execLinkPortEnable (port : Nat) (v : Word) (origin : Origin) (s : State) : Res :=
  .next (if port < 2 then linkPortWrite s origin port v else s)

/-- LANE_LOCK: block lock and deskew on a lane. -/
def execLaneLock (port lane : Nat) (s : State) : Res :=
  let x := s.lport port
  if 2 ≤ port ∨ 2 ≤ lane ∨ x.st = 0 then .next s
  else
    let s := s.onLport port (fun x => { x with lanes := x.lanes ||| 2 ^ lane })
    .next (if x.st = 1 then s.linkState port 2 else s)

/-- LANE_LOCK_LOSS: with the last lane the port returns to ACQUIRING. -/
def execLaneLockLoss (port lane : Nat) (s : State) : Res :=
  let x := s.lport port
  if 2 ≤ port ∨ 2 ≤ lane ∨ x.st = 0 then .next s
  else
    let lanes := if x.lanes.testBit lane then x.lanes - 2 ^ lane else x.lanes
    let s := s.onLport port (fun x => { x with lanes := lanes })
    .next (if lanes = 0 then s.linkState port 1 else s)

/-- MARKER_LOSS: two markers missed in a row. -/
def execMarkerLoss (dt port : Nat) (s : State) : Res :=
  let s := s.elapse dt
  .next (if port < 2 ∧ (s.lport port).st = 3 then s.linkState port 1 else s)

/-! ### Addresses (R353, R354) -/

def addrFree (map a : Nat) : Bool := !map.testBit (a - 1)

/-- An address is assigned: source 60, event 1. -/
def State.takeAddr (s : State) (a : Nat) : State :=
  (s.onLink (fun l => { l with addr := a })).fire 60 (BitVec.ofNat 32 (a + 256)) 0 0

/-- A conflict is entered, or cleared (0): source 60, events 2 and 3. -/
def State.setConflict (s : State) (k : Nat) : State :=
  let old := s.link.conflict
  if old = k then s
  else
    let s := s.onLink (fun l => { l with conflict := k })
    s.fire 60 (BitVec.ofNat 32 (s.link.addr + (if k = 0 then 768 else 512))) (BitVec.ofNat 32 (if k = 0 then old else k)) 0

/-- A module that holds no address decides one from the Beacon's hop count and MAP. -/
def State.decideAddr (s : State) (hop : Nat) : State :=
  let strap := s.straps.addr
  let map := s.link.map
  if s.link.addr ≠ 31 ∨ s.link.conflict = 3 ∨ s.link.conflict = 5 then s
  else if 16 < hop then s.setConflict 5
  else if 17 ≤ strap then s.setConflict 3
  else if strap = 0 then
    (match (hop :: (List.range 16).map (· + 1)).find? (addrFree map) with
    | some a => s.takeAddr a
    | none => s)
  else if strap ≠ hop then s.setConflict 1
  else if ¬ addrFree map strap then s.setConflict 2
  else (s.setConflict 0).takeAddr strap

/-- READDRESS: the address is dropped, and R353 applies again. -/
def State.readdress (s : State) : State :=
  if s.isHead then s.takeAddr 1
  else s.onLink (fun l => { l with addr := 31, conflict := if l.conflict = 3 ∨ l.conflict = 5 then l.conflict else 0 })

/-- ACCEPT: conflict 1 clears while the strap is free in MAP. -/
def State.acceptStrap (s : State) : State :=
  if s.link.conflict = 1 ∧ addrFree s.link.map s.straps.addr then (s.setConflict 0).takeAddr s.straps.addr else s

/-- A write of LNK_CTRL. -/
def lnkCtrlWrite (s : State) (o : Origin) (v : Word) : State :=
  s.pulseWrite o 0x100018 0 (v &&& 3) (fun t =>
    let t := if bitOf v 0 then t.readdress else t
    if bitOf v 1 then t.acceptStrap else t)

def execReaddress (v : Word) (s : State) : Res := .next (lnkCtrlWrite s .host v)
def execAccept (v : Word) (s : State) : Res := .next (lnkCtrlWrite s .host v)

/-! ### Markers (R350, R351) -/

/-- The addresses this module reports: its own, and on the head and upstream those below it. -/
def State.mapBelow (s : State) : Nat :=
  let own := if s.link.addr ≤ 16 ∧ 1 ≤ s.link.addr then 2 ^ (s.link.addr - 1) else 0
  let x := s.lport 1
  let below := if s.linkUp 1 then x.map ||| (if 1 ≤ x.sender ∧ x.sender ≤ 16 then 2 ^ (x.sender - 1) else 0) else 0
  own ||| below

/-- HOP offered out of a port. -/
def State.hopOut (s : State) (p : Nat) : Nat :=
  if s.isHead then (if p = 1 ∨ s.ringEn then 2 else 0)
  else if s.toHead (1 - p) then min 255 ((s.lport (1 - p)).hop + 1) else 0

/-- Average of the measured hop delays, in 1/16 ns. -/
def LinkPort.delay (x : LinkPort) : Nat := if x.delays = [] then 0 else (x.delays.foldl (· + ·) 0) / x.delays.length

/-- The marker a port sends at the tick; its first bit leaves within 100 ns, when is free (R345). -/
def State.sendMarker (s : State) (p : Nat) : State :=
  let x := s.lport p
  if x.st < 2 ∨ s.lanesTaken then s
  else
    let (lead, s) := s.fresh 101
    let stamp := s.now + lead
    let seq := s.mgt.tick.count % 2 ^ 32
    let prim := s.lport s.link.primary
    let period := s.mgt.tick.last - s.mgt.tick.prev
    let last := (x.sentAt.headD (0, 0)).2
    let cum := if s.isHead then 0 else prim.cum + prim.delay
    let txLead : Int := 16 * ((last : Int) - s.mgt.tick.prev) + s.link.offset
    let b := leBytes 8 (if s.isHead then s.now else prim.headTime + period) ++ leBytes 4 (if s.isHead then ownHeadId else prim.headId)
      ++ leBytes 1 (s.hopOut p) ++ leBytes 1 s.link.addr ++ leBytes 1 s.link.topo ++ [0]
      ++ leBytes 4 (if s.hopOut p = 0 then s.mapBelow else s.link.map) ++ leBytes 8 last ++ leBytes 8 (x.gotAt.headD (0, 0)).2
      ++ leBytes 4 cum ++ leBytes 4 seq ++ leBytes 4 (pattern 32 txLead) ++ List.replicate 12 0
    let s := s.onLport p (fun x => { x with sentAt := ((seq, stamp) :: x.sentAt).take 4 })
    s.onLink (fun l => { l with out := l.out ++ [(p, b ++ leBytes 4 (crc32c b))] })

/-- The hop delay a marker gives (R351): T1 answers the marker received before it, T4 the last one sent that had arrived when it
left, which was sent at least the flight time of 100 m both ways before now. -/
def hopDelay (now : Nat) (x : LinkPort) (m : List Byte) : Option Nat :=
  match x.gotAt.head?, x.sentAt.find? (fun q => q.2 + 1000 ≤ now) with
  | some (_, t2), some (_, t3) => some (8 * (((leAt m 28 8 : Int) - leAt m 20 8) - ((t3 : Int) - t2))).toNat
  | _, _ => none

/-- LNK_TIME_OFFSET from TX_LEAD, for the cycle before (R351). -/
def State.aligned (s : State) (p : Nat) (m : List Byte) : State :=
  let x := s.lport p
  let k := (leAt m 40 4 + 2 ^ 32 - 1) % 2 ^ 32
  match x.gotAt.find? (fun q => q.1 == k) with
  | some (_, t2) =>
    let boundary : Int := 16 * (t2 : Int) - x.delay - signed 32 (leAt m 44 4)
    s.onLink (fun l => { l with offset := 16 * (s.mgt.tick.prev : Int) - boundary })
  | none => s

/-- TOPOLOGY and the primary path as a marker shows them (R355). DEDUCED: a marker that offers no hop comes by no path from a head, so beyond a
break it leaves the head at 3. -/
def State.topoFrom (s : State) (p : Nat) : State :=
  let x := s.lport p
  if s.isHead then
    if p = 0 ∧ x.hop ≠ 0 then (if x.headId = ownHeadId then s.onLink (fun l => { l with topo := 2 }) else s.setConflict 4)
    else s
  else if x.hop = 0 then s
  else
    let s := if p ≠ s.link.primary ∧ ¬ s.toHead s.link.primary then s.onLink (fun l => { l with primary := p }) else s
    if p ≠ s.link.primary then s
    else
      let t := if x.topo = 2 then 2 else if x.topo = 3 then 3 else 1
      s.onLink (fun l => { l with topo := t, primary := if t = 2 ∧ s.toHead 0 then 0 else l.primary })

/-- MARKER_RECEIVE (R350, R351): the 64 bytes of a marker whose first bit arrives now. -/
def execMarkerReceive (dt port : Nat) (m : List Byte) (s : State) : Res :=
  let s := s.elapse dt
  let x := s.lport port
  if 2 ≤ port ∨ x.st < 2 ∨ s.lanesTaken then .next s
  else if m.length ≠ 64 ∨ crc32c (m.take 60) ≠ leAt m 60 4 then
    .next ((s.bump 0x100300 1).onLport port (fun x => { x with good := 0 }))
  else
    let d := hopDelay s.now x m
    let hop := leAt m 12 1
    let primary := port = s.link.primary
    let s := if primary ∧ ¬ s.isHead then s.aligned port m else s
    let s := s.onLport port (fun x =>
      { x with
          good := x.good + 1, delays := (d.toList ++ x.delays).take 64
          gotAt := ((leAt m 40 4, s.now) :: x.gotAt).take 4
          headAt := if hop ≠ 0 ∨ (s.isHead && port == 0) then some s.mgt.tick.count else x.headAt
          headTime := leAt m 0 8, headId := leAt m 8 4, hop := hop, sender := leAt m 13 1, topo := leAt m 14 1
          map := leAt m 16 4 % 65536, cum := leAt m 36 4 })
    let x := s.lport port
    let s := if x.st = 2 ∧ 4 ≤ x.good ∧ x.delays ≠ [] then s.linkState port 3 else s
    let s := s.topoFrom port
    let s := if s.isHead then s.onLink (fun l => { l with map := s.mapBelow })
      else if port = s.link.primary ∧ hop ≠ 0 then s.onLink (fun l => { l with map := x.map, hop := hop })
      else s
    if s.isHead ∨ port ≠ s.link.primary ∨ hop = 0 ∨ (s.lport port).st ≠ 3 then .next s
    else if s.straps.addr = 0 ∧ s.link.addr = x.sender ∧ s.link.addr ≠ 31 then .next (s.onLink (fun l => { l with addr := 31 }))
    else .next (s.decideAddr hop)

/-! ### Registers of the link (R352, R357, R453) -/

/-- LNK_CFG, LNK_BCAST and LNK_RX are checked before they take a value. -/
def State.lnkCfgBad (s : State) (off : Nat) (v : Word) : Bool :=
  let t := s.setReg off v
  if off = 0x100000 then
    (bitOf v 3 && !s.servoOwned) || (bitOf v 2 && !s.isHead && !bitOf v 3)
      || (bitOf v 0 && !s.chainEn && t.feederClash t.chainFeeder)
  else s.chainEn && t.feederClash t.chainFeeder

def lnkCfgWrite (s : State) (o : Origin) (off : Nat) (v : Word) : State :=
  let v := v &&& (if off = 0x100000 then 0x1F else if off = 0x10000C then 0x7FF0FFF else 0x30000FFF)
  if s.lnkCfgBad off v then s.setFlag 0x100004 31 true else s.loggedWrite o off v

/-- LNK_CFG_WRITE: `i` 0 LNK_CFG, 1 LNK_BCAST, 2 LNK_RX. -/
def execLnkCfgWrite (i : Nat) (v : Word) (origin : Origin) (s : State) : Res :=
  .next (if i < 3 then lnkCfgWrite s origin (if i = 0 then 0x100000 else if i = 1 then 0x10000C else 0x100010) v else s)

/-- LNK_STATUS, LNK_MAP, LNK_TIME_OFFSET and LNK_PORT_STATUS as the link stands. -/
def State.lnkStatus (s : State) : Word :=
  let l := s.link
  (s.reg 0x100004 &&& 0x80000000) ||| BitVec.ofNat 32 (l.addr + 256 * (l.hop % 32) + 2 ^ 16 * l.conflict + 2 ^ 24 * l.topo
    + 2 ^ 29 * l.primary + (if s.isHead then 2 ^ 30 else 0))
def State.lnkPortStatus (s : State) (p : Nat) : Word :=
  let x := s.lport p
  BitVec.ofNat 32 (x.delay % 2 ^ 20 + (if x.st = 3 ∧ (x.lanes = 1 ∨ x.lanes = 2) then 2 ^ 28 else 0) + 2 ^ 29 * x.st)

/-! ### The slice map (R360) -/

def lnkSliceBad : Nat := 0x0A01
def lnkBadDest : Nat := 0x0A02
def lnkDown : Nat := 0x0A03
def lnkBadLength : Nat := 0x0A04
def lnkFuture : Nat := 0x0A05

/-- The shadow map. -/
def State.shadowSlice (s : State) : List Word := (List.range 512).map (fun o => s.reg (0x101000 + 4 * o))

/-- A speaker appears twice, or an entry lies at or above the outputs of the rate. -/
def State.sliceBad (s : State) : Bool :=
  let es := (s.shadowSlice.zipIdx).filter (fun p => bitOf p.1 31)
  let sp := es.map (fun p => field p.1 12 0)
  sp.eraseDups.length != sp.length || es.any (fun p => decide (s.maxOut ≤ p.2))

/-- LNK_SLICE_APPLY. -/
def execLnkSliceApply (s : State) : Res :=
  match s.nextDesc 0 0xC1 with
  | none => .next s
  | some d =>
    if d.w1 ≠ 0 ∨ d.w2 ≠ 0 ∨ d.w3 ≠ 0 then .next (s.finish 0 d.index stBadDesc)
    else if s.sliceBad then .next (s.finish 0 d.index lnkSliceBad)
    else if s.now + 3600000000000 < d.time then .next (s.finish 0 d.index lnkFuture)
    else if ¬ s.auditRoom 1 then .next (s.stall 0 .lnkSliceApply)
    else
      .next (((s.setPhase 0 d.index .accepted).auditReserve 1).onLink (fun l =>
        { l with slices := l.slices ++ [s.request d.index d.time] }))

/-- The CRC of a map as its ACTION entry gives it (R449). -/
def sliceCrc (m : List Word) : Word := BitVec.ofNat 32 (crc32c ((m.map (fun w => leBytes 4 w.toNat)).flatten))

/-- The shadow becomes live at its boundary. -/
def State.sliceLive (s : State) (q : Req) : State :=
  let old := (List.range 512).map (fun o => Cells.get (fun _ => (0 : Word)) s.slice o)
  let new := s.shadowSlice
  let s := { s with slice := Cells.putList (fun _ => (0 : Word)) [] 0 new }
  let s := s.auditWriteBy (s.cmdOrigin q.index).1 (s.cmdOrigin q.index).2 0x03 2 0xC10000 (sliceCrc old) (sliceCrc new)
  s.finishAt 0 q.index stOk 0 s.mgt.tick.last none

/-- Slice changes whose boundary the tick has opened. -/
def State.sliceTick (s : State) : State :=
  let due := s.link.slices.filter (fun q => s.reqDue q)
  due.foldl State.sliceLive (s.onLink (fun l => { l with slices := l.slices.filter (fun q => !s.reqDue q) }))

end Sys2Proof.Machine
end

