-- ==== Sys2Proof/Machine/Chain.lean ====
section
/-!
DEFINITION. Machine/Chain.lean: what link frames carry: chain channel groups (R346 to R348), metadata (R349), break notices (R356), the
twins' seals and blocks (R357 to R359), and the management tunnel (R361, R362). Where the manual gives a payload no layout, the one
here is the model's (assumption log).
-/
namespace Sys2Proof.Machine

/-- Chain channels the head broadcasts (R346). -/
def State.castCount (s : State) : Nat := min s.chainCount (if s.rateClass = 2 then 512 else 1024)

/-! ### Groups (R346) -/

/-- Sample `i` of the frame now open, as far as the feeder of an ingress channel has delivered it. -/
def State.ingressNow (s : State) (ch i : Nat) : Int :=
  match s.feeders.find? (fun f => f.kind != 2 && f.first ≤ ch && ch < f.first + f.count) with
  | none => 0
  | some f =>
    if f.kind = 0 then
      (match (s.port f.num).got.find? (fun g => g.idx == 32 * s.mgt.tick.count + i) with
      | some g => g.vals.getD (ch - f.first) 0
      | none => 0)
    else
      let x := s.stream f.num
      let m := s.mediaNow + i
      match gotAt x.got 0 m (ch - f.first) with
      | some v => v
      | none => (gotAt x.got 1 m (ch - f.first)).getD 0

/-- The head captures the next group and broadcasts it; group 7 goes once its seals are known, at the tick. -/
def State.captureGroup (s : State) : State :=
  let g := s.link.capG
  let first := s.fld 0x10000C 11 0
  let rows := (List.range s.castCount).map (fun c => (c, (List.range 4).map (fun i => s.ingressNow (first + c) (4 * g + i))))
  let s := s.onLink (fun l =>
    { l with
        capG := g + 1
        cap := rows.foldl (fun m r => Cells.put (fun _ => []) m r.1 (Cells.get (fun _ => []) m r.1 ++ r.2)) l.cap })
  s.linkSendAll s.castPorts 3 0 (16 * g) s.ing.frame ((rows.map (fun r => (r.2.map (fun v => leBytes 4 (pattern 32 v))).flatten)).flatten)

/-- The module is the head of a working chain. -/
def State.casting (s : State) : Bool := s.isHead && s.chainEn

/-- GROUP_CAPTURE (R346): group g is captured at the instant of sample 4g + 4. -/
def execGroupCapture (dt : Nat) (s : State) : Res :=
  let s := s.elapse dt
  let g := s.link.capG
  .next (if s.casting ∧ 0 < s.mgt.tick.count ∧ g < 7 ∧ s.sampleInstant (4 * g + 4) ≤ s.now then s.captureGroup else s)

/-- At the tick that ends the frame the head captures what is left, and seals each chain block: `flags` gives the flags of the
ingress block a channel carries. -/
def State.captureRest (s : State) : State := iter (8 - s.link.capG) State.captureGroup s

/-- The sidecar of a chain block (R366); a bad block goes out with no seal (R370). -/
def chainSidecar (c frame flags plane : Nat) (xs : List Int) : List Byte :=
  leBytes 4 (if flags &&& 0x38 = 0 then blockSeal 0x110 c frame xs else 0) ++ leBytes 2 flags ++ leBytes 1 plane ++ [0]

def State.sealGroups (s : State) (blockOf : Nat → Block) : State :=
  let first := s.fld 0x10000C 11 0
  let table := ((List.range s.castCount).map (fun c =>
    let b := blockOf (first + c)
    chainSidecar c s.ing.frame b.flags b.plane (Cells.get (fun _ => []) s.link.cap c))).flatten
  let s := s.linkSendAll s.castPorts 3 0 (16 * 7 + 8) s.ing.frame table
  -- the head's own copy, as path 2
  let xs := fun (g : Nat) => ((List.range s.castCount).map (fun c =>
    (((Cells.get (fun _ => []) s.link.cap c).drop (4 * g)).take 4).map (fun v => leBytes 4 (pattern 32 v)))).flatten.flatten
  let own := (List.range 8).map (fun g =>
      ({ path := 2, origin := 0, num := s.ing.frame, part := 16 * g, arg := s.ing.frame, bytes := xs g } : LinkPart))
    ++ [{ path := 2, origin := 0, num := s.ing.frame, part := 16 * 7 + 8, arg := s.ing.frame, bytes := table }]
  s.onLink (fun l => { l with groups := l.groups ++ own, cap := [], capG := 0 })

/-! ### The committed blocks (R347, R348) -/

/-- The bytes of parts `from_` on that came by a path, in order. -/
def pathBytes (ps : List LinkPart) (path from_ : Nat) : Nat → List Byte
  | 0 => []
  | n + 1 =>
    match ps.find? (fun q => q.path == path && q.part == from_) with
    | some q => q.bytes ++ pathBytes ps path (from_ + 1) n
    | none => []

/-- The block of chain channel `c` from one path, where all its groups came and the seal verifies: flags and samples. The newest seal table
says which frame the groups belong to. -/
def pathBlock (ps : List LinkPart) (count path c : Nat) : Option (Nat × List Int) :=
  match ps.reverse.find? (fun q => q.path == path && q.part == 16 * 7 + 8) with
  | none => none
  | some q =>
    let ps := ps.filter (fun g => g.arg == q.arg)
    let gs := (List.range 8).map (fun g => pathBytes ps path (16 * g) 8)
    let tab := pathBytes ps path (16 * 7 + 8) 4
    if gs.all (fun g => g.length == 16 * count) && tab.length == 8 * count then
      let xs := (gs.map (fun g => (List.range 4).map (fun i => signed 32 (leAt g (16 * c + 4 * i) 4)))).flatten
      let sc := (tab.drop (8 * c)).take 8
      if leAt sc 0 4 = blockSeal 0x110 c q.arg xs then some (leAt sc 4 2, xs) else none
    else none

/-- One chain channel: primary path, other path, or concealed. -/
def State.chainBlock (s : State) (c : Nat) : State × Block :=
  let l := s.link
  let plane := s.chainFeeder.plane
  let prim := if s.isHead then 2 else l.primary
  let count := s.castCount
  let a := pathBlock l.groups count prim c
  let b := if a.isSome ∨ s.isHead then none else pathBlock l.groups count (1 - l.primary) c
  let con := Cells.get (fun _ => Conceal.start) l.conceal c
  let put := fun (s : State) (con : Conceal) =>
    s.onLink (fun l => { l with conceal := Cells.put (fun _ => Conceal.start) l.conceal c con })
  if l.conflict ≠ 0 then (s, { samples := silence, flags := flagPortAbsent, plane := plane })
  else
    match a, b with
    | some (fl, xs), _ => let (ys, con) := con.next true xs; (put s con, { samples := ys, flags := fl % 64, plane := plane })
    | none, some (fl, xs) =>
      let (ys, con) := con.next true xs
      ((put s con).bump 0x100304 1, { samples := ys, flags := fl % 64, plane := plane })
    | none, none =>
      let (ys, con) := con.next false silence
      ((put s con).bump 0x100308 1, { samples := ys, flags := flagConcealed, plane := plane })

/-- The chain's ingress blocks at a tick. -/
def State.chainBlocks (s : State) : State × List (Nat × Block) :=
  if ¬ s.chainEn then (s, [])
  else
    let (s, l) := (List.range s.castCount).foldl (fun (a : State × List (Nat × Block)) c =>
      let (s, b) := a.1.chainBlock c
      (s, a.2 ++ [(s.chainFeeder.first + c, b)])) (s, [])
    (s.onLink (fun x => { x with groups := [] }), l)

/-! ### Metadata (R349) -/

/-- Metadata comes over the link (R39). -/
def State.chainMeta (s : State) : Bool := s.flag 0x80000 0 && s.chainEn

/-- The head latches records for the whole chain: what waits on, and the records of each descriptor that are broadcast, with whether they end
it. Such a descriptor can no longer be withdrawn. -/
def State.castLatch : Nat → List MetaDesc → State → List MetaDesc × List (MetaDesc × Bool) × State
  | _, [], s => ([], [], s)
  | n, d :: ds, s =>
    if s.now < d.fetchedAt + 1000 ∨ n = 0 then
      let (l, r, s) := State.castLatch n ds s
      (d :: l, r, s)
    else
      let now := d.recs.take n
      let left := d.recs.drop n
      let (l, r, s) := State.castLatch (n - now.length) ds (s.setPhase d.ring d.index .committed)
      (if left = [] then l else { d with recs := left } :: l, ({ d with recs := now }, left == []) :: r, s)

/-- Records broadcast at the tick before are judged and applied at this one; a descriptor that they end completes with the status of its
first rejected record (R43, R349). -/
def State.castApply (es ee : Nat) (s : State) (q : MetaDesc × Bool) : State :=
  let (_, st, _, s) := State.latchRecs es ee q.1.recs.length q.1.status q.1.recs s
  if q.2 then s.finish q.1.ring q.1.index st
  else
    s.onRnd (fun x => { x with
      waiting := x.waiting.map (fun d => if d.ring = q.1.ring ∧ d.index = q.1.index then { d with status := st } else d) })

/-- What the head broadcast at the tick before acts at this one (R349). -/
def State.castDue (s : State) (es ee : Nat) : State :=
  s.link.metaDue.foldl (State.castApply es ee) (s.onLink (fun x => { x with metaDue := [] }))

/-- Records of a set act as if the tick had latched them. -/
def State.applyMetas (s : State) (es ee : Nat) (recs : List MetaRec) : State := recs.foldl (fun s m => (s.latchRec es ee m).2) s

/-- The bytes of a metadata set that has come whole: its last part is shorter than 2,048 bytes. -/
def metaSet (ps : List LinkPart) (num : Nat) : Option (List Byte) :=
  let mine := ps.filter (fun q => q.num == num)
  match mine.find? (fun q => decide (q.bytes.length < 2048)) with
  | none => none
  | some last =>
    if (List.range last.part).all (fun p => mine.any (fun q => q.part == p)) then some (pathBytes (mine.map (fun q => { q with path := 0 })) 0 0 (last.part + 1))
    else none

/-- Metadata at a tick of a chain: the head broadcasts the next set; the others apply the sets that have come, and count the cycle that ends,
which the head's last marker numbers, where its own set has not. -/
def State.chainLatch (s : State) (es ee : Nat) : State :=
  if s.isHead then
    let ds := sortBy (fun a b => decide (a.ring ≤ b.ring)) s.rnd.waiting
    let (l, due, s) := State.castLatch 2048 ds (s.onRnd (fun x => { x with waiting := [] }))
    let s := (s.onRnd (fun x => { x with waiting := l })).onLink (fun x => { x with metaDue := due })
    let body := ((due.map (fun q => q.1.recs)).flatten.map (fun r => r.raw)).flatten
    let s := s.linkSendAll s.castPorts 5 0 0 s.mgt.tick.count body
    if body.length % 2048 = 0 ∧ body ≠ [] then s.linkSend s.castPorts 5 0 (body.length / 2048) s.mgt.tick.count [] else s
  else
    let nums := sortBy (fun a b => decide (a ≤ b)) ((s.link.metas.map (fun q => q.num)).eraseDups)
    let done := nums.filter (fun n => (metaSet s.link.metas n).isSome)
    let cycle := ((s.lport s.link.primary).gotAt.headD (0, 0)).1
    let s := if (metaSet s.link.metas cycle).isNone ∧ s.anyLink then s.bump 0x10030C 1 else s
    let s := done.foldl (fun s n =>
      match metaSet s.link.metas n with
      | some b => s.applyMetas es ee (parseBatch (b.length / 32) b)
      | none => s) s
    s.onLink (fun l => { l with metas := l.metas.filter (fun q => !done.contains q.num) })

/-! ### Twins (R357 to R359) -/

/-- The address of the twin, where this module has one. -/
def State.twinAddr (s : State) : Option Nat :=
  let a := s.link.addr
  if s.flag 0x100000 2 ∧ 1 ≤ a ∧ a ≤ 16 then some (if a % 2 = 1 then a + 1 else a - 1) else none
/-- The twin is present, a direct neighbour on a port, and the exchange of blocks runs. -/
def State.twinHere (s : State) : Bool := match s.twinAddr with | some a => s.link.map.testBit (a - 1) | none => false
def State.twinPort (s : State) : Option Nat := [0, 1].find? (fun p => s.linkUp p && s.twinAddr == some (s.lport p).sender)
def State.twinExchanges (s : State) : Bool :=
  s.twinHere && s.link.conflict == 0 && (match s.twinPort with | some p => (s.lport p).lanes == 3 | none => false)

/-- LNK_TWIN_STATUS. -/
def State.twinStatus (s : State) : Word :=
  let b := fun (c : Bool) (n : Nat) => if c then 2 ^ n else 0
  BitVec.ofNat 32 (b s.twinHere 0 + b s.link.compareOff 1 + b s.twinExchanges 2 + b s.twinPort.isSome 3)

def sealOrNone (stream ch num : Nat) (b : Option Block) : Nat :=
  match b with
  | some b => if b.flags &&& 0x38 = 0 then blockSeal stream ch num b.samples else 0
  | none => 0

/-- Seals of the rendered outputs, then of the egresses of the cycle before (R358). -/
def State.ownSeals (s : State) (num : Nat) : List Nat :=
  (List.range 512).map (fun o => sealOrNone 0x201 o num ((s.rnd.acc.find? (fun p => p.1 == o)).map (·.2)))
    ++ (List.range 4096).map (fun d => sealOrNone 0x205 d num (Cells.get (fun _ => []) s.mix.egress d)[1]?)

/-- A report says what R358 asks twins to agree on beside their seals: RND_STATUS, CNV_STATUS and frames since the Render plane's start. -/
def twinReport (rnd cnv : Word) (frame : Nat) : List Byte := leBytes 4 rnd.toNat ++ leBytes 4 cnv.toNat ++ leBytes 4 (frame % 2 ^ 32)
/-- Paths are shed, or the twin is in render fail. -/
def reportSheds (r : List Byte) : Bool := bitOf (wordAt r 0) 10 || bitOf (wordAt r 0) 11
/-- UNITS, convolution shedding and the start frame are the same. -/
def reportsAgree (a b : List Byte) : Bool :=
  a.length == b.length && field (wordAt a 0) 3 0 == field (wordAt b 0) 3 0 && bitOf (wordAt a 4) 10 == bitOf (wordAt b 4) 10
    && wordAt a 8 == wordAt b 8

/-- After a tick each twin sends its seals, its report, and over a whole hop its output blocks. -/
def State.twinSend (s : State) (report : List Byte) : State :=
  match s.twinAddr with
  | none => s
  | some a =>
    if ¬ s.twinHere ∨ s.link.conflict ≠ 0 then s
    else
      let num := s.ing.frame
      let own := s.ownSeals num
      let s := s.onLink (fun l => { l with own := some (num, own), ownReport := report })
      let s := s.linkSendAll [0, 1] 4 a 0 num ((own.map (leBytes 4)).flatten)
      let s := s.linkSend [0, 1] 4 a 9 num report
      match s.twinPort with
      | some p =>
        if s.twinExchanges then
          s.rnd.acc.foldl (fun s q =>
            if q.2.flags &&& 0x38 ≠ 0 then s
            else
              s.linkSend [p] 2 a q.1 num ((q.2.samples.map (fun v => leBytes 4 (pattern 32 v))).flatten
                ++ leBytes 4 (blockSeal 0x201 q.1 num q.2.samples) ++ leBytes 2 q.2.flags ++ leBytes 1 q.2.plane ++ [0])) s
        else s
      | none => s

/-- At the end of the cycle the twin's seals are compared with this module's (R358). -/
def State.twinCompare (s : State) : State :=
  match s.link.own with
  | none => s
  | some (num, own) =>
    let mine := (s.link.twin.filter (fun q => q.path == 4 && q.num == num)).map (fun q => { q with path := 0 })
    let theirs := pathBytes mine 0 0 9
    let rep := pathBytes mine 0 9 1
    let report := s.link.ownReport
    let off := theirs.length ≠ 18432 ∨ ¬ reportsAgree rep report ∨ reportSheds report ∨ reportSheds rep
    let s := s.onLink (fun l => { l with own := none, compareOff := decide off, twin := l.twin.filter (fun q => q.path != 4) })
    if off then s
    else
      (own.zipIdx).foldl (fun s q =>
        let t := leAt theirs (4 * q.2) 4
        if q.1 ≠ 0 ∧ t ≠ 0 ∧ q.1 ≠ t then (s.bump 0x100310 1).noteEvent 40 (0xFFFF + 65536 * q.2) num 0 else s) s

/-- The partner's copy of an output block of frame `num`, where it has come and verifies (R359). -/
def State.twinBlock (s : State) (o num : Nat) : Option Block :=
  match s.link.twin.find? (fun q => q.path == 2 && q.part == o && q.num == num) with
  | none => none
  | some q =>
    let xs := (List.range 32).map (fun i => signed 32 (leAt q.bytes (4 * i) 4))
    if q.bytes.length = 136 ∧ leAt q.bytes 128 4 = blockSeal 0x201 o num xs then
      some { samples := xs, flags := leAt q.bytes 132 2 % 64, plane := leAt q.bytes 134 1 % 4 }
    else none

/-! ### The tunnel (R361, R362) -/

/-- Bits of ARG of a tunnel frame. -/
def tunArg (len : Nat) (remote normal : Bool) : Nat := len + (if remote then 65536 else 0) + (if normal then 131072 else 0)

/-- A message is flooded out of every port that carries link frames; each copy passes the port's transmit queue. -/
def State.tunFlood (s : State) (dest arg : Nat) (msg : List Byte) : State :=
  let (n, s) := s.linkSeq 6
  [0, 1].foldl (fun s p =>
    if ¬ s.linkOpen p then s
    else
      let words := [s.link.addr + 256 * dest, n, msg.length, arg] ++ toWords64 (msg.length / 8 + 1) msg
      let s := (s.pushItem 4 (2 * p + 1) words false).popItem 4 (2 * p + 1)
      ((linkParts msg.length msg).zipIdx).foldl (fun s q => 
        s.linkPut p (linkFrame 6 s.link.addr dest 0 q.2 n arg q.1)) s) s

/-- TUN_SEND on rings 52 and 53. -/
def execTunSend (ring : Nat) (data : Option (List Byte)) (s : State) : Res :=
  match s.nextDesc ring 0x50 with
  | none => .next s
  | some d =>
    let dest := field d.w0 20 16
    let len := d.w1.toNat
    if field d.w0 31 21 ≠ 0 ∨ field d.w0 15 9 ≠ 0 then .next (s.finish ring d.index stBadDesc)
    else if 17 ≤ dest ∨ dest = s.link.addr then .next (s.finish ring d.index lnkBadDest)
    else if ¬ s.anyLink then .next (s.finish ring d.index lnkDown)
    else if len = 0 ∨ 4096 < len ∨ d.addr % 32 ≠ 0 then .next (s.finish ring d.index lnkBadLength)
    else
      match data with
      | none => .next (s.finish ring d.index stDmaError)
      | some b =>
        let used := (if s.linkOpen 0 then 1 else 0) + (if s.linkOpen 1 then 2 else 0)
        let s := s.tunFlood dest (tunArg len (bitOf d.w0 8) (ring == 53)) (b.take len)
        .next (s.finishAt ring d.index stOk 0 s.now (some (BitVec.ofNat 32 used)))

/-- Completion records of remote commands go back as tunnel messages. -/
def State.sendReplies (s : State) : State :=
  let l := s.link.replies
  l.foldl (fun s q => s.tunFlood q.1 (tunArg 16 false false) q.2) (s.onLink (fun x => { x with replies := [] }))

/-- A remote command joins ring 0 as a descriptor of its ORIGIN. -/
def State.takeRemote (s : State) (peer : Nat) (msg : List Byte) : State :=
  let ws := (List.range 8).map (fun i => wordAt msg (4 * i))
  let d : Desc := { mkDesc (2 ^ 32 + s.link.remotes) ws with peer := some peer }
  let d := if msg.length ≠ 32 ∨ entrySeal 0 0 d.body ≠ (ws.getD 7 0).toNat then { d with phase := .done stBadSeal 0 s.now none }
    else if ringAccepts 0 d.opcode then d
    else { d with phase := .done stBadOpcode 0 s.now none }
  let d := s.standbyGate d
  let s := s.onLink (fun l => { l with remotes := l.remotes + 1 })
  (s.onRing 0 (fun x => { x with descs := x.descs ++ [d] })).retire 0

/-- TUNNEL_RECEIVE (R362): the head message of a port's receive queue, where it stays while its ring is full (R205). -/
def execTunnelReceive (dt port : Nat) (s : State) : Res :=
  let s := s.elapse dt
  match (s.queue 4 (2 * port)).head with
  | none => .next s
  | some ws =>
    let arg := ws.getD 3 0
    let ring := if arg.testBit 17 then 55 else 54
    if ¬ arg.testBit 16 ∧ s.d2hFull ring then .next s
    else
    let s := s.popItem 4 (2 * port)
    let origin := ws.getD 0 0 % 256
    let seq := ws.getD 1 0
    let len := ws.getD 2 0
    let msg := (((ws.drop 4).map (leBytes 8)).flatten).take len
    if arg.testBit 16 then
      if s.flag 0x100000 4 then .next ((s.takeRemote origin msg).sendReplies) else .next (s.bump 0x100318 1)
    else
      .next (s.enqueue ring
        { code := 1, flags := 0, bits := origin % 32, w1 := BitVec.ofNat 32 len, w2 := BitVec.ofNat 32 seq, w3 := 0, time := s.now
          payload := msg })

/-! ### LINK_FRAME_RECEIVE (R343) -/

/-- A frame goes on out of the other port, one hop older. -/
def State.linkForward (s : State) (p : Nat) (f : List Byte) : State :=
  s.linkPut (1 - p) (linkFrame (leAt f 0 1) (leAt f 1 1) (leAt f 2 1) (leAt f 3 1 + 1) (leAt f 6 2) (leAt f 8 4) (leAt f 12 4)
    ((f.drop 16).take (leAt f 4 2)))

/-- A tunnel message whose last part has come enters the port's receive queue. -/
def State.tunnelPart (s : State) (p origin dest seq part arg : Nat) (b : List Byte) : State :=
  let l := s.link.parts ++ [{ path := p, origin := origin, num := seq, part := part, arg := arg, bytes := b }]
  let mine := l.filter (fun q => q.path == p && q.origin == origin && q.num == seq)
  let msg := pathBytes mine p 0 3
  let len := arg % 65536
  if msg.length < len then s.onLink (fun x => { x with parts := l })
  else
    let s := s.onLink (fun x => { x with parts := l.filter (fun q => !(q.path == p && q.origin == origin && q.num == seq)) })
    s.pushItem 4 (2 * p) ([origin + 256 * dest, seq, len, arg] ++ toWords64 (len / 8 + 1) (msg.take len)) false

/-- A break notice beyond the break (R356). -/
def State.breakHeard (s : State) (p : Nat) : State :=
  if s.isHead then s.onLink (fun l => { l with topo := 3 })
  else if p = s.link.primary ∧ s.toHead (1 - p) then s.onLink (fun l => { l with topo := 3, primary := 1 - p })
  else s.onLink (fun l => { l with topo := 3 })

/-- Bit errors of the PRBS on a port; past its limit in an epoch source 54 tells (R393). -/
def State.prbsErrors (s : State) (p errs : Nat) : State :=
  let s := (s.bump 0x10031C errs).onLport p (fun x => { x with prbs := x.prbs + errs })
  let x := s.lport p
  if s.fld 0x120000 23 16 < x.prbs ∧ ¬ x.prbsTold ∧ s.flag 0x120000 4 then
    ((s.bump 0x12011C 1).onLport p (fun x => { x with prbsTold := true })).fire 54 (BitVec.ofNat 32 (6 + 256 * p)) (BitVec.ofNat 32 x.prbs) 0
  else s

/-- LINK_FRAME_RECEIVE: a frame on a port; `errs`: bit errors its PRBS pattern shows, in the Vigil class. -/
def execLinkFrameReceive (dt port : Nat) (f : List Byte) (errs : Nat) (s : State) : Res :=
  let s := s.elapse dt
  if 2 ≤ port ∨ ¬ s.linkOpen port then .next s
  else
    let len := leAt f 4 2
    let cls := leAt f 0 1
    if cls = 7 then .next (s.prbsErrors port errs)
    else if f.length ≠ len + 20 ∨ 2048 < len ∨ crc32c (f.take (16 + len)) ≠ leAt f (16 + len) 4 then .next (s.bump 0x100300 1)
    else
      let origin := leAt f 1 1
      let dest := leAt f 2 1
      let hops := leAt f 3 1
      let part := leAt f 6 2
      let seq := leAt f 8 4
      let arg := leAt f 12 4
      let b := (f.drop 16).take len
      let key := (origin, cls + 256 * part, seq)
      let seen := s.link.seen.contains key || origin == s.link.addr
      let mine := dest = 0 ∨ dest = s.link.addr
      let rec_ : LinkPart := { path := port, origin := origin, num := arg, part := part, arg := arg, bytes := b }
      let s := if seen then s else s.onLink (fun l => { l with seen := (key :: l.seen).take 4096 })
      if cls = 1 then
        if seen ∨ len ≠ 0 ∨ arg ≠ 0xFFFFFFFF then .next s
        else .next ((if hops < 15 then s.linkForward port f else s).breakHeard port)
      else if cls = 2 then
        .next (if s.twinAddr = some origin then s.onLink (fun l => { l with twin := l.twin ++ [{ rec_ with path := 2 }] }) else s)
      else if cls = 3 then
        if origin = s.link.addr then .next s
        else
          let s := if seen then s else s.linkForward port f
          .next (if s.chainEn then s.onLink (fun l => { l with groups := l.groups ++ [rec_] }) else s)
      else if cls = 4 then
        if dest ≠ s.link.addr then .next (if seen then s else s.linkForward port f)
        else if seen ∨ s.twinAddr ≠ some origin then .next s
        else .next (s.onLink (fun l => { l with twin := l.twin ++ [{ rec_ with path := 4 }] }))
      else if cls = 5 then
        if seen then .next s
        else
          let s := s.linkForward port f
          .next (if s.chainMeta then s.onLink (fun l => { l with metas := l.metas ++ [rec_] }) else s)
      else if cls = 6 then
        if seen then .next s
        else
          let s := if hops < 15 then s.linkForward port f else s
          .next (if mine then s.tunnelPart port origin dest seq part arg b else s)
      else .next s

end Sys2Proof.Machine
end

