-- ==== Sys2Proof/Machine/Flags.lean ====
section
/-!
DEFINITION. Machine/Flags.lean: the result rules of a core: saturation (R178), the guard rule of the accumulators (R179), and
the flags of CMP with the conditions that read them (R174, R177).
-/
namespace Sys2Proof.Machine

/-- The signed number in the low 32 bits of an exact result. -/
def wrap32 (v : Int) : Int := signed 32 (pattern 32 v)

/-- A 32-bit result under the S bit (R178): the value, and whether it saturated. -/
def result32 (s : Bool) (v : Int) : Int × Bool :=
  if s ∧ satS 32 v ≠ v then (satS 32 v, true) else (wrap32 v, false)

/-- The outcome of the guard rule for one accumulator (R179): value, an overflow event, and whether it is clamped now. -/
structure Guarded where
  value : Int
  overflow : Bool
  clamped : Bool
  deriving DecidableEq, Repr

/-- The guard rule: exact sum `t`, S bit. -/
def guardRule (s : Bool) (t : Int) : Guarded :=
  if satS 72 t = t then { value := t, overflow := false, clamped := false }
  else if s then { value := satS 72 t, overflow := true, clamped := true }
  else { value := signed 72 (pattern 72 t), overflow := true, clamped := false }

/-- FLAGS of gA − gB: Z, N, C, V as bits 3 to 0. -/
def cmpFlags (a b : Word) : Nat :=
  let d := sint a - sint b
  let borrow := decide (a.toNat < b.toNat)
  (if a = b then 8 else 0) + (if wrap32 d < 0 then 4 else 0) + (if borrow = Config.carryIsBorrow then 2 else 0)
    + (if wrap32 d ≠ d then 1 else 0)

/-- A condition of BR on FLAGS. -/
def condHolds (cc : BCond) (f : Nat) : Bool :=
  let z := f.testBit 3
  let less := f.testBit 2 != f.testBit 0
  let borrow := f.testBit 1 == Config.carryIsBorrow
  match cc with
  | .eq => z
  | .ne => !z
  | .lt => less
  | .ge => !less
  | .ltu => borrow
  | .geu => !borrow
  | .always => true

/-- A condition of VCMP. -/
def vcondHolds (cc : VCond) (a b : Int) : Bool :=
  match cc with
  | .eq => a == b
  | .ne => a != b
  | .lt => decide (a < b)
  | .le => decide (a ≤ b)

end Sys2Proof.Machine
end

