-- ==== Sys2Proof/Machine/Operands.lean ====
section
/-!
DEFINITION. Machine/Operands.lean: what an operation word of a core names: registers (R173, R174) with the results in flight
(R181), and data addresses (R168 to R170).
-/
namespace Sys2Proof.Machine

/-! ### Registers -/

/-- A register word by its number in `Flight`. -/
def LCore.reg (x : LCore) (n : Nat) : Word := Cells.get (fun _ => 0) x.r n
def LCore.setR (x : LCore) (n : Nat) (v : Word) : LCore := { x with r := Cells.put (fun _ => 0) x.r n v }
def LCore.accu (x : LCore) (n : Nat) : Int := Cells.get (fun _ => 0) x.acc n
def LCore.cst (x : LCore) : Word := x.reg 74
/-- FLAGS, P, NI, and the clamp of an accumulator. -/
def LCore.flags (x : LCore) : Nat := field x.cst 7 4
def LCore.pred (x : LCore) (l : Nat) : Bool := bitOf x.cst (8 + l)
def LCore.ni (x : LCore) : Nat := field x.cst 16 12
def LCore.clamped (x : LCore) (n : Nat) : Bool := bitOf x.cst (24 + n)
/-- Element `l` of vector register `k`. -/
def LCore.lane (x : LCore) (k l : Nat) : Int := sint (x.reg (4 * k + l))

/-- The fields of cst that a MOV writes (R174). -/
def cstMask : Word := 0x00E60FF0

/-- The value a register of limited width takes: program addresses have 19 bits, ivec is 1,024-byte aligned. -/
def regWidth (n : Nat) (v : Word) : Word :=
  if n = 73 then v &&& 0x0007FC00 else if (66 ≤ n ∧ n ≤ 69) ∨ n = 71 then v &&& 0x0007FFFF else v

/-- A result lands. -/
def LCore.landOne (x : LCore) (f : Flight) : LCore :=
  let w := toWord f.val
  if f.reg = 74 then x.setR 74 ((x.cst &&& ~~~cstMask) ||| (w &&& cstMask))
  else if f.reg < 80 then x.setR f.reg (regWidth f.reg w)
  else if f.reg < 88 then { x with acc := Cells.put (fun _ => 0) x.acc (f.reg - 80) f.val }
  else if f.reg = 90 then x.setR 74 (setBitOf x.cst 22 true)
  else if f.reg = 91 then x.setR 74 (setBitOf x.cst 23 true)
  else if f.reg = 92 then x.setR 74 (setBitOf x.cst (24 + w.toNat % 8) true)
  else if f.reg = 93 then x.setR 74 (setBitOf x.cst (24 + w.toNat % 8) false)
  else if f.reg = 94 then x.setR 74 (setField x.cst 7 4 w.toNat)
  else if f.reg = 95 then x.setR 74 (setField x.cst 11 8 w.toNat)
  else if f.reg = 96 then { x with tcmp := x.tcmp / 2 ^ 32 * 2 ^ 32 + w.toNat }
  else if f.reg = 97 then { x with tcmp := x.tcmp % 2 ^ 32 + 2 ^ 32 * w.toNat }
  else x

/-- Results due by bundle `i` land, later-issued ones last (R181). -/
def LCore.landBy (x : LCore) (i : Nat) : LCore :=
  let due := x.flight.filter (fun f => decide (f.land ≤ i))
  { due.foldl LCore.landOne x with flight := x.flight.filter (fun f => decide (i < f.land)) }

/-- Every result in flight lands, in the order of landing (R183). -/
def LCore.drained (x : LCore) : LCore :=
  ((List.range 5).foldl (fun (y : LCore) (k : Nat) => y.landBy (x.issued + k)) x)

/-- The number of a register of MOV; tcmp stands for its low word. -/
def coreRegNum : CoreReg → Nat
  | .g n => n.val
  | .p n => 32 + n.val
  | .m n => 40 + n.val
  | .cb n => 48 + n.val
  | .cn n => 56 + n.val
  | .lc n => 64 + n.val
  | .ls n => 66 + n.val
  | .le n => 68 + n.val
  | .cst => 74
  | .crs => 70
  | .ipc => 71
  | .icst => 72
  | .ivec => 73
  | .tcmp => 96
  | .cid => 75

/-- What MOV reads. -/
def LCore.readReg (x : LCore) (c : Nat) (r : CoreReg) : Word :=
  match r with
  | .tcmp => BitVec.ofNat 32 x.tcmp
  | .cid => BitVec.ofNat 32 c
  | r => x.reg (coreRegNum r)

/-! ### Addresses (R170) -/

/-- The circular length in force: 0 is linear; otherwise the next lower multiple of 4, and at least 4. -/
def circLen (cn : Nat) : Nat := if cn = 0 then 0 else max 4 (cn / 4 * 4)

def LCore.ptr (x : LCore) (k : Fin 8) : Nat := (x.reg (32 + k.val)).toNat
def LCore.circBase (x : LCore) (k : Fin 8) : Nat := (x.reg (48 + k.val)).toNat
def LCore.circ (x : LCore) (k : Fin 8) : Nat := circLen (x.reg (56 + k.val)).toNat
/-- The modifier that MOD selects, or zero. -/
def LCore.modifier (x : LCore) (m : Option (Fin 8)) : Int := match m with | some j => sint (x.reg (40 + j.val)) | none => 0

/-- The pointer moved by `d` bytes, linear or circular. -/
def LCore.moved (x : LCore) (k : Fin 8) (d : Int) : Nat :=
  if x.circ k = 0 then pattern 32 ((x.ptr k : Int) + d)
  else pattern 32 ((x.circBase k : Int) + ((x.ptr k : Int) - (x.circBase k : Int) + d) % (x.circ k : Int))

/-- The address of element `l`. -/
def LCore.ea (x : LCore) (k : Fin 8) (l : Nat) : Nat := x.moved k (4 * (l : Int))
/-- The pointer after post-modification. -/
def LCore.post (x : LCore) (k : Fin 8) (m : Option (Fin 8)) : Nat := x.moved k (x.modifier m)

/-! ### Data addresses (R168, R169) -/

/-- Fault causes of R190. -/
def flIllegal : Nat := 1
def flFetch : Nat := 2
def flAccess : Nat := 3
def flAlign : Nat := 4
def flNiNest : Nat := 5
def flLoop : Nat := 6
def flDelay : Nat := 7
def flDma : Nat := 8
def flWatchdog : Nat := 9
def flSystem : Nat := 10
def flResidue : Nat := 11

/-- The image whose kernel a core runs, and the kernel; none for a kernel of Gualbin. -/
def State.kernelAt (s : State) (c : Nat) : Option (Image × Kernel) :=
  match s.taskOf c with
  | some t => if t.item.vigil.isSome then none else (match s.nodeOf t.item.node with | some (_, r) => s.kernelOf r | none => none)
  | none => none
def State.imageOf (s : State) (c : Nat) : Option Image := (s.kernelAt c).map (·.1)

/-- The cluster and tile offset of a data address, by R168 alone. -/
def tileAddr (cluster a : Nat) : Option (Nat × Nat) :=
  if a < 0x400000 then some (cluster, a)
  else if 0x40000000 ≤ a ∧ a < 0x44000000 then some ((a - 0x40000000) / 0x400000, a % 0x400000)
  else none

/-- Where `n` bytes at data address `a` lie in the tile memories, if core `c` may reach them for the kernel of an image. -/
def State.reach (s : State) (c : Nat) (img : Option Image) (a n : Nat) : Option Nat :=
  match tileAddr (c / 8) a with
  | some (t, o) =>
    let inRegion : Bool := match img with
      | some i =>
        let b := s.tileBase (s.clusterPlane (c / 8)) i.id
        decide (b ≤ o) && decide (o + n ≤ b + i.tileBytes)
      | none => true
    if o + n ≤ 0x400000 ∧ s.clusterPlane t = s.clusterPlane (c / 8) ∧ inRegion then some (0x400000 * t + o) else none
  | none => none

/-- An access of `n` bytes that the core makes: its place, or the fault. -/
def State.access (s : State) (c a n : Nat) : Except Nat Nat :=
  if a % (min n 4) ≠ 0 then .error flAlign
  else match s.reach c (s.imageOf c) a n with
    | some k => .ok k
    | none => .error flAccess

end Sys2Proof.Machine
end

