-- ==== Sys2Proof/Machine/Lantern.lean ====
section
/-!
DEFINITION. Machine/Lantern.lean: what a bundle of a core does (R174 to R182, R184, R185), core faults (R190 to R192), tasks and
posts (R186 to R188), cluster DMA (R189), the FFT unit (R171, R172), and interrupts (R183).
-/
namespace Sys2Proof.Machine

def State.onLan (s : State) (f : Lantern → Lantern) : State := { s with lan := f s.lan }
def State.onVig (s : State) (f : VigilSt → VigilSt) : State := { s with vig := f s.vig }

/-! ### Blocks held out by firmware or Vigil (R19, R161, R449) -/

/-- RND_PATH_CAP follows a path unit that left or came back (R66). -/
def State.unitsMoved (s : State) (ts : List Nat) : State := if ts.any (fun t => 0x90 ≤ t && t < 0x98) then s.capUpdate else s

/-- A block is held out of service. -/
def State.putOut (s : State) (target origin : Nat) : State :=
  (s.onMgt (fun m => { m with out := Cells.put (fun _ => 0) m.out target (origin + 1) })).unitsMoved [target]

/-- A Vigil test of a held-out block begins (R392, R393). -/
def State.startTest (s : State) (v : VigilTest) : State :=
  s.onVig (fun g => { g with tests := g.tests.filter (fun t => t.target != v.target) ++ [v] })

/-- A control action that firmware (1) or Vigil (4) asks for on a block: it waits for its boundary, and first for audit space
(R19, R20, R387). `act` is an ACTION of R24 or 6 of R449, `arg` its argument, `test` the test that follows a removal. -/
def State.askAction (s : State) (target act arg origin test : Nat) : State :=
  let ok := s.auditRoom 1
  let s := if ok then s.auditReserve 1 else s
  s.onMgt (fun m =>
    { m with ctl := m.ctl ++ [{ target := target, action := act, arg := arg, req := s.request 0 0, moves := 0, origin := origin
                                test := test, reserved := ok }] })

/-- A removal of the block is already asked for by firmware or Vigil. -/
def State.removalAsked (s : State) (target : Nat) : Bool :=
  s.mgt.ctl.any (fun c => c.target == target && c.action == 1 && c.origin != 0)

/-- Firmware asks for the removal of a unit after a failure (R369): `test` is 5 after an FFT residue failure, 3 for any other unit. -/
def State.askOut (s : State) (target test : Nat) : State :=
  if s.isOut target || s.removalAsked target then s else s.askAction target 1 0 1 test

/-- A faulted core, or an echo unit, is held out as it fails and its test runs at once (R161, R190, R140); without audit space for its
entry the action waits, and the block is held meanwhile by its own failure. -/
def State.faultOut (s : State) (target test : Nat) : State :=
  if s.isOut target || s.removalAsked target then s
  else if s.auditRoom 1 then
    ((s.putOut target 1).auditNow 1 0 0x03 0 (BitVec.ofNat 32 (target + 256)) 0 0).startTest
      { target := target, cmd := none, origin := 4, test := test, detail := 0, passed := none }
  else s.askAction target 1 0 1 test

/-! ### Core faults (R190, R191) -/

def regCore (c : Nat) : Nat := 0x60000 + 0x1000 * (c / 8) + 0x40 * (c % 8)

/-- A node takes a fault; its fourth of an epoch quarantines it, and so does each after it once a plane start has lifted that. -/
def State.nodeFault (s : State) (node : Nat) : State :=
  let n := Cells.get (fun _ => 0) s.wick.faults node + 1
  let s := s.onWick (fun w => { w with faults := Cells.put (fun _ => 0) w.faults node n })
  if 4 ≤ n ∧ ¬ s.wick.quarantine.contains node then
    ((s.onWick (fun w => { w with quarantine := w.quarantine ++ [node] })).setReg 0x7000C
      (BitVec.ofNat 32 (2 ^ 31 + node % 4096))).bump 0x70114 1
  else s

/-- A core fault: recorded, the task aborted, the core held out and tested. -/
def State.coreFault (s : State) (c cause pc : Nat) : State :=
  let node := match s.taskOf c with | some t => t.item.node | none => 0xFFFF
  let b := regCore c
  let s := s.setReg (b + 4) (BitVec.ofNat 32 (2 ^ 31 + 65536 * (node % 4096) + cause))
  let s := (s.setReg (b + 8) (BitVec.ofNat 32 (pc % 2 ^ 19))).setReg64 (b + 12) s.now
  let s := s.bump 0x70100 1
  let s := if cause = flResidue then (s.bump 0x110204 1).noteEvent 41 c node 0 else (s.fireOpen 51).nodeFault node
  let s := (s.abortTask c).faultOut c 4
  (if s.isOut c then s else s.onCore c (fun x => { x with st := 2 })).voxDegrade

/-! ### One bundle -/

/-- What issuing a bundle asks for beside its results. -/
inductive Ctl where
  | plain
  /-- A branch: 0 branch, 1 CALL, 2 RTI, 3 not taken; its target. -/
  | branch (kind target : Nat)
  | loop (k count end_ : Nat)
  | ni (n : Nat)
  | waitTask (pass : Bool)
  | post (d node key data : Nat)
  | dma (job : DmaJob)
  | dmaWait (n : Nat)
  | fftRun (a : Nat)
  | fftWait (a : Nat)
  deriving DecidableEq, Repr

/-- A bundle at work: memory, counters and free values so far, results in slot order, and what R181 chains. -/
structure Issue where
  s : State
  fl : List Flight
  chain : List (Nat × Int × Bool)
  ctl : Ctl
  deriving DecidableEq, Repr

abbrev Issued := Except Nat Issue

/-- A result of the bundle with its latency. -/
def Issue.put (o : Issue) (x : LCore) (lat reg : Nat) (v : Int) : Issue :=
  { o with fl := o.fl ++ [{ land := x.issued + lat, reg := reg, val := v }] }

/-- A result in a general register; g32 does not exist. -/
def Issue.putG (o : Issue) (x : LCore) (lat g : Nat) (v : Int) : Issue := if g < 32 then o.put x lat g v else o

/-- A 32-bit result under the S bit, with SAT. -/
def Issue.putSat (o : Issue) (x : LCore) (lat reg : Nat) (s : Bool) (v : Int) : Issue :=
  let r := result32 s v
  let o := o.put x lat reg r.1
  if r.2 then o.put x lat 90 0 else o

/-- A result that the manual leaves open. -/
def Issue.putFree (o : Issue) (x : LCore) (lat reg : Nat) : Issue :=
  let (v, s) := o.s.fresh (2 ^ 32)
  { o with s := s }.put x lat reg v

/-- A result for each lane. -/
def Issue.lanes (o : Issue) (f : Nat → Issue → Issue) : Issue := (List.range 4).foldl (fun o l => f l o) o

/-- A general register as a source; the one past g31 is a free value. -/
def Issue.srcG (o : Issue) (x : LCore) (g : Nat) : Word × Issue :=
  if g < 32 then (x.reg g, o)
  else
    let (v, s) := o.s.fresh (2 ^ 32)
    (BitVec.ofNat 32 v, { o with s := s })

/-- A remote access freezes the core for some cycles, and a lost arbitration of an own bank for others (R167, R168). -/
def State.accessFreeze (s : State) (remote : Bool) : State :=
  let (n, s) := s.fresh (2 ^ 32)
  s.bump (if remote then 0x7010C else 0x70108) n

/-- Read a 32-bit or 16-bit element. -/
def Issue.load (o : Issue) (c a n : Nat) : Except Nat (Nat × Issue) :=
  match o.s.access c a n with
  | .error e => .error e
  | .ok k => .ok (leNat (o.s.lan.tile.load k n), { o with s := o.s.accessFreeze (decide (0x400000 ≤ a)) })

/-- Write a 32-bit element. -/
def Issue.store (o : Issue) (c a : Nat) (v : Word) : Issued :=
  match o.s.access c a 4 with
  | .error e => .error e
  | .ok k =>
    let s := o.s.onLan (fun l => { l with tile := l.tile.store k (leBytes 4 v.toNat) })
    .ok { o with s := s.accessFreeze (decide (0x400000 ≤ a)) }

/-- Loads and stores of four elements. -/
def Issue.loadLanes (o : Issue) (c : Nat) (x : LCore) (d : Nat) (addr : Nat → Nat) : List Nat → Issued
  | [] => .ok o
  | l :: ls =>
    match o.load c (addr l) 4 with
    | .error e => .error e
    | .ok (v, o) => (o.put x 4 (4 * d + l) (signed 32 v)).loadLanes c x d addr ls

def Issue.storeLanes (o : Issue) (c : Nat) (x : LCore) (a : Nat) (k : Fin 8) : List Nat → Issued
  | [] => .ok o
  | l :: ls =>
    match o.store c (x.ea k l) (x.reg (4 * a + l)) with
    | .error e => .error e
    | .ok o => o.storeLanes c x a k ls

/-- LD.W, LD.H, LD.V and LD.VB. -/
def Issue.ld (o : Issue) (c : Nat) (x : LCore) (kind : LdKind) (d : Nat) (k : Fin 8) (m : Option (Fin 8)) : Issued :=
  let r : Issued := match kind with
    | .w =>
      (match o.load c (x.ea k 0) 4 with
      | .error e => .error e
      | .ok (v, o) => .ok (o.put x 4 d (signed 32 v)))
    | .h =>
      (match o.load c (x.ea k 0) 2 with
      | .error e => .error e
      | .ok (v, o) => .ok (o.put x 4 d (signed 16 v * 65536)))
    | .v => o.loadLanes c x d (x.ea k) (List.range 4)
    | .vb => o.loadLanes c x d (fun _ => x.ea k 0) (List.range 4)
  match r with
  | .error e => .error e
  | .ok o => .ok (o.put x 1 (32 + k.val) (x.post k m))

/-- ST.W and ST.V. -/
def Issue.st (o : Issue) (c : Nat) (x : LCore) (vec : Bool) (a : Nat) (k : Fin 8) (m : Option (Fin 8)) : Issued :=
  match (if vec then o.storeLanes c x a k (List.range 4) else o.store c (x.ea k 0) (x.reg a)) with
  | .error e => .error e
  | .ok o => .ok (o.put x 1 (32 + k.val) (x.post k m))

/-- Vector operations on two sources (R177). -/
def Issue.vop (o : Issue) (x : LCore) (op : VOp) (s : Bool) (d a b : Nat) : Issue :=
  o.lanes (fun l o =>
    let va := x.lane a l
    let vb := x.lane b l
    let wa := (x.reg (4 * a + l))
    let wb := (x.reg (4 * b + l))
    let r := 4 * d + l
    match op with
    | .add => o.putSat x 1 r s (va + vb)
    | .sub => o.putSat x 1 r s (va - vb)
    | .and => o.put x 1 r (sint (wa &&& wb))
    | .or => o.put x 1 r (sint (wa ||| wb))
    | .xor => o.put x 1 r (sint (wa ^^^ wb))
    | .min => o.put x 1 r (min va vb)
    | .max => o.put x 1 r (max va vb)
    | .sel => o.put x 1 r (if x.pred l then va else vb)
    | .mul => o.putSat x 3 r s (roundShift (va * vb) 31))

/-- Vector operations on one source. -/
def Issue.vop1 (o : Issue) (x : LCore) (op : VOp1) (s : Bool) (d a : Nat) : Issue :=
  o.lanes (fun l o =>
    let va := x.lane a l
    let r := 4 * d + l
    match op with
    | .neg => o.putSat x 1 r s (-va)
    | .abs => o.putSat x 1 r s (if va < 0 then -va else va)
    | .shl n => if n.val ≤ 31 then o.putSat x 1 r s (va * (2 ^ n.val : Nat)) else o.putFree x 1 r
    | .sra n => if 1 ≤ n.val ∧ n.val ≤ 31 then o.put x 1 r (roundShift va n.val) else o.putFree x 1 r)

/-- VMAXI and VMINI (R180). -/
def Issue.search (o : Issue) (x : LCore) (mx : Bool) (d a g : Nat) : Issue :=
  o.lanes (fun l o =>
    if d % 2 = 1 then
      let o := o.putFree x 1 (4 * d + l)
      if d = 7 then o else o.putFree x 1 (4 * d + 4 + l)
    else
      let v := x.lane a l
      let w := x.lane d l
      if (if mx then decide (w < v) else decide (v < w)) then
        (o.put x 1 (4 * d + l) v).put x 1 (4 * (d + 1) + l) (sint (x.reg g) + (l : Int))
      else o)

/-- RMAXI and RMINI (R180): the index of the winning lane. -/
def reduceLane (mx : Bool) (v i : Nat → Int) : Nat :=
  [1, 2, 3].foldl (fun b l =>
    if (if mx then decide (v b < v l) else decide (v l < v b)) ∨ (v l = v b ∧ i l < i b) then l else b) 0

def Issue.reduce (o : Issue) (x : LCore) (mx : Bool) (d a : Nat) : Issue :=
  if a = 7 then
    let b := reduceLane mx (x.lane a) (fun _ => 0)
    let o := o.put x 2 d (x.lane a b)
    if d < 31 then o.putFree x 2 (d + 1) else o
  else
    let b := reduceLane mx (x.lane a) (fun l => x.lane (a + 1) l)
    (o.put x 2 d (x.lane a b)).putG x 2 (d + 1) (x.lane (a + 1) b)

/-- One overflow event (R179). -/
def State.overflowEvent (s : State) (c : Nat) : State :=
  let s := s.bump 0x70104 1
  if (s.core c).aovSeen then s
  else
    let node := match s.taskOf c with | some t => t.item.node | none => 0xFFFF
    (s.onCore c (fun x => { x with aovSeen := true })).noteEvent 45 (1 + 256 * c) node 0

/-- An accumulator takes a sum under the guard rule. -/
def Issue.accumulate (o : Issue) (c : Nat) (x : LCore) (s : Bool) (n : Nat) (t : Int) : Issue :=
  let g := guardRule s t
  let o := { o.put x 3 (80 + n) g.value with chain := o.chain ++ [(n, g.value, g.clamped)] }
  if g.overflow then
    let o := { o with s := o.s.overflowEvent c }.put x 3 91 0
    if g.clamped then o.put x 3 92 n else o
  else o

/-- VMAC, VMSU, VMACB and VMSUB. -/
def Issue.mac (o : Issue) (c : Nat) (x : LCore) (neg bcast s : Bool) (e a b : Nat) : Issue :=
  o.lanes (fun l o =>
    let n := 2 * l + e
    let prod := x.lane a l * (if bcast then sint (x.reg b) else x.lane b l)
    let (v, held) := match x.chain.find? (fun p => p.1 == n) with
      | some p => (p.2.1, p.2.2 || x.clamped n)
      | none => (x.accu n, x.clamped n)
    if held then { o with chain := o.chain ++ [(n, v, true)] }
    else o.accumulate c x s n (if neg then v - prod else v + prod))

/-- ASUM. -/
def Issue.asum (o : Issue) (c : Nat) (x : LCore) (s : Bool) (e : Nat) : Issue :=
  if x.clamped e then o
  else
    let o' := o.accumulate c x s e (x.accu e + x.accu (2 + e) + x.accu (4 + e) + x.accu (6 + e))
    { o' with chain := o.chain }

/-- AEXT. -/
def Issue.aext (o : Issue) (x : LCore) (s : Bool) (d e n : Nat) : Issue :=
  o.lanes (fun l o =>
    if n ≤ 40 then o.putSat x 2 (4 * d + l) s (roundShift (x.accu (2 * l + e)) n) else o.putFree x 2 (4 * d + l))

/-- AMOV and ACLR: accumulator and clamp. -/
def Issue.amov (o : Issue) (x : LCore) (e a n : Nat) : Issue :=
  o.lanes (fun l o =>
    let (v, s) := if n ≤ 40 then (x.lane a l * (2 ^ n : Nat), o.s)
      else
        let (v, s) := o.s.fresh (2 ^ 72)
        (signed 72 v, s)
    ({ o with s := s }.put x 1 (80 + 2 * l + e) v).put x 1 93 ((2 * l + e : Nat) : Int))

def Issue.aclr (o : Issue) (x : LCore) (e : Nat) : Issue :=
  o.lanes (fun l o => (o.put x 1 (80 + 2 * l + e) 0).put x 1 93 ((2 * l + e : Nat) : Int))

/-- Scalar operations. -/
def Issue.sop (o : Issue) (x : LCore) (op : SOp) (s : Bool) (d a b : Nat) : Issue :=
  let wa := x.reg a
  let wb := x.reg b
  match op with
  | .add => o.putSat x 1 d s (sint wa + sint wb)
  | .sub => o.putSat x 1 d s (sint wa - sint wb)
  | .and => o.put x 1 d (sint (wa &&& wb))
  | .or => o.put x 1 d (sint (wa ||| wb))
  | .xor => o.put x 1 d (sint (wa ^^^ wb))
  | .min => o.put x 1 d (min (sint wa) (sint wb))
  | .max => o.put x 1 d (max (sint wa) (sint wb))

def Issue.shift (o : Issue) (x : LCore) (op : ShOp) (s : Bool) (d a n : Nat) : Issue :=
  let w := x.reg a
  match op with
  | .shl => o.putSat x 1 d s (sint w * (2 ^ n : Nat))
  | .shr => o.put x 1 d (sint (w >>> n))
  | .asr => o.put x 1 d ((sint w).fdiv ((2 ^ n : Nat) : Int))

/-- MOVI (R175): 16 bits sign-extended, or 32 bits with EXT. -/
def movValue (imm : BitVec 16) (ext : Option (BitVec 28)) : Int :=
  match ext with
  | none => signed 16 imm.toNat
  | some e => signed 32 (imm.toNat + 65536 * (e.toNat % 65536))

/-- The payload of EXT before MOVI has bits 27 to 16 equal to bit 15 (R175). -/
def extOk (e : BitVec 28) : Bool := signed 28 e.toNat == signed 16 e.toNat

/-- MOV: between g and another register; to cid is a SYSTEM fault. -/
def Issue.mov (o : Issue) (c : Nat) (x : LCore) (d r : CoreReg) : Issued :=
  match d with
  | .cid => .error flSystem
  | .g n => .ok (o.put x 1 n.val (sint (x.readReg c r)))
  | d =>
    match r with
    | .g n => .ok (o.put x 1 (coreRegNum d) (sint (x.reg n.val)))
    | _ => .error flIllegal

/-- A program address `off` bytes from the bundle. -/
def progAddr (pc : Nat) (off : Int) : Nat := pattern 19 ((pc : Int) + off)

/-- The DMA operation of a core, or the fault (R189). -/
def State.dmaJob (s : State) (c : Nat) (x : LCore) (kind : Nat) (p : Fin 8) (g n : Nat) : Except Nat DmaJob :=
  let l := x.ptr p
  let r := (x.reg g).toNat
  let b := (x.reg n).toNat
  let img := s.imageOf c
  let okLocal := decide (l < 0x400000) && (s.reach c img l b).isSome
  let okRemote : Bool := if kind < 2 then
      (match img with
      | some i => decide (r + b ≤ i.dramBytes)
      | none => decide (r + b ≤ 0x1C0000000))
    else (s.reach c img r b).isSome
  let remote := if kind < 2 then (match img with | some i => i.dramBase + r | none => r)
    else (s.reach c img r b).getD 0
  if b % 16 ≠ 0 ∨ b < 16 ∨ 65536 < b ∨ l % 16 ≠ 0 ∨ r % 16 ≠ 0 ∨ ¬ okLocal ∨ ¬ okRemote then .error flDma
  else .ok { kind := kind, local_ := (s.reach c img l b).getD 0, remote := remote, bytes := b }

/-- A control operation. -/
def Issue.control (o : Issue) (ctl : Ctl) : Issued := .ok { o with ctl := ctl }

/-- One operation word (R177): `x` holds the registers before the bundle. -/
def Issue.word (o : Issue) (c : Nat) (x : LCore) (w : CoreOp) : Issued :=
  match w with
  | .ld kind d k m => o.ld c x kind d k m
  | .st vec a k m => o.st c x vec a k m
  | .padd k m => .ok (o.put x 1 (32 + k.val) (x.post k m))
  | .movp k a => .ok (o.put x 1 (32 + k.val) (sint (x.reg a)))
  | .vop op s d a b => .ok (o.vop x op s d a b)
  | .vop1 op s d a => .ok (o.vop1 x op s d a)
  | .vcmp cc a b =>
    .ok (o.put x 1 95 ((List.range 4).foldl (fun (p l : Nat) =>
      if vcondHolds cc (x.lane a l) (x.lane b l) then p + 2 ^ l else p) 0 : Nat))
  | .search mx d a g => .ok (o.search x mx d a g)
  | .reduce mx d a => .ok (o.reduce x mx d a)
  | .mac neg bcast s e a b => .ok (o.mac c x neg bcast s e a b)
  | .aclr e => .ok (o.aclr x e)
  | .amov e a n => .ok (o.amov x e a n.val)
  | .aext s d e n => .ok (o.aext x s d e n.val)
  | .asum s e => .ok (o.asum c x s e)
  | .sop op s d a b => .ok (o.sop x op s d a b)
  | .shift op s d a n => .ok (o.shift x op s d a n.val)
  | .cmp a b => .ok (o.put x 1 94 (cmpFlags (x.reg a) (x.reg b)))
  | .movi d imm ext => .ok (o.put x 1 d (movValue imm ext))
  | .mov d r => o.mov c x d r
  | .br cc off _ => o.control (.branch (if condHolds cc x.flags then 0 else 3) (progAddr x.pc off))
  | .call off _ => o.control (.branch 1 (progAddr x.pc off))
  | .jmpR a => o.control (.branch 0 (progAddr x.pc (sint (x.reg a))))
  | .ret => o.control (.branch 0 ((x.reg 31).toNat % 2 ^ 19))
  | .loop k a end_ _ => o.control (.loop k.val (x.reg a).toNat (progAddr x.pc end_))
  | .ni n =>
    if x.ni ≠ 0 then .error flNiNest
    else if 1 ≤ n.val ∧ n.val ≤ 16 then o.control (.ni n.val)
    else
      let (v, s) := o.s.fresh 17
      { o with s := s }.control (.ni v)
  | .rti => if x.inHandler then o.control (.branch 2 0) else .error flSystem
  | .nop => .ok o
  | .waitTask pass => if x.inHandler then .error flSystem else o.control (.waitTask pass)
  | .post d a b =>
    if x.inHandler then .error flSystem
    else o.control (.post d (field (x.reg a) 11 0) (field (x.reg a) 31 16) (x.reg b).toNat)
  | .dma kind p g n =>
    (match o.s.dmaJob c x kind p g n with
    | .error e => .error e
    | .ok j => o.control (.dma j))
  | .dmaWait n => o.control (.dmaWait n)
  | .fftRun a =>
    let r := (x.reg a).toNat
    if r % 32 ≠ 0 then .error flAlign
    else (match o.s.access c r 32 with
      | .error e => .error e
      | .ok k => o.control (.fftRun k))
  | .fftWait a =>
    let r := (x.reg a).toNat
    if r % 32 ≠ 0 then .error flAlign
    else (match o.s.access c r 32 with
      | .error e => .error e
      | .ok k => o.control (.fftWait k))
  | .crcI a =>
    let (hi, o) := o.srcG x (a + 1)
    .ok (o.put x 1 70 (crc32c (leBytes 4 (x.reg a).toNat ++ leBytes 4 hi.toNat) : Nat))
  | .crcW a =>
    let bytes := ((List.range 4).map (fun l => leBytes 4 (x.reg (4 * a + l)).toNat)).flatten
    .ok (o.put x 1 70 (crcRunR 0x82F63B78 (x.reg 70).toNat bytes : Nat))
  | .crcF d => .ok (o.put x 1 d (((x.reg 70).toNat ^^^ 0xFFFFFFFF : Nat) : Int))
  | .time d => .ok ((o.put x 2 d ((o.s.now % 2 ^ 32 : Nat) : Int)).putG x 2 (d + 1) ((o.s.now / 2 ^ 32 : Nat) : Int))
  | .tcmp a =>
    let (hi, o) := o.srcG x (a + 1)
    .ok ((o.put x 1 96 (x.reg a).toNat).put x 1 97 hi.toNat)

/-- The slot of a word: 0 load-store, 1 arithmetic, 2 control (R175). -/
def CoreOp.slot : CoreOp → Nat
  | .ld _ _ _ _ | .st _ _ _ _ | .padd _ _ | .movp _ _ => 0
  | .vop _ _ _ _ _ | .vop1 _ _ _ _ | .vcmp _ _ _ | .search _ _ _ _ | .reduce _ _ _ | .mac _ _ _ _ _ _ | .aclr _ | .amov _ _ _
  | .aext _ _ _ _ | .asum _ _ => 1
  | .sop _ _ _ _ _ | .shift _ _ _ _ _ | .cmp _ _ | .movi _ _ _ | .mov _ _ | .br _ _ _ | .call _ _ | .jmpR _ | .ret | .loop _ _ _ _
  | .ni _ | .rti | .nop | .waitTask _ | .post _ _ _ | .dma _ _ _ _ | .dmaWait _ | .fftRun _ | .fftWait _ | .crcI _ | .crcW _
  | .crcF _ | .time _ | .tcmp _ => 2

/-- Words the operation takes: one more with an EXT before it. -/
def CoreOp.words : CoreOp → Nat
  | .movi _ _ e => if e.isSome then 2 else 1
  | .br _ _ e | .call _ e | .loop _ _ _ e => if e then 2 else 1
  | _ => 1

/-- An operation that a delay bundle may not hold (R182). -/
def CoreOp.notInDelay : CoreOp → Bool
  | .br _ _ _ | .call _ _ | .jmpR _ | .ret | .loop _ _ _ _ | .ni _ | .rti | .waitTask _ | .post _ _ _ => true
  | _ => false

/-- The words of a bundle one after another. -/
def Issue.run (c : Nat) (x : LCore) : List CoreOp → Issue → Issued
  | [], o => .ok o
  | w :: ws, o =>
    match o.word c x w with
    | .error e => .error e
    | .ok o => Issue.run c x ws o

/-- The payload of an EXT before the word is a sign extension. The offsets of BR, CALL and LOOP come extended, their width is not given. -/
def CoreOp.extFits : CoreOp → Bool
  | .movi _ _ (some e) => extOk e
  | _ => true

/-- Bundle form (R175): the slots each once, at most one EXT word and its payload right, at most five words with it. -/
def bundleOk (b : List CoreOp) : Bool :=
  let n := fun (k : Nat) => (b.filter (fun w => w.slot == k)).length
  let exts := (b.filter (fun w => w.words == 2)).length
  decide (n 0 ≤ 2) && decide (n 1 ≤ 1) && decide (n 2 ≤ 1) && decide (exts ≤ 1) && b.all (·.extFits)

def bundleWords (b : List CoreOp) : Nat := b.foldl (fun a w => a + w.words) 0

/-- Bytes of the bundle at a program address, from its END bit. -/
def State.bundleLen (s : State) (c a : Nat) : Nat :=
  let isEnd := fun (k : Nat) => (s.lan.prog.byte (524288 * (c / 8) + a + 4 * k + 3)).getLsbD 7
  match (List.range 5).find? isEnd with
  | some k => 4 * (k + 1)
  | none => 20

/-- The code of the kernel a customer task runs: base and length. -/
def State.codeOf (s : State) (c : Nat) : Option (Nat × Nat) :=
  (s.kernelAt c).map (fun p => (s.codeBase (s.clusterPlane (c / 8)) p.1.id + p.2.entry, p.2.length))

/-- The checks on a whole bundle before a word of it acts: FETCH, ILLEGAL, DELAY and LOOP. -/
def State.bundleFault (s : State) (c : Nat) (x : LCore) (b : List CoreOp) (closed : Bool) : Option Nat :=
  let size := 4 * bundleWords b
  let outside : Bool := match s.codeOf c with
    | some (base, len) => decide (x.pc < base) || decide (base + len < x.pc + size)
    | none => false
  let atEnd := fun (k : Nat) => decide (0 < (x.reg (64 + k)).toNat) && (x.reg (68 + k)).toNat == x.pc
  if outside then some flFetch
  else if ¬ closed ∨ ¬ bundleOk b then some flIllegal
  else if x.branch.isSome ∧ b.any (·.notInDelay) then some flDelay
  else if x.branch.isSome ∧ (atEnd 0 || atEnd 1) then some flLoop
  else none

/-- The loop registers after a bundle at `pc`, and the next address, `next` where no loop turns (R185). -/
def LCore.loopBack (x : LCore) (pc next : Nat) : LCore × Nat :=
  [1, 0].foldl (fun (y : LCore × Nat) (k : Nat) =>
    let n := (y.1.reg (64 + k)).toNat
    if n = 0 ∨ (y.1.reg (68 + k)).toNat ≠ pc then y
    else (y.1.setR (64 + k) (BitVec.ofNat 32 (n - 1)), if 1 < n then (y.1.reg (66 + k)).toNat else y.2)) (x, next)

/-- A LOOP: fault, or the loop registers and the next address. -/
def State.startLoop (s : State) (c : Nat) (x : LCore) (k n end_ next : Nat) : Except Nat (LCore × Nat) :=
  if end_ < next then .error flLoop
  else
    let y := ((x.setR (64 + k) (BitVec.ofNat 32 n)).setR (66 + k) (BitVec.ofNat 32 next)).setR (68 + k) (BitVec.ofNat 32 end_)
    let active := fun (j : Nat) => decide (0 < (y.reg (64 + j)).toNat)
    if active 0 && active 1 && decide ((y.reg 68).toNat ≤ (y.reg 69).toNat) then .error flLoop
    else .ok (y, if n = 0 then (end_ + s.bundleLen c end_) % 2 ^ 19 else next)

/-- A pending branch comes one bundle nearer; after its second delay bundle it takes effect (R182). -/
def LCore.branchStep (x : LCore) (next : Nat) : LCore × Nat :=
  match x.branch with
  | none => (x, next)
  | some (n, kind, target) =>
    if 1 < n then ({ x with branch := some (n - 1, kind, target) }, next)
    else
      let x := { x with branch := none }
      if kind = 0 then (x, target)
      else if kind = 1 then (x.setR 31 (BitVec.ofNat 32 next), target)
      else if kind = 2 then ({ x.setR 74 (x.reg 72) with inHandler := false }, (x.reg 71).toNat)
      else (x, next)

/-! ### Tasks, posts, DMA and FFT after a bundle -/

/-- Transfers outstanding that write (R169). -/
def LCore.writesOut (x : LCore) : Bool := x.dma.any (fun j => j.kind % 2 == 1)

/-- STATUS of an FFT record. -/
def State.fftStatus (s : State) (k : Nat) : Nat := (s.lan.tile.byte (k + 13)).toNat

/-- The cluster whose FFT unit serves a cluster: its own, or while that is held out the next in service of its plane (R192). -/
def State.fftServer (s : State) (c : Nat) : Nat :=
  let ok := fun (k : Nat) => s.clusterPlane k == s.clusterPlane c && !s.isOut (0x80 + k)
  (((List.range 16).map (fun i => (c + i) % 16)).find? ok).getD c

def fftDflt (_ : Nat) : List FftJob := []
def State.fftQ (s : State) (c : Nat) : List FftJob := Cells.get fftDflt s.lan.fft c
def State.setFftQ (s : State) (c : Nat) (q : List FftJob) : State := s.onLan (fun l => { l with fft := Cells.put fftDflt l.fft c q })

/-- FFT.RUN joins the queue, or freezes the core while it is full. -/
def State.fftSubmit (s : State) (c k : Nat) : State :=
  let u := s.fftServer (c / 8)
  if 16 ≤ (s.fftQ u).length then s.onCore c (fun x => { x with freeze := some (.fftRun k) })
  else
    let s := s.onLan (fun l => { l with tile := l.tile.store (k + 13) [0] })
    let job : FftJob :=
      { cluster := c / 8, core := c, addr := k, task := (s.taskOf c).map (·.item), image := (s.imageOf c).map (·.id) }
    (s.setFftQ u (s.fftQ u ++ [job])).onCore c (fun x => { x with freeze := none })

/-- A DMA operation joins the core's transfers, or freezes the core while four are outstanding. -/
def State.dmaSubmit (s : State) (c : Nat) (j : DmaJob) : State :=
  s.onCore c (fun x =>
    if 4 ≤ x.dma.length then { x with freeze := some (.dma j) } else { x with freeze := none, dma := x.dma ++ [j] })

/-- A POST takes effect (R153, R187). -/
def State.doPost (s : State) (c d node key data : Nat) : State :=
  match s.taskOf c with
  | none => s.onCore c (fun x => { x with freeze := none })
  | some t =>
    let allowed : Bool := match s.imageOf c, s.nodeOf t.item.node with
      | some _, some (_, r) => (mailboxRing node).isSome || (s.succOf r).contains node
      | _, _ => false
    let q : WPost :=
      { core := some c, ring := 0, index := 0, target := node, key := key, data := data, src := t.item.node, grid := t.item.grid
        num := t.item.num, since := s.now }
    if ¬ allowed then ((s.bump 0x50114 1).trace 0x09 (q.item s) c false false).postReturn c d 2
    else
      match s.tryPost q false with
      | (.done, s) => s.postReturn c d 0
      | (.expired, s) => s.postReturn c d 3
      | (.block, s) => (s.blockPost q).onCore c (fun x => { x with freeze := some (.post d) })

/-- A CORE segment ends on a core (R391, R393, R396). -/
def State.segmentEnds (s : State) (c : Nat) (pass : Bool) : State :=
  let cl := c / 8
  if pass then
    let x := s.core c
    let s := s.bump 0x120100 1
    let s := if x.segs + 1 = 24 then (s.bump 0x120104 1).onCore c (fun x => { x with segs := 0, passDone := true })
      else s.onCore c (fun x => { x with segs := x.segs + 1 })
    let s := s.onLan (fun l => { l with fftSegs := Cells.put (fun _ => 0) l.fftSegs cl (Cells.get (fun _ => 0) l.fftSegs cl + 1) })
    s.onVig (fun g =>
      let owed := Cells.get (fun _ => 0) g.owed cl
      { g with
        segDone := if g.segDone.contains cl then g.segDone else g.segDone ++ [cl]
        owed := Cells.put (fun _ => 0) g.owed cl (owed - 1)
        stale := Cells.put (fun _ => 0) g.stale cl 0 })
  else
    s.askAction c 1 (s.core c).segs 4 1

/-- Starved clusters changed: source 55 (R396). -/
def State.starvedAre (s : State) (mask : Nat) : State :=
  if mask = s.vig.starved then s
  else
    let old := s.vig.starved
    let s := (s.onVig (fun g => { g with starved := mask })).onWick (fun w => { w with guard := mask != 0 })
    s.fire 55 (BitVec.ofNat 32 mask) (BitVec.ofNat 32 old) 0

/-- A cluster that owes nothing any more stops starving. -/
def State.starveCheck (s : State) (cl : Nat) : State :=
  if s.vig.starved.testBit cl ∧ Cells.get (fun _ => 0) s.vig.owed cl = 0 then s.starvedAre (s.vig.starved - 2 ^ cl) else s

/-- The task in service ends at its WAIT.TASK. -/
def State.endTask (s : State) (c : Nat) (pass : Bool) : State :=
  let s := s.onCore c (fun x =>
    { LCore.idle0 with
      dma := x.dma, aovSeen := x.aovSeen, segs := x.segs, passDone := x.passDone })
  match s.taskOf c with
  | none => s
  | some t =>
    let s := s.taskEnds t false
    if t.item.vigil.isSome then (s.segmentEnds c pass).starveCheck (c / 8) else s

/-- What a bundle's control word asks for, once the bundle has issued. -/
def State.afterBundle (s : State) (c : Nat) (ctl : Ctl) : State :=
  let freeze := fun (f : Freeze) => s.onCore c (fun x => { x with freeze := some f })
  match ctl with
  | .waitTask pass => if (s.core c).writesOut then freeze (.waitTask pass) else s.endTask c pass
  | .post d node key data => if (s.core c).writesOut then freeze (.postDrain d node key data) else s.doPost c d node key data
  | .dma j => s.dmaSubmit c j
  | .dmaWait n => if (s.core c).dma.length ≤ n then s else freeze (.dmaWait n)
  | .fftRun k => s.fftSubmit c k
  | .fftWait k => if s.fftStatus k ≠ 0 then s else freeze (.fftWait k)
  | _ => s

/-- Cores frozen in FFT.WAIT whose record is no longer pending go on. -/
def State.thawFft (s : State) : State :=
  s.lan.cores.foldl (fun s p =>
    match p.2.freeze with
    | some (.fftWait k) => if s.fftStatus k ≠ 0 then s.onCore p.1 (fun x => { x with freeze := none }) else s
    | _ => s) s

/-- A bundle issues: results due land, its words act in slot order, and the program counter moves on. -/
def State.issue (s : State) (c : Nat) (b : List CoreOp) (closed : Bool) : State :=
  let x := (s.core c).landBy (s.core c).issued
  let ordered := b.filter (fun w => w.slot == 0) ++ b.filter (fun w => w.slot == 1) ++ b.filter (fun w => w.slot == 2)
  match s.bundleFault c x b closed with
  | some e => s.coreFault c e x.pc
  | none =>
    match Issue.run c x ordered { s := s, fl := [], chain := [], ctl := .plain } with
    | .error e => s.coreFault c e x.pc
    | .ok o =>
      let next := (x.pc + 4 * bundleWords b) % 2 ^ 19
      let y := { x with flight := x.flight ++ o.fl, chain := o.chain, bundle := [], issued := x.issued + 1
                        aovSeen := (o.s.core c).aovSeen }
      let y := y.setR 74 (setField y.cst 16 12 (y.ni - 1))
      let (y, pc) := if y.branch.isSome then y.branchStep next else y.loopBack x.pc next
      let done := fun (y : LCore) (pc : Nat) => o.s.setCore c { y with pc := pc }
      match o.ctl with
      | .branch kind target => done { y with branch := some (2, kind, target) } pc
      | .ni n => done (y.setR 74 (setField y.cst 16 12 n)) pc
      | .loop k n end_ =>
        (match s.startLoop c y k n end_ next with
        | .error e => s.coreFault c e x.pc
        | .ok (y, pc) => done y pc)
      | ctl => ((done y pc).afterBundle c ctl).thawFft

/-- A core issues: it runs, is in service and is not frozen. -/
def State.coreRuns (s : State) (c : Nat) : Bool :=
  decide (c < 128) && (s.core c).st == 1 && !s.isOut c && (s.core c).freeze.isNone

/-- One operation word at the program counter of a core; the word with END closes the bundle. -/
def State.coreWord (s : State) (c : Nat) (fin : Bool) (w : CoreOp) : State :=
  if ¬ s.coreRuns c then s
  else
    let b := (s.core c).bundle ++ [w]
    let n := bundleWords b
    if fin then s.issue c b (decide (n ≤ 5))
    else if 5 ≤ n then s.issue c b false
    else s.onCore c (fun x => { x with bundle := b })

/-! ### Events of the array -/

/-- TASK_WATCHDOG (R190): `cycles` are those that count: issued and frozen ones, but those frozen in a blocked POST. -/
def execTaskWatchdog (dt core cycles : Nat) (s : State) : Res :=
  let s := s.elapse dt
  let cost := match s.taskOf core with
    | some t => (s.nodeOf t.item.node).map (fun p => ndCost p.2)
    | none => none
  let factor := max 2 (field (s.effReg 0x70000) 7 0)
  match cost with
  | some k =>
    .next (if core < 128 ∧ (s.core core).issued ≤ cycles ∧ factor * k < cycles then s.coreFault core flWatchdog (s.core core).pc
      else s)
  | none => .next s

/-- A transfer moves its data (R189). -/
def Lantern.move (l : Lantern) (j : DmaJob) : Lantern :=
  match j.kind with
  | 0 => { l with tile := l.tile.store j.local_ (l.dram.load j.remote j.bytes) }
  | 1 => { l with dram := l.dram.store j.remote (l.tile.load j.local_ j.bytes) }
  | 2 => { l with tile := l.tile.store j.local_ (l.tile.load j.remote j.bytes) }
  | _ => { l with tile := l.tile.store j.remote (l.tile.load j.local_ j.bytes) }

/-- What a transfer asks of the DRAM channels (R235). -/
def State.dmaDram (s : State) (j : DmaJob) : State :=
  if j.kind = 0 then s.dramRead j.remote j.bytes else if j.kind = 1 then s.dramWrite j.remote j.bytes else s

/-- What a frozen core waits for may have come with a completed transfer. -/
def State.thawDma (s : State) (c : Nat) : State :=
  let x := s.core c
  let go := s.onCore c (fun x => { x with freeze := none })
  match x.freeze with
  | some (.dma j) => if x.dma.length < 4 then s.dmaSubmit c j else s
  | some (.dmaWait n) => if x.dma.length ≤ n then go else s
  | some (.postDrain d node key data) => if x.writesOut then s else go.doPost c d node key data
  | some (.waitTask pass) => if x.writesOut then s else go.endTask c pass
  | _ => s

/-- DMA_TRANSFER_DONE (R189): the oldest transfer of a core completes. -/
def execDmaTransferDone (dt core : Nat) (s : State) : Res :=
  let s := s.elapse dt
  match (s.core core).dma with
  | [] => .next s
  | j :: js =>
    if 128 ≤ core then .next s
    else
      let s := ((s.dmaDram j).onLan (fun l => l.move j)).onCore core (fun x => { x with dma := js, dmaPend := x.st == 1 })
      .next ((s.thawDma core).thawFft)

/-- The record of an FFT job is in range (R171, R172): its input and output places, where the kernel that submitted it may reach. -/
def State.fftPlaces (s : State) (j : FftJob) : Option (Nat × Nat) :=
  let r := s.lan.tile.load j.addr 32
  let log2n := leAt r 8 1
  let n := 8 * 2 ^ log2n
  let img := j.image.bind (fun n => (s.planeImages (s.clusterPlane j.cluster)).find? (fun i => i.id == n))
  let src := leAt r 0 4
  let dst := leAt r 4 4
  if log2n < 4 ∨ 13 < log2n ∨ 4 ≤ leAt r 9 1 ∨ leAt r 10 2 ≠ 0 ∨ ¬ allZero (r.drop 14) ∨ src % 8 ≠ 0 ∨ dst % 8 ≠ 0 then none
  else match s.reach j.core img src n, s.reach j.core img dst n with
    | some a, some b => some (a, b)
    | _, _ => none

/-- The 32-bit numbers of a byte sequence. -/
def wordsOf : Nat → List Byte → List Int
  | 0, _ => []
  | n + 1, bs => signed 32 (leNat (bs.take 4)) :: wordsOf n (bs.drop 4)

/-- A waiting FFT.RUN takes the entry that became free. -/
def State.thawFftRun (s : State) (u : Nat) : State :=
  match s.lan.cores.find? (fun p => match p.2.freeze with
    | some (.fftRun _) => s.fftServer (p.1 / 8) == u
    | _ => false) with
  | some (c, x) => (match x.freeze with | some (.fftRun k) => s.fftSubmit c k | _ => s)
  | none => s

/-- The task that submitted a job is aborted, where it is still in service. -/
def State.abortSubmitter (s : State) (j : FftJob) : State :=
  if j.task.isSome ∧ (s.taskOf j.core).map (·.item) = j.task then s.abortTask j.core else s

/-- A residue failure of an FFT unit: the job gets STATUS 3, the task that submitted it is aborted, and the unit is to be held out
(R192, R369). -/
def State.fftResidue (s : State) (u : Nat) (j : FftJob) (rest : List FftJob) : State :=
  let node := match j.task with | some it => it.node | none => 0xFFFF
  let s := s.onLan (fun l => { l with tile := l.tile.store (j.addr + 13) [3] })
  let s := (s.bump 0x110204 1).noteEvent 41 (0x80 + u) node 0
  ((s.setFftQ u rest).abortSubmitter j).askOut (0x80 + u) 5

/-- EXP of a transform of 2^`log2n` points lies between what its first pass takes and what all its passes may take (R171). -/
def fftExp (real : Bool) (log2n : Nat) (xs : List Int) (e : Int) : Int :=
  let peak := xs.foldl (fun a x => max a x.natAbs) 0
  let lo : Int := if 2 ≤ log2n ∧ 2 ^ 29 ≤ peak then 2 else 0
  min (max e lo) ((log2n + (if real then 1 else 0) : Nat) : Int)

/-- The transform of R171: of zeros it is zero; otherwise EXP is within its bounds and the words are 32-bit numbers, free within that. -/
def fftJob (inverse real : Bool) (log2n : Nat) (xs : List Int) : Int × List Int :=
  if xs.all (· == 0) then (0, xs)
  else
    let (e, out) := Config.fft inverse real log2n xs
    (fftExp real log2n xs e, (List.range xs.length).map (fun i => signed 32 (pattern 32 (out.getD i 0))))

/-- FFT_JOB_DONE (R171, R172): the job at the head of a unit's queue ends; `residue`: a checker mismatched. -/
def execFftJobDone (dt cluster : Nat) (residue : Bool) (s : State) : Res :=
  let s := s.elapse dt
  match s.fftQ cluster with
  | [] => .next s
  | j :: rest =>
    if 16 ≤ cluster then .next s
    else if residue then .next ((s.fftResidue cluster j rest).thawFft)
    else
      let s := s.setFftQ cluster rest
      let s := match s.fftPlaces j with
        | none => s.onLan (fun l => { l with tile := l.tile.store (j.addr + 13) [2] })
        | some (a, b) =>
          let r := s.lan.tile.load j.addr 32
          let n := 2 * 2 ^ leAt r 8 1
          let (e, out) := fftJob ((leAt r 9 1).testBit 0) ((leAt r 9 1).testBit 1) (leAt r 8 1)
            (wordsOf n (s.lan.tile.load a (4 * n)))
          let bytes := ((List.range n).map (fun i => leBytes 4 (pattern 32 (out.getD i 0)))).flatten
          (s.onLan (fun l =>
            { l with tile := (l.tile.store b bytes).store (j.addr + 12) [BitVec.ofNat 8 (pattern 8 e), 1] })).bump 0x70110 1
      .next ((s.thawFftRun cluster).thawFft)

/-- INTERRUPT_ENTRY (R183): source 0 is the timer, 1 DMA. -/
def execInterruptEntry (dt core src : Nat) (s : State) : Res :=
  let s := s.elapse dt
  let x := s.core core
  let y := x.landBy x.issued
  let pending : Bool := if src = 0 then decide (y.tcmp ≤ s.now) else x.dmaPend
  if ¬ s.coreRuns core ∨ 2 ≤ src ∨ x.bundle ≠ [] ∨ x.branch.isSome ∨ ¬ pending ∨ ¬ bitOf y.cst 21 ∨ ¬ bitOf y.cst (17 + src)
      ∨ y.ni ≠ 0 then .next s
  else
    let z := x.drained
    let z := ((z.setR 71 (BitVec.ofNat 32 z.pc)).setR 72 z.cst).setR 74 (setBitOf z.cst 21 false)
    .next (s.setCore core
      { z with
        pc := ((z.reg 73).toNat + 0x200 * src) % 2 ^ 19, inHandler := true, chain := []
        dmaPend := if src = 1 then false else z.dmaPend })

end Sys2Proof.Machine
end

