-- ==== Sys2Proof/Machine/CoreOps.lean ====
section
/-!
DEFINITION. Machine/CoreOps.lean: the operations of R177, each as one operation word at the program counter of a core
(Machine/Lantern.lean): `fin` is END, the last word of its bundle.
-/
namespace Sys2Proof.Machine

def execLdW (core : Nat) (fin : Bool) (d : Fin 32) (k : Fin 8) (m : Option (Fin 8)) (s : State) : Res :=
  .next (s.coreWord core fin (.ld .w d.val k m))
def execLdH (core : Nat) (fin : Bool) (d : Fin 32) (k : Fin 8) (m : Option (Fin 8)) (s : State) : Res :=
  .next (s.coreWord core fin (.ld .h d.val k m))
def execLdV (core : Nat) (fin : Bool) (d : Fin 8) (k : Fin 8) (m : Option (Fin 8)) (s : State) : Res :=
  .next (s.coreWord core fin (.ld .v d.val k m))
def execLdVb (core : Nat) (fin : Bool) (d : Fin 8) (k : Fin 8) (m : Option (Fin 8)) (s : State) : Res :=
  .next (s.coreWord core fin (.ld .vb d.val k m))
def execStW (core : Nat) (fin : Bool) (a : Fin 32) (k : Fin 8) (m : Option (Fin 8)) (s : State) : Res :=
  .next (s.coreWord core fin (.st false a.val k m))
def execStV (core : Nat) (fin : Bool) (a : Fin 8) (k : Fin 8) (m : Option (Fin 8)) (s : State) : Res :=
  .next (s.coreWord core fin (.st true a.val k m))
def execPadd (core : Nat) (fin : Bool) (k : Fin 8) (m : Option (Fin 8)) (s : State) : Res :=
  .next (s.coreWord core fin (.padd k m))
def execMovp (core : Nat) (fin : Bool) (k : Fin 8) (a : Fin 32) (s : State) : Res :=
  .next (s.coreWord core fin (.movp k a.val))
def execVadd (core : Nat) (fin : Bool) (sat : Bool) (d a b : Fin 8) (s : State) : Res :=
  .next (s.coreWord core fin (.vop .add sat d.val a.val b.val))
def execVsub (core : Nat) (fin : Bool) (sat : Bool) (d a b : Fin 8) (s : State) : Res :=
  .next (s.coreWord core fin (.vop .sub sat d.val a.val b.val))
def execVmul (core : Nat) (fin : Bool) (sat : Bool) (d a b : Fin 8) (s : State) : Res :=
  .next (s.coreWord core fin (.vop .mul sat d.val a.val b.val))
def execVneg (core : Nat) (fin : Bool) (sat : Bool) (d a : Fin 8) (s : State) : Res :=
  .next (s.coreWord core fin (.vop1 .neg sat d.val a.val))
def execVabs (core : Nat) (fin : Bool) (sat : Bool) (d a : Fin 8) (s : State) : Res :=
  .next (s.coreWord core fin (.vop1 .abs sat d.val a.val))
def execVshl (core : Nat) (fin : Bool) (sat : Bool) (d a : Fin 8) (n : Fin 64) (s : State) : Res :=
  .next (s.coreWord core fin (.vop1 (.shl n) sat d.val a.val))
def execVsra (core : Nat) (fin : Bool) (d a : Fin 8) (n : Fin 64) (s : State) : Res :=
  .next (s.coreWord core fin (.vop1 (.sra n) false d.val a.val))
def execVand (core : Nat) (fin : Bool) (d a b : Fin 8) (s : State) : Res :=
  .next (s.coreWord core fin (.vop .and false d.val a.val b.val))
def execVor (core : Nat) (fin : Bool) (d a b : Fin 8) (s : State) : Res :=
  .next (s.coreWord core fin (.vop .or false d.val a.val b.val))
def execVxor (core : Nat) (fin : Bool) (d a b : Fin 8) (s : State) : Res :=
  .next (s.coreWord core fin (.vop .xor false d.val a.val b.val))
def execVmin (core : Nat) (fin : Bool) (d a b : Fin 8) (s : State) : Res :=
  .next (s.coreWord core fin (.vop .min false d.val a.val b.val))
def execVmax (core : Nat) (fin : Bool) (d a b : Fin 8) (s : State) : Res :=
  .next (s.coreWord core fin (.vop .max false d.val a.val b.val))
def execVsel (core : Nat) (fin : Bool) (d a b : Fin 8) (s : State) : Res :=
  .next (s.coreWord core fin (.vop .sel false d.val a.val b.val))
def execVcmp (core : Nat) (fin : Bool) (cc : VCond) (a b : Fin 8) (s : State) : Res :=
  .next (s.coreWord core fin (.vcmp cc a.val b.val))
def execVmaxi (core : Nat) (fin : Bool) (d a : Fin 8) (b : Fin 32) (s : State) : Res :=
  .next (s.coreWord core fin (.search true d.val a.val b.val))
def execVmini (core : Nat) (fin : Bool) (d a : Fin 8) (b : Fin 32) (s : State) : Res :=
  .next (s.coreWord core fin (.search false d.val a.val b.val))
def execRmaxi (core : Nat) (fin : Bool) (d : Fin 32) (a : Fin 8) (s : State) : Res :=
  .next (s.coreWord core fin (.reduce true d.val a.val))
def execRmini (core : Nat) (fin : Bool) (d : Fin 32) (a : Fin 8) (s : State) : Res :=
  .next (s.coreWord core fin (.reduce false d.val a.val))
def execVmac (core : Nat) (fin : Bool) (sat : Bool) (e : Fin 2) (a b : Fin 8) (s : State) : Res :=
  .next (s.coreWord core fin (.mac false false sat e.val a.val b.val))
def execVmsu (core : Nat) (fin : Bool) (sat : Bool) (e : Fin 2) (a b : Fin 8) (s : State) : Res :=
  .next (s.coreWord core fin (.mac true false sat e.val a.val b.val))
def execVmacb (core : Nat) (fin : Bool) (sat : Bool) (e : Fin 2) (a : Fin 8) (b : Fin 32) (s : State) : Res :=
  .next (s.coreWord core fin (.mac false true sat e.val a.val b.val))
def execVmsub (core : Nat) (fin : Bool) (sat : Bool) (e : Fin 2) (a : Fin 8) (b : Fin 32) (s : State) : Res :=
  .next (s.coreWord core fin (.mac true true sat e.val a.val b.val))
def execAclr (core : Nat) (fin : Bool) (e : Fin 2) (s : State) : Res :=
  .next (s.coreWord core fin (.aclr e.val))
def execAmov (core : Nat) (fin : Bool) (e : Fin 2) (a : Fin 8) (n : Fin 64) (s : State) : Res :=
  .next (s.coreWord core fin (.amov e.val a.val n))
def execAext (core : Nat) (fin : Bool) (sat : Bool) (d : Fin 8) (e : Fin 2) (n : Fin 64) (s : State) : Res :=
  .next (s.coreWord core fin (.aext sat d.val e.val n))
def execAsum (core : Nat) (fin : Bool) (sat : Bool) (e : Fin 2) (s : State) : Res :=
  .next (s.coreWord core fin (.asum sat e.val))
def execAdd (core : Nat) (fin : Bool) (sat : Bool) (d a b : Fin 32) (s : State) : Res :=
  .next (s.coreWord core fin (.sop .add sat d.val a.val b.val))
def execSub (core : Nat) (fin : Bool) (sat : Bool) (d a b : Fin 32) (s : State) : Res :=
  .next (s.coreWord core fin (.sop .sub sat d.val a.val b.val))
def execAnd (core : Nat) (fin : Bool) (d a b : Fin 32) (s : State) : Res :=
  .next (s.coreWord core fin (.sop .and false d.val a.val b.val))
def execOr (core : Nat) (fin : Bool) (d a b : Fin 32) (s : State) : Res :=
  .next (s.coreWord core fin (.sop .or false d.val a.val b.val))
def execXor (core : Nat) (fin : Bool) (d a b : Fin 32) (s : State) : Res :=
  .next (s.coreWord core fin (.sop .xor false d.val a.val b.val))
def execMin (core : Nat) (fin : Bool) (d a b : Fin 32) (s : State) : Res :=
  .next (s.coreWord core fin (.sop .min false d.val a.val b.val))
def execMax (core : Nat) (fin : Bool) (d a b : Fin 32) (s : State) : Res :=
  .next (s.coreWord core fin (.sop .max false d.val a.val b.val))
def execShl (core : Nat) (fin : Bool) (sat : Bool) (d a : Fin 32) (n : Fin 64) (s : State) : Res :=
  .next (s.coreWord core fin (.shift .shl sat d.val a.val n))
def execShr (core : Nat) (fin : Bool) (d a : Fin 32) (n : Fin 64) (s : State) : Res :=
  .next (s.coreWord core fin (.shift .shr false d.val a.val n))
def execAsr (core : Nat) (fin : Bool) (d a : Fin 32) (n : Fin 64) (s : State) : Res :=
  .next (s.coreWord core fin (.shift .asr false d.val a.val n))
def execCmp (core : Nat) (fin : Bool) (a b : Fin 32) (s : State) : Res :=
  .next (s.coreWord core fin (.cmp a.val b.val))
def execMovi (core : Nat) (fin : Bool) (d : Fin 32) (imm : BitVec 16) (ext : Option (BitVec 28)) (s : State) : Res :=
  .next (s.coreWord core fin (.movi d.val imm ext))
def execMov (core : Nat) (fin : Bool) (d src : CoreReg) (s : State) : Res :=
  .next (s.coreWord core fin (.mov d src))
def execBr (core : Nat) (fin : Bool) (cc : BCond) (off : Int) (ext : Bool) (s : State) : Res :=
  .next (s.coreWord core fin (.br cc off ext))
def execCall (core : Nat) (fin : Bool) (off : Int) (ext : Bool) (s : State) : Res :=
  .next (s.coreWord core fin (.call off ext))
def execJmpR (core : Nat) (fin : Bool) (a : Fin 32) (s : State) : Res :=
  .next (s.coreWord core fin (.jmpR a.val))
def execRet (core : Nat) (fin : Bool) (s : State) : Res :=
  .next (s.coreWord core fin (.ret))
def execLoop (core : Nat) (fin : Bool) (k : Fin 2) (a : Fin 32) (stop : Int) (ext : Bool) (s : State) : Res :=
  .next (s.coreWord core fin (.loop k a.val stop ext))
def execNi (core : Nat) (fin : Bool) (n : Fin 64) (s : State) : Res :=
  .next (s.coreWord core fin (.ni n))
def execRti (core : Nat) (fin : Bool) (s : State) : Res :=
  .next (s.coreWord core fin (.rti))
def execCoreNop (core : Nat) (fin : Bool) (s : State) : Res :=
  .next (s.coreWord core fin (.nop))
def execWaitTask (core : Nat) (fin : Bool) (pass : Bool) (s : State) : Res :=
  .next (s.coreWord core fin (.waitTask pass))
def execPost (core : Nat) (fin : Bool) (d a b : Fin 32) (s : State) : Res :=
  .next (s.coreWord core fin (.post d.val a.val b.val))
def execDmaRd (core : Nat) (fin : Bool) (k : Fin 8) (b n : Fin 32) (s : State) : Res :=
  .next (s.coreWord core fin (.dma 0 k b.val n.val))
def execDmaWr (core : Nat) (fin : Bool) (k : Fin 8) (b n : Fin 32) (s : State) : Res :=
  .next (s.coreWord core fin (.dma 1 k b.val n.val))
def execDmaTrd (core : Nat) (fin : Bool) (k : Fin 8) (b n : Fin 32) (s : State) : Res :=
  .next (s.coreWord core fin (.dma 2 k b.val n.val))
def execDmaTwr (core : Nat) (fin : Bool) (k : Fin 8) (b n : Fin 32) (s : State) : Res :=
  .next (s.coreWord core fin (.dma 3 k b.val n.val))
def execDmaWait (core : Nat) (fin : Bool) (n : Nat) (s : State) : Res :=
  .next (s.coreWord core fin (.dmaWait n))
def execFftRun (core : Nat) (fin : Bool) (a : Fin 32) (s : State) : Res :=
  .next (s.coreWord core fin (.fftRun a.val))
def execFftWait (core : Nat) (fin : Bool) (a : Fin 32) (s : State) : Res :=
  .next (s.coreWord core fin (.fftWait a.val))
def execCrcI (core : Nat) (fin : Bool) (a : Fin 32) (s : State) : Res :=
  .next (s.coreWord core fin (.crcI a.val))
def execCrcW (core : Nat) (fin : Bool) (a : Fin 8) (s : State) : Res :=
  .next (s.coreWord core fin (.crcW a.val))
def execCrcF (core : Nat) (fin : Bool) (d : Fin 32) (s : State) : Res :=
  .next (s.coreWord core fin (.crcF d.val))
def execTime (core : Nat) (fin : Bool) (d : Fin 32) (s : State) : Res :=
  .next (s.coreWord core fin (.time d.val))
def execTcmp (core : Nat) (fin : Bool) (a : Fin 32) (s : State) : Res :=
  .next (s.coreWord core fin (.tcmp a.val))

end Sys2Proof.Machine
end

