-- ==== Sys2Proof/Machine/Cve.lean ====
section
/-!
DEFINITION. Machine/Cve.lean: the check-value engines (R372 to R376) and what an engine's completion releases (R146).
-/
namespace Sys2Proof.Machine

def icuMismatch : Nat := 0x0C01
def icuBadRecord : Nat := 0x0C02
def icuRange : Nat := 0x0C03
def icuParity : Nat := 0x0C04

/-- The polynomials of R372: initial value, final XOR, and the running value updated by bytes. -/
def polyInit (p : Nat) : Nat := if p ≤ 1 then 0xFFFFFFFF else if p = 2 then 0 else 0xFFFF
def polyFinal (p : Nat) : Nat := if p ≤ 1 then 0xFFFFFFFF else 0
def polyRun (p reg : Nat) (bs : List Byte) : Nat :=
  if p = 0 then crcRunR 0x82F63B78 (reg % 2 ^ 32) bs
  else if p = 1 then crcRunR 0xEDB88320 (reg % 2 ^ 32) bs
  else if p = 2 then crcRunL 64 0x42F0E1EBA9EA3693 reg bs
  else crcRunL 16 0x1021 (reg % 65536) bs

/-- Fields of a job record (R373). -/
def jobSrc (r : List Byte) : Nat := leAt r 0 8
def jobDst (r : List Byte) : Nat := leAt r 8 8
def jobLen (r : List Byte) : Nat := leAt r 16 4
def jobCount (r : List Byte) : Nat := leAt r 24 4
def jobStep (r : List Byte) : Nat := if leAt r 20 4 = 0 then jobLen r else leAt r 20 4
def jobPoly (r : List Byte) : Nat := leAt r 28 1
def jobFlag (r : List Byte) (n : Nat) : Bool := (leAt r 29 1).testBit n
def jobSrcSpace (r : List Byte) : Nat := leAt r 29 1 / 16 % 4
def jobDstSpace (r : List Byte) : Nat := leAt r 29 1 / 64

/-- The record is in range for the opcode: 0 CV_RUN or SCAN, 1 COPY, 2 an item of Wick. -/
def jobOk (kind : Nat) (r : List Byte) : Bool :=
  let spaceOk := fun (k : Nat) => if kind = 2 then k == 2 else decide (k ≤ 1)
  decide (1 ≤ jobLen r) && decide (jobLen r ≤ 16777216) && (leAt r 20 4 == 0 || decide (jobLen r ≤ leAt r 20 4))
    && decide (1 ≤ jobCount r) && decide (jobCount r ≤ 65536) && (decide (jobPoly r ≤ 3) || (kind == 1 && jobPoly r == 255))
    && (leAt r 30 2 == 0) && (leAt r 36 4 == 0) && spaceOk (jobSrcSpace r) && (kind != 1 || spaceOk (jobDstSpace r))

/-- An address range of a job inside its space; `img` is the issuing kernel's image. -/
def spanOk (img : Option Image) (space a : Nat) (r : List Byte) : Bool :=
  let last := a + (jobCount r - 1) * jobStep r + jobLen r
  if space = 0 then decide (last ≤ 2 ^ 64)
  else if space = 1 then decide (last ≤ 2 ^ 30)
  else match img with | some i => decide (last ≤ i.dramBytes) | none => false

/-- Where a space begins in the DRAM of `Lantern`. -/
def spaceBase (img : Option Image) (space : Nat) : Nat :=
  if space = 1 then 0x180000000 else (match img with | some i => i.dramBase | none => 0)

/-- The pieces of a job from piece `k` on: read, fold into the running value, and for COPY write. `src` is what host memory
answers, piece after piece. -/
def State.jobPieces (s : State) (img : Option Image) (copy : Bool) (r src : List Byte) (k reg : Nat) : Nat → Nat × State
  | 0 => (reg, s)
  | n + 1 =>
    let len := jobLen r
    let bytes := if jobSrcSpace r = 0 then (src.drop (k * len)).take len
      else s.lan.dram.load (spaceBase img (jobSrcSpace r) + jobSrc r + k * jobStep r) len
    let reg := if jobPoly r ≤ 3 then polyRun (jobPoly r) reg bytes else reg
    let dst := jobDst r + k * jobStep r
    let s := if jobSrcSpace r = 0 then s else s.dramRead (spaceBase img (jobSrcSpace r) + jobSrc r + k * jobStep r) len
    let s := if ¬ copy then s
      else if jobDstSpace r = 0 then s.emit (.mem dst bytes)
      else (s.dramWrite (spaceBase img (jobDstSpace r) + dst) len).onLan (fun l =>
        { l with dram := l.dram.store (spaceBase img (jobDstSpace r) + dst) bytes })
    State.jobPieces s img copy r src (k + 1) reg n

/-- A job runs (R374): VALUE, RESULT, the compared value, and whether it matches EXPECT; without a check value these are free. -/
def State.runJob (s : State) (img : Option Image) (engine : Nat) (copy : Bool) (r src : List Byte) : (Nat × Nat × Nat × Bool) × State :=
  let p := jobPoly r
  let reg := if jobFlag r 1 then leAt r 40 8 else polyInit p
  let reg := if jobFlag r 0 ∧ p ≤ 3 then polyRun p reg (r.take 8 ++ (r.drop 32).take 4) else reg
  let (reg, s) := State.jobPieces s img copy r src 0 reg (jobCount r)
  let (value, result, s) :=
    if p ≤ 3 then (reg, reg ^^^ polyFinal p, s)
    else
      let (a, s) := s.fresh (2 ^ 64)
      let (b, s) := s.fresh (2 ^ 64)
      (a, b, s)
  let cmp := if jobFlag r 2 then result else value
  let ok := !jobFlag r 3 || cmp == leAt r 48 8
  let s := (s.setReg64 (0x110104 + 16 * engine) value).bump 0x110224 1
  let s := if ok then s else (s.bump 0x110228 1).noteEvent 44 engine (leAt r 32 4) 0
  ((value, result, cmp, ok), s)

/-- A ring job (R375, R376): `rec` the record and `src` the source pieces as host memory answers, `parity`: a DRAM or queue
parity failure met on the way. -/
def ringJob (op : Nat) (ring : Nat) (rec_ src : Option (List Byte)) (parity : Bool) (s : State) : State :=
  match s.nextDesc ring op with
  | none => s
  | some d =>
    let kind := if op = 0x68 then 1 else 0
    if d.flags ≠ 0 ∨ d.spec ≠ 0 ∨ d.w4 ≠ 0 ∨ d.w5 ≠ 0 ∨ d.addr % 32 ≠ 0 then s.finish ring d.index stBadDesc
    else if d.w1 ≠ 64 then s.finish ring d.index icuBadRecord
    else
      match rec_ with
      | none => s.finish ring d.index stDmaError
      | some r =>
        if ¬ jobOk kind r then s.finish ring d.index icuBadRecord
        else if ¬ spanOk none (jobSrcSpace r) (jobSrc r) r ∨ (kind = 1 ∧ ¬ spanOk none (jobDstSpace r) (jobDst r) r) then
          s.finish ring d.index icuRange
        else if parity then s.finish ring d.index icuParity
        else if jobSrcSpace r = 0 ∧ src.isNone then s.finish ring d.index stDmaError
        else
          let ((value, result, cmp, ok), s) := s.runJob none (ring - 44) (kind == 1) r (src.getD [])
          let s := s.emit (.mem (d.addr + 40) (leBytes 8 value))
          let s := s.emit (.mem (d.addr + 56) (leBytes 8 result))
          s.finishAt ring d.index (if ok then stOk else icuMismatch) 0 s.now (some (BitVec.ofNat 32 cmp))

def execCvRun (ring : Nat) (record src : Option (List Byte)) (parity : Bool) (s : State) : Res :=
  .next (ringJob 0x60 ring record src parity s)
def execCopy (ring : Nat) (record src : Option (List Byte)) (parity : Bool) (s : State) : Res :=
  .next (ringJob 0x68 ring record src parity s)
def execScan (ring : Nat) (record src : Option (List Byte)) (parity : Bool) (s : State) : Res :=
  .next (ringJob 0x69 ring record src parity s)

/-- A Wick item of engine 10 runs: its record stands in the tile region of its node's image (R375). -/
def State.wickJob (s : State) (t : WTask) : State :=
  match s.nodeOf t.item.node with
  | none => s
  | some (img, nd) =>
    let core := 8 * (if ndPlane nd = 1 then 0 else s.mgt.split)
    match s.reach core (some img) t.item.data 64 with
    | none => s
    | some a =>
      let r := s.lan.tile.load a 64
      if ¬ jobOk 2 r ∨ ¬ spanOk (some img) 2 (jobSrc r) r then s
      else
        let ((value, result, _, _), s) := s.runJob (some img) (t.item.key % 8) false r []
        s.onLan (fun l => { l with tile := (l.tile.store (a + 40) (leBytes 8 value)).store (a + 56) (leBytes 8 result) })

/-- Items of RELEASE 2 that an engine's completion creates: for the successors of the completed node, and for nodes that name the
engine (R146). -/
def State.engineRelease (s : State) (g num : Nat) (nodes : List Nat) (key : Nat) : State :=
  nodes.foldl (fun s n =>
    match s.nodeOf n, s.instOf g num with
    | some (_, r), some i =>
      if ndRelease r = 2 ∧ ndGrid r = g ∧ s.planeRuns (ndPlane r) then s.releaseItem (s.newItem i r key i.num) else s
    | _, _ => s) s

/-- ENGINE_COMPLETION: engine `engine` reports job `key`. -/
def execEngineCompletion (dt engine key : Nat) (s : State) : Res :=
  let s := s.elapse dt
  if 16 ≤ engine then .next s
  else
    let named := (s.liveNodes.filter (fun p => ndKind p.2 == 2 && ndTarget p.2 == engine && ndRelease p.2 == 2)).map
      (fun p => ndNode p.2)
    match s.taskOf (0x80 + engine) with
    | some t =>
      let s := if engine = 10 then s.wickJob t else s
      let s := s.taskEnds t false
      let succ := match s.nodeOf t.item.node with | some (_, r) => s.succOf r | none => []
      .next (s.engineRelease t.item.grid t.item.num (succ ++ named).eraseDups key)
    | none =>
      .next ([0, 1].foldl (fun s g =>
        match s.newestInst g with
        | some i => s.engineRelease g i.num named key
        | none => s) s)

/-- ICU_CVE_STATE of an engine as it stands: items of Wick and fetched descriptors wait; a job of Wick runs. -/
def State.cveState (s : State) (e : Nat) : Word :=
  let busy : Bool := match s.taskOf 0x8A with | some t => t.item.key % 8 == e | none => false
  let items := (s.wick.items.filter (fun i => i.key % 8 == e &&
    (match s.nodeOf i.node with | some (_, r) => ndKind r == 2 && i.vigil.isNone | none => false))).length
  let descs := ((s.ring (44 + e)).descs.filter (fun d => d.phase == .fetched)).length
  BitVec.ofNat 32 ((if busy then 2 ^ 31 + 255 * 256 else 0) + 65536 * min 255 (items + descs))

end Sys2Proof.Machine
end

