-- ==== Sys2Proof/Machine/OpSense.lean ====
section
/-!
DEFINITION. Machine/OpSense.lean: operator sense (R335 to R339): jack, accessory and button of a headset channel.
-/
namespace Sys2Proof.Machine

def opsDflt (_ : Nat) : OpsChan := OpsChan.reset
def State.opsChan (s : State) (c : Nat) : OpsChan := Cells.get opsDflt s.ops c
def State.onOps (s : State) (c : Nat) (f : OpsChan → OpsChan) : State :=
  { s with ops := Cells.put opsDflt s.ops c (f (s.opsChan c)) }

def regOpsCfg : Nat := 0xF8000
def State.opsEnabled (s : State) (c : Nat) : Bool := decide (c < 8) && s.flag regOpsCfg (16 + c)
def State.opsBias (s : State) : Bool := s.flag regOpsCfg 31
/-- 1 ms, in ns. -/
def ms : Nat := 1000000

/-- An indication of R338: kind 1 press, 2 release, 3 long, 4 double, 5 double end; source 37 (R339). Presses, releases and longs
reach the voice engine. -/
def State.opsEmit (s : State) (c kind : Nat) (long : Bool) : State :=
  let s := (s.bump 0xF8104 1).fire 37 (BitVec.ofNat 32 (c + 256 * kind + (if long then 65536 else 0)))
    (if kind = 3 then 0 else 19) 0
  if kind = 1 then s.opsIndicate c 0 false
  else if kind = 2 then s.opsIndicate c 1 long
  else if kind = 3 then s.opsIndicate c 2 false
  else s

/-- The jack has agreed with the other state for 20 samples (R336). -/
def State.jackChange (s : State) (c : Nat) : State :=
  let inserted := !(s.opsChan c).plugged
  let s := s.onOps c (fun x =>
    { OpsChan.reset with
        plugged := inserted, code := x.code, codes := x.codes
        due := if inserted then some (s.now + 200 * ms) else none })
  let s := if inserted then s.bump 0xF8100 1 else s
  let s := s.fire 35 (BitVec.ofNat 32 (c + (if inserted then 256 else 0))) 0 0
  if inserted then s else s.opsIndicate c 3 false

/-- The decisions of R338 at a sample `x` of a dynamic or electret headset. -/
def State.button (s : State) (c x : Nat) : State :=
  let t := s.now
  let low := decide (x < 123)
  let high := decide (246 ≤ x)
  let s := s.onOps c (fun o =>
    { o with
        runLo := if !o.pressed && low then o.runLo + 1 else 0
        runHi := if o.pressed && high then o.runHi + 1 else 0 })
  let o := s.opsChan c
  let s := if o.runLo = 20 then
      let on := t - 19 * ms
      let twice := !o.doubleRun && (match o.relOn with | some r => decide (on < r + 400 * ms) | none => false)
      let s := s.onOps c (fun o =>
        { o with pressed := true, onAt := on, doubleRun := twice, longSent := if twice then o.longSent else false })
      s.opsEmit c (if twice then 4 else 1) false
    else s
  let o := s.opsChan c
  let s := if o.pressed && !o.doubleRun && !o.longSent && !high && decide (o.onAt + 800 * ms ≤ t) then
      (s.onOps c (fun o => { o with longSent := true })).opsEmit c 3 false
    else s
  let o := s.opsChan c
  if o.runHi = 20 then
    let rel := t - 19 * ms
    let s := s.onOps c (fun o => { o with pressed := false, relOn := some rel })
    s.opsEmit c (if o.doubleRun then 5 else 2) (decide (o.onAt + 800 * ms ≤ rel))
  else s

/-- SAR_SAMPLE (R335 to R338): the code converted and the level of the jack pin. -/
def execSarSample (dt c code : Nat) (jack : Bool) (s : State) : Res :=
  let s := s.elapse dt
  if ¬ s.opsEnabled c then .next s
  else
    let x := if s.opsBias then code % 4096 else 0
    let inserted := jack == s.flag regOpsCfg (8 + c)
    let s := s.onOps c (fun o =>
      { o with code := x, codes := (x :: o.codes).take 50, jackRun := if inserted == o.plugged then 0 else o.jackRun + 1 })
    let s := if (s.opsChan c).jackRun = 20 then s.jackChange c else s
    let o := s.opsChan c
    if ¬ s.opsBias then .next s
    else if o.acc = 4 then
      let r := if 246 ≤ x then o.retry + 1 else 0
      .next (s.onOps c (fun o => { o with retry := r, due := if r = 20 then some (s.now + 200 * ms) else o.due }))
    else if o.acc = 1 ∨ o.acc = 2 then .next (s.button c x)
    else .next s

/-- ACCESSORY of a median code (R337). -/
def accessoryOf (m : Nat) : Nat :=
  if m ≤ 122 then 4 else if m ≤ 1023 then 1 else if m ≤ 3481 then 2 else if m ≤ 3972 then 3 else 0

/-- ACCESSORY_CLASSIFY (R337): the median of 50 codes lies between the two middle ones, and the manual does not say where. -/
def execAccessoryClassify (dt c : Nat) (s : State) : Res :=
  let s := s.elapse dt
  let o := s.opsChan c
  let due : Bool := match o.due with
    | some t => decide (t ≤ s.now)
    | none => false
  if ¬ s.opsEnabled c ∨ ¬ o.plugged ∨ ¬ due then .next s
  else if ¬ s.opsBias then .next (s.onOps c (fun o => { o with acc := 7, due := none }))
  else
    let l := sortBy (fun a b => decide (a ≤ b)) o.codes
    let lo := l.getD ((l.length - 1) / 2) 0
    let hi := l.getD (l.length / 2) 0
    let (r, s) := s.fresh (hi - lo + 1)
    let a := accessoryOf (lo + r)
    let s := s.onOps c (fun o => { o with acc := a, due := none, retry := 0 })
    .next (s.fire 36 (BitVec.ofNat 32 (c + 256 * a)) (BitVec.ofNat 32 (lo + r)) 0)

/-- OPS_CH_STATUS as the channel stands. -/
def State.opsStatus (s : State) (c : Nat) : Word :=
  let o := s.opsChan c
  BitVec.ofNat 32 (o.code + 2 ^ 24 * o.acc + (if o.pressed then 2 ^ 30 else 0) + (if o.plugged then 2 ^ 31 else 0))

end Sys2Proof.Machine
end

