-- ==== Sys2Proof/Machine/Power.lean ====
section
/-!
DEFINITION. Machine/Power.lean: input, rail and temperature supervision, the watchdog, Snuffer, reset, boot, standby and the
management bus (chapter Power, Reset and Boot; R432).
-/
namespace Sys2Proof.Machine

def regPwrStatus : Nat := 0x130000
def regPwrVin : Nat := 0x130004
def regPwrTemp : Nat := 0x130008
def regPwrCause : Nat := 0x13000C
def regSecCause : Nat := 0x140010

def State.onPwr (s : State) (f : Pwr → Pwr) : State := { s with pwr := f s.pwr }

/-- PG, and READY. -/
def State.pg (s : State) : Bool := s.flag regPwrStatus 0
def State.ready (s : State) : Bool := s.flag regPwrStatus 1

/-- A flag of PWR_STATUS; a change of bits 2 to 5 drives SMB_ALERT_n low (R432). -/
def State.setPwr (s : State) (n : Nat) (b : Bool) : State :=
  if s.flag regPwrStatus n = b then s
  else
    let s := s.setFlag regPwrStatus n b
    if 2 ≤ n ∧ n ≤ 5 then s.onPwr (fun p => { p with alert := true }) else s

/-- CK_TIME ticks of a number of milliseconds. -/
def msTicks (ms : Nat) : Nat := ms * 500000

/-- A supervision source fires, unless the module is held in reset. -/
def State.pwrFire (s : State) (v : Nat) (w1 w2 : Word) : State := if s.mgt.modState = 0 then s else s.fire v w1 w2 0

/-- A measurement of VIN, in millivolts. -/
def State.setVin (s : State) (mv : Nat) : State := s.setReg regPwrVin (BitVec.ofNat 32 (min (mv / 10) 65535))

/-! ### Snuffer (R407, R411, R113) -/

/-- The sample of the present frame at which the egress ramps start: within 4 samples of the trigger (R113). -/
def State.snuffSample (s : State) : Nat × State :=
  let (k, s) := s.fresh 4
  ((s.now - s.mgt.tick.last) * s.renderRate / 1000000000 + 1 + k, s)

/-- Snuffer is triggered: the first trigger is the cause; the cause is latched, READY falls, the egress ramps start, and a MUTE
entry is written (R411, steps 1 to 3). No effect with the rails off, or while Snuffer is at work. -/
def State.snuffTrigger (s : State) (cause : Nat) : State :=
  if ¬ s.pg ∨ s.pwr.snuff.isSome then s
  else
    let s := s.setReg regPwrCause (BitVec.ofNat 32 cause)
    let s := (s.setPwr 1 false)
    let s := if 5 ≤ cause then s.setPwr 2 true else s
    let s := s.onPwr (fun p => { p with snuff := some (cause, s.now), flushed := false })
    let s := if cause = 3 then s.auditWrite 0 0x0D 0 2 0 0 else s
    let (i, s) := s.snuffSample
    let s := { s with mix := { s.mix.reRamp i s.renderRate with snuffed := true } }
    s.auditSnuffer 0x0C (BitVec.ofNat 32 cause)

/-- Entries of the audit log that ring 3 has not taken, oldest first. -/
def State.unmirrored (s : State) : List (List Byte) :=
  ((s.ring 3).waiting.filter (fun e => e.code == 1)).map (fun e => e.payload.take 32)

/-- The journal record of Snuffer (R412). -/
def State.snuffRecord (s : State) (cause time : Nat) : Journal :=
  let l := s.unmirrored
  .snuffer cause time s.audit.index s.audit.hash (l.length - 64) (l.drop (l.length - 64))

/-- An accepted MOD_RESET acts 1 ms after its completion has been written, and at the latest 100 ms after acceptance (R410). -/
def State.modResetDue (s : State) : Bool :=
  match s.pwr.resetAt with
  | none => false
  | some (t, i) =>
    let written := (s.descAt 0 i).isNone && !s.host.wait1.any (fun e => e.getD 20 0 == 0 && leAt e 16 4 == i)
    (written && decide (t + 1000000 ≤ s.now)) || decide (t + 100000000 ≤ s.now)

/-- SNUFFER (R411): a due MOD_RESET triggers it; once it is at work, its journal record becomes complete (step 5). -/
def execSnuffer (dt : Nat) (s : State) : Res :=
  let s := s.elapse dt
  match s.pwr.snuff with
  | some (cause, t) =>
    if s.pwr.flushed then .next s
    else .next ((s.journalWrite (s.snuffRecord cause t)).onPwr (fun p => { p with flushed := true }))
  | none => .next (if s.modResetDue then s.snuffTrigger 3 else s)

/-! ### Reset (R407, R417, R447, R448) -/

/-- TIME64 of a journal record. -/
def Journal.time : Journal → Nat
  | .snuffer _ t _ _ _ _ => t
  | .reserve _ t => t

/-- INDEX and HASH as the boot ROM restores them (R412). -/
def restoredIndex (l : List Journal) : Nat :=
  l.foldl (fun a j => match j with
    | .snuffer _ _ next _ _ _ => max a next
    | .reserve limit _ => max a limit) 0
def restoredHash (l : List Journal) : Nat :=
  l.foldl (fun a j => match j with
    | .snuffer _ _ _ hash _ _ => hash
    | .reserve _ _ => a) 0

/-- The audit log as the journal restores it: INDEX and chain go on, what was not flushed is lost (R384, R412). -/
def Pwr.auditFrom (p : Pwr) : Audit :=
  { Audit.empty with index := restoredIndex p.journal, hash := restoredHash p.journal }

/-- Everything a reset clears; what survives is the key store, the power registers, SEC_RESET_CAUSE, the link address, the flash
and what has been sent to the host. The module is then in BOOT, its windows closed. -/
def State.rebooted (s : State) : State :=
  { State.reset with
    pending := s.pending
    free := s.free
    clock := { Counter.empty with ticks := s.clock.ticks }
    regs := s.regs.filter (fun p => (0x130000 ≤ p.1 && p.1 ≤ 0x13000C) || p.1 == regSecCause)
    host := { HostIf.empty with out := s.host.out, lastRead := s.host.lastRead }
    straps := s.straps
    audit := s.pwr.auditFrom
    mgt := { Mgt.empty with modState := 0 }
    sec := { s.sec with dbgLevel := 0, dbgFails := 0, challenge := none, waitUntil := 0 }
    pwr := { s.pwr with
      hold := 0, snuff := none, flushed := false, resetAt := none, standby := none, warned := false }
    link := { Link.reset with addr := s.link.addr } }.setPwr 1 false

/-- The rails go off; AUX3V3 stays where `aux` says. The link address is lost with power (R353, R417). -/
def State.railsOff (s : State) (aux : Bool) : State :=
  let s := { s with link := { s.link with addr := 31 } }
  (s.setPwr 0 false).onPwr (fun p => { p with aux := aux })

/-- The action of R407 for a cause. -/
def State.resetAction (s : State) (cause : Nat) : State :=
  let low := s.pwr.resetLow
  let s := s.rebooted
  let hold := fun (s : State) => s.onPwr (fun p => { p with hold := cause })
  if cause = 4 then ((hold s).railsOff false).setReg regSecCause 0
  else if cause = 5 ∨ cause = 9 then (hold s).railsOff false
  else if cause = 6 then (hold s).railsOff true
  else if cause = 8 ∨ (cause = 2 ∧ low) then hold s
  else s

/-- SNUFFER_END (R411, step 6). -/
def execSnufferEnd (dt : Nat) (s : State) : Res :=
  let s := s.elapse dt
  match s.pwr.snuff with
  | some (cause, _) => if s.pwr.flushed then .next (s.resetAction cause) else .next s
  | none => .next s

/-- RESET_n has been low for at least 1 µs, or goes high (R407). -/
def execResetN (dt : Nat) (low : Bool) (s : State) : Res :=
  let s := (s.elapse dt).onPwr (fun p => { p with resetLow := low })
  if ¬ low then .next (if s.pwr.hold = 2 then s.onPwr (fun p => { p with hold := 0 }) else s)
  else if s.pwr.hold = 8 then .next (s.onPwr (fun p => { p with hold := 2 }))
  else if s.pwr.hold = 9 then .next (s.onPwr (fun p => { p with hold := 4 }))
  else if s.pwr.hold = 2 then .next s
  else .next (s.snuffTrigger 2)

/-- Ring 0 opcode 0xE1 (R410). -/
def execModReset (s : State) : Res :=
  match s.nextDesc 0 0xE1 with
  | none => .next s
  | some d =>
    if d.flags ≠ 0 ∨ d.w1 ≠ 0 ∨ d.w2 ≠ 0 ∨ d.w3 ≠ 0 ∨ d.w4 ≠ 0 ∨ d.w5 ≠ 0 then .next (s.finish 0 d.index stBadDesc)
    else if ¬ s.auditRoom 1 then .next (s.stall 0 .modReset)
    else
      let s := (s.auditReserve 1).onPwr (fun p => { p with resetAt := some (s.now, d.index) })
      .next (s.finish 0 d.index stOk)

/-- GLITCH (R381): `cause` is the detail, bits [3:0] of SEC_RESET_CAUSE; the module resets at once. -/
def execGlitch (dt cause : Nat) (s : State) : Res :=
  let s := s.elapse dt
  if ¬ s.pg then .next s
  else
    let s := s.setReg regSecCause (BitVec.ofNat 32 (2 ^ 31 + cause % 16))
    let s := (s.setReg regPwrCause 10).setPwr 2 true
    let low := s.pwr.resetLow
    let s := s.rebooted
    .next (if low then s.onPwr (fun p => { p with hold := 2 }) else s)

/-- MANTLE_FAULT (R316). -/
def execMantleFault (dt : Nat) (s : State) : Res :=
  let s := s.elapse dt
  if s.mnt.st = 7 then .next s
  else .next ((s.mntGo 7 s.mnt.sel 15).snuffTrigger 8)

/-! ### Input and rails (R403, R405) -/

/-- The rails start: PG rises, and the boot ROM may run. -/
def State.railsOn (s : State) : State :=
  (s.setPwr 0 true).onPwr (fun p => { p with aux := true, hold := 0 })

/-- POWER_UP_START (R403): `mv` VIN in millivolts; `strap` is ADDR_STRAP as AUX3V3 becomes good. A module that went off for
UNDERVOLTAGE, or whose RAIL hold RESET_n has released, starts. -/
def execPowerUpStart (dt mv strap : Nat) (s : State) : Res :=
  let s := (s.elapse dt).setVin mv
  if s.pg ∨ mv < 35000 ∨ s.pwr.hold ≠ 4 then .next s
  else .next ((s.onPwr (fun p => { p with smbStrap := strap % 32 })).railsOn)

/-- OVERVOLTAGE_RECOVERY (R407). -/
def execOvervoltageRecovery (dt mv strap : Nat) (s : State) : Res :=
  let s := (s.elapse dt).setVin mv
  if s.pg ∨ mv < 35000 ∨ 75000 < mv ∨ s.pwr.hold ≠ 5 then .next s
  else .next ((s.onPwr (fun p => { p with smbStrap := strap % 32 })).railsOn)

/-- VIN_LOW_WARNING (R403). -/
def execVinLowWarning (dt mv : Nat) (s : State) : Res :=
  let s := (s.elapse dt).setVin mv
  if 34000 ≤ mv ∨ s.flag regPwrStatus 4 then .next s
  else .next ((s.setPwr 4 true).pwrFire 56 1 (BitVec.ofNat 32 mv))

/-- VIN_RECOVER (R403). -/
def execVinRecover (dt mv : Nat) (s : State) : Res :=
  let s := (s.elapse dt).setVin mv
  if mv < 35000 ∨ ¬ s.flag regPwrStatus 4 then .next s
  else .next ((s.setPwr 4 false).pwrFire 56 2 0)

/-- UNDERVOLTAGE (R403). With the rails already off, it is the removal of power that releases a RAIL hold. -/
def execUndervoltage (dt mv : Nat) (s : State) : Res :=
  let s := (s.elapse dt).setVin mv
  if 32000 ≤ mv then .next s
  else if ¬ s.pg then .next (if s.pwr.hold = 9 then s.onPwr (fun p => { p with hold := 4 }) else s)
  else .next (s.snuffTrigger 4)

/-- OVERVOLTAGE_WARNING (R403). -/
def execOvervoltageWarning (dt mv : Nat) (s : State) : Res :=
  let s := (s.elapse dt).setVin mv
  .next (if 77000 < mv then s.pwrFire 56 3 0 else s)

/-- OVERVOLTAGE (R403). -/
def execOvervoltage (dt mv : Nat) (s : State) : Res :=
  let s := (s.elapse dt).setVin mv
  .next (if 80000 < mv then s.snuffTrigger 5 else s)

/-- RAIL_FAULT (R405). -/
def execRailFault (dt : Nat) (s : State) : Res := .next ((s.elapse dt).snuffTrigger 9)

/-- AUX_FAULT and its recovery (R405). -/
def execAuxFault (dt : Nat) (s : State) : Res :=
  let s := s.elapse dt
  .next (if s.pwr.aux ∧ ¬ s.flag regPwrStatus 5 then (s.setPwr 5 true).pwrFire 56 4 0 else s)
def execAuxFaultRecovery (dt : Nat) (s : State) : Res := .next ((s.elapse dt).setPwr 5 false)

/-! ### Temperature and watchdog (R406 to R409) -/

/-- THERM_n and source 57 (R406, R408). -/
def State.thermFlag (s : State) (t : Int) : State :=
  let w := BitVec.ofNat 32 (pattern 16 t)
  if 1200 ≤ t ∧ ¬ s.flag regPwrStatus 3 then (s.setPwr 3 true).pwrFire 57 1 w
  else if t < 1150 ∧ s.flag regPwrStatus 3 then (s.setPwr 3 false).pwrFire 57 2 w
  else s

/-- Source 58; its words have no meaning in the manual. -/
def State.hotFire (s : State) : State := if s.mgt.modState = 0 then s else s.fireOpen 58

/-- Source 58 as the estimate reaches 130 °C (R408). -/
def State.hotFlag (s : State) (t : Int) : State :=
  if t < 1300 then s.onPwr (fun p => { p with hotSince := none })
  else if s.pwr.hotSince.isSome then s
  else (s.onPwr (fun p => { p with hotSince := some s.clock.ticks })).hotFire

/-- TEMPERATURE_ESTIMATE (R408): `t` in 0.1 °C. A module that went off for THERMAL powers up at 100 °C or below (R407). -/
def execTemperatureEstimate (dt : Nat) (t : Int) (s : State) : Res :=
  let s := (s.elapse dt).setReg regPwrTemp (BitVec.ofNat 32 (pattern 16 t))
  let s := (s.thermFlag t).hotFlag t
  .next (if s.pwr.hold = 6 ∧ ¬ s.pg ∧ t ≤ 1000 then s.railsOn else s)

/-- THERMAL (R407): 135 °C, or 130 °C for 1 s. -/
def execThermal (dt : Nat) (s : State) : Res :=
  let s := s.elapse dt
  let long : Bool := match s.pwr.hotSince with
    | some k => decide (k + msTicks 1000 ≤ s.clock.ticks)
    | none => false
  .next (if 1350 ≤ s.caseTemp ∨ long then s.snuffTrigger 6 else s)

/-- The watchdog runs with the firmware. -/
def State.dogRuns (s : State) : Bool := s.ready
/-- WATCHDOG_WARNING, WATCHDOG and WATCHDOG_SERVICE (R409). -/
def execWatchdogWarning (dt : Nat) (s : State) : Res :=
  let s := s.elapse dt
  if s.dogRuns ∧ ¬ s.pwr.warned ∧ s.pwr.serviced + msTicks 50 ≤ s.clock.ticks then
    .next ((s.onPwr (fun p => { p with warned := true })).pwrFire 62 1 0)
  else .next s
def execWatchdog (dt : Nat) (s : State) : Res :=
  let s := s.elapse dt
  .next (if s.dogRuns ∧ s.pwr.serviced + msTicks 100 ≤ s.clock.ticks then s.snuffTrigger 7 else s)
def execWatchdogService (dt : Nat) (s : State) : Res :=
  let s := s.elapse dt
  let warned := s.pwr.warned
  let s := s.onPwr (fun p => { p with serviced := s.clock.ticks, warned := false })
  .next (if warned then s.pwrFire 62 2 0 else s)

/-! ### Boot (R412 to R417) -/

/-- Steps 1 to 3 of R415: straps, TIME64, the audit chain; a glitch reset is logged (R381). -/
def State.bootRom (s : State) (head : Bool) (sel addr dt : Nat) : State :=
  let base := match s.pwr.journal with
    | [] => 0
    | j :: _ => j.time + 1000000000
  let s := { s with
    straps := { head := head, boot := sel % 4, addr := addr % 32 }
    clock := { s.clock with acc := base * 2 ^ 32 }
    audit := { s.pwr.auditFrom with lastTime := base } }
  let s := s.elapse dt
  let s := if s.reg regPwrCause = 10 then
      s.auditNow 5 0 0x0A 0 (BitVec.ofNat 32 (s.fld regSecCause 3 0)) 0 0
    else s
  if head ∧ s.link.addr ≠ 1 then s.takeAddr 1 else s

/-- Steps 6 and 7: the BOOT entry, and READY. -/
def State.bootReady (s : State) (slot svn : Nat) (img : List Byte) : State :=
  let s := s.auditNow 5 0 0x0B 0 (BitVec.ofNat 32 (s.straps.boot + 256 * slot)) (BitVec.ofNat 32 svn) 0
  let s := { s with mgt := { s.mgt with modState := 3 } }
  let s := s.onPwr (fun p => { p with fw := img, fwSvn := svn, serviced := s.clock.ticks, warned := false })
  (s.setPwr 1 true).setPwr 2 false

/-- A failed boot (R413). -/
def State.bootFailed (s : State) : State := { s with mgt := { s.mgt with modState := 2 } }.setPwr 2 true

/-- The slots in the order SPI boot tries them (R414): slot, SVN, image. -/
def Pwr.slots (p : Pwr) : List (Nat × Nat × List Byte) :=
  match p.slotA, p.slotB with
  | none, none => []
  | some a, none => [(0, a)]
  | none, some b => [(1, b)]
  | some a, some b =>
    if b.1 < a.1 ∨ (a.1 = b.1 ∧ p.newest = 0) then [(0, a), (1, b)] else [(1, b), (0, a)]

/-- A firmware image passes R379. -/
def State.firmwareOk (s : State) (b : List Byte) : Bool :=
  leAt b 4 1 == 1 && (match s.openImage b with | .inr _ => true | .inl _ => false)

/-- SPI boot: the first slot whose image passes; one that does not read back as it was written cannot. -/
def State.bootSpi (s : State) (okA okB : Bool) : State :=
  match s.pwr.slots.find? (fun x => (if x.1 = 0 then okA else okB) && s.firmwareOk x.2.2) with
  | some (slot, svn, img) => (s.onPwr (fun p => { p with booted := slot })).bootReady slot svn img
  | none => s.bootFailed

/-- BOOT (R413 to R416). The pins are LINK_HEAD, BOOT and ADDR_STRAP; `chain` is the image the upstream module answers with, once LINK_UP
is in service and it is READY; `okA`, `okB` and `chainOk` say whether the slots of the flash and that image read back whole. In BOOT_WAIT and BOOT_FAILED a firmware image the host has loaded boots. -/
def execBoot (dt : Nat) (head : Bool) (sel addr : Nat) (okA okB : Bool) (chain : Option (List Byte)) (chainOk : Bool) (s : State) : Res :=
  if ¬ s.pg ∨ s.pwr.hold ≠ 0 ∨ s.pwr.snuff.isSome ∨ s.pwr.resetLow then .next s
  else if s.mgt.modState = 0 then
    if sel % 4 = 2 ∧ ¬ head ∧ chain = none then .next (s.elapse dt)
    else
      let s := s.bootRom head sel addr dt
      if sel % 4 = 0 then .next (s.bootSpi okA okB)
      else if sel % 4 = 1 then .next { s with mgt := { s.mgt with modState := 1 } }
      else if sel % 4 = 2 ∧ ¬ head then
        (match chain with
        | some b =>
          if chainOk && s.firmwareOk b then .next (s.bootReady 0 (leAt b 8 4) b) else .next s.bootFailed
        | none => .next s)
      else .next s.bootFailed
  else if s.mgt.modState = 1 ∨ s.mgt.modState = 2 then
    match s.imgs.boot with
    | some b => .next ((s.elapse dt).bootReady 0 s.imgs.bootSvn b)
    | none => .next (s.elapse dt)
  else .next s

/-! ### Standby (R418 to R420) -/

/-- Descriptors of the other host-to-device rings that have not reached their commit point are ABORTED. -/
def State.abortOthers (s : State) : State :=
  s.eachRing (fun r s => if r = 0 ∨ isD2h r then s else (State.withdrawGo r (s.ring r).descs s).retire r)

/-- Ring 0 commands already fetched behind PWR_STANDBY end with PWR_IN_STANDBY. -/
def State.refuseRest (s : State) : State :=
  s.onRing 0 (fun x => { x with descs := x.descs.map (fun d =>
    if d.phase = .fetched ∧ d.opcode ≠ 0 ∧ d.opcode ≠ 0xE3 then { d with phase := .done 0x0D02 0 s.now none } else d) })

/-- The field rules of both power commands. -/
def pwrFields (d : Desc) : Bool :=
  decide (d.flags = 0 ∧ d.w1 = 0 ∧ d.w2 = 0 ∧ d.w3 = 0 ∧ d.w4 = 0 ∧ d.w5 = 0)

/-- Ring 0 opcode 0xE2 (R418). -/
def execPwrStandby (s : State) : Res :=
  match s.nextDesc 0 0xE2 with
  | none => .next s
  | some d =>
    if ¬ pwrFields d then .next (s.finish 0 d.index stBadDesc)
    else if s.anyRun then .next (s.finish 0 d.index 0x0D01)
    else if s.pwr.standby.isSome then .next s
    else
      let s := (s.setPhase 0 d.index .committed).abortOthers.refuseRest
      .next ((s.onPwr (fun p => { p with standby := some d.index })).retire 0)

/-- Ring 0 opcode 0xE3 (R419): the memories leave self-refresh, and each MAC returns to the state its NETn_CTRL gives. -/
def execPwrWake (s : State) : Res :=
  match s.nextDesc 0 0xE3 with
  | none => .next s
  | some d =>
    if ¬ pwrFields d then .next (s.finish 0 d.index stBadDesc)
    else if s.mgt.modState ≠ 5 then .next (s.finish 0 d.index 0x0D03)
    else
      let s := [0, 1, 2, 3].foldl State.leaveSelfRefresh s
      let s := { s with mgt := { s.mgt with modState := 3 } }
      let s := [0, 1, 2, 3].foldl (fun (s : State) (n : Nat) =>
        if s.flag (regNet n 0) 0 then s.onMac n (fun m => { m with st := 1 }) else s) s
      .next (s.finish 0 d.index stOk)

/-! ### The management bus (R432) -/

/-- The module's 7-bit address. -/
def smbAddress (strap : Nat) : Nat := if strap ≤ 16 then 0x50 + strap else 0x62 + (strap - 17)

/-- The module answers a read, whenever AUX3V3 is good. -/
def State.smbAnswer (s : State) (b : List Byte) : State :=
  s.onPwr (fun p => { p with smb := if p.aux then some b else none })

def execSmbReadVin (s : State) : Res := .next (s.smbAnswer (leBytes 2 (s.fld regPwrVin 15 0)))
def execSmbReadTemp (s : State) : Res := .next (s.smbAnswer (leBytes 2 (s.fld regPwrTemp 15 0)))
def execSmbReadCause (s : State) : Res := .next (s.smbAnswer (leBytes 1 (s.fld regPwrCause 3 0)))
def execSmbReadStatus (s : State) : Res := .next (s.smbAnswer (leBytes 1 (s.fld regPwrStatus 5 0)))
/-- A write, or any other command byte, is NACKed. -/
def execSmbWrite (s : State) : Res := .next (s.onPwr (fun p => { p with smb := none }))
/-- The Alert Response Address is read: a module that drives SMB_ALERT_n answers with its address and releases it. -/
def execAlertResponse (s : State) : Res :=
  if s.pwr.aux ∧ s.pwr.alert then
    .next ((s.smbAnswer (leBytes 1 (smbAddress s.pwr.smbStrap))).onPwr (fun p => { p with alert := false }))
  else .next (s.onPwr (fun p => { p with smb := none }))

end Sys2Proof.Machine
end

