-- ==== Sys2Proof/Machine/RegRead.lean ====
section
/-!
DEFINITION. Machine/RegRead.lean: what a BAR0 read of a register returns (R8, R9, R437): the stored value, or the live state a
register reports.
-/
namespace Sys2Proof.Machine

/-- Word `w` of a byte field, packed as SEC_OWNER_HASH (R444). -/
def packed (b : List Byte) (w : Nat) : Word := BitVec.ofNat 32 (leAt b (4 * w) 4)

/-- MGT_AUD_STATUS (R387). -/
def State.audStatus (s : State) : Word :=
  BitVec.ofNat 32 ((if 4096 ≤ s.auditFill then 2 ^ 31 else 0) + (if s.flag 0x200 30 then 2 ^ 30 else 0)
    + 65536 * s.auditReserveUsed + s.auditFill)

def State.readMgt (s : State) (off : Nat) : Word :=
  if off = 0x8 ∨ off = 0xC then BitVec.ofNat 32 (Config.serial.toNat / 2 ^ (8 * (off - 8)))
  else if off = 0x18 then (if s.mgt.modState < 3 then 0 else BitVec.ofNat 32 (Config.fwVersion s.pwr.fw))
  else if off = 0x1C then (if s.mgt.modState < 3 then 0 else BitVec.ofNat 32 s.pwr.fwSvn)
  else if off = 0x40 then s.mgtStatus
  else if off = 0x200 then s.audStatus
  else if off = 0x204 then BitVec.ofNat 32 s.audit.index
  else s.reg off

/-- HIF_STATUS (R203). -/
def State.hifStatus (s : State) : Word :=
  (s.reg regHifStatus &&& 0x1C) ||| BitVec.ofNat 32 (2 ^ 20 * s.host.linkWidth + 2 ^ 16 * s.host.linkSpeed
    + (if s.host.bme then 2 else 0) + (if s.flag regHifCtrl 0 ∧ s.linkOk then 1 else 0))

/-- HIF_RING_STATE (R215). -/
def State.ringState (s : State) (r : Nat) : Word :=
  let x := s.ring r
  let b := (s.ringStateByte r).toNat
  BitVec.ofNat 32 (2 ^ 29 * x.state.code + (if x.paused then 2 ^ 28 else 0) + (if x.stalled then 2 ^ 27 else 0)
    + (if b.testBit 5 then 2 ^ 26 else 0) + 65536 * min 64 x.descs.length + 256 * x.errCause)

def State.readHif (s : State) (off : Nat) : Word :=
  if off = regHifStatus then s.hifStatus
  else if 0x11000 ≤ off ∧ off % 0x20 = 0x10 then s.ringState ((off - 0x11000) / 0x20)
  else s.reg off

def State.readWck (s : State) (off : Nat) : Word :=
  if off = 0x50000 then s.wckStatus
  else if off = 0x50010 then BitVec.ofNat 32 s.wick.trace.length
  else if off = 0x50018 then BitVec.ofNat 32 (65536 * s.wick.reserveMax + s.reserveFill)
  else if 0x50040 ≤ off ∧ off < 0x50080 then s.reg off ||| BitVec.ofNat 32 (65536 * s.levelFill ((off - 0x50040) / 4))
  else s.reg off

/-- A unit is under an on-demand test or a rerun. -/
def State.inTest (s : State) (t : Nat) : Bool :=
  s.vig.tests.any (fun x => x.target == t || (t < 0x80 && x.target == 0xC0 + t / 8))

/-- LAN_CORE_STATUS and LAN_CL_STATUS. -/
def State.coreStatus (s : State) (t : Nat) : Word :=
  let st := if s.inTest t then 3 else if s.isOut t then 2 else (s.core t).st
  let node := match s.taskOf t with | some k => k.item.node | none => 0
  BitVec.ofNat 32 (2 ^ 30 * st + 65536 * (node % 4096))
def State.clStatus (s : State) (c : Nat) : Word :=
  let cores := (List.range 8).foldl (fun a k => a + (if s.isOut (8 * c + k) then 0 else 2 ^ (8 + k))) 0
  BitVec.ofNat 32 (2 ^ 24 * s.clusterPlane c + (if s.isOut (0x80 + c) then 0 else 65536) + cores
    + min 16 (s.fftQ c).length)

def State.readLan (s : State) (off : Nat) : Word :=
  if off < 0x70000 then
    let c := (off - 0x60000) / 0x1000
    let r := off % 0x1000
    if r < 0x200 ∧ r % 0x40 = 0 then s.coreStatus (8 * c + r / 0x40)
    else if r = 0x200 then s.clStatus c
    else s.reg off
  else if off = 0x70004 then s.lanCustCode
  else if off = 0x70008 then s.lanCustDram
  else s.reg off

def State.readRnd (s : State) (off : Nat) : Word :=
  if off = 0x80004 then s.rndStatus
  else if off = 0x80008 then BitVec.ofNat 32 s.rnd.cap
  else if 0x80010 ≤ off ∧ off ≤ 0x8002C then Cells.get regReset s.rnd.geometry.live.sl off
  else s.reg off

def State.readCnv (s : State) (off : Nat) : Word :=
  if off = 0x90008 then s.cnvStatus
  else if 0x91000 ≤ off then s.cnvOutState ((off - 0x91000) / 4)
  else s.reg off

def State.readMix (s : State) (off : Nat) : Word :=
  if off = 0xA0000 then s.mixStatus
  else if off = 0xA0008 then BitVec.ofNat 32 s.xfadeBits
  else if off = 0xA0018 then BitVec.ofNat 32 s.mix.fading.length
  else s.reg off

def State.readVox (s : State) (off : Nat) : Word :=
  if off = 0xB0004 then s.voxStatus
  else if off = 0xB0008 then BitVec.ofNat 32 s.voxCap
  else if off = 0xB000C then BitVec.ofNat 32 s.voxAdmitted
  else if 0xB1000 ≤ off ∧ off < 0xB8000 then s.ecuStatus ((off - 0xB1000) / 0x100)
  else s.reg off

/-- Q_CTRL: FLUSH reads 1 while the queue is FLUSHING (R251). -/
def State.flushBit (s : State) (owner inst : Nat) : Word := if (s.queue owner inst).flushing then 1 else 0

def State.readNet (s : State) (off : Nat) : Word :=
  let n := (off - 0xC0000) / 0x4000
  let r := off % 0x4000
  if r = 4 then s.netStatus n
  else if r = 0x104 then BitVec.ofNat 32 (s.mac n).rxOctets
  else if r = 0x12C then BitVec.ofNat 32 (s.mac n).txOctets
  else if 0x1000 ≤ r ∧ r % 0x20 = 4 then
    (if r < 0x1100 then s.queueStatus 0 (4 * n + (r - 0x1000) / 0x20) (off - 4) else s.queueStatus 1 (8 * n + (r - 0x1100) / 0x20) (off - 4))
  else if 0x1000 ≤ r ∧ r < 0x1060 ∧ r % 0x20 = 8 then s.flushBit 0 (4 * n + (r - 0x1000) / 0x20)
  else if 0x1100 ≤ r ∧ r < 0x1200 ∧ r % 0x20 = 8 then s.flushBit 1 (8 * n + (r - 0x1100) / 0x20)
  else s.reg off

def State.readTim (s : State) (off : Nat) : Word :=
  if off = 0xD0004 then (s.reg off &&& 6) ||| (if s.servoOwned then 8 else 0)
  else if off = 0xD0008 then BitVec.ofNat 32 s.now
  else if 0xD8000 ≤ off ∧ off % 0x20 = 0 then s.strState ((off - 0xD8000) / 0x20)
  else s.reg off

def State.readMnt (s : State) (off : Nat) : Word :=
  if off = 0xE0004 then s.mntState
  else if off = 0xE0040 then s.mntHoldFreq
  else if off = 0xE0044 then s.mntOutFreq
  else if off = 0xE0048 then s.mntPullNs
  else if 0xE0180 ≤ off ∧ off < 0xE0200 then s.mntCandStatus ((off - 0xE0180) / 4)
  else s.reg off

def State.readTdm (s : State) (off : Nat) : Word :=
  let p := (off - 0xF0000) / 0x800
  let r := off % 0x800
  if r = 0x18 then BitVec.ofNat 32 (s.port p).rxLive
  else if r = 0x1C then BitVec.ofNat 32 (s.port p).txLive
  else if r = 0x20 then s.tdmStatus p
  else if r = 0x24 then BitVec.ofNat 32 (s.port p).rate
  else if r = 0x3C then s.tapWidx p
  else if r = 0x104 then s.queueStatus 2 p (off - 4)
  else if r = 0x124 then s.queueStatus 3 p (off - 4)
  else if r = 0x108 then s.flushBit 2 p
  else if r = 0x128 then s.flushBit 3 p
  else s.reg off

def State.readLnk (s : State) (off : Nat) : Word :=
  if off = 0x100004 then s.lnkStatus
  else if off = 0x100008 then BitVec.ofNat 32 s.link.map
  else if off = 0x100014 then toWord (s.link.offset.fdiv 16)
  else if off = 0x100020 then s.twinStatus
  else if off = 0x100104 ∨ off = 0x100144 then s.lnkPortStatus ((off - 0x100104) / 0x40)
  else if 0x100200 ≤ off ∧ off < 0x100280 ∧ off % 0x20 = 4 then s.queueStatus 4 ((off - 0x100200) / 0x20) (off - 4)
  else if 0x100200 ≤ off ∧ off < 0x100280 ∧ off % 0x20 = 8 then s.flushBit 4 ((off - 0x100200) / 0x20)
  else s.reg off

/-- VIG_STATUS, VIG_CL_STATUS and STA_STATUS. -/
def State.vigStatus (s : State) : Word := BitVec.ofNat 32 ((if s.wick.guard then 65536 else 0) + s.vig.starved)
def State.vigClStatus (s : State) (c : Nat) : Word :=
  let zero := fun (_ : Nat) => 0
  BitVec.ofNat 32 (2 ^ 24 * Cells.get zero s.vig.owed c + 65536 * min 255 (Cells.get zero s.vig.stale c)
    + (List.range 8).foldl (fun a k => a + (if (s.core (8 * c + k)).passDone then 2 ^ k else 0)) 0)
def State.staStatus (s : State) : Word :=
  BitVec.ofNat 32 (s.sta.banks.length + (if s.sta.banks.any (fun b => b.flags.testBit 1) then 4 else 0))

def State.readVig (s : State) (off : Nat) : Word :=
  if off = 0x12000C then s.vigStatus
  else if 0x120040 ≤ off ∧ off < 0x120080 then s.vigClStatus ((off - 0x120040) / 4)
  else if off = 0x120804 then s.staStatus
  else if off = 0x120808 then BitVec.ofNat 32 s.sta.epoch
  else s.reg off

/-- The certificate tables (R444): the length, then the DER bytes. -/
def certWord (b : List Byte) (w : Nat) : Word := if w = 0 then BitVec.ofNat 32 b.length else packed b (w - 1)

def State.readSec (s : State) (off : Nat) : Word :=
  if off = 0x140000 then s.secStatus
  else if off = 0x140008 then BitVec.ofNat 32 s.sec.fwMin
  else if off = 0x14000C then BitVec.ofNat 32 s.sec.ownerMin
  else if 0x140100 ≤ off ∧ off < 0x140200 then packed (s.sec.ownerHash.getD []) ((off - 0x140100) / 4)
  else if 0x140200 ≤ off ∧ off < 0x140300 then packed attPub ((off - 0x140200) / 4)
  else if 0x140300 ≤ off ∧ off < 0x140400 then packed decPub ((off - 0x140300) / 4)
  else if 0x141000 ≤ off ∧ off < 0x142000 then certWord Config.attCert ((off - 0x141000) / 4)
  else if 0x142000 ≤ off then certWord Config.decCert ((off - 0x142000) / 4)
  else s.reg off

/-- BAR0 serves a window: all from READY on, MGT_ alone before, with HIF_ while the host boots the module (R437). -/
def State.windowOpen (s : State) (off : Nat) : Bool :=
  decide (3 ≤ s.mgt.modState) || decide (off < 0x10000) || (decide (1 ≤ s.mgt.modState) && decide (off < 0x20000))

/-- A BAR0 read of the register at an offset; no register there reads 0 (R9). -/
def State.readReg (s : State) (off : Nat) : Word :=
  if ¬ s.windowOpen off ∨ regRow off = none then 0
  else if off < 0x10000 then s.readMgt off
  else if off < 0x20000 then s.readHif off
  else if off = 0x20010 ∨ off = 0x20014 then BitVec.ofNat 32 (s.host.vecPend.toNat / 2 ^ (8 * (off - 0x20010)))
  else if off < 0x40000 then s.reg off
  else if off = 0x40004 then s.dmcStatus
  else if off < 0x50000 then s.reg off
  else if off < 0x60000 then s.readWck off
  else if off < 0x80000 then s.readLan off
  else if off < 0x90000 then s.readRnd off
  else if off < 0xA0000 then s.readCnv off
  else if off < 0xB0000 then s.readMix off
  else if off < 0xC0000 then s.readVox off
  else if off < 0xD0000 then s.readNet off
  else if off < 0xE0000 then s.readTim off
  else if off < 0xF0000 then s.readMnt off
  else if off < 0xF8000 then s.readTdm off
  else if 0xF8010 ≤ off ∧ off < 0xF8030 then s.opsStatus ((off - 0xF8010) / 4)
  else if off < 0x100000 then s.reg off
  else if off < 0x110000 then s.readLnk off
  else if off < 0x110200 ∧ off % 0x10 = 0 then s.cveState ((off - 0x110100) / 0x10)
  else if off < 0x120000 then s.reg off
  else if off < 0x130000 then s.readVig off
  else if off < 0x140000 then s.reg off
  else s.readSec off

/-- A BAR0 read within one aligned dword returns the bytes it selects of the register there (R202). -/
def State.readBytes (s : State) (addr n : Nat) : List Byte := ((leBytes 4 (s.readReg (addr / 4 * 4)).toNat).drop (addr % 4)).take n

end Sys2Proof.Machine
end

