-- ==== Sys2Proof/Machine/Stats.lean ====
section
/-!
DEFINITION. Machine/Stats.lean: statistics epochs and snapshots (R397 to R402, R446), and Vigil's starvation count (R396).
-/
namespace Sys2Proof.Machine

/-- `n` registers from an offset on, 4 bytes apart. -/
def regRun (b n : Nat) : List Nat := (List.range n).map (fun i => b + 4 * i)
/-- The same for `k` blocks `stride` apart. -/
def regRuns (k stride b n : Nat) : List Nat := ((List.range k).map (fun i => regRun (b + stride * i) n)).flatten

/-- The latched registers of MAC `n`: its counters, then three of each queue. -/
def netLatched (n : Nat) : List Nat :=
  let b := 0xC0000 + 0x4000 * n
  regRun (b + 0x100) 24 ++ regRuns 3 0x20 (b + 0x100C) 3 ++ regRuns 8 0x20 (b + 0x110C) 3

/-- The latched registers of port `p`. -/
def tdmLatched (p : Nat) : List Nat := regRuns 2 0x20 (0xF010C + 0x800 * p) 3 ++ regRun (0xF0200 + 0x800 * p) 3

/-- The latched registers of a snapshot body, in the order of R446. -/
def latched : List Nat :=
  regRun 0x300 3 ++ regRun 0x10100 10 ++ regRun 0x30100 2 ++ regRun 0x40100 5
    ++ [0x50018] ++ regRun 0x50100 12
    ++ regRuns 16 0x1000 0x60840 3 ++ regRun 0x70100 6
    ++ regRun 0x80100 9 ++ regRun 0x88040 2
    ++ [0x9000C] ++ regRun 0x90100 7 ++ regRun 0xA0100 8
    ++ regRun 0xB0100 13 ++ regRun 0xB8040 2
    ++ netLatched 0 ++ netLatched 1 ++ netLatched 2 ++ netLatched 3
    ++ regRun 0xD0200 4 ++ regRuns 256 0x20 0xD8004 7
    ++ regRun 0xE0200 4 ++ ((List.range 16).map tdmLatched).flatten ++ regRun 0xF8100 2
    ++ regRuns 4 0x20 0x10020C 3 ++ regRun 0x100300 8
    ++ regRun 0x110200 11 ++ regRun 0x120100 9 ++ regRun 0x120900 2 ++ [0x140040]

/-- Both halves of an octet pair of R280; which half, or none. -/
def octetHalf (off : Nat) : Option Bool :=
  if 0xC0000 ≤ off ∧ off < 0xD0000 then
    (if off % 0x4000 = 0x104 ∨ off % 0x4000 = 0x12C then some false
    else if off % 0x4000 = 0x108 ∨ off % 0x4000 = 0x130 then some true else none)
  else none

/-- What a register latches. -/
def State.latchValue (s : State) (off : Nat) : Nat :=
  match octetHalf off with
  | some hi =>
    let m := s.mac ((off - 0xC0000) / 0x4000)
    let v := if off % 0x4000 < 0x120 then m.rxOctets else m.txOctets
    if hi then v / 2 ^ 32 else v % 2 ^ 32
  | none => (s.readReg off).toNat

/-- The body of a snapshot taken now. -/
def State.latchAll (s : State) : List (Nat × Nat) := latched.map (fun o => (o, s.latchValue o))

/-- Every counter restarts from zero, and so does what is counted in the present epoch (R398, R191, R244, R393). -/
def State.restartCounters (s : State) : State :=
  let counter := fun (off : Nat) => match regRow off with | some r => r.counter | none => false
  { s with
    regs := (s.regs.filter (fun p => !counter p.1))
    macs := (List.range 4).foldl (fun (m : Cells Mac) (n : Nat) =>
      Cells.put (fun _ => Mac.reset) m n { Cells.get (fun _ => Mac.reset) m n with rxOctets := 0, txOctets := 0 }) s.macs
    wick := { s.wick with faults := [], reserveMax := 0 }
    parWords := []
    vig := { s.vig with mixFails := [] }
    link := { s.link with
      ports := [0, 1].foldl (fun (m : Cells LinkPort) (n : Nat) =>
        Cells.put (fun _ => LinkPort.reset) m n
          { Cells.get (fun _ => LinkPort.reset) m n with prbs := 0, prbsTold := false }) s.link.ports } }.setFld 0x9000C 7 0 0

/-- One register of a merge (R400): counters add, saturating; octet pairs are added elsewhere; maxima take the larger. -/
def mergeReg (off a b : Nat) : Nat :=
  if off = 0x50018 then b % 65536 + 65536 * max (a / 65536) (b / 65536)
  else if off = 0x9000C then b / 256 * 256 + max (a % 256) (b % 256)
  else min (a + b) (2 ^ 32 - 1)

/-- Two bodies merge; the halves of an octet pair stand beside each other. -/
def mergeBody : List (Nat × Nat) → List (Nat × Nat) → List (Nat × Nat)
  | (o, a) :: (p, c) :: x, (_, b) :: (r, d) :: y =>
    if octetHalf o = some false then
      let v := (a + 2 ^ 32 * c + b + 2 ^ 32 * d) % 2 ^ 64
      (o, v % 2 ^ 32) :: (p, v / 2 ^ 32) :: mergeBody x y
    else (o, mergeReg o a b) :: mergeBody ((p, c) :: x) ((r, d) :: y)
  | [(o, a)], (_, b) :: _ => [(o, mergeReg o a b)]
  | x, _ => x

/-- A new latch merges into a full bank (R400). -/
def Snap.merge (a b : Snap) : Snap :=
  { a with
    finish := b.finish, frames := a.frames + b.frames, epochs := a.epochs + b.epochs, flags := a.flags ||| b.flags ||| 2
    body := mergeBody a.body b.body }

/-- A latch fills the free bank, or merges into the one latched last (R400). -/
def State.storeSnap (s : State) (b : Snap) : State :=
  match s.sta.banks with
  | [x, y] => { s with sta := { s.sta with banks := [x, y.merge b] } }.bump 0x120904 1
  | l => { s with sta := { s.sta with banks := l ++ [b] } }

/-- STA_EPOCH.N in its range (R399). -/
def State.epochN (s : State) : Nat := max 3 (min 1048576 (s.fld 0x120800 20 0))

/-- STALE and the starved clusters at an epoch boundary (R396); a cluster that starves already and whose STALE reaches the threshold
anew owes 192 segments again. -/
def State.vigilEpoch (s : State) : State :=
  let zero := fun (_ : Nat) => 0
  let step := fun (a : VigilSt × Nat) (c : Nat) =>
    let g := a.1
    let ran := g.ranAll.testBit (s.clusterPlane c - 1)
    let rise := if ran ∧ ¬ g.segDone.contains c then 1 else 0
    let stale := min 255 (Cells.get zero g.stale c + rise)
    let g := { g with stale := Cells.put zero g.stale c stale }
    let limit := max 1 (s.fld 0x120004 7 0)
    if a.2.testBit c then
      (if rise = 1 ∧ stale = limit then { g with owed := Cells.put zero g.owed c 192 } else g, a.2)
    else if stale < limit then (g, a.2)
    else ({ g with owed := Cells.put zero g.owed c 192 }, a.2 + 2 ^ c)
  let (g, mask) := (List.range 16).foldl step (s.vig, s.vig.starved)
  let s := s.onVig (fun _ => { g with
    segDone := [], ranAll := (if s.mgt.render.run then 1 else 0) + if s.mgt.voice.run then 2 else 0 })
  s.starvedAre mask

/-- FLAGS of the epoch that ends: PARTIAL, FIRST, STEP. -/
def Sta.endFlags (x : Sta) : Nat := x.flags ||| (if x.frames = x.n then 0 else 1)

/-- An epoch boundary at the tick captured at `t`, which opens epoch `e` (R397 to R401). -/
def State.epochEnds (s : State) (t e : Nat) : State :=
  let x := s.sta
  let snap : Snap :=
    { epoch := x.epoch, start := x.start, finish := t, frames := x.frames, n := x.n, flags := x.endFlags, epochs := 1
      body := s.latchAll }
  let s := (s.restartCounters.storeSnap snap).vigilEpoch
  let s := { s with sta := { s.sta with
    epoch := e, start := t, frames := 0, n := s.epochN, flags := 0, force := false } }
  let s := s.drain 4
  s.fireAt 63 (BitVec.ofNat 32 x.epoch) (BitVec.ofNat 32 (x.epoch / 2 ^ 32))
    (BitVec.ofNat 32 (x.frames % 2 ^ 24 + 2 ^ 24 * x.endFlags)) t

/-- The statistics side of a frame tick captured at `t` with media number `m`; `step`: a TIME64 step or a change of rate fell since
the tick before. -/
def State.staTick (s : State) (t m : Nat) (step : Bool) : State :=
  let e := m / (32 * s.epochN)
  if ¬ s.sta.opened then
    { s with sta := { s.sta with epoch := e, start := t, frames := 0, n := s.epochN, opened := true, force := false } }
  else
    let s := { s with sta := { s.sta with frames := s.sta.frames + 1, flags := s.sta.flags ||| (if step then 8 else 0) } }
    if e = s.sta.epoch ∧ ¬ s.sta.force then s else s.epochEnds t e

/-- A write of STA_EPOCH (R399). -/
def staEpochSet (s : State) (o : Origin) (v : Word) : State :=
  if s.auditRoom 1 then
    let s := s.loggedWrite o 0x120800 (v &&& 0x001FFFFF)
    { s with sta := { s.sta with force := true } }
  else s.bump 0x300 1

def execStaEpochWrite (v : Word) (origin : Origin) (s : State) : Res := .next (staEpochSet s origin v)

/-- STA_CUR_EPOCH_READ and MGT_AUD_INDEX_READ: the low word is read, the high word latched (R401, R384). -/
def State.latchedRead (s : State) (off v : Nat) : State :=
  let s := s.setReg (off + 4) (BitVec.ofNat 32 (v / 2 ^ 32))
  s.onHost (fun h => { h with lastRead := some (off, BitVec.ofNat 32 v) })

def execStaCurEpochRead (s : State) : Res := .next (s.latchedRead 0x120808 s.sta.epoch)
def execMgtAudIndexRead (s : State) : Res := .next (s.latchedRead 0x204 s.audit.index)

end Sys2Proof.Machine
end

