-- ==== Sys2Proof/Machine/Planes.lean ====
section
/-!
DEFINITION. Machine/Planes.lean: starting and stopping the planes (R23), the plane split (R15), control actions on blocks (R20, R21,
R24, R25), and the mode writes that wait for a boundary (R20).
-/
namespace Sys2Proof.Machine

def mgtBadTarget : Nat := 0x0E01
def mgtBadAction : Nat := 0x0E02
def mgtPlaneState : Nat := 0x0E03
def mgtFuture : Nat := 0x0E04
def mgtTestFailed : Nat := 0x0E05
def mgtNoSpare : Nat := 0x0E06
def mgtBadArg : Nat := 0x0E07

/-! ### The plane split (R14, R15) -/

/-- A write of MGT_PLANE_SPLIT. -/
def splitWrite (s : State) (o : Origin) (v : Word) : State :=
  let s := if bitOf v 8 then s.setFlag 0x80 8 false else s
  let n := field v 4 0
  if s.isStopped ∧ n ≤ 16 then s.loggedWrite o 0x80 (setField (s.reg 0x80) 4 0 n) else s.setFlag 0x80 8 true

/-- PLANE_SPLIT_WRITE. -/
def execPlaneSplitWrite (v : Word) (origin : Origin) (s : State) : Res := .next (splitWrite s origin v)

/-! ### Control actions (R24, R25) -/

/-- A TARGET of the table of R24. -/
def targetOk (t : Nat) : Bool := decide (t ≤ 0xA0) || (decide (0xB0 ≤ t) && decide (t < 0xE0))
/-- An ACTION of the table of R24 that is allowed for a TARGET. -/
def actionOk (act t : Nat) : Bool :=
  if 0xD0 ≤ t then act == 4 || act == 5 else (act == 1 || act == 2 || act == 3) && t != 0xA0

/-- The units of a block: a cluster is its 8 cores and its FFT unit. -/
def unitsOf (t : Nat) : List Nat :=
  if 0xC0 ≤ t ∧ t < 0xD0 then (List.range 8).map (fun k => 8 * (t - 0xC0) + k) ++ [0x80 + (t - 0xC0)] else [t]

/-- A block carries live data (R20). -/
def State.blockLive (s : State) (t : Nat) : Bool :=
  match targetCluster t with
  | some c => s.clusterLive c
  | none => if t < 0x98 then s.mgt.render.run else if t ≤ 0xA0 then s.anyRun else s.mgt.voice.run

/-- The instant an action on a block ends: its boundary, or the present where it carries no live data (R22, R24). -/
def State.actionTime (s : State) (live : Bool) : Nat := if live then s.mgt.tick.last else s.now

/-- Space R25 checks of CTL_ACTION in its order. -/
def State.ctlCheck (s : State) (d : Desc) : Option Nat :=
  let t := field d.w0 23 16
  let act := field d.w0 31 24
  let c := t - 0xD0
  let ph := (s.tile c).phase
  if ¬ targetOk t ∨ d.flags ≠ 0 ∨ d.w2 ≠ 0 ∨ d.w3 ≠ 0 then some mgtBadTarget
  else if ¬ actionOk act t then some mgtBadAction
  else if s.now + 3600000000000 < d.time then some mgtFuture
  else if act = 4 ∧ (s.spare c = 31 ∨ (2 ≤ ph ∧ (s.tile c).retire) ∨ (s.tile c).next.isSome) then some mgtNoSpare
  else if act = 5 ∧ (s.flag (sramBlock c) 30 ∨ ph ≠ 0) then some mgtNoSpare
  else if (if act = 4 then decide (16 < d.w1.toNat) else d.w1 != 0) then some mgtBadArg
  else none

/-- A unit leaves service (R21, R140, R161, R192). The task whose job an FFT unit still works on is aborted, and its other jobs go to the
next unit. -/
def State.unitOut (s : State) (t : Nat) : State :=
  if s.isOut t then s
  else if t < 0x80 then (s.abortTask t).putOut t 0
  else if t < 0x90 then
    let q := (s.fftQ (t - 0x80)).drop 1
    let s := match (s.fftQ (t - 0x80)).head? with | some j => s.abortSubmitter j | none => s
    let s := (s.setFftQ (t - 0x80) []).putOut t 0
    let v := s.fftServer (t - 0x80)
    s.setFftQ v (s.fftQ v ++ q)
  else if 0xB0 ≤ t then (s.putOut t 0).ecuSwitch (t - 0xB0) true
  else s.putOut t 0

/-- A block leaves service. -/
def State.takeOut (s : State) (t : Nat) : State := ((unitsOf t).foldl State.unitOut s).voxDegrade

/-- A unit's logic and state are reset; an echo unit's channels start cold as it returns (R24, R141). -/
def State.unitReset (s : State) (t : Nat) : State :=
  if t < 0x80 then s.onCore t (fun x => { LCore.idle0 with dma := x.dma })
  else if t < 0x90 then s.setFftQ (t - 0x80) []
  else s

/-- The test of RESTORE and RESET runs (R392). -/
def State.demandTest (s : State) (t i : Nat) : State :=
  (s.setPhase 0 i .committed).startTest { target := t, cmd := some i, origin := 0, test := 3, detail := 0, passed := none }

/-- REMOVE, RESTORE and RESET execute. -/
def State.ctlRun (s : State) (act t i time : Nat) : State :=
  let us := unitsOf t
  if act = 1 then ((s.takeOut t).ctlLog i 1 t 0 time).finishAt 0 i stOk 0 time none
  else if act = 2 then
    if us.all (fun u => !s.isOut u) then (s.ctlLog i 2 t 0 time).finishAt 0 i stOk 0 time none else s.demandTest t i
  else (((us.foldl State.unitReset (s.takeOut t)).ctlLog i 3 t 0 time)).demandTest t i

/-- Firmware or Vigil holds a unit out after a failure and its test runs at once (R369, R393); a rewritten program line is only logged. A
unit already out is left as it is. -/
def State.ownRun (s : State) (c : CtlAct) (time : Nat) : State :=
  if c.action ≠ 1 then s.ownLog c.origin c.action c.target c.arg time
  else if s.isOut c.target then s.auditRelease 1
  else
    let s := (((s.unitOut c.target).putOut c.target c.origin).ownLog c.origin 1 c.target 0 time).startTest
      { target := c.target, cmd := none, origin := 4, test := c.test, detail := c.arg, passed := none }
    s.voxDegrade

/-- A task is still in service on a block. -/
def State.inService (s : State) (t : Nat) : Bool :=
  (unitsOf t).any (fun u => if u < 0x80 then (s.taskOf u).isSome else decide (u < 0x90) && !(s.fftQ (u - 0x80)).isEmpty)

/-- An accepted action meets a boundary, or a block without live data (R20, R21). -/
def State.ctlExecute (s : State) (c : CtlAct) : State :=
  let live := s.blockLive c.target
  if ¬ c.reserved ∨ (live ∧ ¬ s.reqDue c.req) then s
  else if live ∧ (c.action = 1 ∨ c.action = 3) ∧ s.inService c.target ∧ c.moves < 3 then
    let later := { c with
      moves := c.moves + 1, req := { c.req with accFrame := s.mgt.tick.count - 1, accOnTick := false } }
    s.onMgt (fun m => { m with ctl := m.ctl.map (fun x => if x = c then later else x) })
  else
    let s := s.onMgt (fun m => { m with ctl := m.ctl.erase c })
    if c.origin = 0 then s.ctlRun c.action c.target c.req.index (s.actionTime live) else s.ownRun c (s.actionTime live)

/-- A CTL_ACTION of ring 0 that names REMOVE, RESTORE or RESET passes its checks. -/
def State.ctlAccept (s : State) (d : Desc) : State :=
  let t := field d.w0 23 16
  let act := field d.w0 31 24
  let s := (s.setPhase 0 d.index .accepted).auditReserve 1
  let c : CtlAct := { target := t, action := act, arg := 0, req := s.request d.index d.time, moves := 0, origin := 0, test := 0
                      reserved := true }
  let s := s.onMgt (fun m => { m with ctl := m.ctl ++ [c] })
  if s.blockLive t then s else s.ctlExecute c

/-- RETIRE_BANK or ROTATE passes its checks: the march test begins, or the copy, which waits where a rotation copies (R243, R244). -/
def State.tileAccept (s : State) (d : Desc) : State :=
  let c := field d.w0 23 16 - 0xD0
  let s := (s.setPhase 0 d.index .accepted).auditReserve 1
  let q := s.request d.index d.time
  let t := s.tile c
  if field d.w0 31 24 = 5 then s.setTile c { t with phase := 1, cmd := some d.index, req := q }
  else if 2 ≤ t.phase then s.setTile c { t with next := some (d.w1.toNat, d.index, q) }
  else s.retireStart c d.w1.toNat d.index q

/-- The next CTL_ACTION of ring 0 where `mine` holds of its ACTION; `again` is the command that waits for audit space. -/
def ctlCmd (mine : Nat → Bool) (again : Instr) (s : State) : State :=
  match s.nextDesc 0 0x92 with
  | none => s
  | some d =>
    let act := field d.w0 31 24
    if ¬ mine act then s
    else
      match s.ctlCheck d with
      | some st => s.finish 0 d.index st
      | none =>
        if ¬ s.auditRoom 1 then s.stall 0 again
        else if 4 ≤ act then s.tileAccept d
        else s.ctlAccept d

/-- REMOVE; it also answers an ACTION that is not in the table of R24. -/
def execRemove (s : State) : Res := .next (ctlCmd (fun a => a == 1 || a == 0 || decide (5 < a)) .remove s)
/-- RESTORE. -/
def execRestore (s : State) : Res := .next (ctlCmd (fun a => a == 2) .restore s)
/-- RESET. -/
def execReset (s : State) : Res := .next (ctlCmd (fun a => a == 3) .reset s)
/-- RETIRE_BANK. -/
def execRetireBank (s : State) : Res := .next (ctlCmd (fun a => a == 4) .retireBank s)
/-- ROTATE. -/
def execRotate (s : State) : Res := .next (ctlCmd (fun a => a == 5) .rotate s)

/-! ### Mode writes (R20, R449) -/

/-- The block whose mode a register holds carries live data. -/
def State.modeLive (s : State) (off : Nat) : Bool :=
  if off = 0x80000 then s.mgt.render.run
  else if off < 0xD0000 then s.flag off 0 && s.anyRun
  else if off < 0x100000 then (s.port ((off - 0xF0000) / 0x800)).st != 0 && s.anyRun
  else (s.lport ((off - 0x100100) / 0x40)).st != 0 && s.anyRun

/-- The oldest mode write that waits for a register takes effect at its boundary. -/
def State.modeExecute (s : State) (off : Nat) : State :=
  match s.mgt.modeWrites.find? (fun w => w.off == off) with
  | none => s
  | some w =>
    let live := s.modeLive off
    if live ∧ ¬ s.reqDue w.req then s
    else
      let t := s.actionTime live
      let s := (s.onMgt (fun m => { m with modeWrites := m.modeWrites.erase w })).auditRelease 1
      if off = 0x80000 then
        (s.setReg off w.v).chainEntry t w.origin w.originId 0x01 0 (BitVec.ofNat 32 off) (s.reg off) w.v
      else if off < 0xD0000 then s.macCtrlApply ((off - 0xC0000) / 0x4000) w.v w.origin w.originId t
      else if off < 0x100000 then s.tdmApply ((off - 0xF0000) / 0x800) w.v w.origin w.originId t
      else s.linkApply ((off - 0x100100) / 0x40) w.v w.origin w.originId t

/-- CONTROL_ACTION_EXECUTE: `target` is a TARGET of R24, or the offset of a mode register. -/
def execControlActionExecute (dt target : Nat) (s : State) : Res :=
  let s := s.elapse dt
  if 0x1000 ≤ target then .next (s.modeExecute target)
  else if 0xD0 ≤ target then
    let c := target - 0xD0
    let t := s.tile c
    let live := s.clusterLive c
    if 16 ≤ c ∨ t.phase ≠ 3 ∨ (live ∧ ¬ s.reqDue t.req) then .next s
    else if t.cmd.isNone ∧ ¬ s.auditRoom 1 then .next (s.waitAudit (.controlActionExecute 0 target))
    else .next (s.tileExchange c (s.actionTime live))
  else
    match s.mgt.ctl.find? (fun c => c.target == target) with
    | none => .next s
    | some c => .next (s.ctlExecute c)

/-! ### PLANE_START and PLANE_STOP (R23) -/

/-- PLANES of a command as plane numbers: 1 Render, 2 Voice. -/
def planeList (mask : Nat) : List Nat := (if mask.testBit 0 then [1] else []) ++ (if mask.testBit 1 then [2] else [])
def State.planeSt (s : State) (p : Nat) : PlaneSt := if p = 1 then s.mgt.render else s.mgt.voice
def State.onPlane (s : State) (p : Nat) (f : PlaneSt → PlaneSt) : State :=
  s.onMgt (fun m => if p = 1 then { m with render := f m.render } else { m with voice := f m.voice })

/-- Bits [31:18], a flag bit or words 1 to 3 are not zero. -/
def planeBits (d : Desc) : Bool := field d.w0 31 18 != 0 || d.flags != 0 || d.w1 != 0 || d.w2 != 0 || d.w3 != 0

/-- A filter that will work has more taps than the render rate admits (R73, R78): live, or armed in the inactive bank. -/
def State.tapsTooMany (s : State) : Bool :=
  s.cnv.outs.any (fun p => decide (s.maxTaps < p.2.live.taps.length) || (p.2.armed && decide (s.maxTaps < p.2.idle.taps.length)))

/-- What refuses a start of the planes of a mask: the graphs (R145), then what was loaded at another render rate (R4, R89, R319). -/
def State.startCheck (s : State) (mask : Nat) : Option Nat :=
  match s.validate mask with
  | some st => some st
  | none => if mask.testBit 0 ∧ s.tapsTooMany then some cnvBadTaps else if mask.testBit 0 then s.rateOver else none

/-- PLANE_START (R23). -/
def execPlaneStart (s : State) : Res :=
  match s.nextDesc 0 0x90 with
  | none => .next s
  | some d =>
    let mask := field d.w0 17 16
    let ps := planeList mask
    if planeBits d then .next (s.finish 0 d.index mgtBadTarget)
    else if ps = [] ∨ ps.any (fun p => (s.planeSt p).run || (s.planeSt p).start.isSome) ∨ s.mnt.st = 7 then
      .next (s.finish 0 d.index mgtPlaneState)
    else if s.now + 3600000000000 < d.time then .next (s.finish 0 d.index mgtFuture)
    else
      let s := s.noteNeed mask
      match s.startCheck mask with
      | some st => .next (s.finish 0 d.index st)
      | none =>
        if ¬ s.auditRoom 1 then .next (s.stall 0 .planeStart)
        else
          let s := (s.setPhase 0 d.index .accepted).auditReserve 1
          let q := s.request d.index d.time
          .next (ps.foldl (fun s p => s.onPlane p (fun x => { x with start := some q })) s)

/-- PLANE_STOP (R23). -/
def execPlaneStop (s : State) : Res :=
  match s.nextDesc 0 0x91 with
  | none => .next s
  | some d =>
    let ps := planeList (field d.w0 17 16)
    if planeBits d then .next (s.finish 0 d.index mgtBadTarget)
    else if ps = [] ∨ ps.any (fun p => !(s.planeSt p).run || (s.planeSt p).stop.isSome || (s.planeSt p).rampEnd.isSome) then
      .next (s.finish 0 d.index mgtPlaneState)
    else if s.now + 3600000000000 < d.time then .next (s.finish 0 d.index mgtFuture)
    else if ¬ s.auditRoom 1 then .next (s.stall 0 .planeStop)
    else
      let s := (s.setPhase 0 d.index .accepted).auditReserve 1
      let q := s.request d.index d.time
      .next (ps.foldl (fun s p => s.onPlane p (fun x => { x with stop := some q })) s)

/-! ### At the boundary -/

/-- The part of the mix fabric that belongs to a plane starts from its loaded targets (R23): the gain points of its buses, and
its destinations with their limiters; for Voice the conference too. -/
def Mix.coldPlane (m : Mix) (p : Nat) : Mix :=
  let r := m.routing.live
  let bus := fun (b : Nat) => (Cells.get busDflt r.buses b).plane == p
  let dest := fun (k : Nat) => (Cells.get feedDflt r.feeds k).plane == p
  let src := fun (i : Nat) => (decide (0x600 ≤ i) && decide (i < 0x700) && bus (i - 0x600))
    || (p == 2 && decide (0x700 ≤ i) && decide (i < 0x1000)) || (p == 1 && decide (i < 0x600))
  let m := { m with
    xps := m.xps.filter (fun x => !bus (x.1 / 1024)), fading := m.fading.filter (fun x => !bus x.bus)
    masters := m.masters.filter (fun x => !bus x.1), dests := m.dests.filter (fun x => !dest x.1)
    egConceal := m.egConceal.filter (fun x => !dest x.1), conceal := m.conceal.filter (fun x => !src x.1) }
  if p = 2 then { m with contrib := [], inputs := [], returns := [], bridges := [] } else m

/-- A named plane starts from its cold state at the tick (R23, R72, R90, R141). -/
def State.planeCold (s : State) (p : Nat) : State :=
  let s := s.onPlane p (fun x => { x with run := true, frame := 0, rampEnd := none })
  let s := { s with mix := (s.mix.coldPlane p).rampIn s.renderRate p }
  let s := if p = 1 then
      let s := ((s.onRnd Render.coldStart).onCnv Conv.coldStart).capUpdate
      { s with
        mix := { s.mix with outEq := [], outConceal := [], outBulk := [], outBulkX := [] }
        ing := { s.ing with frame := 0 }
        wick := { s.wick with insts := s.wick.insts.filter (fun i => i.grid != 0), joins := s.wick.joins.filter (fun j => j.grid != 0) } }
    else
      { s with
        vox := { s.vox with nextK := 0, chans := [] }
        wick := { s.wick with insts := s.wick.insts.filter (fun i => i.grid != 1), joins := s.wick.joins.filter (fun j => j.grid != 1) } }
  (s.reserveDram p).graphStart p

/-- The planes of a due PLANE_START start, or it is refused after all (R145). -/
def State.startPlanes (s : State) (index : Nat) : State :=
  let mine := fun (p : Nat) => (match (s.planeSt p).start with | some q => q.index == index | none => false)
  let ps := [1, 2].filter mine
  let mask := ps.foldl (· + ·) 0
  let t := s.mgt.tick.last
  let s := ps.foldl (fun s p => s.onPlane p (fun x => { x with start := none })) s
  let s := s.noteNeed mask
  match s.startCheck mask with
  | some st => (s.auditRelease 1).finishAt 0 index st 0 t none
  | none =>
    let idle := !s.anyRun
    let s := s.onMgt (fun m => { m with split := min 16 (s.fld 0x80 4 0), modState := 4 })
    let s := if idle then
        { s with
          ing := { s.ing with chans := [], frame := 0 }, mix := (s.mix.coldPlane 3).rampIn s.renderRate 3
          wick := { s.wick with insts := [], joins := [] } }
      else if [1, 2].all (fun p => !(s.planeSt p).run || (s.planeSt p).rampEnd.isSome) then
        { s with mix := s.mix.setRamp 3 { a := (s.mix.ramp 3).before 0, b := unity, done := 0, total := rampLen s.renderRate } }
      else s
    let s := ps.foldl State.planeCold s
    let s := (s.auditRelease 1).chainEntry t (s.cmdOrigin index).1 (s.cmdOrigin index).2 0x03 0 (BitVec.ofNat 32 (mask + 0x900000)) 0 0
    s.finishAt 0 index stOk 0 t none

/-- The ramps of a due PLANE_STOP begin; the planes stop at the first boundary after their end. -/
def State.stopPlanes (s : State) (index : Nat) : State :=
  let mine := fun (p : Nat) => (match (s.planeSt p).stop with | some q => q.index == index | none => false)
  let ps := [1, 2].filter mine
  let fs := s.renderRate
  let stays := [1, 2].any (fun p => !ps.contains p && (s.planeSt p).run && (s.planeSt p).rampEnd.isNone)
  let s := s.setPhase 0 index .committed
  let ending := s.mgt.tick.count + ceilDiv (rampLen fs) 32
  let s := ps.foldl (fun s p => s.onPlane p (fun x => { x with stop := none, rampEnd := some (ending, index) })) s
  let s := { s with mix := (ps ++ (if stays then [] else [3])).foldl (fun m p => m.rampOut fs p) s.mix }
  let s := (s.auditRelease 1).chainEntry s.mgt.tick.last (s.cmdOrigin index).1 (s.cmdOrigin index).2 0x03 0
    (BitVec.ofNat 32 (ps.foldl (· + ·) 0 + 0x910000)) 0 0
  s

/-- The commands of starts and stops whose boundary is the present tick. -/
def State.dueStarts (s : State) : List Nat :=
  ([1, 2].filterMap (fun p => match (s.planeSt p).start with
    | some q => if s.reqDue q then some q.index else none
    | none => none)).eraseDups
def State.dueStops (s : State) : List Nat :=
  ([1, 2].filterMap (fun p => match (s.planeSt p).stop with
    | some q => if s.reqDue q then some q.index else none
    | none => none)).eraseDups

/-- A plane stops: its cores wait in WAIT.TASK, its channels become IDLE, its egresses hold zero (R23, R119, R152). -/
def State.planeHalts (s : State) (p : Nat) : State :=
  let s := if p = 2 then s.voxStopAll else s
  let cores := (List.range 128).filter (fun c => s.clusterPlane (c / 8) == p)
  let s := cores.foldl State.abortTask s
  let s := s.onPlane p (fun x => { x with run := false, rampEnd := none, stop := none })
  let s := s.onVig (fun g => { g with ranAll := if g.ranAll.testBit (p - 1) then g.ranAll - 2 ^ (p - 1) else g.ranAll })
  { s with mix := s.mix.setRamp p .zero }

/-- PLANES_STOPPED: at the first render frame boundary after the ramp has ended. -/
def State.planesStop (s : State) : State :=
  let ovr := fun (p : Nat) => (match (s.planeSt p).rampEnd with | some (n, _) => decide (n ≤ s.mgt.tick.count) | none => false)
  let ps := [1, 2].filter ovr
  let cmds := (ps.filterMap (fun p => (s.planeSt p).rampEnd.map (·.2))).eraseDups
  let s := ps.foldl State.planeHalts s
  let s := if ps ≠ [] ∧ ¬ s.anyRun then
      { s with mix := s.mix.setRamp 3 .zero }.onMgt (fun m => { m with modState := 3 })
    else s
  cmds.foldl (fun s i => s.finishAt 0 i stOk 0 s.mgt.tick.last none) s

def execPlanesStopped (s : State) : Res := .next s.planesStop

end Sys2Proof.Machine
end

