-- ==== Sys2Proof/Machine/Vigil.lean ====
section
/-!
DEFINITION. Machine/Vigil.lean: the ends of Vigil's tests and the return of the blocks they held out (R390 to R393), and the DRAM scrub
(R395).
-/
namespace Sys2Proof.Machine

/-- A failed test: source 54 (R393). -/
def State.vigilReport (s : State) (test unit outcome detail : Nat) : State :=
  let s := (s.bump 0x12011C 1).fire 54 (BitVec.ofNat 32 (test + 256 * unit + 65536 * outcome)) (BitVec.ofNat 32 detail) 0
  if outcome = 1 then s.bump 0x120120 1 else s

/-- TEST of source 54 for a test of `VigilTest`. -/
def testCode (v : VigilTest) : Nat := if v.test = 1 ∨ v.test = 4 then 1 else if v.test = 2 ∨ v.test = 5 then 2 else 3

/-- The detail of a report: a segment number where a core failed; the manual names none for the other units. -/
def State.testDetail (s : State) (v : VigilTest) (seg : Nat) : Nat × State :=
  if v.test = 1 then (v.detail, s)
  else if v.target < 0x80 then (seg, s)
  else s.fresh (2 ^ 32)

/-- A held-out block's test passes: it returns at the next boundary; the rerun after a failed Vigil test reports a transient. -/
def State.testPasses (s : State) (v : VigilTest) : State :=
  let s := s.onVig (fun g => { g with tests := g.tests.map (fun t => if t = v then { t with passed := some s.mgt.tick.count } else t) })
  if v.test = 1 ∨ v.test = 2 then
    let (d, s) := s.testDetail v 0
    s.vigilReport (testCode v) v.target 1 d
  else s

/-- A held-out block's test fails: it stays out (R393, R24). -/
def State.testFails (s : State) (v : VigilTest) (seg : Nat) : State :=
  let s := s.onVig (fun g => { g with tests := g.tests.erase v })
  let (d, s) := s.testDetail v seg
  let s := s.vigilReport (testCode v) v.target 2 d
  match v.cmd with
  | none => s
  | some i =>
    let c := (s.descAt 0 i).elim 2 (fun d => field d.w0 31 24)
    let s := if c = 2 then s.ctlLog i 2 v.target 0 s.now else s
    s.finish 0 i mgtTestFailed

/-- The periodic test of a cluster's FFT unit ends (R390): a failure asks for its removal and a rerun (R393). -/
def State.fftTest (s : State) (c : Nat) (pass : Bool) : State :=
  let n := Cells.get (fun _ => 0) s.lan.fftSegs c
  if ¬ s.flag 0x120000 0 ∨ n < 192 ∨ s.isOut (0x80 + c) ∨ s.removalAsked (0x80 + c) then s
  else
    let s := s.onLan (fun l => { l with fftSegs := Cells.put (fun _ => 0) l.fftSegs c (n - 192) })
    if pass then s.bump 0x120108 1 else s.askAction (0x80 + c) 1 0 4 2

/-- SELF_TEST_DONE: the test of a TARGET of R24 ends; `fail` is the segment that failed, where a core did. -/
def execSelfTestDone (dt target : Nat) (fail : Option Nat) (s : State) : Res :=
  let s := s.elapse dt
  match s.vig.tests.find? (fun v => v.target == target && v.passed.isNone) with
  | some v => (match fail with
    | none => .next (s.testPasses v)
    | some seg => .next (s.testFails v seg))
  | none =>
    if 0x80 ≤ target ∧ target < 0x90 then .next (s.fftTest (target - 0x80) fail.isNone) else .next s

/-- A block returns to service at a boundary (R24, R140, R393); a return that firmware or Vigil logs waits for audit space (R19). -/
def State.blockReturns (s : State) (v : VigilTest) : State :=
  let t := s.mgt.tick.last
  if v.cmd.isNone ∧ ¬ s.auditRoom 1 then s
  else
  let us := unitsOf v.target
  let s := s.onVig (fun g => { g with tests := g.tests.erase v })
  let s := (s.onMgt (fun m => { m with out := m.out.filter (fun p => !us.contains p.1) })).unitsMoved us
  let s := (us.filter (fun u => decide (u < 0x80) && (s.core u).st == 2)).foldl (fun s u => s.onCore u (fun x => { x with st := 0 })) s
  let s := if 0xB0 ≤ v.target ∧ v.target < 0xC0 then s.ecuSwitch (v.target - 0xB0) false else s
  let s := match v.cmd with
    | some i =>
      let act := (s.descAt 0 i).elim 2 (fun d => field d.w0 31 24)
      let s := if act = 2 then s.ctlLog i 2 v.target 0 t else s
      s.finishAt 0 i stOk 0 t none
    | none => (s.auditReserve 1).ownLog v.origin 2 v.target 0 t
  s.voxDegrade

/-- At a tick: the blocks whose tests have passed return. -/
def State.testReturns (s : State) : State :=
  (s.vig.tests.filter (fun v => match v.passed with | some n => decide (n < s.mgt.tick.count) | none => false)).foldl
    State.blockReturns s

/-! ### DRAM (R395) -/

/-- Bytes scrubbed or tested: VIG_DRAM_BYTES counts whole MiB. -/
def State.scrubbed (s : State) (n : Nat) : State :=
  let r := s.vig.scrubRest + n
  (s.onVig (fun g => { g with scrubRest := r % 1048576 })).bump 0x120114 (r / 1048576)

/-- The pattern window is tested once: each page that fails anew fires source 54 and is left out from then on. -/
def State.patternPass (s : State) (pages : List Nat) : State :=
  let new := pages.eraseDups.filter (fun p => !s.vig.badPages.contains p)
  let s := s.scrubbed (67108864 - 4096 * s.vig.badPages.length)
  let s := new.foldl (fun s p => s.vigilReport 5 0 3 p) s
  (s.onVig (fun g => { g with badPages := g.badPages ++ new })).bump 0x120118 1

/-- DRAM_SCRUB: one unit of 2 KiB is read; `parity`: the data address of a failing word; `pages`: pages of the pattern window that fail in
the test which follows the last unit of a pass. -/
def execDramScrub (dt : Nat) (parity : Option Nat) (pages : List Nat) (s : State) : Res :=
  let s := s.elapse dt
  if s.mgt.modState < 3 ∨ s.mgt.modState = 5 ∨ ¬ s.flag 0x120000 2 then .next s
  else
    let pos := s.fld 0x120010 22 0
    let next := if pos + 1 < 3670016 then pos + 1 else 0
    let s := (s.setReg 0x120010 (BitVec.ofNat 32 next)).scrubbed 2048
    let s := match parity with
      | some a => (s.bump 0x11020C 1).noteEvent 43 12 (a % 2 ^ 32) (a / 2 ^ 32)
      | none => s
    .next (if next = 0 ∧ s.flag 0x120000 3 then s.patternPass pages else s)

end Sys2Proof.Machine
end

