-- ==== Sys2Proof/Machine/FrameTick.lean ====
section
/-!
DEFINITION. Machine/FrameTick.lean: the render frame tick (R36) and all it drives: the captured instant (R30), integrity failures of the
frame (R364 to R371), ingress (R13, R302, R333, R346), planes (R23), the output stage (R62, R76, R359), the mix stage and egress (R92 to
R113), metadata and rendering (R40, R45 to R72), Wick (R146), the link (R350, R357); and the voice tick with the grid it releases (R116,
R146).
-/
namespace Sys2Proof.Machine

/-! ### Integrity failures of the frame (R366 to R371) -/

/-- The blocks a failure makes bad, by STREAM and CHANNEL, and the flag they carry: SEAL_FAIL, RESIDUE_FAIL or PARITY_FAIL. -/
def faultBlocks : FrameFault → List (Nat × Nat) × Nat
  | .seal st c => ([(st, c)], flagSealFail)
  | .residue _ _ l => (l, flagResidue)
  | .sram _ _ l | .dram _ _ l => (l, flagParity)
  | .fdl o _ _ | .filterSpectrum o _ => ([(0x203, o)], flagParity)
  | _ => ([], 0)

/-- The flags the failures of a frame give the blocks that a test picks. -/
def faultFlags (fs : List FrameFault) (p : Nat × Nat → Bool) : Nat :=
  fs.foldl (fun a f => if (faultBlocks f).1.any p then a ||| (faultBlocks f).2 else a) 0
def faultFlag (fs : List FrameFault) (stream ch : Nat) : Nat := faultFlags fs (fun b => b == (stream, ch))

/-- The flags of an ingress block, whichever feeder sealed it. -/
def ingressFlag (fs : List FrameFault) (chain ch : Nat) : Nat :=
  faultFlags fs (fun b => (decide (b.1 < 0x110) && b.2 == ch) || (b.1 == 0x110 && chain + b.2 == ch))

/-- An ingress block of a channel: `k` frames before the newest. -/
def State.ingressBlock (s : State) (c k : Nat) : Block := (Cells.get (fun _ => []) s.ing.chans c).getD k Block.absent

/-- The ingress block a move-only egress passes through: its route alone carries it, at 0 dB (R92, R107). -/
def State.ioBlock (s : State) (k : Nat) : Option Block :=
  let d := Cells.get destDflt s.mix.dests k
  match d.route, d.old with
  | some r, [] =>
    if r.plane = 3 ∧ s.anyRun ∧ 0x1000 ≤ r.src ∧ r.gp.left = 0 ∧ ¬ r.gp.pending ∧ r.gp.g = unity then
      some (s.ingressBlock (r.src - 0x1000) 2)
    else none
  | _, _ => none

/-- The plane of the blocks of a seal stream (R13, R364). -/
def State.streamPlane (s : State) (stream ch : Nat) : Nat :=
  if stream < 0x100 then planeTag (strPlaneTc (s.stream stream).record)
  else if stream < 0x110 then (s.portFeeder (stream - 0x100)).plane
  else if stream = 0x110 then s.chainFeeder.plane
  else if stream = 0x120 then 2
  else if stream = 0x204 then
    (if 0x600 ≤ ch ∧ ch < 0x700 then (Cells.get busDflt s.mix.routing.live.buses (ch - 0x600)).plane else 2)
  else if stream = 0x205 then
    (match s.ioBlock ch with | some b => b.plane | none => (Cells.get feedDflt s.mix.routing.live.feeds ch).plane)
  else if 0x1400 ≤ stream then (match s.nodeOf (stream - 0x1000) with | some (_, r) => ndPlane r | none => 1)
  else 1

/-- SEQ of the block of a stream that a stage checks at the tick that ends frame `n` (R364): the ingress and object blocks are those of
the frame, the later stages work one block behind. -/
def streamSeq (stream n : Nat) : Nat := if stream < 0x120 ∨ stream = 0x200 ∨ 0x1400 ≤ stream then n else n - 1

/-- Counters and sources of the failures that spoil blocks (R18, R369, R389). A block of a task that its core's fault aborts is counted
with the task. -/
def State.blockFault (n : Nat) (s : State) (f : FrameFault) : State :=
  match f with
  | FrameFault.seal st c => s.sealFailure st c (streamSeq st n) (s.streamPlane st c)
  | FrameFault.residue u _ l =>
    (l.filter (fun b => decide (0x80 ≤ u) || decide (b.1 < 0x1400))).foldl (fun s b => s.badBlock (s.streamPlane b.1 b.2)) s
  | FrameFault.fdl o _ _ | FrameFault.filterSpectrum o _ => s.badBlock (s.streamPlane 0x203 o)
  | FrameFault.sram _ _ l | FrameFault.dram _ _ l => l.foldl (fun s b => s.badBlock (s.streamPlane b.1 b.2)) s
  | _ => s

/-- A third residue failure of an epoch asks for the removal of a mix unit or the limiter. -/
def State.mixUnitFault (s : State) (u : Nat) : State :=
  let n := Cells.get (fun _ => 0) s.vig.mixFails u + 1
  let s := s.onVig (fun g => { g with mixFails := Cells.put (fun _ => 0) g.mixFails u n })
  if 3 ≤ n then s.askOut u 3 else s

/-- What a failed check does beside the block it spoils (R369). -/
def State.unitFault (s : State) (f : FrameFault) : State :=
  let note := fun (s : State) (u node : Nat) => (s.bump 0x110204 1).noteEvent 41 u node 0
  match f with
  | FrameFault.residue u node _ =>
    if u < 0x80 then s.coreFault u flResidue (s.core u).pc
    else if u < 0x90 then
      (match s.fftQ (u - 0x80) with
      | j :: rest => s.fftResidue (u - 0x80) j rest
      | [] => (note s u node).askOut u 5)
    else if u < 0x98 then (note s u node).askOut u 3
    else if u ≤ 0xA0 then (note s u node).mixUnitFault u
    else if 0xB0 ≤ u ∧ u < 0xC0 then
      let out := s.isOut u
      let s := (note s u node).faultOut u 3
      if out || !s.isOut u then s else s.ecuSwitch (u - 0xB0) true
    else s
  | FrameFault.sram mem off _ =>
    if mem < 16 ∨ mem = 0x40 ∨ mem = 0x41 then s.sramFail mem off
    else if mem = 0x42 then (s.bump 0x110208 1).noteEvent 42 mem off 0
    else s
  | FrameFault.queue owner q => s.queueParity owner q
  | FrameFault.dram master a _ => (s.bump 0x11020C 1).noteEvent 43 master (a % 2 ^ 32) (a / 2 ^ 32)
  | FrameFault.program c off =>
    let s := ((s.bump 0x110208 1).noteEvent 42 (0x20 + c / 8) off 0).abortTask c
    if s.auditRoom 1 then s.auditNow 1 0 0x03 0 (BitVec.ofNat 32 (0xC0 + c / 8 + 256 * 6)) 0 (BitVec.ofNat 32 off)
    else s.askAction (0xC0 + c / 8) 6 off 1 0
  | _ => s

/-! ### Ingress (R36, R13) -/

/-- The blocks that ports have for the frame that ended; a parity failure in a port's queue spoils them. -/
def State.portsIngress (s : State) (faults : List FrameFault) : State × List (Nat × Block) :=
  (List.range 16).foldl (fun (a : State × List (Nat × Block)) p =>
    let flag := if faults.any (fun f => f == FrameFault.queue 2 p) then flagParity else 0
    let (s, l) := a.1.portBlocks p flag
    let s := (l.filter (fun b => b.2.isBad)).foldl (fun s b => s.badBlock b.2.plane) s
    (s, if s.flag (regTdm p) 31 then a.2 ++ l else l ++ a.2)) (s, [])

/-- Blocks by channel; a later one takes the place of an earlier one. -/
def blockTable (l : List (Nat × Block)) : Cells (Option Block) :=
  l.foldl (fun m p => Cells.put (fun _ => none) m p.1 (some p.2)) []

/-- The blocks join the ingress history of every channel; a channel without one takes the ABSENT block (R13). -/
def pushIngress (old : Cells (List Block)) (new : Cells (Option Block)) : Cells (List Block) :=
  ((old.map (·.1) ++ new.map (·.1)).eraseDups).foldl (fun m c =>
    let b := (Cells.get (fun _ => none) new c).getD Block.absent
    Cells.put (fun _ => []) m c ((b :: Cells.get (fun _ => []) old c).take 3)) []

/-- Ingress block n is committed. `m0`, `m1`: media numbers of the frame that ended and of the one that opens. -/
def State.ingress (s : State) (faults : List FrameFault) (m0 m1 : Nat) (casting : Bool) : State :=
  let (s, ports) := s.portsIngress faults
  if ¬ s.anyRun then
    (s.openStreams false).foldl (fun t p =>
      let x := t.stream p.1
      t.setStream p.1 { x with got := x.got.filter (fun g => decide (m1 ≤ g.media)) })
      { s with ing := { s.ing with chans := [], frame := s.ing.frame + 1 } }
  else
    let (s, strs) := s.streamIngress m0 m1
    let first := s.chainFeeder.first
    let mark := fun (l : List (Nat × Block)) => l.map (fun p => (p.1, p.2.withFlag (ingressFlag faults first p.1)))
    let own := blockTable (mark (ports ++ strs))
    let s := if casting then s.sealGroups (fun c => (Cells.get (fun _ => none) own c).getD Block.absent) else s
    let (s, chain) := s.chainBlocks
    let new := (mark chain).foldl (fun m p => Cells.put (fun _ => none) m p.1 (some p.2)) own
    let n := s.ing.frame
    let s := { s with ing := { s.ing with chans := pushIngress s.ing.chans new } }
    let s := s.ingressChannels.foldl (fun s c => s.wickIngress c n) s
    { s with ing := { s.ing with frame := n + 1 } }

/-! ### Banks -/

/-- The live sets. -/
def State.setLive (s : State) (b : Sets) : State :=
  { s with
    rnd := { s.rnd with objects := { s.rnd.objects with live := b.objects }, geometry := { s.rnd.geometry with live := b.geometry } }
    mix := { s.mix with
      objectEq := { s.mix.objectEq with live := b.objectEq }, outputEq := { s.mix.outputEq with live := b.outputEq }
      routing := { s.mix.routing with live := b.routing }, conference := { s.mix.conference with live := b.conference }
      limiter := { s.mix.limiter with live := b.limiter } } }

/-- The banks of the domains of a mask exchange (R105). -/
def State.exchange (s : State) (mask : Nat) : State :=
  (s.setLive (s.liveSets.takeMask s.idleSets mask)).setIdle (s.idleSets.takeMask s.liveSets mask)

def maskOf (ws : List SwapAt) : Nat := ws.foldl (fun a w => a ||| w.mask) 0

/-- Filters exchange without a crossfade: the sequencer does not run. -/
def State.exchangeFilters (s : State) (outs : List Nat) : State :=
  outs.foldl (fun s o => s.setConvOut o ((s.convOut o).exchange none)) s

/-! ### The output stage (R62, R76, R103, R359) -/

/-- An output's accumulator block, or the twin's where it is bad or concealed and the twin's has come whole (R359). -/
def State.outputIn (s : State) (faults : List FrameFault) (o : Nat) : State × Block :=
  let b := ((s.rnd.acc.find? (fun p => p.1 == o)).map (·.2)).getD { samples := silence, flags := 0, plane := 1 }
  let b := b.withFlag (faultFlag faults 0x201 o)
  if b.flags &&& 0x39 = 0 then (s, b)
  else
    match s.twinBlock o (s.ing.frame - 1) with
    | some t => if t.flags &&& 0x39 = 0 then (s.bump 0x100314 1, t) else (s, b)
    | none => (s, b)

/-- The newest block of an output enters its bulk line, and the one at BULK_FRAMES leaves (R59, R62). -/
def State.outputBulk (s : State) (o : Nat) (b : Block) : State × Block :=
  let zero : Block := { samples := silence, flags := 0, plane := 1 }
  let line := (b :: Cells.get (fun _ => []) s.mix.outBulk o).take (maxBulk s.renderRate + 1)
  let nb := line.getD (Cells.get (fun _ => 0) s.rnd.objects.live.outs o) zero
  let s := s.onMix (fun m => { m with outBulk := Cells.put (fun _ => []) m.outBulk o line })
  match Cells.get (fun _ => none) s.mix.outBulkX o with
  | none => (s, nb)
  | some x =>
    let ob := line.getD x.src zero
    (s.onMix (fun m => { m with outBulkX := Cells.put (fun _ => none) m.outBulkX o x.after }),
      { nb with samples := xfadeBlock x ob.samples nb.samples, flags := nb.flags ||| ob.flags })

/-- One output: equaliser, room correction, bulk delay. -/
def State.outputOne (s : State) (faults : List FrameFault) (eqAt roomAt : Option Nat) (o : Nat) : State × Block :=
  let (s, b) := s.outputIn faults o
  let (xs, con) := (Cells.get (fun _ => Conceal.start) s.mix.outConceal o).next (!b.isBad) b.samples
  let new := if eqAt.isSome then s.mix.outputEq.idle else s.mix.outputEq.live
  let (ys, sat, run) := (Cells.get (fun _ => EqRun.start) s.mix.outEq o).block 40 32 o s.mix.outputEq.live new eqAt xs
  let s := s.onMix (fun m =>
    { m with
      outConceal := Cells.put (fun _ => Conceal.start) m.outConceal o con
      outEq := Cells.put (fun _ => EqRun.start) m.outEq o run })
  let s := if sat then s.bump 0xA010C 1 else s
  let fl := (b.flags &&& flagConcealed) ||| (if b.isBad then flagConcealed else 0) ||| faultFlag faults 0x202 o
  let (c, s) := s.convOne o faults roomAt { samples := ys, flags := fl, plane := 1 }
  s.outputBulk o (c.withFlag (faultFlag faults 0x203 o))

/-- Outputs at work. -/
def State.workingOutputs (s : State) : List Nat :=
  let l := s.sliceList.map (·.2) ++ s.rnd.acc.map (·.1) ++ s.mix.outEq.map (·.1) ++ s.mix.outBulk.map (·.1) ++ s.cnv.outs.map (·.1)
  sortBy (fun a b => decide (a ≤ b)) (l.eraseDups.filter (fun o => decide (o < s.maxOut)))

/-- The output stage of block F − 2: each output's block for the mix fabric. -/
def State.outputStage (s : State) (faults : List FrameFault) (blk : Nat) : State × List (Nat × Block) :=
  let eq := s.swapsIn blk 0x20
  let room := s.filterSwaps blk
  let eqAt := eq.head?.map (·.j)
  let (s, l) := s.workingOutputs.foldl (fun (a : State × List (Nat × Block)) o =>
    let (s, b) := a.1.outputOne faults eqAt ((room.find? (fun q => q.1 == o)).map (·.2)) o
    (s, a.2 ++ [(o, b)])) (s, [])
  let s := s.onLink (fun x => { x with twin := x.twin.filter (fun q => q.path != 2 || decide (s.ing.frame ≤ q.num)) })
  (s.exchange (maskOf eq), l)

/-! ### The mix stage (R92 to R112) -/

/-- A source of the fabric before concealment. -/
structure SrcIn where
  id : Nat
  samples : List Int
  concealed : Bool
  good : Bool
  deriving DecidableEq, Repr

/-- Objects: the samples that entered the differential line, 3 samples behind the render grid (R94). -/
def State.objectSources (s : State) : List SrcIn :=
  if s.mgt.render.run then
    s.rnd.runs.map (fun p =>
      { id := p.1, samples := (List.range 32).map (fun i => p.2.line.getD (34 - i) 0), concealed := p.2.concealed, good := true })
  else []

/-- Rendered outputs; those of a module in conflict fade out (R354). -/
def State.outputSources (s : State) (outs : List (Nat × Block)) : List SrcIn :=
  outs.map (fun p =>
    { id := 0x400 + p.1, samples := p.2.samples, concealed := p.2.flags &&& flagConcealed != 0 || p.2.isBad
      good := !p.2.isBad && s.link.conflict == 0 })

/-- Voice channels, receive. -/
def State.voiceSources (s : State) (faults : List FrameFault) : List SrcIn :=
  if s.mgt.voice.run then
    s.voxOpenList.map (fun v =>
      let (xs, fl) := (s.voxChan v).routBlock s.renderRate s.voxMixPos
      let bad := faultFlag faults 0x120 v != 0
      { id := 0x800 + v, samples := xs, concealed := fl != 0 || bad, good := !bad })
  else []

/-- Ingress channels: the mix block spans the last 3 samples of one ingress block and 29 of the next (R92); an absent channel fades
out and in (R334). -/
def State.ingressSources (s : State) : List SrcIn :=
  s.ing.chans.map (fun p =>
    let a := s.ingressBlock p.1 2
    let b := s.ingressBlock p.1 1
    let bad := a.isBad || b.isBad
    { id := 0x1000 + p.1, samples := a.samples.drop 29 ++ b.samples.take 29
      concealed := bad || (a.flags ||| b.flags) &&& flagConcealed != 0, good := !bad && b.flags &&& flagPortAbsent == 0 })

/-- Every source passes its concealment (R112). -/
def concealSources (l : List SrcIn) (c : Cells Conceal) : Sources × Cells Conceal :=
  l.foldl (fun (a : Sources × Cells Conceal) q =>
    let (xs, con) := (Cells.get (fun _ => Conceal.start) a.2 q.id).next q.good q.samples
    (Cells.put (fun _ => silence) a.1 q.id xs, Cells.put (fun _ => Conceal.start) a.2 q.id con)) ([], c)

/-- A block of the fabric itself: a bus, a bridge or a return. -/
def fabricId (i : Nat) : Bool := (decide (0x600 ≤ i) && decide (i < 0x780)) || (decide (0xA00 ≤ i) && decide (i < 0xC00))

/-- Mix units in service. -/
def State.mixUnits (s : State) : Nat := ((List.range 8).filter (fun u => !s.isOut (0x98 + u))).length

/-- The work of step 3 of R93 in the order of R112: crosspoints and buses in index order, conference sums and returns in bridge order,
destination gains in ascending DEST. Each entry is a block (a source ID, or 0x10000 + DEST), its jobs of 32 samples of one gain point, and
the cascade wait of a bus in cycles. The points are those in force at the first sample of the block. -/
def State.fabricJobs (s : State) (planes : Nat → Bool) : List (Nat × Nat × Nat) :=
  let r := s.mix.routing.live
  let c := s.mix.conference.live
  let bus := (r.working s.mix.fading s.mix.masters).filter (fun b => planes (Cells.get busDflt r.buses b).plane)
  let dests := (s.mix.workingDests r).filter (fun k => planes (Cells.get feedDflt r.feeds k).plane && (s.ioBlock k).isNone)
  bus.map (fun b => (0x600 + b, (r.xps.filter (fun x => x.bus == b)).length
      + (s.mix.fading.filter (fun x => x.bus == b && !x.gp.ended)).length + 1, 8))
    ++ (if planes 2 then (c.working.map (fun b =>
        let ms := c.members.filter (fun m => m.bridge == b)
        (0x700 + b, ms.length + 1, 0) :: ms.map (fun m => (0xA00 + m.chan, 1, 0)))).flatten else [])
    ++ dests.map (fun k => (0x10000 + k, 1 + (Cells.get destDflt s.mix.dests k).old.length, 0))

/-- The blocks that are not complete after 56,000 cycles at 96 kHz (R93): a job takes 4 cycles of one of `units` units. -/
def fabricLate (units fs : Nat) : Nat → Nat → List (Nat × Nat × Nat) → List Nat
  | _, _, [] => []
  | jobs, wait, (id, j, w) :: l =>
    let jobs := jobs + j
    let wait := wait + w
    (if units * (56000 * 96000) < (4 * jobs + units * wait) * fs then [id] else []) ++ fabricLate units fs jobs wait l

/-- Blocks of the fabric and destinations (0x10000 + DEST) not complete at the end of step 3 (R112). -/
def State.lateFabric (s : State) (planes : Nat → Bool) : List Nat := fabricLate s.mixUnits s.renderRate 0 0 (s.fabricJobs planes)

/-- Blocks of the fabric that fail their check. -/
def badFabric (fs : List FrameFault) : List Nat :=
  (fs.map (fun f => (faultBlocks f).1.filterMap (fun b => if b.1 = 0x204 then some b.2 else none))).flatten.filter fabricId

/-- What stands in their place, and which blocks rise again. -/
def substitutes (lost : List Nat) (c : Cells Conceal) : Repl :=
  ((lost ++ (c.filter (fun p => fabricId p.1 && p.2.run != 0)).map (·.1)).eraseDups).foldl (fun m i =>
    let k := Cells.get (fun _ => Conceal.start) c i
    Cells.put (fun _ => none) m i
      (if lost.contains i then some (Subst.put (k.next false silence).1) else if k.run ≠ 0 then some Subst.rise else none)) []

/-- Their concealment after the block. -/
def settleFabric (lost : List Nat) (src : Sources) (c : Cells Conceal) : Cells Conceal :=
  ((lost ++ (src.filter (fun p => fabricId p.1)).map (·.1)).eraseDups).foldl (fun m i =>
    let k := Cells.get (fun _ => Conceal.start) m i
    Cells.put (fun _ => Conceal.start) m i
      (if lost.contains i then (k.next false silence).2 else { run := 0, last := src.at_ i })) c

/-- Sources and blocks of the fabric that carry one of `start`: what uses one carries it too (R112). `talks`: the memberships that
contribute in the block; `inUse`: the channels that are not IDLE, whose returns alone carry anything (R119). -/
def concealClosure (r : Routing) (c : Conference) (m : Mix) (talks : Member → Bool) (inUse start : List Nat) : List Nat :=
  let fading := m.fading
  let used := c.members.filter (fun n => talks n && start.contains (0x800 + n.chan))
  let bridges := used.map (fun n => 0x700 + n.bridge)
  let returns := (c.members.filter (fun n => inUse.contains n.chan && used.any (fun u => u.bridge == n.bridge && u.chan != n.chan))).map (fun n => 0xA00 + n.chan)
  (r.working fading m.masters).foldl (fun l b =>
    let hit := r.xps.any (fun x => x.bus == b && l.contains (Cells.get noFeed r.slots x.slot))
      || fading.any (fun x => x.bus == b && l.contains x.src)
    if hit then l ++ [0x600 + b] else l) (start ++ bridges ++ returns)

/-- A member contributes in a block: its contribution is not 0 before or after it. -/
def talksIn (old new : Mix) (m : Member) : Bool := (gpGet old.contrib m.key 0).g != 0 || (gpGet new.contrib m.key 0).g != 0

/-- A crossfade of the feed of every object whose feed changes (R111): `wait` samples of the next ingress block stay with the old one,
`done` samples of the crossfade lie before it. -/
def feedFades (old new : Cells Nat) (objs : RenderObjects) (fs wait done : Nat) (runs : Cells ObjRun) : Cells ObjRun :=
  mapRuns (fun o r =>
    let a := Cells.get noFeed old o
    if a = Cells.get noFeed new o then r
    else
      { r with feedX := some { src := a, wait := wait, done := done
                               total := 32 * fadeFrames (Cells.get (fun _ => ObjCfg.reset) objs.objs o).setchg fs } }) runs

/-- The sample of the output grid at which a ROUTING swap acts, or is to act, where its feeds change before the next ingress block is
written (R110, R111): the ingress sample of the same content stands 3 samples earlier. -/
def State.feedSample (s : State) (w : Swap) : Option Nat :=
  let f := s.mgt.tick.count
  let lo := if renderFirst w.mask then 32 * f else 32 * (f - 1)
  match w.act with
  | some (c, _, _) => some c
  | none => ((List.range (32 * f + 3 - lo)).map (lo + ·)).find? (fun c => decide (w.time ≤ s.sampleInstant (61 + c - 32 * (f - 1))))

/-- The feeds a ROUTING swap changes begin their crossfade at the ingress sample of that content; samples written before are not
written again (R111). -/
def State.feedOne (s : State) (w : Swap) : State × Swap :=
  let b := 32 * (s.mgt.tick.count - 1)
  match s.feedSample w with
  | some c =>
    if w.mask.testBit 6 ∧ ¬ w.fed then
      (s.onRnd (fun r => { r with
        runs := feedFades s.mix.routing.live.objFeeds s.mix.routing.idle.objFeeds r.objects.live s.renderRate (c - 3 - b) (b + 3 - c) r.runs }),
        { w with fed := true })
    else (s, w)
  | none => (s, w)

def State.feedSwapsGo : List Swap → State → List Swap × State
  | [], s => ([], s)
  | w :: ws, s =>
    let (s, w) := s.feedOne w
    let (l, s) := State.feedSwapsGo ws s
    (w :: l, s)

/-- Every pending ROUTING swap is looked at before the objects' bulk lines are written. -/
def State.feedSwaps (s : State) : State :=
  let (l, s) := State.feedSwapsGo s.mix.swaps s
  s.onMix (fun m => { m with swaps := l })

/-- The feeds the bulk lines are written from: the new ones once their crossfade has begun, though the swap has yet to act in the mix
stage. -/
def State.objFeeds (s : State) : Cells Nat :=
  let r := s.mix.routing
  if s.mix.swaps.any (fun w => w.fed && w.mask.testBit 6
      && (match w.act with | some (c, _, _) => decide (32 * (s.mgt.tick.count - 1) ≤ c) | none => true)) then r.idle.objFeeds
  else r.live.objFeeds

/-- The fabric's counters (R96, R99, R100). -/
def State.mixCounts (s : State) (o : PartOut) : State :=
  let s := (s.bump 0xA0108 o.busSats.length).bump 0xA0110 o.clips.length
  let s := o.busSats.foldl (fun s b => s.noteEvent 45 (2 + 256 * b) 0xFFFF 0) s
  s.bump 0xA0114 o.forced

/-- One destination gives its frame (R92, R112, R113, R370): `con` are the sources that carry CONCEALED, `lost` the blocks of the fabric
that are late and what uses them. A voice transmit feed that is flagged is replaced as well (R140). -/
def State.presentOne (faults : List FrameFault) (out : Cells (List Int)) (con lost : List Nat) (s : State) (k : Nat) : State :=
  let plane := (Cells.get feedDflt s.mix.routing.live.feeds k).plane
  let d := Cells.get destDflt s.mix.dests k
  let ys := Cells.get (fun _ => []) out k
  let ys := if ys = [] then silence else ys
  let io := s.ioBlock k
  let uses := fun (l : List Nat) => (d.route.toList ++ d.old).any (fun r => l.contains r.src)
  let bad := (match io with | some b => b.isBad | none => false) || faultFlag faults 0x205 k != 0
  let flagged := uses con || d.mixCon
  let late := io.isNone && (lost.contains (0x10000 + k) || uses lost || s.isOut 0xA0 || (decide (0x1000 ≤ k) && flagged))
  let s := s.onMix (fun m => m.present k plane ys (uses con) io bad late)
  let s := if 0x1000 ≤ k then (if bad || late then s.bump 0xB0130 1 else s) else if bad then s.bump 0x110220 1 else s
  let con := (Cells.get destDflt s.mix.dests k).flags &&& flagConcealed != 0
  if con then s.bump 0xA0118 1 else s

/-- The mix stage of block F − 2 and the egress frame F. -/
def State.mixStage (s : State) (faults : List FrameFault) (blk : Nat) (outs : List (Nat × Block)) : State :=
  let fs := s.renderRate
  let srcs := s.objectSources ++ s.outputSources outs ++ s.voiceSources faults ++ s.ingressSources
  let (src, con) := concealSources srcs s.mix.conceal
  let planes := fun (p : Nat) => if p = 1 then s.mgt.render.run else if p = 2 then s.mgt.voice.run else s.anyRun
  let late := s.lateFabric planes
  let lost := (late.filter fabricId ++ badFabric faults).eraseDups
  let swaps := s.swapsIn blk 0x1C0
  let m0 := s.mix
  let o := mixBlock s.voxTalkers (substitutes lost con) s.idleSets planes fs swaps 0 s.liveSets src s.mix
  let s := s.mixCounts o
  let s := s.onMix (fun _ => { o.mix with
    conceal := settleFabric lost o.src con, confMoves := o.mix.confMoves.filter o.mix.confWaits })
  let s := s.exchange (maskOf swaps)
  let flagged := (srcs.filter (·.concealed)).map (·.id) ++ lost
  let closure := concealClosure s.mix.routing.live s.mix.conference.live s.mix (talksIn m0 s.mix) s.voxOpenList
  let spoiled := late ++ closure (late.filter fabricId)
  let ks := sortBy (fun a b => decide (a ≤ b))
    ((s.mix.routing.live.feeds.map (·.1) ++ s.mix.dests.map (·.1) ++ s.mix.egress.map (·.1)).eraseDups)
  let s := ks.foldl (State.presentOne faults o.egress (closure flagged) spoiled) s
  if s.mgt.voice.run then s.voxAdvance else s

/-! ### The render stage -/

/-- Output bulk crossfades of a RENDER_OBJECTS swap begin with the output stage of the block (R62). -/
def outFades (old new : RenderObjects) (j : Nat) (t : Cells (Option XFade)) : Cells (Option XFade) :=
  ((old.outs.map (·.1) ++ new.outs.map (·.1)).eraseDups).foldl (fun t o =>
    let a := Cells.get (fun _ => 0) old.outs o
    if a = Cells.get (fun _ => 0) new.outs o then t
    else Cells.put (fun _ => none) t o (some { src := a, wait := j, done := 0, total := 1024 })) t

/-- The render stage; where it leaves render fail, the output bulk lines and the convolution start cold with it (R72, R90). -/
def State.renderOrCold (s : State) (i : RenderIn) : State :=
  let t := s.renderStage i
  if s.rnd.fail ∧ ¬ t.rnd.fail then (t.onCnv Conv.coldStart).onMix (fun m => { m with outBulk := [], outBulkX := [] }) else t

/-- Block F − 1 is rendered. -/
def State.renderTick (s : State) (faults : List FrameFault) (blk : Nat) : State :=
  let first := decide (s.mgt.render.frame = 1) || !s.mgt.render.run
  let es := if first then s.sampleInstant 61 else s.rnd.lastEnd
  let ee := s.sampleInstant 93
  let s := s.castDue es ee
  let s := if s.chainMeta then s.chainLatch es ee else s.latch es ee
  let s := s.feedSwaps
  let swaps := s.swapsIn blk 0x16
  let s := if s.mgt.render.run ∧ 1 ≤ s.mgt.render.frame then
      let s := match swaps.find? (fun w => w.mask.testBit 1) with
        | some w => s.onMix (fun m => { m with outBulkX := outFades s.rnd.objects.live s.rnd.objects.idle w.j m.outBulkX })
        | none => s
      s.renderOrCold
        { es := es, ee := ee, swaps := swaps
          late := faults.filterMap (fun f => match f with | FrameFault.lateObject o => some o | _ => none)
          bad := (s.rnd.runs.map (·.1)).filter (fun o => faultFlag faults 0x200 o != 0), feeds := s.objFeeds }
    else s.exchange (maskOf swaps)
  s.onRnd (fun r => { r with lastEnd := ee })

/-! ### The tick -/

/-- The instant is captured (R30, R36); the frames of running planes count; the egress ramps move on. -/
def State.captureTick (s : State) : State :=
  let s := s.onMgt (fun m =>
    { m with
      tick := { m.tick with
        count := m.tick.count + 1, prev := m.tick.last, last := s.now
        past := if m.tick.captured = 0 then [] else ((m.tick.last, m.tick.span) :: m.tick.past).take 256
        captured := if m.tick.stepped then 1 else min 2 (m.tick.captured + 1), stepped := false }
      render := if m.render.run then { m.render with frame := m.render.frame + 1 } else m.render
      voice := if m.voice.run then { m.voice with frame := m.voice.frame + 1 } else m.voice })
  s.onMix (fun m => { m with ramps := m.ramps.foldl (fun t p => Cells.put (fun _ => EgRamp.zero) t p.1 p.2.after) [] })

/-- M_n of the frame that opens (R297). -/
def State.mediaTick (s : State) : State :=
  let m := mediaAt s.now s.renderRate
  let s := match s.ing.media.head? with
    | some p => if m = p + 32 then s else s.bump 0xD020C 1
    | none => s
  { s with ing := { s.ing with media := (m :: s.ing.media).take 256 } }

/-- Streams of the link, ports and packets at a boundary. -/
def State.boundaryEnd (s : State) (faults : List FrameFault) (stepPct : Nat) : State :=
  let s := (s.sendMarker 0).sendMarker 1
  let s := s.twinCompare
  let s := (s.twinSend (twinReport s.rndStatus s.cnvStatus s.mgt.render.frame)).sendReplies
  let s := (List.range 16).foldl State.portTick s
  let s := s.noteUpcoming
  if s.mgt.render.run ∧ 2 ≤ s.mgt.render.frame then s.convEnd s.convBlockNo faults stepPct else s

/-- Everything the tick does once its instant is captured. -/
def State.frameWork (s : State) (faults : List FrameFault) (stepPct : Nat) (casting stepped : Bool) : State :=
  let m0 := s.mediaNow
  let s := s.mediaTick
  let s := (s.staTick s.now s.mediaNow stepped).flushEvents
  let s := { s with heldRegs := [] }
  let s := s.lan.cores.foldl (fun t q => t.onCore q.1 (fun x => { x with aovSeen := false })) s
  let n := s.ing.frame
  let s := if s.anyRun then faults.foldl (State.blockFault n) s else s
  let s := faults.foldl State.unitFault s
  let s := (s.ingress faults m0 s.mediaNow casting).testReturns
  let s := s.dueStops.foldl State.stopPlanes s
  let s := s.dueStarts.foldl State.startPlanes s
  let s := ((s.copyAtTick 12).copyAtTick 13).commitSwaps.sliceTick
  let blk := s.mgt.tick.count - 2
  let (s, outs) := if s.mgt.render.run ∧ 2 ≤ s.mgt.render.frame then s.outputStage faults blk
    else ((s.exchange (maskOf (s.swapsIn blk 0x20))).exchangeFilters ((s.filterSwaps blk).map (·.1)), [])
  let s := if s.anyRun then s.mixStage faults blk outs
    else (s.exchange (maskOf (s.swapsIn blk 0x1C0))).onMix (fun m => { m with egress := [], raw := [] })
  let s := s.renderTick faults (s.mgt.tick.count - 1)
  let s := if s.anyRun then (s.wickTick 0 s.ing.frame).vigilPost else s
  let s := s.onWick (fun w => { w with slices := if w.guard then List.range 16 else [] })
  s.boundaryEnd faults stepPct

/-- FRAME_TICK (R36). -/
def execFrameTick (dt stepPct : Nat) (faults : List FrameFault) (s : State) : Res :=
  let s := (s.voxFinishBy (s.elapse dt).now).elapse dt
  if s.mgt.modState ≤ 2 then .next s
  else
    let casting := s.casting
    let stepped := s.mgt.tick.stepped || s.mgt.tick.captured == 0
    let s := if casting then s.captureRest else s
    .next (s.captureTick.frameWork faults stepPct casting stepped)

/-- VOICE_TICK (R116): the instance of its grid, then what the engine does. -/
def execVoiceTick (obs : List VoiceObs) (s : State) : Res :=
  if s.voiceDue then .next ((s.wickTick 1 s.vox.nextK).voiceTick obs) else .next s

end Sys2Proof.Machine
end

