-- ==== Sys2Proof/Machine/NetRx.lean ====
section
/-!
DEFINITION. Machine/NetRx.lean: reception at the network MACs: the address filter (R261), classification (R262), bad frames (R263), the
receive queues (R264), and receive DMA into host buffers (R266, R267).
-/
namespace Sys2Proof.Machine

/-- How a destination address passes the filter (R261): entry and MATCH code of R267; none where it does not. -/
def State.filterMatch (s : State) (n dst : Nat) : Option (Nat × Nat) :=
  match (List.range 32).find? (fun e => Cells.get (fun _ => 0) (s.mac n).filter e == dst + 2 ^ 48) with
  | some e => some (e, 0)
  | none =>
    if dst = 2 ^ 48 - 1 ∧ s.flag (regNet n 8) 2 then some (0, 1)
    else if s.flag (regNet n 8) 1 then some (0, 2)
    else none

/-- Where the UDP header of a frame begins after its type field, whatever its IPv4 options; none in a fragment or beyond the first 64 bytes
of the frame (R262). -/
def udpAt (p : Parsed) : Option Nat :=
  let b := p.body
  let head := if p.tag.isSome then 18 else 14
  let i := if p.etherType = 0x0800 then 4 * (beAt b 0 1 % 16) else 40
  let udp := if p.etherType = 0x0800 then beAt b 0 1 / 16 == 4 && beAt b 9 1 == 17 && beAt b 6 2 % 0x2000 == 0
    else p.etherType == 0x86DD && beAt b 6 1 == 17
  if udp && decide (head + i + 4 ≤ 64) then some i else none

/-- A PTP frame, and its messageType (R262, R286). -/
def ptpType (p : Parsed) : Option (Nat × Bool) :=
  if p.etherType = 0x88F7 then some (beAt p.body 0 1 % 16, true)
  else
    match udpAt p with
    | some i =>
      let port := beAt p.body (i + 2) 2
      if port = 319 ∨ port = 320 then some (beAt p.body (i + 8) 1 % 16, port == 319) else none
    | none => none

/-- The faults of a frame in the flag places of R267: FCS_ERR 2, RUNT 3, ALIGN_ERR 4, OVERSIZE 5. -/
def State.rxFaults (s : State) (n len : Nat) (fcsOk align : Bool) : List (Nat × Nat) :=
  (if fcsOk then [] else [(2, 0x10C)]) ++ (if len + 4 < 64 then [(3, 0x110)] else []) ++ (if align then [(4, 0x114)] else [])
    ++ (if s.netMaxLen n < len + 4 then [(5, 0x118)] else [])

/-- A frame enters one of the MAC's receive queues (0 engine, 1 host high, 2 host normal) with its two trailer words (R264). -/
def State.rxPush (s : State) (n q : Nat) (f : List Byte) (flags match_ stamp : Nat) (bad : Bool) : State :=
  let words := toWords64 (f.length / 8 + 1) f ++ [f.length + 2 ^ 16 * flags + 2 ^ 32 * match_, stamp]
  let empty := (s.queue 0 (4 * n + q)).drain == []
  let s := s.pushItem 0 (4 * n + q) words bad
  if empty && (s.queue 0 (4 * n + q)).drain != [] && q != 0 then
    s.onMac n (fun x => { x with headAt := Cells.put (fun _ => 0) x.headAt q (max 1 s.now) })
  else s

/-- A good frame has reached its consumer (NETn_RX_FRAMES and octets). -/
def State.rxCount (s : State) (n len : Nat) : State :=
  (s.bump (regNet n 0x100) 1).onMac n (fun x => { x with rxOctets := (x.rxOctets + len) % 2 ^ 64 })

/-- A PTP frame goes to the firmware's servo (R284); `sync`: the offset from the time transmitter after a Sync interval, in ns. -/
def State.servoPtp (s : State) (sync : Option Int) : State :=
  let s := s.onTim (fun t => { t with ptpLast := s.now })
  match sync with
  | none => s
  | some o =>
    let n := if o.natAbs ≤ 1000 then s.tim.syncRun + 1 else 0
    let s := s.onTim (fun t => { t with syncRun := n })
    if 16 ≤ n then s.setFlag regPtpValid 0 true else s

/-- What an engine does with a frame of its own (R300, R125). -/
def State.rxEngine (s : State) (n : Nat) (p : Parsed) (u : Option Udp) (f : List Byte) (parity : Bool) (ta : Nat) : State :=
  let inst := 4 * n
  let words := f.length / 8 + 3
  let fits := s.itemFits 0 inst words
  let s := s.rxPush n 0 f 0 0 ta false
  if ¬ fits then s
  else
    let s := (s.popItem 0 inst).rxCount n f.length
    let s := if parity then s.queueParity 0 inst else s
    match s.streamFor n p u, s.voxFor n p u, u with
    | some i, _, _ => s.streamRx i n p u parity
    | none, some v, some u => if parity then s else s.voxRx v u ta
    | _, _, _ => s

/-- FRAME_RECEIVE (R261 to R264): a frame from its destination address to the last byte before the FCS; whether the FCS agrees,
whether a code error or loss of lock fell inside it, the captured stamp of its first bit, whether a queue word fails parity, and what a Sync
tells the firmware's servo. A MAC Control frame ends before the address filter (R257). -/
def execFrameReceive (dt mac : Nat) (f : List Byte) (fcsOk align : Bool) (stamp : Nat) (parity : Bool) (sync : Option Int) (s : State) :
    Res :=
  let s := s.elapse dt
  let p := parseEth f
  let u := parseUdp p
  let corr := signed 16 (s.fld (0xD0040 + 4 * mac) 15 0)
  let ta := ((stamp : Int) - corr).toNat
  if 4 ≤ mac ∨ (s.mac mac).st ≠ 2 ∨ s.lanesTaken then .next s
  else if p.etherType = 0x8808 ∧ s.rxFaults mac f.length fcsOk align = [] then .next (s.bump (regNet mac 0x120) 1)
  else
    match s.filterMatch mac p.dst with
    | none => .next (s.bump (regNet mac 0x11C) 1)
    | some (entry, m) =>
      let faults := s.rxFaults mac f.length fcsOk align
      let ptp := ptpType p
      let engine := (s.streamFor mac p u).isSome || (s.voxFor mac p u).isSome
      let pcp := match p.tag with | some t => t / 8192 % 8 | none => 0
      let high := ptp.isSome || (p.tag.isSome && decide (s.fld (regNet mac 8) 7 4 ≤ pcp))
      let q := if high then 1 else 2
      let event := match ptp with | some (t, ev) => ev && decide (t ≤ 3) | none => false
      let ts := event || s.flag (regNet mac 8) 3
      let flags := (faults.foldl (fun a k => a + 2 ^ k.1) 0) + (if ts then 0x80 else 0)
        + (match p.tag with | some _ => 0x100 + 0x200 * pcp | none => 0)
      let s := faults.foldl (fun s k => s.bump (regNet mac k.2) 1) s
      let cut := f.take (s.netMaxLen mac - 4)
      if faults ≠ [] then
        if s.flag (regNet mac 8) 0 then .next (s.rxPush mac q cut flags (entry + 32 * m) ta false)
        else .next (s.rxPush mac (if engine then 0 else q) cut flags (entry + 32 * m) ta true)
      else if engine then .next (s.rxEngine mac p u f parity ta)
      else if ptp.isSome ∧ s.servoOwned ∧ s.fld regTimCtrl 19 18 = mac then .next ((s.servoPtp sync).rxCount mac f.length)
      else .next (s.rxPush mac q f flags (entry + 32 * m) ta false)

/-- The ring of a host queue (1 high, 2 normal). -/
def rxRing (n q : Nat) : Nat := 25 + 4 * n + q

/-- The shortest run of available buffers, oldest first, that holds `len` bytes (R266). -/
def bufferRun : Nat → List Desc → Option (List Desc)
  | 0, _ => some []
  | _, [] => none
  | n + 1, d :: ds => (bufferRun (n + 1 - min (n + 1) d.w1.toNat) ds).map (fun l => d :: l)

/-- Available buffers of a ring. -/
def State.buffers (s : State) (r : Nat) : List Desc := (s.ring r).descs.filter (fun d => d.phase == .accepted)

/-- The head item of a host queue leaves it; the wait of the next begins. -/
def State.rxNextHead (s : State) (n q : Nat) : State :=
  let s := s.popItem 0 (4 * n + q)
  let more := (s.queue 0 (4 * n + q)).drain != []
  s.onMac n (fun x => { x with headAt := Cells.put (fun _ => 0) x.headAt q (if more then max 1 s.now else 0) })

/-- The buffers of one frame are written and complete in order. -/
def State.rxWrite (r flags match_ time : Nat) : Bool → List Byte → List Desc → State → State
  | _, _, [], s => s
  | first, f, d :: ds, s =>
    let piece := f.take d.w1.toNat
    let s := s.emit (.mem d.addr piece)
    let fl := flags + (if first then 1 else 0) + (if ds = [] then 2 else 0)
    let s := s.finishAt r d.index stOk fl time (some (BitVec.ofNat 32 (piece.length + 2 ^ 16 * match_)))
    State.rxWrite r flags match_ time false (f.drop d.w1.toNat) ds s

/-- RX_DMA_DELIVER (R266, R267): the head frame of a host queue goes to a set of buffers that holds it; `parity`: a word of it failed
parity. -/
def execRxDmaDeliver (dt mac : Nat) (high parity : Bool) (s : State) : Res :=
  let s := s.elapse dt
  let q := if high then 1 else 2
  let r := rxRing mac q
  if 4 ≤ mac then .next s
  else
    match (s.queue 0 (4 * mac + q)).head with
    | none => .next s
    | some ws =>
      let n := ws.length - 2
      let t1 := ws.getD n 0
      let len := t1 % 65536
      let flags := t1 / 2 ^ 16 % 65536
      let f := (((ws.take n).map (leBytes 8)).flatten).take len
      match bufferRun len (s.buffers r) with
      | none => .next s
      | some set =>
        if ¬ s.linkOk then .next s
        else
          let s := s.rxNextHead mac q
          let s := if parity then s.queueParity 0 (4 * mac + q) else s
          let good := flags % 64 / 4 = 0
          let s := if good then s.rxCount mac len else s
          let time := if flags.testBit 7 then ws.getD (n + 1) 0 else s.now
          .next (State.rxWrite r (flags + (if parity then 0x40 else 0)) (t1 / 2 ^ 32) time true f set s)

/-- RX_HOLD_EXPIRY (R266, R268): the head frame of a host queue has waited long enough, or its ring does not run. -/
def execRxHoldExpiry (dt mac : Nat) (high : Bool) (s : State) : Res :=
  let s := s.elapse dt
  let q := if high then 1 else 2
  let r := rxRing mac q
  let since := Cells.get (fun _ => 0) (s.mac mac).headAt q
  let hold := min 100000000 (s.reg (regNet mac 0x10)).toNat
  if 4 ≤ mac then .next s
  else
    match (s.queue 0 (4 * mac + q)).head with
    | none => .next s
    | some ws =>
      let fits := (bufferRun (ws.getD (ws.length - 2) 0 % 65536) (s.buffers r)).isSome && s.linkOk
      if ¬ fits ∧ (since + hold ≤ s.now ∨ (s.ring r).state ≠ .running) then
        .next ((s.rxNextHead mac q).bump (regNet mac 0x124) 1)
      else .next s

end Sys2Proof.Machine
end

