-- ==== Sys2Proof/Machine/RegWrite.lean ====
section
/-!
DEFINITION. Machine/RegWrite.lean: a BAR0 write of a register (R8 to R10, R437): windows and byte enables, access codes, locks, the
writes a register's own rule discards or carries out, and the audit log (R383, R387).
-/
namespace Sys2Proof.Machine

/-- The value a register takes under its access codes: RW bits take the written ones, a 1 clears a W1C bit and sets a W1S bit. -/
def RegRow.value (r : RegRow) (old v : Word) : Word :=
  let rw := BitVec.ofNat 32 r.rw
  let kept := (old &&& ~~~ rw) ||| (v &&& rw)
  (kept &&& ~~~ (v &&& BitVec.ofNat 32 r.w1c)) ||| (v &&& BitVec.ofNat 32 r.w1s)

/-- A write under the access codes alone; logged where the map says so (R10, R445). -/
def State.plainWrite (s : State) (o : Origin) (off : Nat) (r : RegRow) (v : Word) : State :=
  let new := r.value (s.reg off) v
  if r.logged ∧ r.rw ≠ 0 then s.loggedWrite o off new else s.setReg off new

/-- A register that acts at the next render frame boundary while a plane runs: the value in force is held. -/
def State.heldWrite (s : State) (o : Origin) (off : Nat) (r : RegRow) (v : Word) : State :=
  let t := s.plainWrite o off r v
  if s.anyRun ∧ t.reg off ≠ s.reg off then { t with heldRegs := Cells.put (fun _ => none) t.heldRegs off (some (s.effReg off)) } else t

/-- An SL register of the RND_ window: the inactive bank takes the value (R8, R109). -/
def State.slWrite (s : State) (o : Origin) (off : Nat) (r : RegRow) (v : Word) : State :=
  if s.domainBusy 2 then (s.bump 0xA011C 1).setFlag 0xA0000 16 true
  else if ¬ s.auditRoom 1 then s.bump 0x300 1
  else
    let g := s.rnd.geometry.idle
    let old := g.slReg off
    let new := r.value old v
    let s := s.onRnd (fun x => { x with
      geometry := { x.geometry with idle := { g with sl := Cells.put regReset g.sl off new } } })
    s.auditNow (originCode o) (originId o) 0x01 0 (BitVec.ofNat 32 off) old new

/-- SEC_CFG is locked once boot has completed (R8, R443, R452). -/
def State.lockedWrite (s : State) (o : Origin) (off : Nat) (r : RegRow) (v : Word) : State :=
  if s.mgt.modState < 3 then s.plainWrite o off r v else (s.bump 0x140040 1).fire 47 1 (BitVec.ofNat 32 off) 0

/-- A set-up register that accepts a write only in some states (R218, R226, R387, R401). -/
def State.setupWrite (s : State) (o : Origin) (off : Nat) (r : RegRow) (v : Word) (ok : Bool) : State :=
  if ok then s.plainWrite o off r v else s.setupDiscard

/-- A write in the HIF_ window. -/
def State.writeHif (s : State) (o : Origin) (off : Nat) (r : RegRow) (v : Word) : State :=
  if off = 0x10000 then runWrite s o v
  else if 0x10010 ≤ off ∧ off ≤ 0x10024 then s.setupWrite o off r v (!s.flag regHifCtrl 0)
  else if 0x11000 ≤ off then
    let n := (off - 0x11000) / 0x20
    if off % 0x20 = 8 then ringCfgWrite s o n v
    else if off % 0x20 = 0x10 then s
    else s.setupWrite o off r v (s.ring n).state.idle
  else s.plainWrite o off r v

/-- A write in the WCK_ window (R149, R155, R158, R161). -/
def State.writeWck (s : State) (o : Origin) (off : Nat) (r : RegRow) (v : Word) : State :=
  if off = 0x50004 ∨ off = 0x50008 ∨ (0x50080 ≤ off ∧ off < 0x500A0) then s.heldWrite o off r v
  else if 0x50040 ≤ off ∧ off < 0x50080 then levelCapWrite s o ((off - 0x50040) / 4) v
  else s.plainWrite o off r v

/-- A write in the RND_ window: META_SRC waits for a boundary while Render runs (R20, R39). -/
def State.writeRnd (s : State) (o : Origin) (off : Nat) (r : RegRow) (v : Word) : State :=
  if off = 0x80000 then
    let new := r.value (s.reg off) v
    if ¬ s.auditRoom 1 then s.bump 0x300 1
    else if s.mgt.render.run ∧ new ≠ s.reg off then s.modeRequest o off new
    else s.loggedWrite o off new
  else if 0x80010 ≤ off ∧ off ≤ 0x8002C then s.slWrite o off r v
  else s.plainWrite o off r v

/-- Q_CTRL of a queue register block (R251); none where the offset is another register. -/
def queueCtrl (off : Nat) : Option (Nat × Nat) :=
  ((List.range 5).map (fun c => (List.range 32).map (fun i => (c, i)))).flatten.find? (fun p =>
    match queueShape p.1 p.2 with | some sh => off == sh.base + 8 | none => false)

/-- Admin registers of a gate list: BASE, CYCLE, LEN and the admin entries (R274). -/
def gateAdmin (x : Nat) : Bool := (decide (0x408 ≤ x) && decide (x ≤ 0x414)) || (decide (0x800 ≤ x) && decide (x < 0xC00))

/-- A write in the NETn_ windows (R259, R260, R265, R274). -/
def State.writeNet (s : State) (o : Origin) (off : Nat) (r : RegRow) (v : Word) : State :=
  let n := (off - 0xC0000) / 0x4000
  let x := (off - 0xC0000) % 0x4000
  if x = 0 then macCtrlWrite s o n v
  else if off = 0xC0044 then mdioCmdWrite s o v
  else if off = 0xC0048 ∧ s.flag 0xC0044 31 then s.setFlag 0xC0044 27 true
  else if 0x200 ≤ x ∧ x < 0x300 ∧ x % 8 = 4 then daHiWrite s o n ((x - 0x204) / 8) v
  else if x = 0x400 then gateCtrlWrite s o n v
  else if gateAdmin x ∧ (s.mac n).gates.change.isSome then s.setFlag (regNet n 0x404) 17 true
  else
    match queueCtrl off with
    | some (c, i) => s.flushWrite o c i v
    | none => s.plainWrite o off r v

/-- A write in the TIM_ window (R282 to R284, R291). -/
def State.writeTim (s : State) (o : Origin) (off : Nat) (r : RegRow) (v : Word) : State :=
  if off = 0xD0014 then (if s.servoDiscards o then s else { (s.setReg 0xD0014 v) with clock := { s.clock with heldFrac := v.toNat } })
  else if off = 0xD0018 then (if s.servoDiscards o then s else s.incrWrite v)
  else if off = 0xD001C ∨ off = 0xD0020 then (if s.servoDiscards o then s else s.plainWrite o off r v)
  else if off = 0xD0024 then stepWrite s o v
  else if 0xD0100 ≤ off ∧ off < 0xD0200 ∧ off % 0x10 = 0 then trigWrite s o ((off - 0xD0100) / 0x10) v
  else s.plainWrite o off r v

/-- A write in the MNT_ window (R284, R319). -/
def State.writeMnt (s : State) (o : Origin) (off : Nat) (r : RegRow) (v : Word) : State :=
  if off = 0xE0000 then mntCtrlWrite s o v
  else if off = 0xE0008 ∧ s.servoDiscards o then s
  else s.plainWrite o off r v

/-- A write in the TDMpp_ windows (R324, R329, R331). -/
def State.writeTdm (s : State) (o : Origin) (off : Nat) (r : RegRow) (v : Word) : State :=
  let p := (off - 0xF0000) / 0x800
  let x := (off - 0xF0000) % 0x800
  if x = 0 then tdmCfgWrite s o p v
  else if x = 4 ∨ x = 8 ∨ x = 0xC then portFieldWrite s o p (x / 4) v
  else if x = 0x10 ∨ x = 0x14 then maskWrite s o p (x == 0x14) v false
  else if x = 0x30 then tapCfgWrite s o p v
  else
    match queueCtrl off with
    | some (c, i) => s.flushWrite o c i v
    | none => s.plainWrite o off r v

/-- A write in the LNK_ window (R344, R352 to R357). -/
def State.writeLnk (s : State) (o : Origin) (off : Nat) (r : RegRow) (v : Word) : State :=
  if off = 0x100000 ∨ off = 0x10000C ∨ off = 0x100010 then lnkCfgWrite s o off v
  else if off = 0x100018 then lnkCtrlWrite s o v
  else if off = regLnkPort 0 then linkPortWrite s o 0 v
  else if off = regLnkPort 1 then linkPortWrite s o 1 v
  else
    match queueCtrl off with
    | some (c, i) => s.flushWrite o c i v
    | none => s.plainWrite o off r v

/-- A write in the ICU_ window: the running value of an engine at work keeps (R374). -/
def State.writeIcu (s : State) (o : Origin) (off : Nat) (r : RegRow) (v : Word) : State :=
  let e := (off - 0x110100) / 0x10
  if 0x110100 ≤ off ∧ off < 0x110180 ∧ (off % 0x10 = 4 ∨ off % 0x10 = 8) ∧ bitOf (s.cveState e) 31 then s else s.plainWrite o off r v

/-- A write of all 32 bits of a register. -/
def State.writeReg (s : State) (o : Origin) (off : Nat) (r : RegRow) (v : Word) : State :=
  if off = 0x80 then splitWrite s o v
  else if off = 0x210 ∨ off = 0x214 then s.setupWrite o off r v ((s.ring 3).state != .running)
  else if off < 0x10000 then s.plainWrite o off r v
  else if off < 0x20000 then s.writeHif o off r v
  else if off < 0x50000 then s.plainWrite o off r v
  else if off < 0x60000 then s.writeWck o off r v
  else if off = 0x70000 then s.heldWrite o off r v
  else if off < 0x80000 then s.plainWrite o off r v
  else if off < 0x90000 then s.writeRnd o off r v
  else if off < 0xC0000 then s.plainWrite o off r v
  else if off < 0xD0000 then s.writeNet o off r v
  else if off < 0xE0000 then s.writeTim o off r v
  else if off < 0xF0000 then s.writeMnt o off r v
  else if off < 0xF8000 then s.writeTdm o off r v
  else if off < 0x100000 then s.plainWrite o off r v
  else if off < 0x110000 then s.writeLnk o off r v
  else if off < 0x120000 then s.writeIcu o off r v
  else if off = 0x120800 then staEpochSet s o v
  else if off = 0x120810 ∨ off = 0x120814 then s.setupWrite o off r v ((s.ring 4).state != .running)
  else if off = 0x140004 then s.lockedWrite o off r v
  else s.plainWrite o off r v

/-- An agent may write BAR0: firmware always, the host and a chain peer where the window is open, the debug port from level 2 on (R380,
R437). -/
def State.mayWrite (s : State) (o : Origin) (off : Nat) : Bool :=
  match o with
  | .firmware => true
  | .debug => s.windowOpen off && decide (2 ≤ s.sec.dbgLevel)
  | _ => s.windowOpen off

/-- Offsets from here on name the dwords of BAR2. -/
def bar2 : Nat := 0x400000

/-- REGISTER_WRITE (R8): `be` are the byte enables. -/
def execRegisterWrite (off : Nat) (be : BitVec 4) (v : Word) (origin : Origin) (s : State) : Res :=
  if bar2 ≤ off then .next (if origin = .host ∧ be = 15 then s.msixWrite (off - bar2) v else s)
  else if ¬ s.mayWrite origin off then .next s
  else if be ≠ 15 then .next (s.bump 0x10124 1)
  else
    match regRow off with
    | none => .next s
    | some r => .next (s.writeReg origin off r v)

end Sys2Proof.Machine
end

