-- ==== Sys2Proof/Machine/Resume.lean ====
section
/-!
DEFINITION. Machine/Resume.lean: checkpoints (R385, R386), and what goes on when space in the audit buffer returns (R387).
-/
namespace Sys2Proof.Machine

/-- The checkpoint of an entry: 32 bytes, and the signature over their SHA-384 (R385), whose nonce is free. -/
def checkpointBytes (index time hash now : Nat) (n : Nat) : List Byte :=
  let b := leBytes 8 index ++ leBytes 8 time ++ leBytes 8 hash ++ leBytes 8 now
  b ++ (ecdsaSign attKey (secret (Config.freeNat n)) b ++ List.replicate 96 0).take 96

/-- CHECKPOINT (R385): the oldest checkpoint owed is signed and goes to ring 3. -/
def execCheckpoint (s : State) : Res :=
  match s.audit.owed with
  | [] => .next s
  | (i, t, h) :: rest =>
    let s := s.onAudit (fun a => { a with owed := rest })
    .next (State.enqueue { s with free := s.free + 1 } 3
      { code := 2, flags := 0, bits := 0, w1 := BitVec.ofNat 32 i, w2 := BitVec.ofNat 32 (i / 2 ^ 32), w3 := 0, time := t
        payload := checkpointBytes i t h s.now s.free })

/-- Entries of changes that nothing could hold back are written while there is room. -/
def State.flushLate : List LateEntry → State → State
  | [], s => s.onAudit (fun a => { a with late := [] })
  | e :: l, s =>
    if s.auditRoom 1 then
      State.flushLate l (((s.auditReserve 1).auditRelease 1).chainEntry e.time e.origin 0 e.kind e.flags e.target e.old e.new)
    else s.onAudit (fun a => { a with late := e :: l })

/-- Control actions of firmware and Vigil that wait for space are accepted at this instant (R19, R387). -/
def State.acceptGo : List CtlAct → State → List CtlAct × State
  | [], s => ([], s)
  | c :: l, s =>
    if ¬ c.reserved ∧ s.auditRoom 1 then
      let (l, t) := State.acceptGo l (s.auditReserve 1)
      ({ c with reserved := true, req := s.request 0 0 } :: l, t)
    else
      let (l, t) := State.acceptGo l s
      (c :: l, t)
def State.acceptActions (s : State) : State :=
  let (l, s) := State.acceptGo s.mgt.ctl s
  s.onMgt (fun m => { m with ctl := l })

/-- A command that waited for space is tried again. -/
def State.resume (c : Instr) (s : State) : Res :=
  match c with
  | .remove => execRemove s
  | .restore => execRestore s
  | .reset => execReset s
  | .retireBank => execRetireBank s
  | .rotate => execRotate s
  | .planeStart => execPlaneStart s
  | .planeStop => execPlaneStop s
  | .controlActionExecute dt t => execControlActionExecute dt t s
  | .bankCopyDone dt c => execBankCopyDone dt c s
  | .spareRotation dt c p => execSpareRotation dt c p s
  | .ringSetup => execRingSetup s
  | .swap r => execSwap r s
  | .voxOpen r d => execVoxOpen r d s
  | .voxModify r d => execVoxModify r d s
  | .voxClose r => execVoxClose r s
  | .imgLoad r h b c => execImgLoad r h b c s
  | .secSetOwner d => execSecSetOwner d s
  | .secCommitSvn => execSecCommitSvn s
  | .strStart d => execStrStart d s
  | .strStop => execStrStop s
  | .lnkSliceApply => execLnkSliceApply s
  | .modReset => execModReset s
  | _ => .next s

/-- The commands that wait are tried in order; one that still finds no room waits on. -/
def State.resumeGo : List Instr → State → State
  | [], s => s
  | c :: l, s =>
    match s.resume c with
    | .next t => State.resumeGo l t
    | _ => State.resumeGo l s

/-- Rings whose command has been accepted are no longer held back. -/
def State.unstallRings (s : State) : State :=
  s.eachRing (fun r s =>
    if (s.ring r).stalled ∧ ¬ s.audit.waiting.any (fun c => waitRing c == some r) then s.onRing r (fun x => { x with stalled := false })
    else s)

/-- AUDIT_SPACE_RETURN (R387). -/
def execAuditSpaceReturn (s : State) : Res :=
  let s := (State.flushLate s.audit.late s).acceptActions
  let l := s.audit.waiting
  .next (State.resumeGo l (s.onAudit (fun a => { a with waiting := [] }))).unstallRings

end Sys2Proof.Machine
end

