-- ==== Sys2Proof/Machine/Dispatch.lean ====
section
/-!
DEFINITION. Machine/Dispatch.lean: what each command does to everything but the queue, one arm per command, each one
call of that command's meaning.
-/
namespace Sys2Proof.Machine

def exec (i : Instr) (s : State) : Host.Outcome State Fault Refusal :=
  match i with
  | .registerWrite off be v origin => Sys2Proof.Machine.execRegisterWrite off be v origin s
  | .planeSplitWrite v origin => Sys2Proof.Machine.execPlaneSplitWrite v origin s
  | .planeStart => Sys2Proof.Machine.execPlaneStart s
  | .planeStop => Sys2Proof.Machine.execPlaneStop s
  | .planesStopped => Sys2Proof.Machine.execPlanesStopped s
  | .remove => Sys2Proof.Machine.execRemove s
  | .restore => Sys2Proof.Machine.execRestore s
  | .reset => Sys2Proof.Machine.execReset s
  | .retireBank => Sys2Proof.Machine.execRetireBank s
  | .rotate => Sys2Proof.Machine.execRotate s
  | .controlActionExecute dt target => Sys2Proof.Machine.execControlActionExecute dt target s
  | .frameTick dt stepPct faults => Sys2Proof.Machine.execFrameTick dt stepPct faults s
  | .objPos ring => Sys2Proof.Machine.execObjPos ring s
  | .objBatch ring data => Sys2Proof.Machine.execObjBatch ring data s
  | .segmentRestore => Sys2Proof.Machine.execSegmentRestore s
  | .fltLoad ring data => Sys2Proof.Machine.execFltLoad ring data s
  | .fltUnity ring => Sys2Proof.Machine.execFltUnity ring s
  | .fltDisarm ring => Sys2Proof.Machine.execFltDisarm ring s
  | .filterLoadDone dt ring => Sys2Proof.Machine.execFilterLoadDone dt ring s
  | .filterCrossfadeEnd dt out => Sys2Proof.Machine.execFilterCrossfadeEnd dt out s
  | .psetLoad ring data => Sys2Proof.Machine.execPsetLoad ring data s
  | .psetLoadDone dt ring => Sys2Proof.Machine.execPsetLoadDone dt ring s
  | .psetCopy ring => Sys2Proof.Machine.execPsetCopy ring s
  | .swap ring => Sys2Proof.Machine.execSwap ring s
  | .swapAct dt => Sys2Proof.Machine.execSwapAct dt s
  | .zcTimeout dt point => Sys2Proof.Machine.execZcTimeout dt point s
  | .taperRampEnd dt point => Sys2Proof.Machine.execTaperRampEnd dt point s
  | .snuffer dt => Sys2Proof.Machine.execSnuffer dt s
  | .snufferEnd dt => Sys2Proof.Machine.execSnufferEnd dt s
  | .voxOpen ring data => Sys2Proof.Machine.execVoxOpen ring data s
  | .voxModify ring data => Sys2Proof.Machine.execVoxModify ring data s
  | .voxClose ring => Sys2Proof.Machine.execVoxClose ring s
  | .voxKey ring => Sys2Proof.Machine.execVoxKey ring s
  | .voxQuery ring => Sys2Proof.Machine.execVoxQuery ring s
  | .voiceTick obs => Sys2Proof.Machine.execVoiceTick obs s
  | .channelIdle dt chan => Sys2Proof.Machine.execChannelIdle dt chan s
  | .rxTimeout dt chan => Sys2Proof.Machine.execRxTimeout dt chan s
  | .concealmentLimit dt chan => Sys2Proof.Machine.execConcealmentLimit dt chan s
  | .talkOff dt chan => Sys2Proof.Machine.execTalkOff dt chan s
  | .ecEnabled dt chan => Sys2Proof.Machine.execEcEnabled dt chan s
  | .nlpForceEnd dt chan => Sys2Proof.Machine.execNlpForceEnd dt chan s
  | .keyChange chan => Sys2Proof.Machine.execKeyChange chan s
  | .codecTaskMissed dt chan => Sys2Proof.Machine.execCodecTaskMissed dt chan s
  | .engineCompletion dt engine key => Sys2Proof.Machine.execEngineCompletion dt engine key s
  | .dispatch dt res => Sys2Proof.Machine.execDispatch dt res s
  | .expire dt => Sys2Proof.Machine.execExpire dt s
  | .agingScan dt => Sys2Proof.Machine.execAgingScan dt s
  | .postAdmit => Sys2Proof.Machine.execPostAdmit s
  | .postTimeout dt => Sys2Proof.Machine.execPostTimeout dt s
  | .levelCapWrite l v origin => Sys2Proof.Machine.execLevelCapWrite l v origin s
  | .taskWatchdog dt core cycles => Sys2Proof.Machine.execTaskWatchdog dt core cycles s
  | .selfTestDone dt target fail => Sys2Proof.Machine.execSelfTestDone dt target fail s
  | .ldW core fin d k m => Sys2Proof.Machine.execLdW core fin d k m s
  | .ldH core fin d k m => Sys2Proof.Machine.execLdH core fin d k m s
  | .ldV core fin d k m => Sys2Proof.Machine.execLdV core fin d k m s
  | .ldVb core fin d k m => Sys2Proof.Machine.execLdVb core fin d k m s
  | .stW core fin a k m => Sys2Proof.Machine.execStW core fin a k m s
  | .stV core fin a k m => Sys2Proof.Machine.execStV core fin a k m s
  | .padd core fin k m => Sys2Proof.Machine.execPadd core fin k m s
  | .movp core fin k a => Sys2Proof.Machine.execMovp core fin k a s
  | .vadd core fin sat d a b => Sys2Proof.Machine.execVadd core fin sat d a b s
  | .vsub core fin sat d a b => Sys2Proof.Machine.execVsub core fin sat d a b s
  | .vneg core fin sat d a => Sys2Proof.Machine.execVneg core fin sat d a s
  | .vabs core fin sat d a => Sys2Proof.Machine.execVabs core fin sat d a s
  | .vshl core fin sat d a n => Sys2Proof.Machine.execVshl core fin sat d a n s
  | .vsra core fin d a n => Sys2Proof.Machine.execVsra core fin d a n s
  | .vand core fin d a b => Sys2Proof.Machine.execVand core fin d a b s
  | .vor core fin d a b => Sys2Proof.Machine.execVor core fin d a b s
  | .vxor core fin d a b => Sys2Proof.Machine.execVxor core fin d a b s
  | .vmin core fin d a b => Sys2Proof.Machine.execVmin core fin d a b s
  | .vmax core fin d a b => Sys2Proof.Machine.execVmax core fin d a b s
  | .vcmp core fin cc a b => Sys2Proof.Machine.execVcmp core fin cc a b s
  | .vsel core fin d a b => Sys2Proof.Machine.execVsel core fin d a b s
  | .vmaxi core fin d a b => Sys2Proof.Machine.execVmaxi core fin d a b s
  | .vmini core fin d a b => Sys2Proof.Machine.execVmini core fin d a b s
  | .rmaxi core fin d a => Sys2Proof.Machine.execRmaxi core fin d a s
  | .rmini core fin d a => Sys2Proof.Machine.execRmini core fin d a s
  | .vmul core fin sat d a b => Sys2Proof.Machine.execVmul core fin sat d a b s
  | .vmac core fin sat e a b => Sys2Proof.Machine.execVmac core fin sat e a b s
  | .vmsu core fin sat e a b => Sys2Proof.Machine.execVmsu core fin sat e a b s
  | .vmacb core fin sat e a b => Sys2Proof.Machine.execVmacb core fin sat e a b s
  | .vmsub core fin sat e a b => Sys2Proof.Machine.execVmsub core fin sat e a b s
  | .aclr core fin e => Sys2Proof.Machine.execAclr core fin e s
  | .amov core fin e a n => Sys2Proof.Machine.execAmov core fin e a n s
  | .aext core fin sat d e n => Sys2Proof.Machine.execAext core fin sat d e n s
  | .asum core fin sat e => Sys2Proof.Machine.execAsum core fin sat e s
  | .add core fin sat d a b => Sys2Proof.Machine.execAdd core fin sat d a b s
  | .sub core fin sat d a b => Sys2Proof.Machine.execSub core fin sat d a b s
  | .and core fin d a b => Sys2Proof.Machine.execAnd core fin d a b s
  | .or core fin d a b => Sys2Proof.Machine.execOr core fin d a b s
  | .xor core fin d a b => Sys2Proof.Machine.execXor core fin d a b s
  | .shl core fin sat d a n => Sys2Proof.Machine.execShl core fin sat d a n s
  | .shr core fin d a n => Sys2Proof.Machine.execShr core fin d a n s
  | .asr core fin d a n => Sys2Proof.Machine.execAsr core fin d a n s
  | .min core fin d a b => Sys2Proof.Machine.execMin core fin d a b s
  | .max core fin d a b => Sys2Proof.Machine.execMax core fin d a b s
  | .cmp core fin a b => Sys2Proof.Machine.execCmp core fin a b s
  | .movi core fin d imm ext => Sys2Proof.Machine.execMovi core fin d imm ext s
  | .mov core fin d src => Sys2Proof.Machine.execMov core fin d src s
  | .br core fin cc off ext => Sys2Proof.Machine.execBr core fin cc off ext s
  | .call core fin off ext => Sys2Proof.Machine.execCall core fin off ext s
  | .jmpR core fin a => Sys2Proof.Machine.execJmpR core fin a s
  | .ret core fin => Sys2Proof.Machine.execRet core fin s
  | .loop core fin k a stop ext => Sys2Proof.Machine.execLoop core fin k a stop ext s
  | .ni core fin n => Sys2Proof.Machine.execNi core fin n s
  | .rti core fin => Sys2Proof.Machine.execRti core fin s
  | .coreNop core fin => Sys2Proof.Machine.execCoreNop core fin s
  | .waitTask core fin pass => Sys2Proof.Machine.execWaitTask core fin pass s
  | .post core fin d a b => Sys2Proof.Machine.execPost core fin d a b s
  | .dmaRd core fin k b n => Sys2Proof.Machine.execDmaRd core fin k b n s
  | .dmaWr core fin k b n => Sys2Proof.Machine.execDmaWr core fin k b n s
  | .dmaTrd core fin k b n => Sys2Proof.Machine.execDmaTrd core fin k b n s
  | .dmaTwr core fin k b n => Sys2Proof.Machine.execDmaTwr core fin k b n s
  | .dmaWait core fin n => Sys2Proof.Machine.execDmaWait core fin n s
  | .dmaTransferDone dt core => Sys2Proof.Machine.execDmaTransferDone dt core s
  | .fftRun core fin a => Sys2Proof.Machine.execFftRun core fin a s
  | .fftWait core fin a => Sys2Proof.Machine.execFftWait core fin a s
  | .fftJobDone dt cluster residue => Sys2Proof.Machine.execFftJobDone dt cluster residue s
  | .crcI core fin a => Sys2Proof.Machine.execCrcI core fin a s
  | .crcW core fin a => Sys2Proof.Machine.execCrcW core fin a s
  | .crcF core fin d => Sys2Proof.Machine.execCrcF core fin d s
  | .time core fin d => Sys2Proof.Machine.execTime core fin d s
  | .tcmp core fin a => Sys2Proof.Machine.execTcmp core fin a s
  | .interruptEntry dt core src => Sys2Proof.Machine.execInterruptEntry dt core src s
  | .imgLoad ring head body cut => Sys2Proof.Machine.execImgLoad ring head body cut s
  | .mbxPost ring => Sys2Proof.Machine.execMbxPost ring s
  | .doorbellPoll page fetch => Sys2Proof.Machine.execDoorbellPoll page fetch s
  | .nop ring => Sys2Proof.Machine.execNop ring s
  | .abort fetch => Sys2Proof.Machine.execAbort fetch s
  | .ringSetup => Sys2Proof.Machine.execRingSetup s
  | .ringStop => Sys2Proof.Machine.execRingStop s
  | .ringStopped ring => Sys2Proof.Machine.execRingStopped ring s
  | .run v => Sys2Proof.Machine.execRun v s
  | .enable ring v => Sys2Proof.Machine.execEnable ring v s
  | .d2hRingDrain ring => Sys2Proof.Machine.execD2hRingDrain ring s
  | .statusPageWrite dt => Sys2Proof.Machine.execStatusPageWrite dt s
  | .holdoffEnd dt src => Sys2Proof.Machine.execHoldoffEnd dt src s
  | .functionLevelReset => Sys2Proof.Machine.execFunctionLevelReset s
  | .perstN => Sys2Proof.Machine.execPerstN s
  | .linkDown linkUp bme => Sys2Proof.Machine.execLinkDown linkUp bme s
  | .lockBroken dt master target addr => Sys2Proof.Machine.execLockBroken dt master target addr s
  | .refresh dt ch kind => Sys2Proof.Machine.execRefresh dt ch kind s
  | .forcedRefresh dt ch => Sys2Proof.Machine.execForcedRefresh dt ch s
  | .refreshRateCheck dt req => Sys2Proof.Machine.execRefreshRateCheck dt req s
  | .powerDownEntry dt ch => Sys2Proof.Machine.execPowerDownEntry dt ch s
  | .selfRefreshEntry dt ch arrives => Sys2Proof.Machine.execSelfRefreshEntry dt ch arrives s
  | .spareRotation dt c pass => Sys2Proof.Machine.execSpareRotation dt c pass s
  | .bankCopyDone dt c => Sys2Proof.Machine.execBankCopyDone dt c s
  | .bankRetire dt c bank failed => Sys2Proof.Machine.execBankRetire dt c bank failed s
  | .scrubPass dt mem fails => Sys2Proof.Machine.execScrubPass dt mem fails s
  | .queueWord owner inst x soi eoi bad => Sys2Proof.Machine.execQueueWord owner inst x soi eoi bad s
  | .queueSwap owner inst => Sys2Proof.Machine.execQueueSwap owner inst s
  | .queueRead owner inst parity => Sys2Proof.Machine.execQueueRead owner inst parity s
  | .flush owner inst v => Sys2Proof.Machine.execFlush owner inst v s
  | .flushDone owner inst => Sys2Proof.Machine.execFlushDone owner inst s
  | .netEnable mac v origin => Sys2Proof.Machine.execNetEnable mac v origin s
  | .netSpeed mac v origin => Sys2Proof.Machine.execNetSpeed mac v origin s
  | .blockLock mac an => Sys2Proof.Machine.execBlockLock mac an s
  | .macLockLoss mac rx => Sys2Proof.Machine.execMacLockLoss mac rx s
  | .macFault mac localF remoteF rx => Sys2Proof.Machine.execMacFault mac localF remoteF rx s
  | .macFaultClear dt mac => Sys2Proof.Machine.execMacFaultClear dt mac s
  | .mdioStart v origin => Sys2Proof.Machine.execMdioStart v origin s
  | .mdioDone dt data => Sys2Proof.Machine.execMdioDone dt data s
  | .frameReceive dt mac f fcsOk align stamp parity sync => Sys2Proof.Machine.execFrameReceive dt mac f fcsOk align stamp parity sync s
  | .rxBuf ring => Sys2Proof.Machine.execRxBuf ring s
  | .rxDmaDeliver dt mac high parity => Sys2Proof.Machine.execRxDmaDeliver dt mac high parity s
  | .rxHoldExpiry dt mac high => Sys2Proof.Machine.execRxHoldExpiry dt mac high s
  | .daLo mac e v origin => Sys2Proof.Machine.execDaLo mac e v origin s
  | .daHi mac e v origin => Sys2Proof.Machine.execDaHi mac e v origin s
  | .txFrame ring data => Sys2Proof.Machine.execTxFrame ring data s
  | .txSso ring record payload => Sys2Proof.Machine.execTxSso ring record payload s
  | .transmitSelection dt mac => Sys2Proof.Machine.execTransmitSelection dt mac s
  | .frameTransmitted dt mac parity => Sys2Proof.Machine.execFrameTransmitted dt mac parity s
  | .gateChange mac v origin => Sys2Proof.Machine.execGateChange mac v origin s
  | .gateListSwitch dt mac => Sys2Proof.Machine.execGateListSwitch dt mac s
  | .gateEntryAdvance dt mac => Sys2Proof.Machine.execGateEntryAdvance dt mac s
  | .launch dt mac => Sys2Proof.Machine.execLaunch dt mac s
  | .lateDrop dt mac => Sys2Proof.Machine.execLateDrop dt mac s
  | .lpiEntry dt mac => Sys2Proof.Machine.execLpiEntry dt mac s
  | .lpiWake dt mac => Sys2Proof.Machine.execLpiWake dt mac s
  | .timIncrFrac v origin => Sys2Proof.Machine.execTimIncrFrac v origin s
  | .timIncrNs v origin => Sys2Proof.Machine.execTimIncrNs v origin s
  | .go v origin => Sys2Proof.Machine.execGo v origin s
  | .timNowRead => Sys2Proof.Machine.execTimNowRead s
  | .syncReceiptTimeout dt expired => Sys2Proof.Machine.execSyncReceiptTimeout dt expired s
  | .triggerEnable t v origin => Sys2Proof.Machine.execTriggerEnable t v origin s
  | .triggerFire dt t => Sys2Proof.Machine.execTriggerFire dt t s
  | .triggerPulseEnd dt t => Sys2Proof.Machine.execTriggerPulseEnd dt t s
  | .ppsOut dt => Sys2Proof.Machine.execPpsOut dt s
  | .ppsIn dt => Sys2Proof.Machine.execPpsIn dt s
  | .servoTick dt => Sys2Proof.Machine.execServoTick dt s
  | .strStart data => Sys2Proof.Machine.execStrStart data s
  | .strStop => Sys2Proof.Machine.execStrStop s
  | .streamStateChange stream => Sys2Proof.Machine.execStreamStateChange stream s
  | .streamPacketLaunch dt stream => Sys2Proof.Machine.execStreamPacketLaunch dt stream s
  | .candidateMeasurement dt offs out => Sys2Proof.Machine.execCandidateMeasurement dt offs out s
  | .candidateFault dt c cause => Sys2Proof.Machine.execCandidateFault dt c cause s
  | .pullUpdate dt => Sys2Proof.Machine.execPullUpdate dt s
  | .revertiveSwitch dt => Sys2Proof.Machine.execRevertiveSwitch dt s
  | .force v origin => Sys2Proof.Machine.execForce v origin s
  | .returnToNominal dt => Sys2Proof.Machine.execReturnToNominal dt s
  | .mantleFault dt => Sys2Proof.Machine.execMantleFault dt s
  | .family v origin => Sys2Proof.Machine.execFamily v origin s
  | .rate v origin => Sys2Proof.Machine.execRate v origin s
  | .portEnable port v origin => Sys2Proof.Machine.execPortEnable port v origin s
  | .portDisable port v origin => Sys2Proof.Machine.execPortDisable port v origin s
  | .portCfgWrite port r v origin => Sys2Proof.Machine.execPortCfgWrite port r v origin s
  | .tdmFrame dt port sdi len => Sys2Proof.Machine.execTdmFrame dt port sdi len s
  | .maskWrite port tx v last origin => Sys2Proof.Machine.execMaskWrite port tx v last origin s
  | .rateWindow dt port edges span => Sys2Proof.Machine.execRateWindow dt port edges span s
  | .portLost dt port => Sys2Proof.Machine.execPortLost dt port s
  | .sarSample dt c code jack => Sys2Proof.Machine.execSarSample dt c code jack s
  | .accessoryClassify dt c => Sys2Proof.Machine.execAccessoryClassify dt c s
  | .linkPortEnable port v origin => Sys2Proof.Machine.execLinkPortEnable port v origin s
  | .laneLock port lane => Sys2Proof.Machine.execLaneLock port lane s
  | .markerReceive dt port m => Sys2Proof.Machine.execMarkerReceive dt port m s
  | .markerLoss dt port => Sys2Proof.Machine.execMarkerLoss dt port s
  | .linkFrameReceive dt port f errs => Sys2Proof.Machine.execLinkFrameReceive dt port f errs s
  | .groupCapture dt => Sys2Proof.Machine.execGroupCapture dt s
  | .readdress v => Sys2Proof.Machine.execReaddress v s
  | .accept v => Sys2Proof.Machine.execAccept v s
  | .lnkCfgWrite r v origin => Sys2Proof.Machine.execLnkCfgWrite r v origin s
  | .lnkSliceApply => Sys2Proof.Machine.execLnkSliceApply s
  | .tunSend ring data => Sys2Proof.Machine.execTunSend ring data s
  | .tunnelReceive dt port => Sys2Proof.Machine.execTunnelReceive dt port s
  | .cvRun ring record src parity => Sys2Proof.Machine.execCvRun ring record src parity s
  | .copy ring record src parity => Sys2Proof.Machine.execCopy ring record src parity s
  | .scan ring record src parity => Sys2Proof.Machine.execScan ring record src parity s
  | .secSetOwner data => Sys2Proof.Machine.execSecSetOwner data s
  | .secCommitSvn => Sys2Proof.Machine.execSecCommitSvn s
  | .bypass => Sys2Proof.Machine.execBypass s
  | .idcode => Sys2Proof.Machine.execIdcode s
  | .samplePreload pins => Sys2Proof.Machine.execSamplePreload pins s
  | .extest pins => Sys2Proof.Machine.execExtest pins s
  | .extestPulse pins => Sys2Proof.Machine.execExtestPulse pins s
  | .extestTrain pins => Sys2Proof.Machine.execExtestTrain pins s
  | .dbgChallenge dt => Sys2Proof.Machine.execDbgChallenge dt s
  | .dbgResponse level sig => Sys2Proof.Machine.execDbgResponse level sig s
  | .glitch dt cause => Sys2Proof.Machine.execGlitch dt cause s
  | .checkpoint => Sys2Proof.Machine.execCheckpoint s
  | .auditSpaceReturn => Sys2Proof.Machine.execAuditSpaceReturn s
  | .staEpochWrite v origin => Sys2Proof.Machine.execStaEpochWrite v origin s
  | .staCurEpochRead => Sys2Proof.Machine.execStaCurEpochRead s
  | .mgtAudIndexRead => Sys2Proof.Machine.execMgtAudIndexRead s
  | .octetCounterRead mac tx => Sys2Proof.Machine.execOctetCounterRead mac tx s
  | .dramScrub dt parity pages => Sys2Proof.Machine.execDramScrub dt parity pages s
  | .powerUpStart dt mv strap => Sys2Proof.Machine.execPowerUpStart dt mv strap s
  | .vinLowWarning dt mv => Sys2Proof.Machine.execVinLowWarning dt mv s
  | .vinRecover dt mv => Sys2Proof.Machine.execVinRecover dt mv s
  | .undervoltage dt mv => Sys2Proof.Machine.execUndervoltage dt mv s
  | .overvoltageWarning dt mv => Sys2Proof.Machine.execOvervoltageWarning dt mv s
  | .overvoltage dt mv => Sys2Proof.Machine.execOvervoltage dt mv s
  | .railFault dt => Sys2Proof.Machine.execRailFault dt s
  | .auxFault dt => Sys2Proof.Machine.execAuxFault dt s
  | .temperatureEstimate dt t => Sys2Proof.Machine.execTemperatureEstimate dt t s
  | .thermal dt => Sys2Proof.Machine.execThermal dt s
  | .watchdogWarning dt => Sys2Proof.Machine.execWatchdogWarning dt s
  | .watchdog dt => Sys2Proof.Machine.execWatchdog dt s
  | .resetN dt low => Sys2Proof.Machine.execResetN dt low s
  | .modReset => Sys2Proof.Machine.execModReset s
  | .boot dt head sel addr okA okB chain chainOk => Sys2Proof.Machine.execBoot dt head sel addr okA okB chain chainOk s
  | .pwrStandby => Sys2Proof.Machine.execPwrStandby s
  | .pwrWake => Sys2Proof.Machine.execPwrWake s
  | .smbReadVin => Sys2Proof.Machine.execSmbReadVin s
  | .smbReadTemp => Sys2Proof.Machine.execSmbReadTemp s
  | .smbReadCause => Sys2Proof.Machine.execSmbReadCause s
  | .smbReadStatus => Sys2Proof.Machine.execSmbReadStatus s
  | .alertResponse => Sys2Proof.Machine.execAlertResponse s
  | .laneLockLoss port lane => Sys2Proof.Machine.execLaneLockLoss port lane s
  | .auxFaultRecovery dt => Sys2Proof.Machine.execAuxFaultRecovery dt s
  | .overvoltageRecovery dt mv strap => Sys2Proof.Machine.execOvervoltageRecovery dt mv strap s
  | .watchdogService dt => Sys2Proof.Machine.execWatchdogService dt s
  | .lpiReceive mac on => Sys2Proof.Machine.execLpiReceive mac on s
  | .pcieLinkRestored width speed => Sys2Proof.Machine.execPcieLinkRestored width speed s
  | .msixVectorUnmask vec => Sys2Proof.Machine.execMsixVectorUnmask vec s
  | .smbWrite => Sys2Proof.Machine.execSmbWrite s

end Sys2Proof.Machine
end

