-- ==== Sys2Proof/Safety.lean ====
section
/-!
DEFINITION. Safety.lean: the terms claims use: the parts of the state, what a command leaves as it was, and what holds of
every state a step can reach from one in which it holds.
-/
namespace Sys2Proof.Machine

/-- The parts of the module's state, one for each field of `State`. -/
inductive Part where
  | pending | free | clock | regs | host | rings | audit | mgt | ing | rnd | cnv | mix
  | slice | evs | ev53 | straps | queues | dram | tiles | parWords | macs | mdioEnd | tim | streams
  | vox | heldRegs | imgs | wick | lan | vig | sec | pwr | sta | mnt | ports | ops
  | link
  deriving DecidableEq, Repr

/-- A part is the same in two states. -/
def Part.same (s t : State) : Part → Prop
  | .pending => t.pending = s.pending
  | .free => t.free = s.free
  | .clock => t.clock = s.clock
  | .regs => t.regs = s.regs
  | .host => t.host = s.host
  | .rings => t.rings = s.rings
  | .audit => t.audit = s.audit
  | .mgt => t.mgt = s.mgt
  | .ing => t.ing = s.ing
  | .rnd => t.rnd = s.rnd
  | .cnv => t.cnv = s.cnv
  | .mix => t.mix = s.mix
  | .slice => t.slice = s.slice
  | .evs => t.evs = s.evs
  | .ev53 => t.ev53 = s.ev53
  | .straps => t.straps = s.straps
  | .queues => t.queues = s.queues
  | .dram => t.dram = s.dram
  | .tiles => t.tiles = s.tiles
  | .parWords => t.parWords = s.parWords
  | .macs => t.macs = s.macs
  | .mdioEnd => t.mdioEnd = s.mdioEnd
  | .tim => t.tim = s.tim
  | .streams => t.streams = s.streams
  | .vox => t.vox = s.vox
  | .heldRegs => t.heldRegs = s.heldRegs
  | .imgs => t.imgs = s.imgs
  | .wick => t.wick = s.wick
  | .lan => t.lan = s.lan
  | .vig => t.vig = s.vig
  | .sec => t.sec = s.sec
  | .pwr => t.pwr = s.pwr
  | .sta => t.sta = s.sta
  | .mnt => t.mnt = s.mnt
  | .ports => t.ports = s.ports
  | .ops => t.ops = s.ops
  | .link => t.link = s.link

/-- Every part of the state but those named is the same in `t` as in `s`. -/
def Frame (parts : List Part) (s t : State) : Prop := ∀ p, p ∉ parts → Part.same s t p

/-- What every step keeps: the register file, the three byte memories and the tables of cores, rings, queues, tiles, streams and
audio ports are in canonical form (equal contents are equal data), and MGT_STATUS.STATE is one of the codes 0 to 5 of R440. -/
def Sound (s : State) : Prop :=
  Cells.wf regReset s.regs = true ∧ Memory.wf s.lan.tile = true ∧ Memory.wf s.lan.prog = true ∧ Memory.wf s.lan.dram = true ∧
    s.mgt.modState ≤ 5 ∧ Cells.wf coreDflt s.lan.cores = true ∧ Cells.wf (fun _ => Ring.empty) s.rings = true ∧
    Cells.wf qDflt s.queues = true ∧ Cells.wf tileDflt s.tiles = true ∧ Cells.wf strDflt s.streams = true ∧
    Cells.wf portDflt s.ports = true

/-- Every register but those named holds what it held. -/
def RegsKept (offs : List Nat) (s t : State) : Prop := ∀ off, off ∉ offs → t.reg off = s.reg off

/-- The bytes of memory are what they were: tile memory, program memory and DRAM, read byte by byte. -/
def BytesKept (s t : State) : Prop :=
  ∀ a, Memory.byte t.lan.tile a = Memory.byte s.lan.tile a ∧ Memory.byte t.lan.prog a = Memory.byte s.lan.prog a ∧
    Memory.byte t.lan.dram a = Memory.byte s.lan.dram a

/-! ### Commands -/

/-- The command takes effect: it answers a next state, and `P` holds of it. -/
def Runs (i : Instr) (s : State) (P : State → Prop) : Prop := ∃ t, exec i s = .next t ∧ P t

/-- The command ends its descriptor: what it answers is a state, of which `P` holds, with that descriptor finished with `status`. -/
def Ends (i : Instr) (s : State) (r index status : Nat) (P : State → Prop) : Prop :=
  ∃ u, exec i s = .next (u.finish r index status) ∧ P u

/-- Every outstanding descriptor of a ring with this index is at this phase. -/
def State.atPhase (s : State) (r index : Nat) (p : Phase) : Prop := ∀ d ∈ (s.ring r).descs, d.index = index → d.phase = p

/-- One entry joined the audit log. -/
def Logged (s t : State) : Prop := t.audit.index = s.audit.index + 1

/-- The registers an entry of the audit log may write: MGT_AUD_STATUS, the counter of lost ring 2 entries and INT_STATUS. -/
def auditRegs : List Nat := [0x200, 0x10114, 0x20008, 0x2000C]

/-- The registers a trace record may write: WCK_STATUS, WCK_TRACE_LOST, the counter of lost ring 2 entries and INT_STATUS. -/
def traceRegs : List Nat := [0x50000, 0x5012C, 0x10114, 0x20008, 0x2000C]

/-- What the saturating counter at an offset reads after `n` more events (R71). -/
def State.up (s : State) (off n : Nat) : Word := BitVec.ofNat 32 (satU 32 ((s.reg off).toNat + n))

/-- Snuffer was triggered at `now` (R411): the cause is latched and READY is low, with FAULT for the causes from 5 on; the egress ramps
run, and where the audit buffer has room the MUTE entry is written. -/
def Snuffed (s t : State) (cause now : Nat) : Prop :=
  t.pwr.snuff = some (cause, now) ∧ t.pwr.flushed = false ∧ (t.reg regPwrCause).toNat = cause ∧ t.ready = false ∧
    (5 ≤ cause → t.flag regPwrStatus 2 = true) ∧ t.mix.snuffed = true ∧ (s.auditRoom 1 = true → s.audit.index < t.audit.index)

/-- The registers a trigger of Snuffer and the measurement that caused it may write. -/
def snuffRegs : List Nat := [0x130000, 0x130004, 0x130008, 0x13000C, 0x304] ++ auditRegs

/-! ### Cores -/

/-- Core `c` as its next bundle finds it: the results due have landed (R181). -/
def State.landed (s : State) (c : Nat) : LCore := (s.core c).landBy (s.core c).issued

/-- Core `c` runs and is at a bundle boundary outside delay bundles, and `w` alone, marked END, breaks no rule of a bundle. -/
def State.takes (s : State) (c : Nat) (w : CoreOp) : Prop :=
  s.coreRuns c = true ∧ (s.core c).bundle = [] ∧ (s.core c).branch = none ∧ s.bundleFault c (s.landed c) [w] true = none

/-- One result of a bundle. -/
def resultOf (x : LCore) (lat reg : Nat) (v : Int) : List Flight := [{ land := x.issued + lat, reg := reg, val := v }]

/-- A 32-bit result under the S bit, with SAT where it saturates (R178). -/
def satResult (x : LCore) (lat reg : Nat) (sat : Bool) (v : Int) : List Flight :=
  resultOf x lat reg (result32 sat v).1 ++ if (result32 sat v).2 then resultOf x lat 90 0 else []

/-- The results of four lanes. -/
def laneResults (f : Nat → List Flight) : List Flight := f 0 ++ f 1 ++ f 2 ++ f 3

/-- What a bundle that only computes leaves of every core but its own: all but a freeze, which FFT.WAIT may end. -/
def OthersKept (s t : State) (c : Nat) : Prop :=
  ∀ d, d ≠ c → { t.core d with freeze := none } = { s.core d with freeze := none }

/-- A bundle of one word issues on core `c`: the results `fl` follow those in flight, the bundle is counted, no register but a loop
count and cst changes, and without a loop the program counter moves on by `len` bytes. -/
def Issues (s t : State) (c : Nat) (fl : List Flight) (len : Nat) : Prop :=
  (t.core c).flight = (s.landed c).flight ++ fl ∧ (t.core c).issued = (s.landed c).issued + 1 ∧ (t.core c).bundle = [] ∧
    (∀ n, n ≠ 64 → n ≠ 65 → n ≠ 74 → (t.core c).reg n = (s.landed c).reg n) ∧ (t.core c).acc = (s.landed c).acc ∧
    (t.core c).tcmp = (s.landed c).tcmp ∧
    ((s.landed c).reg 64 = 0 → (s.landed c).reg 65 = 0 → (t.core c).pc = ((s.landed c).pc + len) % 2 ^ 19) ∧ OthersKept s t c

/-- The word `w` of core `c`, as command `i`, computes the results `fl` and does nothing else; `parts` are written. -/
def Computes (i : Instr) (s : State) (c : Nat) (w : CoreOp) (parts : List Part) (fl : List Flight) : Prop :=
  s.takes c w → Runs i s (fun t => Issues s t c fl (4 * w.words) ∧ Frame parts s t ∧ BytesKept s t)

end Sys2Proof.Machine
end

