-- ==== Sys2Proof/Certificates/Slice0/Obligations.lean ====
section
/-!
DEFINITION. Certificates/Slice0/Obligations.lean: what is claimed of the model, each statement with the rules of spec/ it rests on.
`Runs`, `Ends`, `Frame`, `RegsKept` and `BytesKept` are said in Safety.lean.
-/
open Sys2Proof Sys2Proof.Machine

/-- The block's step: the command at the front of the queue takes effect with the rest of the queue waiting; with an empty queue the clock
counts one tick (idling so is the model's choice: log entry on the step). -/
def Obligations.StepTakesTheFrontCommand : Prop := ∀ (s : State) (c : Instr) (rest : List Instr),
  step { s with pending := c :: rest } = exec c { s with pending := rest } ∧
  step { s with pending := [] } = .next ({ s with pending := [] }.elapse 1)

/-- R417, R447 and others: the module right after reset is stopped, with no plane running, every ring DISABLED, RUN 0, Mantle in FREE_RUN
with every candidate DISQUALIFIED, no channel or stream open, every MAC, port and link port DISABLED, no image held; registers hold the
values of R447. What Sound says holds of it. -/
def Obligations.ResetIsStoppedAndSound : Prop :=
  let s := State.reset
  Sound s ∧ s.mgt.modState = 3 ∧ s.mgt.render.run = false ∧ s.mgt.voice.run = false ∧ s.flag 0x10000 0 = false ∧ s.mnt.st = 0 ∧
  (∀ r, (s.ring r).state = .disabled ∧ (s.ring r).descs = []) ∧ (∀ c, (s.cand c).qual = 0) ∧ (∀ v, (s.voxChan v).st = 0) ∧
  (∀ i, (s.stream i).st = 0) ∧ (∀ n, (s.mac n).st = 0) ∧ (∀ p, (s.port p).st = 0) ∧ (∀ p, (s.lport p).st = 0) ∧
  (∀ c, (s.opsChan c).plugged = false) ∧ s.imgs.held = [] ∧ s.pending = [] ∧
  (∀ a, Memory.byte s.lan.tile a = 0 ∧ Memory.byte s.lan.dram a = 0) ∧
  (∀ p ∈ [(0x0, 0x09601F7C), (0x4, 0x10), (0x80, 0xC), (0x11008, 0x2088), (0x11028, 0x2008), (0x20000, 0xFFFFFFFF), (0x30000, 0x10),
      (0x40000, 0x40), (0x50040, 0x140), (0x5007C, 0x640), (0x70000, 4), (0x90000, 1), (0xB0000, 0x11388), (0xC0000, 4), (0xC0008, 0x84),
      (0xC000C, 0x5F2), (0xC0018, 0x64), (0xD0000, 0x7D), (0xD0018, 2), (0xE0000, 0x1F), (0xE000C, 0x14), (0xE0010, 0x32), (0xE0014, 0x64),
      (0xE0018, 0xA), (0xE001C, 0x1E), (0xE0020, 0x12C), (0xF0000, 0x08000100), (0xF0004, 1), (0xF0008, 8), (0xF000C, 0x30000000),
      (0xF8000, 0x19), (0x100010, 0x10000000), (0x120000, 0x1F), (0x120004, 4), (0x120800, 0xBB8), (0x130000, 3), (0x140004, 2)],
    (s.reg p.1).toNat = p.2)

/-- From every state that is Sound, a step gives a Sound state: the register file, the memories and the tables keep their canonical form,
and MGT_STATUS.STATE stays one of the codes of R440. -/
def Obligations.SoundIsKept : Prop := ∀ (s t : State), Sound s → step s = .next t → Sound t

/-- Every command takes effect in every state: none faults and none is refused, and the commands that wait are left as they are. -/
def Obligations.EveryCommandTakesEffect : Prop := ∀ (i : Instr) (s : State), ∃ t : State, exec i s = .next t ∧ t.pending = s.pending

/-- R377: over every command, a reset included, the owner key's hash once set stays, and no minimum SVN falls. -/
def Obligations.TheOwnerKeyIsSetOnce : Prop := ∀ (i : Instr) (s t : State), exec i s = .next t →
  (∀ h, s.sec.ownerHash = some h → t.sec.ownerHash = some h) ∧ s.sec.fwMin ≤ t.sec.fwMin ∧ s.sec.ownerMin ≤ t.sec.ownerMin

/-- R8, R9, R10, R437: a BAR0 write of less than a dword is discarded and counted; one outside the window its sender may write, or at no
register, changes nothing; a register with no rule of its own takes the written value in its RW bits, a 1 clears a W1C bit and sets a
W1S bit, every other bit keeps; a register the map marks logged is written with its audit entry, and is discarded and counted without
space. -/
def Obligations.RegisterWritesObeyTheMap : Prop := ∀ (s : State) (off n : Nat) (be : BitVec 4) (v : Word) (o : Origin) (r : RegRow),
  (off < bar2 → s.mayWrite o off = false → exec (.registerWrite off be v o) s = .next s) ∧
  (off < bar2 → s.mayWrite o off = true → be ≠ 15 → Runs (.registerWrite off be v o) s (fun t => t.reg 0x10124 = s.up 0x10124 1 ∧
    RegsKept [0x10124] s t ∧ Frame [.regs] s t)) ∧
  (off < bar2 → regRow off = none → s.mayWrite o off = true → exec (.registerWrite off 15 v o) s = .next s) ∧
  (regRow off = some r → s.mayWrite o off = true → off ≠ 0x80 → off ≠ 0x210 → off ≠ 0x214 →
    off < 0x10000 ∨ (0x20000 ≤ off ∧ off < 0x50000) ∨ (0x90000 ≤ off ∧ off < 0xC0000) ∨ (0xF8000 ≤ off ∧ off < 0x100000) →
    (r.logged = false → Runs (.registerWrite off 15 v o) s (fun t => RegsKept [off] s t ∧ Frame [.regs] s t ∧
      (n < 32 → bitOf (t.reg off) n = ((r.w1s.testBit n && bitOf v n) ||
        (!(r.w1c.testBit n && bitOf v n) && (if r.rw.testBit n then bitOf v n else bitOf (s.reg off) n)))))) ∧
    (r.logged = true → r.rw ≠ 0 → s.auditRoom 1 = true → off ∉ auditRegs → Runs (.registerWrite off 15 v o) s (fun t =>
      t.reg off = r.value (s.reg off) v ∧ Logged s t ∧ RegsKept (off :: auditRegs) s t ∧
      Frame [.regs, .host, .rings, .audit, .pwr, .sta] s t)) ∧
    (r.logged = true → r.rw ≠ 0 → s.auditRoom 1 = false → Runs (.registerWrite off 15 v o) s (fun t =>
      t.reg 0x300 = s.up 0x300 1 ∧ RegsKept [0x300] s t ∧ Frame [.regs] s t)))

/-- R177, R178 (classes 4 and 6): what ADD, SUB, AND, OR, XOR, SHL, SHR, ASR, MIN, MAX, CMP, MOVI, CRC.F and CRC.W compute, one bundle
later, as bundles of one word.

R170, R174, R177: what PADD, MOVP, MOV, CRC.I, TIME, TCMP and NOP compute. MOV to cid is the SYSTEM fault of R190 and is not here; a
source pair that would begin at g31 has its second word open (the model's free value, log entry on g32), so CRC.I and TCMP are stated
below g31; TIME with g31 writes the low word only. -/
def Obligations.ScalarAndRegisterOperationsCompute : Prop :=
  (∀ (s : State) (c : Nat) (sat : Bool) (d a b : Fin 32) (n : Fin 64),
    let x := s.landed c
    let ga := x.reg a
    let gb := x.reg b
    Computes (.add c true sat d a b) s c (.sop .add sat d a b) [.lan] (satResult x 1 d sat (sint ga + sint gb)) ∧
    Computes (.sub c true sat d a b) s c (.sop .sub sat d a b) [.lan] (satResult x 1 d sat (sint ga - sint gb)) ∧
    Computes (.and c true d a b) s c (.sop .and false d a b) [.lan] (resultOf x 1 d (sint (ga &&& gb))) ∧
    Computes (.or c true d a b) s c (.sop .or false d a b) [.lan] (resultOf x 1 d (sint (ga ||| gb))) ∧
    Computes (.xor c true d a b) s c (.sop .xor false d a b) [.lan] (resultOf x 1 d (sint (ga ^^^ gb))) ∧
    Computes (.min c true d a b) s c (.sop .min false d a b) [.lan]
      (resultOf x 1 d (if sint ga ≤ sint gb then sint ga else sint gb)) ∧
    Computes (.max c true d a b) s c (.sop .max false d a b) [.lan]
      (resultOf x 1 d (if sint ga ≤ sint gb then sint gb else sint ga)) ∧
    Computes (.shl c true sat d a n) s c (.shift .shl sat d a n) [.lan] (satResult x 1 d sat (sint ga * (2 ^ n.val : Nat))) ∧
    Computes (.shr c true d a n) s c (.shift .shr false d a n) [.lan] (resultOf x 1 d (sint (ga >>> n.val))) ∧
    Computes (.asr c true d a n) s c (.shift .asr false d a n) [.lan] (resultOf x 1 d ((sint ga).fdiv ((2 ^ n.val : Nat) : Int))) ∧
    Computes (.cmp c true a b) s c (.cmp a b) [.lan] (resultOf x 1 94 (cmpFlags ga gb)) ∧
    (∀ imm : BitVec 16, Computes (.movi c true d imm none) s c (.movi d imm none) [.lan] (resultOf x 1 d imm.toInt)) ∧
    (∀ (imm : BitVec 16) (e : BitVec 28), signed 28 e.toNat = signed 16 e.toNat →
      Computes (.movi c true d imm (some e)) s c (.movi d imm (some e)) [.lan]
        (resultOf x 1 d (signed 32 (imm.toNat + 65536 * (e.toNat % 65536))))) ∧
    Computes (.crcF c true d) s c (.crcF d) [.lan] (resultOf x 1 d (((x.reg 70).toNat ^^^ 0xFFFFFFFF : Nat) : Int)) ∧
    (∀ k : Fin 8, Computes (.crcW c true k) s c (.crcW k) [.lan] (resultOf x 1 70
      (crcRunR 0x82F63B78 (x.reg 70).toNat (leBytes 4 (x.reg (4 * k)).toNat ++ leBytes 4 (x.reg (4 * k + 1)).toNat ++
        leBytes 4 (x.reg (4 * k + 2)).toNat ++ leBytes 4 (x.reg (4 * k + 3)).toNat) : Nat)))) ∧
  (∀ (s : State) (c : Nat) (d a : Fin 32) (k : Fin 8) (m : Option (Fin 8)),
    let x := s.landed c
    Computes (.padd c true k m) s c (.padd k m) [.lan] (resultOf x 1 (32 + k) (x.post k m)) ∧
    Computes (.movp c true k a) s c (.movp k a) [.lan] (resultOf x 1 (32 + k) (sint (x.reg a))) ∧
    (∀ r : CoreReg, Computes (.mov c true (.g d) r) s c (.mov (.g d) r) [.lan] (resultOf x 1 d (sint (x.readReg c r)))) ∧
    (∀ r : CoreReg, r ≠ .cid → (∀ j, r ≠ .g j) →
      Computes (.mov c true r (.g a)) s c (.mov r (.g a)) [.lan] (resultOf x 1 (coreRegNum r) (sint (x.reg a)))) ∧
    (a.val < 31 → Computes (.crcI c true a) s c (.crcI a) [.lan]
      (resultOf x 1 70 (crc32c (leBytes 4 (x.reg a).toNat ++ leBytes 4 (x.reg (a + 1)).toNat) : Nat))) ∧
    Computes (.time c true d) s c (.time d) [.lan] (resultOf x 2 d ((s.now % 2 ^ 32 : Nat) : Int) ++
      if d.val < 31 then resultOf x 2 (d + 1) ((s.now / 2 ^ 32 : Nat) : Int) else []) ∧
    (a.val < 31 → Computes (.tcmp c true a) s c (.tcmp a) [.lan]
      (resultOf x 1 96 (x.reg a).toNat ++ resultOf x 1 97 (x.reg (a + 1)).toNat)) ∧
    Computes (.coreNop c true) s c .nop [.lan] [])

/-- R177, R178: what VADD, VSUB, VAND, VOR, VXOR, VMIN, VMAX, VCMP, VSEL, VMUL, VNEG, VABS, VSHL and VSRA compute, lane by lane. Shift
counts outside the ranges of R177 leave the result open and are not here.

R180: the search with index keeps an extreme and its index, an equal value keeping the earlier one; the reduction takes the lowest index
among equal extremes. -/
def Obligations.VectorAndSearchOperationsCompute : Prop :=
  (∀ (s : State) (c : Nat) (sat : Bool) (d a b : Fin 8) (n : Fin 64) (cc : VCond),
    let x := s.landed c
    let r := fun (l : Nat) => 4 * d.val + l
    let va := fun (l : Nat) => x.lane a l
    let vb := fun (l : Nat) => x.lane b l
    let wa := fun (l : Nat) => x.reg (4 * a + l)
    let wb := fun (l : Nat) => x.reg (4 * b + l)
    Computes (.vadd c true sat d a b) s c (.vop .add sat d a b) [.lan] (laneResults fun l => satResult x 1 (r l) sat (va l + vb l)) ∧
    Computes (.vsub c true sat d a b) s c (.vop .sub sat d a b) [.lan] (laneResults fun l => satResult x 1 (r l) sat (va l - vb l)) ∧
    Computes (.vand c true d a b) s c (.vop .and false d a b) [.lan] (laneResults fun l => resultOf x 1 (r l) (sint (wa l &&& wb l))) ∧
    Computes (.vor c true d a b) s c (.vop .or false d a b) [.lan] (laneResults fun l => resultOf x 1 (r l) (sint (wa l ||| wb l))) ∧
    Computes (.vxor c true d a b) s c (.vop .xor false d a b) [.lan] (laneResults fun l => resultOf x 1 (r l) (sint (wa l ^^^ wb l))) ∧
    Computes (.vmin c true d a b) s c (.vop .min false d a b) [.lan]
      (laneResults fun l => resultOf x 1 (r l) (if va l ≤ vb l then va l else vb l)) ∧
    Computes (.vmax c true d a b) s c (.vop .max false d a b) [.lan]
      (laneResults fun l => resultOf x 1 (r l) (if va l ≤ vb l then vb l else va l)) ∧
    Computes (.vsel c true d a b) s c (.vop .sel false d a b) [.lan]
      (laneResults fun l => resultOf x 1 (r l) (if x.pred l then va l else vb l)) ∧
    Computes (.vcmp c true cc a b) s c (.vcmp cc a b) [.lan] (resultOf x 1 95
      (((if vcondHolds cc (va 0) (vb 0) then 1 else 0) + (if vcondHolds cc (va 1) (vb 1) then 2 else 0) +
        (if vcondHolds cc (va 2) (vb 2) then 4 else 0) + (if vcondHolds cc (va 3) (vb 3) then 8 else 0) : Nat) : Int)) ∧
    Computes (.vmul c true sat d a b) s c (.vop .mul sat d a b) [.lan]
      (laneResults fun l => satResult x 3 (r l) sat (roundShift (va l * vb l) 31)) ∧
    Computes (.vneg c true sat d a) s c (.vop1 .neg sat d a) [.lan] (laneResults fun l => satResult x 1 (r l) sat (-va l)) ∧
    Computes (.vabs c true sat d a) s c (.vop1 .abs sat d a) [.lan]
      (laneResults fun l => satResult x 1 (r l) sat (if va l < 0 then -va l else va l)) ∧
    (n.val ≤ 31 → Computes (.vshl c true sat d a n) s c (.vop1 (.shl n) sat d a) [.lan]
      (laneResults fun l => satResult x 1 (r l) sat (va l * (2 ^ n.val : Nat)))) ∧
    (1 ≤ n.val ∧ n.val ≤ 31 → Computes (.vsra c true d a n) s c (.vop1 (.sra n) false d a) [.lan]
      (laneResults fun l => resultOf x 1 (r l) (roundShift (va l) n)))) ∧
  (∀ (s : State) (c : Nat) (d a : Fin 8) (g : Fin 32),
    let x := s.landed c
    (d.val % 2 = 0 →
      Computes (.vmaxi c true d a g) s c (.search true d a g) [.lan] (laneResults fun l =>
        if x.lane d l < x.lane a l then resultOf x 1 (4 * d + l) (x.lane a l) ++ resultOf x 1 (4 * d + 4 + l) (sint (x.reg g) + l) else []) ∧
      Computes (.vmini c true d a g) s c (.search false d a g) [.lan] (laneResults fun l =>
        if x.lane a l < x.lane d l then resultOf x 1 (4 * d + l) (x.lane a l) ++ resultOf x 1 (4 * d + 4 + l) (sint (x.reg g) + l) else [])) ∧
    (a.val < 7 → g.val < 31 → ∀ b : Fin 4,
      ((∀ l : Fin 4, x.lane a l < x.lane a b ∨ (x.lane a l = x.lane a b ∧ x.lane (a + 1) b ≤ x.lane (a + 1) l)) →
        (∀ l : Fin 4, l < b → x.lane a l = x.lane a b → x.lane (a + 1) b < x.lane (a + 1) l) →
        Computes (.rmaxi c true g a) s c (.reduce true g a) [.lan]
          (resultOf x 2 g (x.lane a b) ++ resultOf x 2 (g + 1) (x.lane (a + 1) b))) ∧
      ((∀ l : Fin 4, x.lane a b < x.lane a l ∨ (x.lane a l = x.lane a b ∧ x.lane (a + 1) b ≤ x.lane (a + 1) l)) →
        (∀ l : Fin 4, l < b → x.lane a l = x.lane a b → x.lane (a + 1) b < x.lane (a + 1) l) →
        Computes (.rmini c true g a) s c (.reduce false g a) [.lan]
          (resultOf x 2 g (x.lane a b) ++ resultOf x 2 (g + 1) (x.lane (a + 1) b)))))

/-- R177, R179: the accumulator operations, where the accumulator holds no clamp, no multiply-accumulate of the bundle before is chained,
and the exact sum fits 72 bits: the accumulators take the exact sums. AEXT rounds and saturates; ACLR and AMOV set the accumulators and
clear their ACL bits. -/
def Obligations.AccumulatorOperationsCompute : Prop := ∀ (s : State) (c : Nat) (sat : Bool) (e : Fin 2) (d a b : Fin 8) (g : Fin 32) (n : Fin 64),
  let x := s.landed c
  let acc := fun (l : Nat) => x.accu (2 * l + e)
  let open_ := x.chain = [] ∧ ∀ k, x.clamped k = false
  let fits := fun (v : Int) => satS 72 v = v
  let sums := fun (v : Nat → Int) => laneResults fun l => resultOf x 3 (80 + (2 * l + e)) (v l)
  (open_ → (∀ l, fits (acc l + x.lane a l * x.lane b l)) →
    Computes (.vmac c true sat e a b) s c (.mac false false sat e a b) [.lan] (sums fun l => acc l + x.lane a l * x.lane b l)) ∧
  (open_ → (∀ l, fits (acc l - x.lane a l * x.lane b l)) →
    Computes (.vmsu c true sat e a b) s c (.mac true false sat e a b) [.lan] (sums fun l => acc l - x.lane a l * x.lane b l)) ∧
  (open_ → (∀ l, fits (acc l + x.lane a l * sint (x.reg g))) →
    Computes (.vmacb c true sat e a g) s c (.mac false true sat e a g) [.lan] (sums fun l => acc l + x.lane a l * sint (x.reg g))) ∧
  (open_ → (∀ l, fits (acc l - x.lane a l * sint (x.reg g))) →
    Computes (.vmsub c true sat e a g) s c (.mac true true sat e a g) [.lan] (sums fun l => acc l - x.lane a l * sint (x.reg g))) ∧
  (x.clamped e = false → fits (x.accu e + x.accu (2 + e) + x.accu (4 + e) + x.accu (6 + e)) →
    Computes (.asum c true sat e) s c (.asum sat e) [.lan]
      (resultOf x 3 (80 + e) (x.accu e + x.accu (2 + e) + x.accu (4 + e) + x.accu (6 + e)))) ∧
  (n.val ≤ 40 → Computes (.aext c true sat d e n) s c (.aext sat d e n) [.lan]
    (laneResults fun l => satResult x 2 (4 * d + l) sat (roundShift (acc l) n))) ∧
  (n.val ≤ 40 → Computes (.amov c true e a n) s c (.amov e a n) [.lan] (laneResults fun l =>
    resultOf x 1 (80 + 2 * l + e) (x.lane a l * (2 ^ n.val : Nat)) ++ resultOf x 1 93 ((2 * l + e : Nat) : Int))) ∧
  Computes (.aclr c true e) s c (.aclr e) [.lan] (laneResults fun l =>
    resultOf x 1 (80 + 2 * l + e) 0 ++ resultOf x 1 93 ((2 * l + e : Nat) : Int))

/-- R168 to R170, R177: LD.W, LD.H, LD.V and LD.VB read tile memory at the addresses of R170, where the core may reach them, and move the
pointer; four bundles later the register holds what was read. Of the registers only the two stall counters may change (how many cycles
an access freezes the core is the model's free value).

R168 to R170, R177: ST.W and ST.V write the bytes of their registers at the addresses of R170, least significant first, and move the
pointer; every other byte of memory stays. ST.V is stated where its four places do not overlap. -/
def Obligations.MemoryOperationsReachTheTile : Prop :=
  (∀ (s : State) (c : Nat) (d : Fin 32) (v k : Fin 8) (m : Option (Fin 8)) (p : Nat → Nat),
    let x := s.landed c
    let mem := fun (l n : Nat) => leNat (s.lan.tile.load (p l) n)
    let moves := resultOf x 1 (32 + k) (x.post k m)
    let reads := fun (i : Instr) (w : CoreOp) (fl : List Flight) => s.takes c w → Runs i s (fun t =>
      Issues s t c (fl ++ moves) 4 ∧ Frame [.free, .regs, .lan] s t ∧ RegsKept [0x70108, 0x7010C] s t ∧ BytesKept s t)
    (s.access c (x.ea k 0) 4 = .ok (p 0) → reads (.ldW c true d k m) (.ld .w d k m) (resultOf x 4 d (signed 32 (mem 0 4)))) ∧
    (s.access c (x.ea k 0) 2 = .ok (p 0) → reads (.ldH c true d k m) (.ld .h d k m) (resultOf x 4 d (signed 16 (mem 0 2) * 65536))) ∧
    ((∀ l < 4, s.access c (x.ea k l) 4 = .ok (p l)) → reads (.ldV c true v k m) (.ld .v v k m)
      (laneResults fun l => resultOf x 4 (4 * v + l) (signed 32 (mem l 4)))) ∧
    (s.access c (x.ea k 0) 4 = .ok (p 0) → reads (.ldVb c true v k m) (.ld .vb v k m)
      (laneResults fun l => resultOf x 4 (4 * v + l) (signed 32 (mem 0 4))))) ∧
  (∀ (s : State) (c : Nat) (a : Fin 32) (v k : Fin 8) (m : Option (Fin 8)) (p : Nat → Nat),
    let x := s.landed c
    let moves := resultOf x 1 (32 + k) (x.post k m)
    let kept := fun (t : State) => Frame [.free, .regs, .lan] s t ∧ RegsKept [0x70108, 0x7010C] s t ∧
      t.lan.prog = s.lan.prog ∧ t.lan.dram = s.lan.dram
    (s.access c (x.ea k 0) 4 = .ok (p 0) → s.takes c (.st false a k m) → Runs (.stW c true a k m) s (fun t =>
      Issues s t c moves 4 ∧ kept t ∧ t.lan.tile.load (p 0) 4 = leBytes 4 (x.reg a).toNat ∧
        ∀ j, (j < p 0 ∨ p 0 + 4 ≤ j) → t.lan.tile.byte j = s.lan.tile.byte j)) ∧
    ((∀ l < 4, s.access c (x.ea k l) 4 = .ok (p l)) → (∀ l < 4, ∀ j < l, p l + 4 ≤ p j ∨ p j + 4 ≤ p l) →
      s.takes c (.st true v k m) → Runs (.stV c true v k m) s (fun t =>
      Issues s t c moves 4 ∧ kept t ∧ (∀ l < 4, t.lan.tile.load (p l) 4 = leBytes 4 (x.reg (4 * v + l)).toNat) ∧
        ∀ j, (∀ l < 4, j < p l ∨ p l + 4 ≤ j) → t.lan.tile.byte j = s.lan.tile.byte j)))

/-- R182 to R185: branches, CALL, JMP.R, RET and RTI wait for two delay bundles with the target their rule gives; LOOP loads the loop
registers; NI opens its window. A not-taken branch has its delay bundles too. (JMP.R adds gA to the program counter; a target is
relative to the bundle: log entry on branch targets.)

R182: each bundle after a branch brings it nearer, and the second takes it: CALL then writes g31 with the address of the bundle after
it, RTI restores cst from icst and leaves the handler, a branch not taken falls through. Stated with a NOP as the delay bundle.

R185: at a loop's end bundle a count above 1 falls by 1 and the loop turns; a count of 1 becomes 0 and execution falls through. Stated
with a NOP as the end bundle of one loop. -/
def Obligations.ControlFlowTurns : Prop :=
  (∀ (s : State) (c : Nat) (a : Fin 32) (cc : BCond) (off : Int) (ext : Bool) (n : Fin 64) (k : Fin 2),
    let x := s.landed c
    let words : Nat := if ext then 2 else 1
    let at_ := fun (o : Int) => pattern 19 ((x.pc : Int) + o)
    let next := (x.pc + 4 * words) % 2 ^ 19
    let waits := fun (i : Instr) (w : CoreOp) (kind target len : Nat) => s.takes c w → Runs i s (fun t =>
      Issues s t c [] len ∧ (t.core c).branch = some (2, kind, target) ∧ Frame [.lan] s t ∧ BytesKept s t)
    waits (.br c true cc off ext) (.br cc off ext) (if condHolds cc x.flags then 0 else 3) (at_ off) (4 * words) ∧
    waits (.call c true off ext) (.call off ext) 1 (at_ off) (4 * words) ∧
    waits (.jmpR c true a) (.jmpR a) 0 (at_ (sint (x.reg a))) 4 ∧
    waits (.ret c true) .ret 0 ((x.reg 31).toNat % 2 ^ 19) 4 ∧
    (x.inHandler = true → waits (.rti c true) .rti 2 0 4) ∧
    (s.takes c (.loop k a off ext) → x.reg 64 = 0 → x.reg 65 = 0 → next ≤ at_ off →
      Runs (.loop c true k a off ext) s (fun t =>
        (t.core c).reg (64 + k) = x.reg a ∧ ((t.core c).reg (66 + k)).toNat = next ∧ ((t.core c).reg (68 + k)).toNat = at_ off ∧
        (t.core c).pc = (if x.reg a = 0 then (at_ off + s.bundleLen c (at_ off)) % 2 ^ 19 else next) ∧
        (∀ r, r ≠ 64 + k.val → r ≠ 66 + k.val → r ≠ 68 + k.val → r ≠ 74 → (t.core c).reg r = x.reg r) ∧ Frame [.lan] s t ∧ BytesKept s t)) ∧
    (1 ≤ n.val ∧ n.val ≤ 16 → x.ni = 0 → s.takes c (.ni n) → Runs (.ni c true n) s (fun t =>
      (t.core c).ni = n ∧ (∀ r, r ≠ 64 → r ≠ 65 → r ≠ 74 → (t.core c).reg r = x.reg r) ∧ Frame [.lan] s t ∧ BytesKept s t))) ∧
  (∀ (s : State) (c n kind target : Nat),
    let x := s.landed c
    let next := (x.pc + 4) % 2 ^ 19
    s.coreRuns c = true → (s.core c).bundle = [] → (s.core c).branch = some (n, kind, target) →
      s.bundleFault c x [.nop] true = none → kind < 4 →
      Runs (.coreNop c true) s (fun t =>
        (n = 2 → (t.core c).branch = some (1, kind, target) ∧ (t.core c).pc = next ∧ (t.core c).reg 31 = x.reg 31) ∧
        (n = 1 → (t.core c).branch = none ∧
          (t.core c).pc = (if kind = 2 then (x.reg 71).toNat else if kind = 3 then next else target) ∧
          (t.core c).reg 31 = (if kind = 1 then BitVec.ofNat 32 next else x.reg 31) ∧
          (kind = 2 → (t.core c).reg 74 = x.reg 72 ∧ (t.core c).inHandler = false)) ∧
        Frame [.lan] s t ∧ BytesKept s t)) ∧
  (∀ (s : State) (c : Nat) (k : Fin 2),
    let x := s.landed c
    s.takes c .nop → (x.reg (65 - k)) = 0 → 0 < (x.reg (64 + k)).toNat → (x.reg (68 + k)).toNat = x.pc →
      Runs (.coreNop c true) s (fun t => ((t.core c).reg (64 + k)).toNat = (x.reg (64 + k)).toNat - 1 ∧
        (t.core c).pc = if 1 < (x.reg (64 + k)).toNat then (x.reg (66 + k)).toNat else (x.pc + 4) % 2 ^ 19))

/-- R171, R172, R189: DMA operations join the core's transfers while fewer than four are outstanding; DMA.WAIT goes on once at most n are;
FFT.RUN marks its record pending and joins the queue of the unit that serves the cluster while that has room; FFT.WAIT goes on once the
record is no longer pending. Else the core freezes. -/
def Obligations.TransfersAndTransformsQueue : Prop := ∀ (s : State) (c : Nat) (p : Fin 8) (a b g : Fin 32) (n place : Nat),
  Sound s →
  let x := s.landed c
  let queues := fun (i : Instr) (kind : Nat) => ∀ j, s.dmaJob c x kind p b g = .ok j → s.takes c (.dma kind p b g) →
    Runs i s (fun t => Issues s t c [] 4 ∧ Frame [.lan] s t ∧ BytesKept s t ∧
      j.kind = kind ∧ j.bytes = (x.reg g).toNat ∧
      if x.dma.length < 4 then (t.core c).dma = x.dma ++ [j] else (t.core c).freeze = some (.dma j))
  queues (.dmaRd c true p b g) 0 ∧ queues (.dmaWr c true p b g) 1 ∧ queues (.dmaTrd c true p b g) 2 ∧
  queues (.dmaTwr c true p b g) 3 ∧
  (s.takes c (.dmaWait n) → Runs (.dmaWait c true n) s (fun t => Issues s t c [] 4 ∧ Frame [.lan] s t ∧ BytesKept s t ∧
    (n < x.dma.length → (t.core c).freeze = some (.dmaWait n)))) ∧
  ((x.reg a).toNat % 32 = 0 → s.access c (x.reg a).toNat 32 = .ok place →
    let job : FftJob := { cluster := c / 8, core := c, addr := place, task := (s.taskOf c).map (·.item), image := (s.imageOf c).map (·.id) }
    (s.takes c (.fftRun a) → (s.fftQ (s.fftServer (c / 8))).length < 16 → Runs (.fftRun c true a) s (fun t =>
      Issues s t c [] 4 ∧ Frame [.lan] s t ∧ t.lan.tile.byte (place + 13) = 0 ∧
      (∀ j, j ≠ place + 13 → t.lan.tile.byte j = s.lan.tile.byte j) ∧
      t.fftQ (s.fftServer (c / 8)) = s.fftQ (s.fftServer (c / 8)) ++ [job])) ∧
    (s.takes c (.fftWait a) → Runs (.fftWait c true a) s (fun t => Issues s t c [] 4 ∧ Frame [.lan] s t ∧ BytesKept s t ∧
      (s.fftStatus place = 0 → (t.core c).freeze = some (.fftWait place)))))

/-- R152, R153, R187: WAIT.TASK ends the core's task once no transfer that writes is outstanding: the task leaves service and the core waits
with its registers as an idle core's. POST of a node that the task may not name returns 2 and is counted; POST of a successor whose
instance is live and in time, whose level has room and which joins no others makes the item and returns 0.

R155, R197: the one blocked POST goes on with 0 once it can be posted, with 3 where its deadline has passed, and stays while it cannot;
it goes on with 1 when it has been blocked for the timeout. A host message then completes with its instance and level, or with 0x0708. -/
def Obligations.TasksPostAndEnd : Prop :=
  (∀ (s : State) (c : Nat) (d a b : Fin 32) (task : WTask) (i : Image) (r r2 : List Byte) (i2 : Image) (inst : WInst),
    let x := s.landed c
    let node := field (x.reg a) 11 0
    let key := field (x.reg a) 31 16
    s.taskOf c = some task → task.item.vigil = none → x.inHandler = false → x.writesOut = false →
    (s.takes c (.waitTask true) → Runs (.waitTask c true true) s (fun t =>
      task ∉ t.wick.tasks ∧ (t.core c).st = 0 ∧ (t.core c).r = LCore.idle0.r ∧ BytesKept s t)) ∧
    (s.takes c (.post d a b) → s.imageOf c = none → Runs (.post c true d a b) s (fun t =>
      (t.core c).flight = x.flight ++ resultOf x 1 d 2 ∧ t.reg 0x50114 = BitVec.ofNat 32 (satU 32 ((s.reg 0x50114).toNat + 1)) ∧
      RegsKept (0x50114 :: traceRegs) s t ∧ t.wick.items = s.wick.items ∧ Frame [.free, .regs, .host, .rings, .wick, .lan, .sta] s t ∧ BytesKept s t)) ∧
    (s.takes c (.post d a b) → s.imageOf c ≠ none → s.nodeOf task.item.node = some (i, r) → (s.succOf r).contains node = true →
      mailboxRing node = none → s.nodeOf node = some (i2, r2) → s.instOf task.item.grid task.item.num = some inst →
      s.pastDeadline (s.deadlineOf inst r2) = false → ndInCount r2 ≤ 1 → s.levelOpen (ndLevel r2) = true → Runs (.post c true d a b) s (fun t =>
        (t.core c).flight = x.flight ++ resultOf x 1 d 0 ∧ s.newItem inst r2 key (x.reg b).toNat ∈ t.wick.items ∧ BytesKept s t))) ∧
  (∀ (s : State) (dt c d : Nat) (q : WPost),
    let x := s.core c
    let a := s.aimPost q
    let returned := fun (t : State) (code : Int) =>
      t.core c = { x with freeze := none, flight := x.flight ++ [{ land := x.issued, reg := d, val := code }] } ∧
      t.wick.blocked = [] ∧ (∀ k, k ≠ c → t.core k = s.core k) ∧ BytesKept s t
    s.wick.blocked = [q] →
    (q.core = some c → x.freeze = some (.post d) →
      ((s.tryPost q true).1 = .done → Runs .postAdmit s (fun t => returned t 0)) ∧
      ((s.tryPost q true).1 = .expired → Runs .postAdmit s (fun t => returned t 3)) ∧
      (q.since + s.wckTimeout ≤ (s.elapse dt).now → Runs (.postTimeout dt) s (fun t => returned t 1 ∧ t.reg 0x50110 = s.up 0x50110 1))) ∧
    ((s.tryPost a true).1 = .block → exec .postAdmit s = .next s) ∧
    ((s.elapse dt).now < q.since + s.wckTimeout → Runs (.postTimeout dt) s (fun t => t.wick.blocked = [q] ∧ t.lan = s.lan)) ∧
    (q.core = none →
      ((s.tryPost a true).1 = .done → ∃ u : State, exec .postAdmit s = .next (u.finishAt q.ring q.index stOk 0 s.now
        (some (BitVec.ofNat 32 (a.num % 256 + 256 * (s.postLevel a).getD 0)))) ∧ u.wick.blocked = [] ∧ u.lan = s.lan) ∧
      ((s.tryPost a true).1 = .expired → Ends .postAdmit s q.ring q.index 0x0708 (fun u => u.wick.blocked = [] ∧ u.lan = s.lan)) ∧
      (q.since + s.wckTimeout ≤ (s.elapse dt).now →
        Ends (.postTimeout dt) s q.ring q.index 0x0708 (fun u => u.wick.blocked = [] ∧ u.lan = s.lan))))

/-- R212 to R215, R33: a descriptor that stands alone on its ring and ends is reported: in its slot with PHASE set and on the consumer page,
with the message of its source or none; or, where completions of its ring go to ring 1, as a ring 1 entry, which waits while ring 1 is
full or others wait. The stamp never falls.

R212: on a ring other than ring 0 a descriptor that has ended is not reported while an earlier one is outstanding. -/
def Obligations.CompletionsAreWrittenInOrder : Prop :=
  (∀ (s : State) (r status : Nat) (d : Desc),
    isD2h r = false → (s.ring r).descs = [d] → d.peer = none → s.linkOk = true → s.host.lateAborts = [] → s.pwr.standby = none →
    let t := s.finish r d.index status
    let stamp := max s.now (s.ring r).lastStamp
    (t.ring r).descs = [] ∧ (t.ring r).lastStamp = stamp ∧
    (s.toRing1 r = false → (t.ring r).cons = idxAdd (s.ring r).cons 1 ∧
      ∃ l, t.host.out = s.host.out ++
        [.mem (s.ringBase r + 32 * (d.index % s.ringSize r) + 16) (completionRecord d.w6 status 0 stamp true),
         .mem (s.reg64 0x10018 + 8 * r)
          (leBytes 8 (idxAdd (s.ring r).cons 1 + 2 ^ 32 * s.ringGen r + 2 ^ 48 * (s.ring r).state.code))] ++ l ∧
        (l = [] ∨ l = [s.host.msixOf (ringSource r)])) ∧
    (s.toRing1 r = true → (s.d2hFull 1 = true ∨ s.host.wait1 ≠ []) →
      t.host.out = s.host.out ∧ t.host.wait1 = s.host.wait1 ++ [completionRecord d.w6 status 0 stamp false ++
        leBytes 4 d.index ++ leBytes 1 r ++ leBytes 1 d.opcode ++ leBytes 2 0 ++ leBytes 4 0]) ∧
    (s.toRing1 r = true → s.d2hFull 1 = false → s.host.wait1 = [] → t.host.wait1 = [] ∧ (t.ring 1).wr = idxAdd (s.ring 1).wr 1)) ∧
  (∀ (s : State) (r status : Nat) (a b : Desc),
    r ≠ 0 → (s.ring r).descs = [a, b] → a.index ≠ b.index → a.isDone = false → s.host.lateAborts = [] → s.pwr.standby = none →
    let t := s.finish r b.index status
    t.host.out = s.host.out ∧ t.host.wait1 = s.host.wait1 ∧ t.link.replies = s.link.replies ∧
      (t.ring r).descs = [a, { b with phase := .done status 0 s.now none }])

/-- R206, R219, R220, R223: NOP completes with RESULT 0; ABORT withdraws a descriptor that has not passed its commit point and waits for its
completion, waits to end with TOO_LATE for one that has, and answers NOT_FOUND where no outstanding one bears the cookie; RING_SETUP
writes the ring's registers (the base without its low 9 bits) and with ENABLE starts it with its indices at 0; RING_STOP stops it. -/
def Obligations.RingCommandsTakeEffect : Prop := ∀ (s : State) (d : Desc),
  let t := field d.w0 21 16
  (∀ r, s.nextDesc r 0 = some d → d.w0 = 0 → d.w1 = 0 → d.w2 = 0 → d.w3 = 0 → d.w4 = 0 → d.w5 = 0 →
    exec (.nop r) s = .next (s.finishAt r d.index stOk 0 s.now (some 0))) ∧
  (∀ fetch x, s.nextDesc 0 0xA1 = some d → field d.w0 31 22 = 0 → d.flags = 0 → d.w2 = 0 → d.w3 = 0 → d.w4 = 0 → d.w5 = 0 →
    1 < t → isD2h t = false →
    let u := s.fetchRing t 65536 fetch
    (u.ring t).descs.find? (fun y => y.w6 == d.w1) = some x →
    ((x.phase = .committed ∨ x.isDone = true) → Runs (.abort fetch) s (fun v => v.atPhase 0 d.index .committed ∧
      v.host = { u.host with lateAborts := u.host.lateAborts ++ [(d.index, t, x.index, stTooLate)] } ∧ Frame [.rings, .host] u v)) ∧
    (x.phase ≠ .committed → x.isDone = false → Runs (.abort fetch) s (fun w => ∃ v : State, w = v.retire t ∧
      v.atPhase t x.index (.done stAborted 0 u.now none) ∧ v.atPhase 0 d.index .committed ∧
      v.host.lateAborts = u.host.lateAborts ++ [(d.index, t, x.index, stOk)]))) ∧
  (∀ fetch, s.nextDesc 0 0xA1 = some d → field d.w0 31 22 = 0 → d.flags = 0 → d.w2 = 0 → d.w3 = 0 → d.w4 = 0 → d.w5 = 0 →
    1 < t → isD2h t = false →
    ((s.fetchRing t 65536 fetch).ring t).descs.find? (fun y => y.w6 == d.w1) = none →
    Ends (.abort fetch) s 0 d.index stNotFound (fun u => u = s.fetchRing t 65536 fetch)) ∧
  (s.nextDesc 0 0xA2 = some d → field d.w0 31 22 = 0 → field d.w0 15 9 = 0 → field d.w1 31 16 ≠ s.ringGen t →
    4 ≤ field d.w1 4 0 → field d.w1 4 0 ≤ 16 → 1 < t → (s.ring t).state.idle = true → s.auditFill + 4 ≤ 4096 →
    Ends .ringSetup s 0 d.index stOk (fun u =>
      u.reg (regRing t) = (d.w2 &&& 0xFFFFFE00) ∧ u.reg (regRing t + 4) = d.w3 ∧ u.fld (regRing t + 8) 4 0 = field d.w1 4 0 ∧
      u.fld (regRing t + 8) 15 8 = field d.w1 15 8 ∧ u.flag (regRing t + 8) 31 = bitOf d.w0 8 ∧ u.ringGen t = field d.w1 31 16 ∧
      u.audit.index = s.audit.index + 4 ∧ (u.ring t).state = (if bitOf d.w0 8 then .running else (s.ring t).state) ∧
      (u.ring t).fetched = 0 ∧ (u.ring t).cons = 0 ∧ (u.ring t).wr = 0 ∧ (u.ring t).doorIndex = 0 ∧ (u.ring t).seq = 1 ∧
      Frame [.regs, .host, .rings, .audit, .pwr, .sta] s u)) ∧
  (s.nextDesc 0 0xA3 = some d → field d.w0 31 22 = 0 → d.flags = 0 → d.w1 = 0 → d.w2 = 0 → d.w3 = 0 → d.w4 = 0 → d.w5 = 0 →
    1 < t → (s.ring t).state = .running → (s.ring t).descs = [] → s.host.lateAborts = [] → s.pwr.standby = none →
    Runs .ringStop s (fun u => (u.ring t).state = .stopping ∧ (u.ring t).stopCmd = some d.index ∧ (u.ring t).errCause = 0 ∧
      u.atPhase 0 d.index .committed))

/-- R218, R220: a stopping ring whose last completion is written comes to rest, in ERROR where it stopped for a cause, and the RING_STOP
that named it ends; while RUN is 0 and a host-to-device ring is not at rest, or RUN is 1, the device-to-host rings go on.

R218, R443: HIF_CTRL.RUN takes the bit written, and from 0 to 1 WRITE_SEQ restarts; HIF_RING_CFG of a ring at rest takes its value with
LOG2SIZE kept where out of range, and ENABLE starts the ring with its indices at 0 or disables it; a write while the ring runs is
discarded and counted. -/
def Obligations.RingsStartAndStop : Prop :=
  (∀ (s : State) (r : Nat),
    let x := s.ring r
    x.state = .stopping → s.allWritten r = true →
    (x.errCause = 0 → x.stopCmd = none → Runs (.ringStopped r) s (fun t => t = (s.setRing r { x with state := .stopped, stopCmd := none }).stopD2h)) ∧
    (s.flag 0x10000 0 = true →
      (∀ i, x.errCause = 0 → x.stopCmd = some i → Ends (.ringStopped r) s 0 i stOk (fun u => (u.ring r).state = .stopped ∧ Frame [.rings] s u)) ∧
      (x.errCause ≠ 0 → x.stopCmd = none → Runs (.ringStopped r) s (fun t =>
        (t.ring r).state = .error ∧ Frame [.regs, .host, .rings] s t ∧ RegsKept [0x10114, 0x20008] s t)) ∧
      (∀ i, x.errCause ≠ 0 → x.stopCmd = some i → Ends (.ringStopped r) s 0 i stOk (fun u =>
        (u.ring r).state = .error ∧ Frame [.regs, .host, .rings] s u ∧ RegsKept [0x10114, 0x20008] s u)))) ∧
  (∀ (s : State) (v : Word) (r : Nat),
    (s.auditRoom 1 = true → (bitOf v 0 = true ∨ s.flag 0x10000 0 = false) → Runs (.run v) s (fun t =>
      t.reg 0x10000 = v &&& 1 ∧ Logged s t ∧ RegsKept (0x10000 :: auditRegs) s t ∧
      (bitOf v 0 = true → s.flag 0x10000 0 = false → t.host.writeSeq = 0) ∧ Frame [.regs, .host, .rings, .audit, .pwr, .sta] s t)) ∧
    (s.auditRoom 1 = true → bitOf v 0 = false → s.flag 0x10000 0 = true → r < 64 → isD2h r = false → (s.ring r).state = .running →
      (s.ring r).descs = [] → (∀ q < 64, q ≠ r → isD2h q = false → (s.ring q).state ≠ .running) → s.host.lateAborts = [] →
      s.pwr.standby = none → Runs (.run v) s (fun t =>
        t.reg 0x10000 = v &&& 1 ∧ Logged s t ∧ (t.ring r).state = .stopping ∧ RegsKept (0x10000 :: auditRegs) s t ∧
        Frame [.regs, .host, .rings, .audit, .pwr, .sta] s t)) ∧
    (r < 64 → (s.ring r).state.idle = true → 3 ≤ s.mgt.modState → s.auditRoom 1 = true → Runs (.enable r v) s (fun t =>
      t.flag (regRing r + 8) 31 = bitOf v 31 ∧ t.fld (regRing r + 8) 15 8 = field v 15 8 ∧ Logged s t ∧
      t.fld (regRing r + 8) 4 0 = (if 4 ≤ field v 4 0 ∧ field v 4 0 ≤ 16 then field v 4 0 else s.fld (regRing r + 8) 4 0) ∧
      t.flag (regRing r + 8) 7 = (if r = 0 then true else if isD2h r then false else bitOf v 7) ∧
      (bitOf v 31 = true → (t.ring r).state = .running ∧ (t.ring r).fetched = 0 ∧ (t.ring r).cons = 0 ∧ (t.ring r).wr = 0 ∧
        (t.ring r).seq = 1 ∧ (t.ring r).descs = []) ∧
      (bitOf v 31 = false → (t.ring r).state = .disabled) ∧ Frame [.regs, .host, .rings, .audit, .pwr, .sta] s t)) ∧
    (r < 64 → (s.ring r).state.idle = false → Runs (.enable r v) s (fun t =>
      t.reg 0x10120 = BitVec.ofNat 32 (satU 32 ((s.reg 0x10120).toNat + 1)) ∧ t.flag 0x10004 4 = true ∧
      RegsKept [0x10120, 0x10004] s t ∧ Frame [.regs] s t)))

/-- R209, R210, R208: a poll is counted, and so is one whose page read fails, with the 16th in a row setting its flag; a doorbell of a
running ring is taken where its generation and range hold, and else counted, or stops the ring; a fetched descriptor joins its ring,
ended at once where its seal fails or its ring does not take its opcode.

R205, R214, R217, R221: what waits for ring 1 is written while it has room and stays while it has none; the status page is written with
WRITE_SEQ one higher and FIRED cleared; an ended holdoff sends one message for what it held; a write of a vector's table entry sets its
address, data and mask, and unmasking it sends its pending message. -/
def Obligations.DoorbellsAndWaitingWrites : Prop :=
  (∀ (s : State) (fetch : List (Nat × Option (List Word))) (r : Nat) (e : DWord) (ws : List Word),
    let idx := e.toNat % 2 ^ 32
    let x := s.ring r
    let d := mkDesc (2 ^ 32 * x.epoch + x.fetched) ws
    (s.flag 0x10000 0 = true → s.linkOk = true → Runs (.doorbellPoll none fetch) s (fun t =>
      t.reg 0x10100 = BitVec.ofNat 32 (satU 32 ((s.reg 0x10100).toNat + 1)) ∧
      t.reg 0x10108 = BitVec.ofNat 32 (satU 32 ((s.reg 0x10108).toNat + 1)) ∧ t.host.pageFails = s.host.pageFails + 1 ∧
      (15 ≤ s.host.pageFails → t.flag 0x10004 3 = true) ∧ RegsKept [0x10100, 0x10108, 0x10004] s t ∧ Frame [.regs, .host] s t)) ∧
    (s.flag 0x10000 0 = true → s.linkOk = true → s.rings = [] → s.host.hostReset = none → s.host.lateAborts = [] →
      s.pwr.standby = none → ∀ page, Runs (.doorbellPoll (some page) fetch) s (fun t =>
        t.reg 0x10100 = BitVec.ofNat 32 (satU 32 ((s.reg 0x10100).toNat + 1)) ∧ t.host.pageFails = 0 ∧ t.rings = [] ∧
        RegsKept [0x10100] s t ∧ Frame [.regs, .host] s t)) ∧
    (x.state = .running → isD2h r = false → e.toNat / 2 ^ 50 = 0 → (e.toNat / 2 ^ 32) % 2 ^ 16 = s.ringGen r →
      idxSub x.fetched x.cons ≤ idxSub idx x.cons → idxSub idx x.cons ≤ s.ringSize r →
      (s.takeDoorbell r e).ring r = { x with doorIndex := idx, notifyOff := e.getLsbD 48, paused := e.getLsbD 49 }) ∧
    (x.state = .running → (e.toNat / 2 ^ 32) % 2 ^ 16 ≠ s.ringGen r →
      (s.takeDoorbell r e).ring r = x ∧ (s.takeDoorbell r e).reg 0x10104 = BitVec.ofNat 32 (satU 32 ((s.reg 0x10104).toNat + 1))) ∧
    (r ≠ 0 → ((s.takeDesc r ws).ring r).fetched = idxAdd x.fetched 1 ∧
      (entrySeal r x.fetched d.body ≠ (ws.getD 7 0).toNat →
        ((s.takeDesc r ws).ring r).descs = x.descs ++ [{ d with phase := .done stBadSeal 0 s.now none }] ∧
        (s.takeDesc r ws).reg 0x1010C = BitVec.ofNat 32 (satU 32 ((s.reg 0x1010C).toNat + 1))) ∧
      (entrySeal r x.fetched d.body = (ws.getD 7 0).toNat → ringAccepts r d.opcode = true →
        ((s.takeDesc r ws).ring r).descs = x.descs ++ [d]) ∧
      (entrySeal r x.fetched d.body = (ws.getD 7 0).toNat → ringAccepts r d.opcode = false →
        ((s.takeDesc r ws).ring r).descs = x.descs ++ [{ d with phase := .done stBadOpcode 0 s.now none }]))) ∧
  (∀ (s : State) (dt v r : Nat),
    let u := s.elapse dt
    (s.d2hFull 1 = true → ∀ e es, s.host.wait1 = e :: es → exec (.d2hRingDrain 1) s = .next s) ∧
    (∀ e, s.d2hFull 1 = false → s.host.wait1 = [e] → Runs (.d2hRingDrain 1) s (fun t =>
      t.host.wait1 = [] ∧ (t.ring 1).wr = idxAdd (s.ring 1).wr 1 ∧ RegsKept [0x20008] s t ∧ Frame [.regs, .host, .rings] s t)) ∧
    (∀ e, isD2h r = true → r ≠ 1 → r ≠ 4 → r ≠ 5 → s.d2hFull r = false → (s.ring r).waiting = [e] → Runs (.d2hRingDrain r) s (fun t =>
      (t.ring r).waiting = [] ∧ (t.ring r).wr = idxAdd (s.ring r).wr 1 ∧ RegsKept [0x20008] s t ∧ Frame [.regs, .host, .rings] s t)) ∧
    (s.flag 0x10000 0 = true → s.linkOk = true → Runs (.statusPageWrite dt) s (fun t =>
      t.host.out = s.host.out ++ [.mem (s.reg64 0x10020) (u.statusPage (s.host.writeSeq + 1))] ∧
      t.host.writeSeq = s.host.writeSeq + 1 ∧ t.host.fired = 0 ∧ Frame [.clock, .host] s t)) ∧
    (∀ h, Cells.get (fun _ => 0) s.host.holdUntil v = h → h ≠ 0 → h ≤ u.now → Runs (.holdoffEnd dt v) s (fun t =>
      t.host.held = s.host.held &&& ~~~(bit64 v) ∧ Frame [.clock, .host] s t ∧
      (s.host.held.getLsbD v = false → t.host.out = s.host.out) ∧
      (s.host.held.getLsbD v = true → s.srcEnabled v = true → s.host.msixEnable = true → s.host.vecMask.getLsbD v = false →
        s.linkOk = true → t.host.out = s.host.out ++ [s.host.msixOf v]))) ∧
    (∀ i ∈ [Instr.msixVectorUnmask v, .registerWrite (bar2 + 16 * v + 12) 15 0 .host], v < 64 → s.linkOk = true → Runs i s (fun t =>
      t.host.out = s.host.out ++ (if s.host.vecPend.getLsbD v then [s.host.msixOf v] else []) ∧
      t.host.vecMask = s.host.vecMask &&& ~~~(bit64 v) ∧ t.host.vecPend = s.host.vecPend &&& ~~~(bit64 v) ∧ t.host.msixEnable = true ∧
      t.host.msixOf v = s.host.msixOf v ∧ Frame [.host] s t)) ∧
    (v < 64 → Runs (.registerWrite (bar2 + 16 * v + 12) 15 1 .host) s (fun t =>
      t.host = { s.host with vecMask := s.host.vecMask ||| bit64 v } ∧ Frame [.host] s t)) ∧
    (∀ (a : DWord) (x y : Word) (k : Fin 3), v < 64 → s.host.msixOf v = .msix v a x →
      Runs (.registerWrite (bar2 + 16 * v + 4 * k) 15 y .host) s (fun t =>
        (∃ b z, t.host.msixOf v = .msix v b z ∧ (if k = 2 then b = a ∧ z = y else z = x ∧
          b.extractLsb' (32 * k) 32 = y ∧ b.extractLsb' (32 - 32 * k) 32 = a.extractLsb' (32 - 32 * k) 32)) ∧
        (∀ w, w ≠ v → t.host.msixOf w = s.host.msixOf w) ∧ t.host.out = s.host.out ∧ t.host.vecMask = s.host.vecMask ∧
        t.host.vecPend = s.host.vecPend ∧ Frame [.host] s t)))

/-- R203, R216: a function-level reset and PERST_n return the registers of the host interface to reset, leave every ring DISABLED and owe
one HOST_RESET entry. Bus Master Enable cleared, or the link down; with both back, what waited goes out. -/
def Obligations.HostResetsAndLinkEvents : Prop := ∀ (s : State),
  (∀ kind : Fin 2, Runs (if kind = 0 then .functionLevelReset else .perstN) s (fun t =>
    t.host.hostReset = some kind.val ∧ t.host.bme = false ∧ t.flag 0x10004 2 = true ∧
    (∀ off, 0x10000 ≤ off → off < 0x20000 → off ∉ auditRegs → off ≠ 0x10004 → t.reg off = regReset off) ∧
    (∀ r < 64, (t.ring r).state = .disabled) ∧
    (kind = 1 → t.host.linkWidth = 0 ∧ t.host.linkSpeed = 0))) ∧
  (∀ up bme, Runs (.linkDown up bme) s (fun t =>
    t.host.bme = (s.host.bme && bme) ∧ t.host.linkWidth = (if up then s.host.linkWidth else 0) ∧
    t.host.linkSpeed = (if up then s.host.linkSpeed else 0) ∧ t.host.out = s.host.out ∧ Frame [.host] s t)) ∧
  (∀ width speed v, s.host.wait1 = [] → s.rings = [] → s.sta.banks = [] → s.wick.trace = [] → s.host.lateAborts = [] →
    s.pwr.standby = none → 0 < width → v < 64 → (s.host.dueMsi = 0 ∨ s.host.dueMsi = bit64 v) →
    Runs (.pcieLinkRestored width speed) s (fun t =>
      t.host.bme = true ∧ t.host.linkWidth = width ∧ t.host.linkSpeed = speed ∧ t.host.dueMsi = 0 ∧
      t.host.out = s.host.out ++ (if s.host.dueMsi = 0 then [] else [s.host.msixOf v]) ∧ t.rings = [] ∧ Frame [.host] s t))

/-- R230, R232, R236 to R239, R255: a broken lock is counted and the first error recorded; refreshes owed and taken ahead move as R236 says
and never beyond 8; the mask of channels at the quartered interval, power-down after PD_IDLE cycles of 1.875 ns without a request, and
self-refresh, with their source 61. (Which events a REFRESH command stands for is the model's: its operand names them.)

R236: no command of the controller makes a channel owe more than 8 refreshes or take more than 8 ahead. -/
def Obligations.MemoryIsRefreshed : Prop :=
  (∀ (s : State) (dt ch : Nat),
    let c := s.chan ch
    let up := fun (off : Nat) => BitVec.ofNat 32 (satU 32 ((s.reg off).toNat + 1))
    (∀ master target addr, Runs (.lockBroken dt master target addr) s (fun t => t.reg 0x30104 = up 0x30104 ∧
      (s.flag 0x30008 31 = false → (t.reg 0x30008).toNat = 2 ^ 31 + 2 * 2 ^ 16 + (target % 16) * 2 ^ 8 + master % 16 ∧
        t.reg64 0x3000C = addr % 2 ^ 64) ∧
      (s.flag 0x30008 31 = true → t.reg 0x30008 = s.reg 0x30008 ∧ t.reg64 0x3000C = s.reg64 0x3000C) ∧
      RegsKept [0x30104, 0x30008, 0x3000C, 0x30010] s t ∧ Frame [.clock, .regs] s t)) ∧
    (ch < 4 → c.selfRefresh = false → c.ahead = 0 → c.owed < 8 → Runs (.refresh dt ch (.due true)) s (fun t =>
      t.chan ch = { c with owed := c.owed + 1 } ∧ t.reg 0x40108 = up 0x40108 ∧ RegsKept [0x40108] s t ∧ Frame [.clock, .regs, .dram] s t)) ∧
    (ch < 4 → c.selfRefresh = false → (∀ b, b = false ∨ 0 < c.ahead → Runs (.refresh dt ch (.due b)) s (fun t =>
      t.chan ch = { c with ahead := c.ahead - 1 } ∧ Frame [.clock, .dram] s t))) ∧
    (ch < 4 → c.selfRefresh = false → c.owed = 0 → c.ahead < 8 → Runs (.refresh dt ch .early) s (fun t =>
      t.chan ch = { c with ahead := c.ahead + 1 } ∧ Frame [.clock, .dram] s t)) ∧
    (ch < 4 → Runs (.refresh dt ch .insert) s (fun t => t.chan ch = { c with owed := c.owed - 1 } ∧ Frame [.clock, .dram] s t)) ∧
    (ch < 4 → c.owed = 8 → Runs (.forcedRefresh dt ch) s (fun t =>
      t.chan ch = { c with owed := 0 } ∧ t.reg 0x4010C = up 0x4010C ∧ RegsKept [0x4010C] s t ∧ Frame [.clock, .regs, .dram] s t)) ∧
    (∀ req, let mask := if 1050 < s.caseTemp then 15 else req % 16
      Runs (.refreshRateCheck dt req) s (fun t => t.dram.hot = mask ∧ t.dram.chans = s.dram.chans ∧
        ((mask ≠ 0 ∧ s.dram.hot = 0) ∨ (mask = 0 ∧ s.dram.hot ≠ 0) → t.flag 0x2000C 29 = true) ∧
        RegsKept [0x2000C, 0x10114] s t ∧ Frame [.clock, .regs, .host, .rings, .dram] s t)) ∧
    (ch < 4 → s.fld 0x40000 15 0 ≠ 0 → c.selfRefresh = false → 8 * c.lastReq + 15 * s.fld 0x40000 15 0 ≤ 8 * (s.elapse dt).now → Runs (.powerDownEntry dt ch) s (fun t =>
      t.chan ch = { c with powerDown := true } ∧ Frame [.clock, .dram] s t)) ∧
    (s.mgt.modState = 5 → ch < 4 → c.selfRefresh = false →
      Runs (.selfRefreshEntry dt ch false) s (fun t => (t.chan ch).selfRefresh = true ∧ (t.chan ch).powerDown = false ∧
        t.flag 0x2000C 29 = true ∧ RegsKept [0x2000C, 0x10114] s t ∧ Frame [.clock, .regs, .host, .rings, .dram] s t) ∧
      Runs (.selfRefreshEntry dt ch true) s (fun t => t.reg 0x40110 = up 0x40110 ∧ RegsKept [0x40110] s t ∧ Frame [.clock, .regs] s t))) ∧
  (∀ (s t : State) (i : Instr) (ch : Nat),
    (∀ k, (s.chan k).owed ≤ 8 ∧ (s.chan k).ahead ≤ 8) →
    (∃ dt c kind req arrives, i ∈ [Instr.refresh dt c kind, .forcedRefresh dt c, .refreshRateCheck dt req, .powerDownEntry dt c,
      .selfRefreshEntry dt c arrives]) →
    exec i s = .next t → (t.chan ch).owed ≤ 8 ∧ (t.chan ch).ahead ≤ 8)

/-- R242 to R245: a rotation that is due and whose march test passes begins the copy of the next serving bank, and one whose test fails
retires the spare, which is logged; a completed copy waits for its boundary where the cluster carries live data, and else the spare
takes the bank's place; a serving bank with enough failing words is copied to be retired; a scrub pass counts the failing words it
found.

R243, R244: ROTATE waits for the march test of the spare; RETIRE_BANK begins the copy of the bank named, waits where a rotation copies,
and of the spare itself retires it: at once, or at its boundary where the cluster carries live data. -/
def Obligations.SpareBanksRotateAndRetire : Prop :=
  (∀ (s : State) (dt c : Nat),
    let u := s.elapse dt
    let x := s.tile c
    let up := fun (off n : Nat) => BitVec.ofNat 32 (satU 32 ((s.reg off).toNat + n))
    (c < 16 → s.spare c ≠ 31 → x.phase = 1 → Runs (.spareRotation dt c true) s (fun t =>
      t.tile c = { x with phase := 2, victim := s.nextBank c, retire := false } ∧ t.flag (regBankState c) 8 = true ∧
      RegsKept [regBankState c] s t ∧ Frame [.clock, .regs, .tiles] s t)) ∧
    (c < 16 → s.spare c < 17 → x.phase = 1 → x.cmd = none → s.auditRoom 1 = true → Runs (.spareRotation dt c false) s (fun t =>
      t.bankRetired c (s.spare c) = true ∧ t.spare c = 31 ∧ (t.tile c).phase = 0 ∧ t.reg 0x12011C = up 0x12011C 1 ∧
      t.flag 0x2000C 22 = true ∧ Logged s t ∧ Frame [.clock, .regs, .host, .rings, .audit, .tiles, .pwr] s t)) ∧
    (∀ i, c < 16 → s.spare c < 17 → x.phase = 1 → x.cmd = some i → s.auditRoom 1 = true → Ends (.spareRotation dt c false) s 0 i stOk (fun t =>
      t.bankRetired c (s.spare c) = true ∧ t.spare c = 31 ∧ (t.tile c).phase = 0)) ∧
    (c < 16 → x.phase = 2 → s.clusterLive c = true → x.cmd.isSome = true → Runs (.bankCopyDone dt c) s (fun t =>
      t.tile c = { x with phase := 3 } ∧ Frame [.clock, .tiles] s t)) ∧
    (c < 16 → x.phase = 2 → s.clusterLive c = false → x.cmd = none → x.retire = false → x.next = none → s.auditRoom 1 = true → x.victim < 17 →
      Runs (.bankCopyDone dt c) s (fun t => t.spare c = x.victim ∧ t.tile c = { Tile.idle0 with last := u.now } ∧ Logged s t ∧
        t.flag (regBankState c) 8 = false ∧
        (∀ l < 16, s.tileMap c l = x.victim → (∀ k < l, s.tileMap c k ≠ x.victim) → t.tileMap c l = s.spare c) ∧
        Frame [.clock, .regs, .host, .rings, .audit, .tiles, .pwr, .sta] s t)) ∧
    (∀ b l, c < 16 → l < 16 → s.tileMap c l = b → s.spare c ≠ 31 → x.phase = 0 → x.cmd = none →
      (∀ failed, failed = true ∨ max 1 (s.fld (sramBlock c + 8) 19 16) ≤ s.failingWords c b → Runs (.bankRetire dt c b failed) s (fun t =>
        (t.tile c).phase = 2 ∧ (t.tile c).victim = b ∧ (t.tile c).retire = true ∧ t.flag (regBankState c) 8 = true ∧
        RegsKept [regBankState c] s t ∧ Frame [.clock, .regs, .tiles] s t))) ∧
    (∀ mem fails, mem < 16 ∨ mem = 0x40 ∨ mem = 0x41 → s.fld (sramBlock mem + 8) 15 0 ≠ 0 → Runs (.scrubPass dt mem fails) s (fun t =>
      t.reg (sramBlock mem + 0x40) = up (sramBlock mem + 0x40) fails.length ∧ t.reg (sramBlock mem + 0x44) = up (sramBlock mem + 0x44) 1 ∧
      t.reg 0x110208 = up 0x110208 fails.length ∧ Frame [.clock, .regs, .evs, .parWords] s t))) ∧
  (∀ (s : State) (d : Desc),
    let c := field d.w0 23 16 - 0xD0
    let q := s.request d.index d.time
    let x := s.tile c
    s.nextDesc 0 0x92 = some d → s.ctlCheck d = none → s.auditRoom 1 = true →
    (field d.w0 31 24 = 5 → Runs .rotate s (fun t => t.tile c = { x with phase := 1, cmd := some d.index, req := q } ∧
      t.atPhase 0 d.index .accepted ∧ t.audit.reserved = s.audit.reserved + 1 ∧ Frame [.regs, .host, .rings, .audit, .tiles] s t)) ∧
    (field d.w0 31 24 = 4 → 2 ≤ x.phase → Runs .retireBank s (fun t => t.tile c = { x with next := some (d.w1.toNat, d.index, q) } ∧
      t.atPhase 0 d.index .accepted ∧ t.audit.reserved = s.audit.reserved + 1 ∧ Frame [.regs, .host, .rings, .audit, .tiles] s t)) ∧
    (field d.w0 31 24 = 4 → x.phase < 2 → x.cmd = none → d.w1.toNat ≠ s.spare c → Runs .retireBank s (fun t =>
      t.tile c = { x with phase := 2, victim := d.w1.toNat, retire := true, cmd := some d.index, req := q, next := none } ∧
      t.flag (regBankState c) 8 = true ∧ t.atPhase 0 d.index .accepted ∧ Frame [.regs, .host, .rings, .audit, .tiles] s t)) ∧
    (field d.w0 31 24 = 4 → x.phase < 2 → x.cmd = none → d.w1.toNat = s.spare c → s.clusterLive c = true → Runs .retireBank s (fun t =>
      t.tile c = { x with phase := 3, victim := d.w1.toNat, retire := true, cmd := some d.index, req := q, next := none } ∧
      t.atPhase 0 d.index .accepted ∧ Frame [.regs, .host, .rings, .audit, .tiles] s t)) ∧
    (field d.w0 31 24 = 4 → x.phase < 2 → x.cmd = none → d.w1.toNat = s.spare c → s.clusterLive c = false →
      Ends .retireBank s 0 d.index stOk (fun t => t.bankRetired c (s.spare c) = true ∧ t.spare c = 31 ∧ Logged s t)))

/-- R247 to R251: a word of an item enters the fill bank, its last word commits it, marked bad ends it unseen and counted; a word with no
item open is counted; a word that finds no room ends its item; the banks swap; a flush, logged, empties both banks and counts their
words, and is discarded while the audit log has no room.

R246 to R249: an item pushed into an empty queue is read back whole, word for word, and an item that ends bad leaves no word. -/
def Obligations.QueuesCarryItems : Prop :=
  (∀ (s : State) (owner inst x : Nat) (eoi bad : Bool) (sh : QShape),
    queueShape owner inst = some sh →
    let q := s.queue owner inst
    let w : QWord := { x := x, last := eoi }
    let up := fun (off n : Nat) => BitVec.ofNat 32 (satU 32 ((s.reg off).toNat + n))
    let parts : List Part := [.regs, .host, .rings, .queues]
    (∀ soi, q.skip = false → (soi = true → q.opened = false ∧ q.canSwap = false) → (soi = false → q.opened = true) →
      (q.fill.length < sh.bank → eoi = false → Runs (.queueWord owner inst x soi eoi bad) s (fun t =>
        (t.queue owner inst).fill = q.fill ++ [w] ∧ (t.queue owner inst).cm = q.cm ∧ (t.queue owner inst).opened = true ∧
        (t.queue owner inst).drain = q.drain ∧ RegsKept [] s t ∧ Frame parts s t)) ∧
      (q.fill.length < sh.bank → eoi = true → bad = false → Runs (.queueWord owner inst x soi eoi bad) s (fun t =>
        (t.queue owner inst).fill = q.fill ++ [w] ∧ (t.queue owner inst).cm = q.fill.length + 1 ∧ (t.queue owner inst).opened = false ∧
        (t.queue owner inst).drain = q.drain ∧ RegsKept [0x2000C, 0x10114] s t ∧ Frame parts s t)) ∧
      (q.fill.length < sh.bank → eoi = true → bad = true → Runs (.queueWord owner inst x soi eoi bad) s (fun t =>
        (t.queue owner inst).fill = (q.fill ++ [w]).take q.cm ∧ (t.queue owner inst).cm = q.cm ∧ (t.queue owner inst).opened = false ∧
        t.reg (sh.base + 0xC) = up (sh.base + 0xC) 1 ∧ RegsKept [sh.base + 0xC] s t ∧ Frame parts s t)) ∧
      (sh.bank ≤ q.fill.length → Runs (.queueWord owner inst x soi eoi bad) s (fun t =>
        (t.queue owner inst).fill = q.fill.take q.cm ∧ (t.queue owner inst).skip = !eoi ∧ t.reg (sh.base + 0x10) = up (sh.base + 0x10) 1 ∧
        RegsKept [sh.base + 0x10] s t ∧ Frame parts s t))) ∧
    (q.skip = false → q.opened = false → q.stray = false → Runs (.queueWord owner inst x false eoi bad) s (fun t =>
      t.queue owner inst = { q with stray := true } ∧ t.reg (sh.base + 0xC) = up (sh.base + 0xC) 1 ∧
      RegsKept [sh.base + 0xC] s t ∧ Frame parts s t)) ∧
    (q.opened = false → q.drain = [] → 0 < q.cm → Runs (.queueSwap owner inst) s (fun t =>
      (t.queue owner inst).drain = q.fill.take q.cm ∧ (t.queue owner inst).fill = [] ∧ (t.queue owner inst).cm = 0 ∧ Frame [.queues] s t)) ∧
    (∀ v : Word, s.auditRoom 1 = true → bitOf v 0 = true → q.flushing = false → Runs (.flush owner inst v) s (fun t =>
      (t.queue owner inst).fill = [] ∧ (t.queue owner inst).drain = [] ∧ (t.queue owner inst).cm = 0 ∧
      (t.queue owner inst).flushing = q.opened ∧ t.reg (sh.base + 0x14) = up (sh.base + 0x14) (q.drain.length + q.fill.length) ∧
      Logged s t ∧ RegsKept ((sh.base + 0x14) :: auditRegs) s t ∧ Frame [.regs, .host, .rings, .audit, .queues, .pwr] s t)) ∧
    (∀ v : Word, s.auditRoom 1 = false → Runs (.flush owner inst v) s (fun t =>
      t.reg 0x300 = up 0x300 1 ∧ RegsKept [0x300] s t ∧ Frame [.regs] s t)) ∧
    Runs (.flushDone owner inst) s (fun t => t.queue owner inst = { q with flushing := false, flushTail := false } ∧ Frame [.queues] s t)) ∧
  (∀ (s : State) (owner inst : Nat) (sh : QShape) (ws : List Nat),
    queueShape owner inst = some sh → s.queue owner inst = EQueue.empty → ws ≠ [] → ws.length ≤ sh.bank →
    let t := s.pushItem owner inst ws false
    let b := s.pushItem owner inst ws true
    (t.queue owner inst).head = some ws ∧ (t.queue owner inst).drain.length = ws.length ∧ (t.queue owner inst).fill = [] ∧
    (b.queue owner inst).drain = [] ∧ (b.queue owner inst).fill = [] ∧
    b.reg (sh.base + 0xC) = BitVec.ofNat 32 (satU 32 ((s.reg (sh.base + 0xC)).toNat + 1)))

/-- R249: a read returns the next unread word of the drain bank (the model keeps the word a read returns as the queue's last word);
Q_STATUS.EMPTY reads 1 exactly while the drain bank holds no unread word; a read then returns the last word again, which is zero where
none has been read since reset, and sets UNDERRUN, source 34 firing where it was 0; while a flush is in progress a read returns the last
word and changes nothing. -/
def Obligations.QueueReadsReturnWords : Prop := ∀ (s : State) (owner inst base : Nat) (sh : QShape),
  queueShape owner inst = some sh →
  let q := s.queue owner inst
  (∀ w ws, q.flushing = false → q.drain = w :: ws → Runs (.queueRead owner inst false) s (fun t =>
    t.queue owner inst = { q with drain := ws, lastRead := w.x } ∧ (∀ o i, 256 * o + i ≠ 256 * owner + inst → t.queue o i = s.queue o i) ∧
    Frame [.queues] s t)) ∧
  (bitOf (s.queueStatus owner inst base) 31 = true ↔ q.drain = []) ∧
  (q.flushing = false → q.drain = [] → s.flag (sh.base + 4) 30 = false → Runs (.queueRead owner inst false) s (fun t =>
    t.queue owner inst = q ∧ t.flag (sh.base + 4) 30 = true ∧ t.flag 0x2000C 2 = true ∧ RegsKept [sh.base + 4, 0x2000C, 0x10114] s t ∧
    Frame [.regs, .host, .rings] s t)) ∧
  (q.flushing = false → q.drain = [] → s.flag (sh.base + 4) 30 = true → exec (.queueRead owner inst false) s = .next s) ∧
  (q.flushing = true → exec (.queueRead owner inst false) s = .next s) ∧
  (State.reset.queue owner inst).lastRead = 0

/-- R14, R15: MGT_PLANE_SPLIT takes a split of 0 to 16 while the module is stopped and audit space is left, and the change is logged; any
other write sets REJECTED and leaves the split. A 1 written to REJECTED clears it first.

R23: PLANE_START of planes that do not run, and PLANE_STOP of planes that do, are accepted with space for their audit entry: the request
stands at every plane named until its boundary.

R23, R25: a start of a running plane or a stop of a stopped one is refused with PLANE_STATE; one more than an hour ahead with FUTURE.

R23: at the first boundary after its ramp a plane stops; once neither runs the module is STOPPED.

R30, R36, R116: a frame tick ends the voice tasks due by then, captures its instant and opens the next frame of every running plane
before the frame's work; before the module has booted it does nothing; a voice tick takes effect while the Voice plane runs and its grid
has come, and moves the grid on. -/
def Obligations.PlanesFollowTheirTicks : Prop :=
  (∀ (s : State) (v : Word) (o : Origin),
    let n := field v 4 0
    (s.mgt.modState = 3 → n ≤ 16 → s.auditRoom 1 = true → Runs (.planeSplitWrite v o) s (fun t =>
      t.fld 0x80 4 0 = n ∧ t.flag 0x80 8 = (s.flag 0x80 8 && !bitOf v 8) ∧ Logged s t ∧ RegsKept (0x80 :: auditRegs) s t ∧
      Frame [.regs, .host, .rings, .audit, .pwr, .sta] s t)) ∧
    (s.mgt.modState ≠ 3 ∨ 16 < n → Runs (.planeSplitWrite v o) s (fun t =>
      t.fld 0x80 4 0 = s.fld 0x80 4 0 ∧ t.flag 0x80 8 = true ∧ RegsKept [0x80] s t ∧ Frame [.regs] s t))) ∧
  (∀ (s : State) (d : Desc),
    let mask := field d.w0 17 16
    let q := s.request d.index d.time
    field d.w0 31 18 = 0 → d.flags = 0 → d.w1 = 0 → d.w2 = 0 → d.w3 = 0 → mask ≠ 0 → d.time ≤ s.now + 3600000000000 → s.auditRoom 1 = true →
    (s.nextDesc 0 0x90 = some d → (∀ p ∈ planeList mask, (s.planeSt p).run = false ∧ (s.planeSt p).start = none) → s.mnt.st ≠ 7 →
      (s.noteNeed mask).startCheck mask = none → Runs .planeStart s (fun t =>
        (∀ p, p = 1 ∨ p = 2 → t.planeSt p = if p ∈ planeList mask then { s.planeSt p with start := some q } else s.planeSt p) ∧
        t.audit.reserved = s.audit.reserved + 1 ∧ t.atPhase 0 d.index .accepted ∧ t.mgt.modState = s.mgt.modState ∧
        Frame [.regs, .host, .rings, .audit, .mgt] s t)) ∧
    (s.nextDesc 0 0x91 = some d → (∀ p ∈ planeList mask, (s.planeSt p).run = true ∧ (s.planeSt p).stop = none ∧ (s.planeSt p).rampEnd = none) →
      Runs .planeStop s (fun t =>
        (∀ p, p = 1 ∨ p = 2 → t.planeSt p = if p ∈ planeList mask then { s.planeSt p with stop := some q } else s.planeSt p) ∧
        t.audit.reserved = s.audit.reserved + 1 ∧ t.atPhase 0 d.index .accepted ∧ t.mgt.modState = s.mgt.modState ∧
        Frame [.regs, .host, .rings, .audit, .mgt] s t))) ∧
  (∀ (s : State) (d : Desc),
    let mask := field d.w0 17 16
    field d.w0 31 18 = 0 → d.flags = 0 → d.w1 = 0 → d.w2 = 0 → d.w3 = 0 →
    (s.nextDesc 0 0x90 = some d → (∃ p ∈ planeList mask, (s.planeSt p).run = true) →
      Ends .planeStart s 0 d.index mgtPlaneState (fun u => u = s)) ∧
    (s.nextDesc 0 0x91 = some d → (∃ p ∈ planeList mask, (s.planeSt p).run = false) →
      Ends .planeStop s 0 d.index mgtPlaneState (fun u => u = s)) ∧
    (s.nextDesc 0 0x91 = some d → mask ≠ 0 →
      (∀ p ∈ planeList mask, (s.planeSt p).run = true ∧ (s.planeSt p).stop = none ∧ (s.planeSt p).rampEnd = none) →
      s.now + 3600000000000 < d.time → Ends .planeStop s 0 d.index mgtFuture (fun u => u = s))) ∧
  (∀ (s : State) (p n i : Nat),
    p = 1 ∨ p = 2 → (s.planeSt p).rampEnd = some (n, i) → n ≤ s.mgt.tick.count → Runs .planesStopped s (fun t =>
      (t.planeSt p).run = false ∧ (t.planeSt p).rampEnd = none ∧ (t.planeSt p).stop = none ∧
      ((s.planeSt (3 - p)).rampEnd = none → (t.planeSt (3 - p)).run = (s.planeSt (3 - p)).run) ∧
      ((s.planeSt (3 - p)).run = false → (s.planeSt (3 - p)).rampEnd = none → s.pwr.standby = none → t.mgt.modState = 3))) ∧
  (∀ (s : State) (dt pct : Nat) (faults : List FrameFault) (obs : List VoiceObs),
    let u := s.elapse dt
    let w := (s.voxFinishBy u.now).elapse dt
    let k := s.mgt.tick
    (s.mgt.modState ≤ 2 → exec (.frameTick dt pct faults) s = .next w) ∧
    (2 < s.mgt.modState → ∃ (v : State) (casting stepped : Bool), exec (.frameTick dt pct faults) s = .next (v.frameWork faults pct casting stepped) ∧
      v.mgt.tick = { count := k.count + 1, prev := k.last, last := u.now
                     past := if k.captured = 0 then [] else ((k.last, k.span) :: k.past).take 256
                     captured := if k.stepped then 1 else min 2 (k.captured + 1), stepped := false } ∧
      v.mgt.render.frame = s.mgt.render.frame + (if s.mgt.render.run then 1 else 0) ∧
      v.mgt.voice.frame = s.mgt.voice.frame + (if s.mgt.voice.run then 1 else 0)) ∧
    (s.voiceDue = true → Runs (.voiceTick obs) s (fun t => t.vox.nextK = s.vox.nextK + 1 ∧ BytesKept s t)) ∧
    (s.voiceDue = false → exec (.voiceTick obs) s = .next s))

/-- R20, R21, R24, R25: REMOVE, RESTORE and RESET of a block that carries live data wait in the list of control actions for their boundary.

R22, R24, R392: on a block without live data they act at once: REMOVE takes every unit of the block out of service; RESTORE and RESET
start the block's test, RESET with its units reset, unless RESTORE finds the block in service.

R20, R21: an action meets its boundary: at the first one due, with no task in service on the block, REMOVE takes it out of service and
its entry leaves the list; before that nothing happens. META_SRC waiting for its boundary is written there. -/
def Obligations.ControlActionsTakeEffect : Prop :=
  (∀ (s : State) (d : Desc) (k : Fin 3),
    let act := k.val + 1
    let target := field d.w0 23 16
    let i : Instr := if k = 0 then .remove else if k = 1 then .restore else .reset
    s.nextDesc 0 0x92 = some d → field d.w0 31 24 = act → s.ctlCheck d = none → s.auditRoom 1 = true → s.blockLive target = true →
    Runs i s (fun t => t.mgt.ctl = s.mgt.ctl ++ [{ target := target, action := act, arg := 0, req := s.request d.index d.time, moves := 0
                                                   origin := 0, test := 0, reserved := true }] ∧
      t.audit.reserved = s.audit.reserved + 1 ∧ t.atPhase 0 d.index .accepted ∧ t.mgt.out = s.mgt.out ∧
      Frame [.regs, .host, .rings, .audit, .mgt] s t)) ∧
  (∀ (s : State) (d : Desc),
    let target := field d.w0 23 16
    s.nextDesc 0 0x92 = some d → s.ctlCheck d = none → s.auditRoom 1 = true → s.blockLive target = false →
    (field d.w0 31 24 = 1 → ∃ u : State, exec .remove s = .next (u.finishAt 0 d.index stOk 0 s.now none) ∧
      (∀ x ∈ unitsOf target, u.isOut x = true) ∧ (∀ x, x ∉ unitsOf target → u.isOut x = s.isOut x)) ∧
    (field d.w0 31 24 = 2 → (∀ x ∈ unitsOf target, s.isOut x = false) →
      ∃ u : State, exec .restore s = .next (u.finishAt 0 d.index stOk 0 s.now none) ∧ u.mgt.out = s.mgt.out ∧ Logged s u) ∧
    (field d.w0 31 24 = 2 → (∃ x ∈ unitsOf target, s.isOut x = true) → Runs .restore s (fun t =>
      t.mgt.out = s.mgt.out ∧ t.atPhase 0 d.index .committed ∧
      { target := target, cmd := some d.index, origin := 0, test := 3, detail := 0, passed := none } ∈ t.vig.tests)) ∧
    (field d.w0 31 24 = 3 → Runs .reset s (fun t =>
      (∀ x ∈ unitsOf target, t.isOut x = true) ∧ t.atPhase 0 d.index .committed ∧
      { target := target, cmd := some d.index, origin := 0, test := 3, detail := 0, passed := none } ∈ t.vig.tests ∧
      (∀ x ∈ unitsOf target, x < 0x80 → t.core x = { LCore.idle0 with dma := (t.core x).dma })))) ∧
  (∀ (s : State) (dt : Nat) (c : CtlAct) (w : ModeWrite),
    let u := s.elapse dt
    (c.target < 0xD0 → s.mgt.ctl.find? (fun x => x.target == c.target) = some c → c.reserved = true → s.blockLive c.target = true →
      (s.reqDue c.req = false → exec (.controlActionExecute dt c.target) s = .next u) ∧
      (s.reqDue c.req = true → s.inService c.target = false → c.action = 1 → c.origin = 0 →
        ∃ v : State, exec (.controlActionExecute dt c.target) s = .next (v.finishAt 0 c.req.index stOk 0 s.mgt.tick.last none) ∧
          v.mgt.ctl = s.mgt.ctl.erase c ∧ ∀ x ∈ unitsOf c.target, v.isOut x = true)) ∧
    (s.mgt.modeWrites.find? (fun x => x.off == 0x80000) = some w →
      (s.mgt.render.run = true → s.reqDue w.req = false → exec (.controlActionExecute dt 0x80000) s = .next u) ∧
      (s.mgt.render.run = false ∨ s.reqDue w.req = true → Runs (.controlActionExecute dt 0x80000) s (fun t =>
        t.reg 0x80000 = w.v ∧ t.mgt.modeWrites = s.mgt.modeWrites.erase w ∧ Logged s t ∧ RegsKept (0x80000 :: auditRegs) s t))))

/-- R39 to R42: an OBJ_POS or OBJ_BATCH descriptor is accepted and its records wait, in order, for the tick that latches them; one from the
wrong source is refused, each of its records counted; one whose read fails ends with DMA_ERROR.

R44: an object keeps at most four states, in rising time order; a late record takes effect at the end of the block; a record at a
state's own time takes its place; where four states leave no room the record is refused and only a state's time may change. -/
def Obligations.MetadataMovesObjects : Prop :=
  (∀ (s : State) (r : Nat) (d : Desc) (bs : List Byte),
    let n := d.w1.toNat / 32
    let waits := fun (i : Instr) (recs : List MetaRec) => Runs i s (fun t =>
      t.rnd = { s.rnd with waiting := s.rnd.waiting ++ [{ ring := r, index := d.index, recs := recs, status := stOk, fetchedAt := s.now }] } ∧
      t.atPhase r d.index .accepted ∧ Frame [.rings, .rnd] s t)
    let refused := fun (i : Instr) (k : Nat) => Ends i s r d.index rndWrongSource (fun u =>
      u.reg 0x80104 = BitVec.ofNat 32 (satU 32 ((s.reg 0x80104).toNat + k)) ∧ RegsKept [0x80104] s u ∧ Frame [.regs] s u)
    let sizeOk := d.w1.toNat % 32 = 0 ∧ 32 ≤ d.w1.toNat ∧ d.w1.toNat ≤ 32768 ∧ d.addr % 32 = 0
    (s.nextDesc r 1 = some d → field d.w0 31 26 = 0 → s.wrongSource = false → waits (.objPos r) [posRecord d]) ∧
    (s.nextDesc r 1 = some d → field d.w0 31 26 = 0 → s.wrongSource = true → refused (.objPos r) 1) ∧
    (s.nextDesc r 2 = some d → s.wrongSource = false → sizeOk → ∃ recs, recs.length = n ∧
      (∀ k < n, recs[k]? = some (parseMeta (((bs.drop (32 * k))).take 32))) ∧ waits (.objBatch r (some bs)) recs) ∧
    (s.nextDesc r 2 = some d → s.wrongSource = true → sizeOk → refused (.objBatch r (some bs)) n) ∧
    (s.nextDesc r 2 = some d → s.wrongSource = false → sizeOk → Ends (.objBatch r none) s r d.index stDmaError (fun u => u = s))) ∧
  (∀ (es ee : Nat) (m : MetaRec) (run : ObjRun),
    run.states.Pairwise (fun a b => a.time < b.time) → run.states.length ≤ 4 →
    let r := applyMeta es ee m run
    r.2.2.states.Pairwise (fun a b => a.time < b.time) ∧ r.2.2.states.length ≤ 4 ∧
      (r.2.1 = true ↔ m.st.time = 0 ∨ m.st.time < es) ∧
      (r.1 = stOk → ∃ x ∈ r.2.2.states, x.time = (if m.st.time = 0 ∨ m.st.time < es then ee else m.st.time) ∧ x.x = m.st.x ∧ x.y = m.st.y ∧
        x.z = m.st.z) ∧
      (r.1 ≠ stOk → r.1 = rndTrajFull ∧ r.2.2.states.length = 4 ∧ r.2.2 = { run with states := r.2.2.states } ∧
        r.2.2.states.map (fun x => { x with time := 0 }) = run.states.map (fun x => { x with time := 0 })))

/-- R78 to R81: a checked image stands in its ring's staging buffer and joins the loads of the ring, its saturated coefficients counted;
FLT_UNITY and FLT_DISARM with no load of their ring at work act at once on the inactive bank; on an output whose bank is busy each of
the three is refused with BANK_BUSY, counted.

R81, R83, R86, R87: the oldest load of a ring writes the inactive bank and arms it; a crossfade that has run its 4,096 samples ends,
with what was left of the old filter's tails; after CNV_RESTORE clean frames up to 32 shed segments, newest first, are to return with
their next super-block, but one whose FDL holds a zeroed spectrum waits for that to leave.

R83: over 4,096 samples the result goes from the old filter to the new one, never beyond either; before the swap's sample it is the old
one's. -/
def Obligations.FiltersAreLoadedAndFaded : Prop :=
  (∀ (s : State) (r : Nat) (d : Desc) (bs : List Byte) (f : Filter) (sats : Nat),
    let o := fltOut d
    let x := s.convOut o
    let staged := fun (c : Conv) => { c with staging := Cells.put (fun _ => ([] : List Byte)) c.staging r bs }
    let image := s.nextDesc r 0x10 = some d ∧ d.addr % 32 = 0 ∧ 32 ≤ d.w1.toNat ∧ d.w1.toNat % 4 = 0 ∧ parseFilter s.maxTaps d.w1.toNat bs = .inr (f, sats)
    let load := fun (k : Nat) (g : Filter) => ({ ring := r, index := d.index, kind := k, out := o, filter := g } : FltLoad)
    field d.w0 31 25 = 0 → d.flags = 0 → o < s.maxOut →
    (image → x.busy = false → Runs (.fltLoad r (some bs)) s (fun t =>
        t.cnv = { staged s.cnv with loads := s.cnv.loads ++ [load 0 f] } ∧ t.atPhase r d.index .accepted ∧
        t.reg 0x90118 = BitVec.ofNat 32 (satU 32 ((s.reg 0x90118).toNat + sats)) ∧ RegsKept [0x90118] s t ∧
        Frame [.regs, .rings, .cnv] s t)) ∧
    (s.nextDesc r 0x11 = some d → d.w1 = 0 → x.busy = false → s.cnv.loads.any (fun q => q.ring == r) = false →
      Ends (.fltUnity r) s r d.index stOk (fun u => u.convOut o = { x with idle := .identity, armed := true, badIdle := [] } ∧
        (∀ k, k ≠ o → u.convOut k = s.convOut k) ∧ Frame [.rings, .cnv] s u)) ∧
    (s.nextDesc r 0x12 = some d → x.busy = false → s.cnv.loads.any (fun q => q.ring == r) = false →
      Ends (.fltDisarm r) s r d.index stOk (fun u => u.convOut o = { x with armed := false } ∧
        (∀ k, k ≠ o → u.convOut k = s.convOut k) ∧ Frame [.rings, .cnv] s u)) ∧
    (x.busy = true →
      let counted := fun (u : State) => u.reg 0x90110 = BitVec.ofNat 32 (satU 32 ((s.reg 0x90110).toNat + 1)) ∧ RegsKept [0x90110] s u
      (image → Ends (.fltLoad r (some bs)) s r d.index cnvBankBusy (fun u => counted u ∧ u.cnv = staged s.cnv)) ∧
      (s.nextDesc r 0x11 = some d → d.w1 = 0 → Ends (.fltUnity r) s r d.index cnvBankBusy (fun u => counted u ∧ u.cnv = s.cnv)) ∧
      (s.nextDesc r 0x12 = some d → Ends (.fltDisarm r) s r d.index cnvBankBusy (fun u => counted u ∧ u.cnv = s.cnv)))) ∧
  (∀ (s : State) (dt r o : Nat) (l : FltLoad),
    (s.cnv.loads.find? (fun q => q.ring == r) = some l → (s.convOut l.out).busy = false →
      (∀ q ∈ s.cnv.loads.erase l, q.ring ≠ r) → Runs (.filterLoadDone dt r) s (fun t =>
        t.convOut l.out = (if l.kind = 2 then { s.convOut l.out with armed := false }
          else { s.convOut l.out with idle := l.filter, armed := true, badIdle := [] }) ∧
        (∀ k, k ≠ l.out → t.convOut k = s.convOut k) ∧ t.cnv.loads = s.cnv.loads.erase l)) ∧
    (∀ n, (s.convOut o).xfade = some n → 4096 ≤ n → Runs (.filterCrossfadeEnd dt o) s (fun t =>
      t.convOut o = { s.convOut o with xfade := none, segs := (s.convOut o).segs.map (fun g => { g with tailOld := [] }) } ∧ (∀ k, k ≠ o → t.convOut k = s.convOut k) ∧ Frame [.clock, .cnv] s t)) ∧
    (∀ n, (s.convOut o).xfade = some n → n < 4096 → exec (.filterCrossfadeEnd dt o) s = .next (s.elapse dt)) ∧
    (s.restoreFrames ≤ s.cnv.cleanFrames → s.cnv.shedOrder ≠ [] → s.mgt.render.run = true → Runs .segmentRestore s (fun t =>
      t.cnv.shedOrder = s.cnv.shedOrder.take (s.cnv.shedOrder.length - 32) ∧ t.cnv.cleanFrames = 0 ∧
      (∀ p ∈ s.cnv.shedOrder.drop (s.cnv.shedOrder.length - 32),
        if (((s.convOut p.1).seg p.2).fdl.take (segParts s.rateClass p.2)).any (·.isNone) then p.2 ∈ (t.convOut p.1).fdlWait ∧ p.2 ∉ (t.convOut p.1).shed
        else (p.2, nextTail (s.convBlockNo + 1) p.1 p.2) ∈ (t.convOut p.1).restoreAt) ∧ Frame [.cnv] s t))) ∧
  (∀ (p j i : Nat) (old new : List Int) (a b : Int),
    old[i]? = some a → new[i]? = some b → ∃ y, (crossBlock p j old new)[i]? = some y ∧
      (i < j → y = a) ∧ (j ≤ i → p + i - j = 0 → y = a) ∧ (j ≤ i → 4096 ≤ p + i - j → y = b) ∧ min a b ≤ y ∧ y ≤ max a b)

/-- R105 to R109: a PSET_LOAD whose payload passes its checks is staged; a PSET_COPY waits for its boundary; a domain with a swap pending is
refused with BANK_BUSY, counted.

R106: a staged load writes the inactive bank of its domain, and no live one, and ends. -/
def Obligations.ParameterSetsAreStaged : Prop :=
  (∀ (s : State) (r : Nat) (d : Desc) (bs : List Byte) (b : Sets),
    let dom := field d.w0 23 16
    let len := d.w1.toNat
    let base := if d.flags = 1 then s.idleSets.takeDomain s.liveSets dom else s.idleSets
    let busy := fun (i : Instr) => Ends i s r d.index mixBankBusy (fun u =>
      u.reg 0xA0100 = BitVec.ofNat 32 (satU 32 ((s.reg 0xA0100).toNat + 1)) ∧ RegsKept [0xA0100] s u ∧ Frame [.regs] s u)
    field d.w0 31 24 = 0 → domainOk dom = true → wrongRing r dom = false →
    (s.nextDesc r 0x20 = some d → d.flags < 2 → s.domainBusy dom = false → len % 8 = 0 → 8 ≤ len → len ≤ 1048576 → d.addr % 32 = 0 →
      loadPayload (s.loadCtx s.planeTags) dom (bs.take len) base = .inr b → Runs (.psetLoad r (some bs)) s (fun t =>
        t.mix = { s.mix with jobs := s.mix.jobs ++ [{ ring := r, index := d.index, domain := dom, copyLive := d.flags = 1
                                                      payload := some (bs.take len) }] } ∧
        t.atPhase r d.index .accepted ∧ Frame [.rings, .mix] s t)) ∧
    (s.nextDesc r 0x20 = some d → d.flags < 2 → s.domainBusy dom = true → busy (.psetLoad r (some bs))) ∧
    (s.nextDesc r 0x21 = some d → d.flags = 0 → d.w1 = 0 → s.domainBusy dom = false → Runs (.psetCopy r) s (fun t =>
      t.mix = { s.mix with jobs := s.mix.jobs ++ [{ ring := r, index := d.index, domain := dom, copyLive := true, payload := none }] } ∧
      t.atPhase r d.index .accepted ∧ Frame [.rings, .mix] s t)) ∧
    (s.nextDesc r 0x21 = some d → d.flags = 0 → s.domainBusy dom = true → busy (.psetCopy r))) ∧
  (∀ (s : State) (dt r : Nat) (j : PsetJob) (p : List Byte) (b : Sets),
    s.mix.jobs.find? (fun q => q.ring == r) = some j → j.payload = some p → s.domainBusy j.domain = false →
    loadPayload (s.loadCtx s.planeTags) j.domain p (if j.copyLive then s.idleSets.takeDomain s.liveSets j.domain else s.idleSets) = .inr b →
    Ends (.psetLoadDone dt r) s j.ring j.index stOk (fun u => u.idleSets = b ∧ u.liveSets = s.liveSets ∧
      u.mix.jobs = s.mix.jobs.erase j ∧ Frame [.clock, .rnd, .mix] s u))

/-- R29, R35, R82, R105, R108 to R110: a SWAP that passes its checks is pending from its acceptance, with the armed outputs it captures and
space for its audit entry; behind an earlier descriptor of its ring it waits; once the frame of its sample has reached every egress it
acts: the live banks it names have changed, and it completes with that sample's instant. Of several the earlier sample acts first, then
the earlier TIME64. (By which tick a frame has reached every egress is the model's reading: log entry 189.)

R98, R99, R111: a voice gain point that has waited ZC_MS steps to its target and is counted; a ramp that has carried its target is over,
and a fading crosspoint or falling route that has then reached zero is gone; before that, and of a point that is not there, nothing
changes. -/
def Obligations.SwapsAndGainsAct : Prop :=
  (∀ (s : State) (r dt : Nat) (d : Desc) (w : Swap) (sample instant : Nat) (late : Bool),
    let mask := field d.w0 31 16
    let outs := if mask.testBit 3 then (s.cnv.outs.filter (fun p => p.2.armed)).map (·.1) else []
    let new : Swap := { ring := r, index := d.index, mask := mask, time := d.time, accFrame := s.mgt.tick.count, outs := outs, act := none, fed := false, crcs := (0, 0) }
    (s.nextDesc r 0x22 = some d → (s.ring r).descs.head? = some d → d.flags = 0 → swapCheck s.planeTags s d = none → s.auditRoom 1 = true →
      Runs (.swap r) s (fun t => t.mix = { s.mix with swaps := s.mix.swaps ++ [new] } ∧ t.audit.reserved = s.audit.reserved + 1 ∧
        t.cnv = (if mask.testBit 3 then { s.cnv with outs := captureOuts s.cnv.outs } else s.cnv) ∧ t.atPhase r d.index .accepted ∧
        Frame [.regs, .host, .rings, .audit, .cnv, .mix] s t)) ∧
    (s.nextDesc r 0x22 = some d → (s.ring r).descs.head? ≠ some d → exec (.swap r) s = .next s) ∧
    (s.swapDue = some w → w ∈ s.mix.swaps ∧ (∃ c t l, w.act = some (c, t, l) ∧ egressTick c ≤ s.mgt.tick.count) ∧
      (∀ v ∈ s.mix.swaps, actsBefore v w = true → ∀ c t l, v.act = some (c, t, l) → s.mgt.tick.count < egressTick c)) ∧
    (s.swapDue = none → exec (.swapAct dt) s = .next (s.elapse dt)) ∧
    (s.swapDue = some w → w.act = some (sample, instant, late) → ∃ u : State,
        exec (.swapAct dt) s = .next (u.finishAt w.ring w.index stOk (if late then 1 else 0) instant none) ∧
        (u.reg 0xA0004).toNat = (s.reg 0xA0004).toNat ^^^ (w.mask &&& 0x1F6) ∧ u.reg64 0xA0010 = instant % 2 ^ 64 ∧
        u.mix = { s.mix with swaps := s.mix.swaps.erase w } ∧ Logged s u ∧ u.reg 0x90114 = s.up 0x90114 w.outs.length ∧
        (late = true → u.reg 0xA0104 = s.up 0xA0104 1) ∧ (late = false → u.reg 0xA0104 = s.reg 0xA0104) ∧
        RegsKept ([0xA0004, 0xA0010, 0xA0014, 0xA0104, 0x90114] ++ auditRegs) s u)) ∧
  (∀ (s : State) (dt : Nat) (p : GainRef) (g : GainPt) (zc : Nat),
    (s.gainPoint p = none → exec (.zcTimeout dt p) s = .next (s.elapse dt) ∧ exec (.taperRampEnd dt p) s = .next (s.elapse dt)) ∧
    (s.gainPoint p = some (g, zc) →
      (g.pending = true → zc * s.renderRate ≤ g.waited * 1000 → Runs (.zcTimeout dt p) s (fun t =>
        t.gainPoint p = some ({ g with g := g.target, pending := false }, zc) ∧ t.reg 0xA0114 = s.up 0xA0114 1 ∧ RegsKept [0xA0114] s t ∧
        Frame [.clock, .regs, .mix] s t)) ∧
      (g.pending = false ∨ g.waited * 1000 < zc * s.renderRate → exec (.zcTimeout dt p) s = .next (s.elapse dt)) ∧
      (g.left ≠ 0 ∨ g.pending = true → exec (.taperRampEnd dt p) s = .next (s.elapse dt)) ∧
      (g.left = 0 → g.pending = false → (g.g ≠ 0 ∨ ((∀ i, p ≠ .fading i) ∧ ∀ d i, p ≠ .destOld d i)) → Runs (.taperRampEnd dt p) s (fun t =>
        t.gainPoint p = some ({ g with inc := 0, waited := 0 }, zc) ∧ Frame [.clock, .mix] s t)) ∧
      (∀ i, g.left = 0 → g.pending = false → g.g = 0 → p = .fading i → Runs (.taperRampEnd dt p) s (fun t =>
        t.mix = { s.mix with fading := s.mix.fading.eraseIdx i } ∧ Frame [.clock, .mix] s t)) ∧
      (∀ d i, g.left = 0 → g.pending = false → g.g = 0 → p = .destOld d i → Runs (.taperRampEnd dt p) s (fun t =>
        Cells.get destDflt t.mix.dests d = { Cells.get destDflt s.mix.dests d with old := (Cells.get destDflt s.mix.dests d).old.eraseIdx i } ∧
        (∀ k, k ≠ d → Cells.get destDflt t.mix.dests k = Cells.get destDflt s.mix.dests k) ∧ Frame [.clock, .mix] s t))))

/-- R119, R121 to R124, R130, R135, R137: a call command that passes the checks of R122 is accepted: VOX_OPEN leaves its channel STARTING
with the record given, VOX_MODIFY and VOX_CLOSE join what waits for the channel's boundary, a close leaving a channel in operation
CLOSING, and keys and queries wait; no other channel changes.

R122, R130: call commands are refused in the order of the checks, each counted once: an IDLE channel, one of another ring, a channel in
use, no capacity. -/
def Obligations.CallsAreHandled : Prop :=
  (∀ (s : State) (r : Nat) (d : Desc) (bs : List Byte),
    let v := field d.w0 24 16
    let rec_ := bs.take 128
    let q := s.request d.index d.time
    let c := s.voxChan v
    let becomes := fun (i : Instr) (parts : List Part) (n : Nat) (x : VoxChan) => Runs i s (fun t =>
      t.voxChan v = x ∧ (∀ k, k ≠ v → t.voxChan k = s.voxChan k) ∧ t.vox.nextK = s.vox.nextK ∧ t.audit.reserved = s.audit.reserved + n ∧
      t.atPhase r d.index .accepted ∧ Frame parts s t)
    let open_ := field d.w0 31 25 = 0 ∧ s.mgt.voice.run = true
    let soon := d.time ≤ s.now + 3600000000000
    let logged : List Part := [.regs, .host, .rings, .audit, .vox]
    (s.nextDesc r 0x30 = some d → open_ → soon → d.flags = 0 → s.fld 0x80 4 0 < 16 → c.st = 0 → d.w1 = 128 → d.addr % 32 = 0 →
      voxRecOk rec_ = true → voxRateOk rec_ = true → (∀ u ∈ s.voxOpenList, voxSamePort (s.voxChan u).rec_ rec_ = false) →
      s.voxAdmitted + voxCost rec_ ≤ s.voxCap → s.auditRoom 1 = true → becomes (.voxOpen r (some bs)) logged 1
        { VoxChan.idle0 with st := 1, ring := r, rec_ := rec_, ops := [{ op := 0x30, record := rec_, ecReset := false, req := q }] }) ∧
    (s.nextDesc r 0x31 = some d → open_ → soon → d.flags = 0 ∨ d.flags = 2 → c.st = 1 ∨ c.st = 2 → c.ring = r → d.w1 = 128 → d.addr % 32 = 0 →
      voxRecOk rec_ = true → voxRateOk rec_ = true → voxSameFixed c.rec_ rec_ = true → s.auditRoom 1 = true →
      becomes (.voxModify r (some bs)) logged 1
        { c with ops := c.ops ++ [{ op := 0x31, record := rec_, ecReset := bitOf d.w0 9, req := q }] }) ∧
    (s.nextDesc r 0x32 = some d → open_ → soon → d.flags = 0 → c.st ≠ 0 → c.ring = r → d.w1 = 0 → s.auditRoom 1 = true →
      becomes (.voxClose r) logged 1
        { c with st := if c.st = 2 then 3 else c.st, ops := c.ops ++ [{ op := 0x32, record := [], ecReset := false, req := q }] }) ∧
    (s.nextDesc r 0x33 = some d → open_ → soon → d.flags = 0 ∨ d.flags = 1 → c.st ≠ 0 → c.ring = r → d.w1 = 0 →
      becomes (.voxKey r) [.rings, .vox] 0 { c with keyReqs := c.keyReqs ++ [(q, bitOf d.w0 8)] }) ∧
    (s.nextDesc r 0x34 = some d → open_ → d.flags = 0 → c.st ≠ 0 → c.ring = r → d.w1 = 64 → d.addr % 32 = 0 →
      becomes (.voxQuery r) [.rings, .vox] 0 { c with queries := c.queries ++ [(d.index, d.addr)] })) ∧
  (∀ (s : State) (r : Nat) (d : Desc) (bs : List Byte),
    let v := field d.w0 24 16
    let rec_ := bs.take 128
    let c := s.voxChan v
    let refused := fun (i : Instr) (st : Nat) => Ends i s r d.index st (fun u =>
      u.reg 0xB0100 = BitVec.ofNat 32 (satU 32 ((s.reg 0xB0100).toNat + 1)) ∧ RegsKept [0xB0100] s u ∧ Frame [.regs] s u)
    field d.w0 31 25 = 0 → d.flags = 0 →
    (s.nextDesc r 0x30 = some d → s.fld 0x80 4 0 < 16 →
      (c.st ≠ 0 → refused (.voxOpen r (some bs)) voxBusy) ∧
      (c.st = 0 → d.w1 = 128 → d.addr % 32 = 0 → voxRecOk rec_ = true → voxRateOk rec_ = true →
        (∀ u ∈ s.voxOpenList, voxSamePort (s.voxChan u).rec_ rec_ = false) → s.voxCap < s.voxAdmitted + voxCost rec_ →
        refused (.voxOpen r (some bs)) voxCapacity)) ∧
    (∀ p : Fin 3, let i : Instr := if p = 0 then .voxClose r else if p = 1 then .voxKey r else .voxQuery r
      s.nextDesc r (0x32 + p.val) = some d →
      (c.st = 0 → refused i voxIdleSt) ∧
      (c.st ≠ 0 → d.w1 = (if p = 2 then 64 else 0) → d.addr % 32 = 0 → c.ring ≠ r → refused i voxWrongRing)))

/-- R129, R133, R134, R136, R139, R141: what time brings to a channel, with its event on the channel's event ring: no packet for the time
set, 60 ms of concealment, the end of the hangover, 250 ms of quiet with the canceller bypassed, 2 s of forced suppression, a codec task
not done after 8 ms.

R119, R135: 11 ms after its effective tick a CLOSING channel becomes IDLE, with nothing left of its call; a key command and operator
indications that have come due act at the boundary, the last key command deciding. -/
def Obligations.VoiceChannelsFollowTime : Prop :=
  (∀ (s : State) (dt v : Nat),
    let u := s.elapse dt
    let c := s.voxChan v
    let evt := 20 + recEvtRing c.rec_
    let becomes := fun (i : Instr) (x : VoxChan) => Runs i s (fun t =>
      t.voxChan v = x ∧ (∀ k, k ≠ v → t.voxChan k = s.voxChan k) ∧ Frame [.clock, .vox] s t)
    let tells := fun (i : Instr) (x : VoxChan) => Runs i s (fun t =>
      t.voxChan v = x ∧ (∀ k, k ≠ v → t.voxChan k = s.voxChan k) ∧ Frame [.clock, .regs, .host, .rings, .vox] s t ∧
      (s.d2hFull evt = false → (t.ring evt).wr = idxAdd (s.ring evt).wr 1 ∧ t.flag 0x20008 10 = true) ∧
      (s.d2hFull evt = true → t.flag 0xB0004 19 = true ∧ (t.ring evt).wr = (s.ring evt).wr) ∧
      RegsKept [0xB0004, 0xB012C, 0x20008] s t)
    (2 ≤ c.st → c.closedAt = none → s.fld 0xB0000 15 0 ≠ 0 → c.rxTimedOut = false → c.lastRx + s.fld 0xB0000 15 0 * 1000000 ≤ u.now →
      tells (.rxTimeout dt v) { c with rxTimedOut := true }) ∧
    (c.st ≠ 0 → 60 ≤ c.concealMs → c.mute = 0 → becomes (.concealmentLimit dt v) { c with mute := 1 }) ∧
    (∀ pos, c.offAt = some pos →
      ((recDet c.rec_).testBit 4 = true → tells (.talkOff dt v) { c with talk := c.talk ++ [(pos, false)], offAt := none }) ∧
      ((recDet c.rec_).testBit 4 = false → becomes (.talkOff dt v) { c with talk := c.talk ++ [(pos, false)], offAt := none })) ∧
    (c.st ≠ 0 → c.ecDisabled = true → 25 ≤ c.quiet → tells (.ecEnabled dt v) { c with ecDisabled := false }) ∧
    (c.st ≠ 0 → c.forced = true → c.coldAt + 2000000000 ≤ u.now → becomes (.nlpForceEnd dt v) { c with forced := false }) ∧
    (∀ k, c.task = some k → k.missed = false → k.tickAt + 8000000 ≤ u.now → s.flag 0xB0000 16 = false →
      Runs (.codecTaskMissed dt v) s (fun t => t.voxChan v = { c with task := some { k with missed := true } } ∧
        t.reg 0xB0128 = BitVec.ofNat 32 (satU 32 ((s.reg 0xB0128).toNat + 1)) ∧ RegsKept [0xB0128] s t ∧ Frame [.clock, .regs, .vox] s t))) ∧
  (∀ (s : State) (dt v : Nat),
    let c := s.voxChan v
    (∀ e, c.closedAt = some e → c.st = 3 → e + 11000000 ≤ (s.elapse dt).now → Runs (.channelIdle dt v) s (fun t =>
      t.voxChan v = VoxChan.idle0 ∧ (∀ k, k ≠ v → (t.voxChan k).st = (s.voxChan k).st) ∧
      (s.flag 0xB0000 16 = false → ∀ k, k ≠ v → t.voxChan k = s.voxChan k))) ∧
    (∀ q key, c.st ≠ 0 → c.keyReqs = [(q, key)] → s.reqDue q = true → (∀ i ∈ c.opsInds, s.reqDue i.req = false) →
      ∃ u : State, exec (.keyChange v) s = .next (u.finishAt c.ring q.index stOk 0 s.mgt.tick.last none) ∧
        u.voxChan v = { c with hostKey := key, keyReqs := [] } ∧ (∀ k, k ≠ v → u.voxChan k = s.voxChan k) ∧
        Frame [.regs, .host, .rings, .vox] s u) ∧
    (∀ i, c.st ≠ 0 → c.keyReqs = [] → c.opsInds = [i] → s.reqDue i.req = true → recKeyMode c.rec_ = 0 → Runs (.keyChange v) s (fun t =>
      (t.voxChan v).opsKey = (if i.kind = 0 then true else if i.kind = 2 then c.opsKey else false) ∧ (t.voxChan v).opsInds = [] ∧
      (t.voxChan v).hostKey = c.hostKey ∧ Frame [.regs, .host, .rings, .vox] s t)) ∧
    (c.st ≠ 0 → (∀ q ∈ c.keyReqs, s.reqDue q.1 = false) → (∀ i ∈ c.opsInds, s.reqDue i.req = false) → exec (.keyChange v) s = .next s))

/-- R150: what Wick would grant is a waiting item that the resource may take, and no other such item goes before it; where it would grant
none, no waiting item may go there.

R150 to R152, R159, R186: a waiting core in service whose cluster is live is granted the item picked, or first the Vigil item of a
guaranteed slice owed: it leaves the ready list for the tasks in service, and the core starts with the node, level, instance, flow, key
and data in its registers, at the kernel's entry with its tile region in p7. Where a Vigil item starts is the model's choice. -/
def Obligations.TheBestItemIsDispatched : Prop :=
  (∀ (s : State) (res : Nat) (l : List WItem),
    (∀ it : WItem, State.pickGo s res l none = some it →
      it ∈ l ∧ s.eligibleItem res it = true ∧ ∀ x ∈ l, s.eligibleItem res x = true → beatsItem x it = false) ∧
    (State.pickGo s res l none = none → ∀ x ∈ l, s.eligibleItem res x = false)) ∧
  (∀ (s : State) (dt res : Nat) (it : WItem) (arg p7 pc : Nat),
    let u := s.elapse dt
    let x := fun (t : State) (n : Nat) => ((t.core res).reg n).toNat
    let asks := res < 128 ∧ (s.core res).st = 0 ∧ s.isOut res = false ∧ u.stopGrant res = false ∧ s.clusterLive (res / 8) = true
    let kernel := (it.vigil.isSome = true ∧ arg = 0 ∧ p7 = 0 ∧ pc = 0) ∨ (it.vigil = none ∧ ∃ i r j k, s.nodeOf it.node = some (i, r) ∧
      s.kernelOf r = some (j, k) ∧ arg = ndArg r ∧ p7 = s.tileBase (ndPlane r) j.id ∧ pc = s.codeBase (ndPlane r) j.id + k.entry)
    let starts := fun (t : State) (slice : Bool) =>
      t.wick.items = s.wick.items.erase it ∧ t.wick.tasks = s.wick.tasks ++ [{ item := it, res := res, slice := slice }] ∧
      (t.core res).st = 1 ∧ x t 0 = (it.node + 4096 * it.level + 65536 * (it.num % 256) + (if slice then 2 ^ 24 else 0)) % 2 ^ 32 ∧
      x t 1 = (it.flow + 65536 * it.key) % 2 ^ 32 ∧ x t 2 = arg % 2 ^ 32 ∧ x t 3 = it.data % 2 ^ 32 ∧ x t 39 = p7 % 2 ^ 32 ∧
      (t.core res).pc = pc % 2 ^ 19 ∧ (t.core res).cst = 0xF00 ∧ (t.core res).inHandler = false ∧ (t.core res).flight = [] ∧
      (t.core res).acc = [] ∧ (∀ n, n ≠ 0 → n ≠ 1 → n ≠ 2 → n ≠ 3 → n ≠ 39 → n ≠ 74 → x t n = 0) ∧
      (∀ c, c ≠ res → t.core c = s.core c) ∧ t.reg 0x50100 = s.up 0x50100 1 ∧ BytesKept s t
    (asks → kernel → s.wick.guard = false → State.pickGo u res s.wick.items none = some it → Runs (.dispatch dt res) s (fun t =>
      starts t false ∧ RegsKept (0x50100 :: traceRegs) s t ∧ Frame [.free, .clock, .regs, .host, .rings, .wick, .lan, .sta] s t)) ∧
    (asks → kernel → s.wick.guard = true → s.wick.slices.contains (res / 8) = true → s.topCore (res / 8) = some res →
      s.wick.items.find? (fun i => i.vigil == some (res / 8) && !s.wick.quarantine.contains i.node) = some it →
      Runs (.dispatch dt res) s (fun t =>
        starts t true ∧ t.wick.slices = s.wick.slices.filter (· != res / 8) ∧ t.reg 0x50128 = s.up 0x50128 1)) ∧
    (s.wick.guard = false → State.pickGo u res s.wick.items none = none → exec (.dispatch dt res) s = .next u) ∧
    (128 ≤ res → res < 144 → State.pickGo u res s.wick.items none = some it → Runs (.dispatch dt res) s (fun t =>
      t.wick.items = s.wick.items.erase it ∧ t.wick.tasks = s.wick.tasks ++ [{ item := it, res := res, slice := false }] ∧
      t.lan = s.lan ∧ RegsKept (0x50100 :: traceRegs) s t)))

/-- R147, R158: an item whose deadline has passed leaves the ready list and is counted, every other stays; the aging scan raises by one
level every item of no flow that has stood long enough below its ceiling.

R149: WCK_LEVEL[l].CAP is written while no plane runs, 16 to 7,680 and within the 7,680 of all levels, and logged; any other write sets
REJECTED and changes no capacity.

R146, R156: a completion of an engine ends its task and releases an item of the one node that waits for it: a successor of the completed
node, or a node that names the engine; with no task of Wick at work there it releases an item of a node that names the engine, and where
none does nothing happens.

R197, R198: a message for a node in force of a running plane that takes messages, whose level is open, becomes an item of its newest
instance and completes with the instance and level as RESULT; a node that no graph holds or that takes no messages, and one of a stopped
plane, are refused. -/
def Obligations.ItemsAreMadeAndLeave : Prop :=
  (∀ (s : State) (dt : Nat),
    let u := s.elapse dt
    let gone := fun (i : WItem) => match i.deadline with | some d => decide (d < u.now) | none => false
    Runs (.expire dt) s (fun t =>
      t.wick.items = s.wick.items.filter (fun i => !gone i) ∧ t.reg 0x50120 = s.up 0x50120 (s.wick.items.filter gone).length ∧
      t.wick.tasks = s.wick.tasks ∧ t.wick.insts = s.wick.insts ∧ RegsKept (0x50120 :: traceRegs) s t ∧
      Frame [.free, .clock, .regs, .host, .rings, .wick, .sta] s t) ∧
    ((∀ it ∈ s.wick.items, it.flow = 0) → Runs (.agingScan dt) s (fun t =>
      t.wick.items = s.wick.items.map (fun it =>
        if s.classCeil (s.itemClass it) ≤ it.level ∨ u.now < it.tLvl + s.wckAge then it
        else { it with level := it.level + 1, tLvl := u.now }) ∧ t.wick.tasks = s.wick.tasks ∧ t.wick.joins = s.wick.joins ∧
      RegsKept (0x50104 :: 0x50108 :: traceRegs) s t ∧ Frame [.free, .clock, .regs, .host, .rings, .wick, .sta] s t))) ∧
  (∀ (s : State) (l : Nat) (v : Word) (o : Origin),
    let cap := field v 12 0
    let others := (List.range 16).foldl (fun a k => if k = l then a else a + s.levelCap k) 0
    l < 16 →
    (s.anyRun = false → 16 ≤ cap → others + cap ≤ 7680 → s.auditRoom 1 = true → Runs (.levelCapWrite l v o) s (fun t =>
      t.levelCap l = cap ∧ Logged s t ∧ t.wick.items = s.wick.items ∧ RegsKept ((0x50040 + 4 * l) :: auditRegs) s t ∧
      Frame [.free, .regs, .host, .rings, .audit, .wick, .pwr, .sta] s t)) ∧
    (s.anyRun = true ∨ cap < 16 ∨ 7680 < others + cap → Runs (.levelCapWrite l v o) s (fun t =>
      t.flag 0x50000 18 = true ∧ RegsKept [0x50000] s t ∧ Frame [.regs] s t))) ∧
  (∀ (s : State) (dt e key n : Nat) (k : WTask) (i i2 : Image) (r r2 : List Byte) (inst : WInst),
    let named := (s.liveNodes.filter (fun p => ndKind p.2 == 2 && ndTarget p.2 == e && ndRelease p.2 == 2)).map (fun p => ndNode p.2)
    e < 16 →
    (s.nodeOf n = some (i2, r2) → ndRelease r2 = 2 → s.planeRuns (ndPlane r2) = true → s.levelOpen (ndLevel r2) = true →
      (s.taskOf (0x80 + e) = some k → s.nodeOf k.item.node = some (i, r) → (s.succOf r ++ named).eraseDups = [n] →
        ndGrid r2 = k.item.grid → s.instOf k.item.grid k.item.num = some inst → Runs (.engineCompletion dt e key) s (fun t =>
          k ∉ t.wick.tasks ∧ (s.elapse dt).newItem inst r2 key inst.num ∈ t.wick.items ∧ t.lan.cores = s.lan.cores ∧
          (e ≠ 10 → t.lan = s.lan))) ∧
      (s.taskOf (0x80 + e) = none → named = [n] → s.newestInst (ndGrid r2) = some inst → s.instOf (ndGrid r2) inst.num = some inst →
        Runs (.engineCompletion dt e key) s (fun t =>
          t.wick.tasks = s.wick.tasks ∧ (s.elapse dt).newItem inst r2 key inst.num ∈ t.wick.items ∧ t.lan = s.lan))) ∧
    (s.taskOf (0x80 + e) = none → named = [] → exec (.engineCompletion dt e key) s = .next (s.elapse dt))) ∧
  (∀ (s : State) (r : Nat) (d : Desc) (rec_ : List Byte) (i : Image) (inst : WInst),
    let node := field d.w0 27 16
    let found := (s.liveNodes.map (·.2) ++ ((s.imgs.held ++ s.imgs.staged).map (fun i => i.nodes)).flatten).find? (fun x => ndNode x == node)
    s.nextDesc r 0x80 = some d → s.wick.blocked.any (fun q => q.core.isNone && q.ring == r) = false →
    field d.w0 31 28 = 0 → d.flags = 0 → field d.w1 31 16 = 0 → d.w3 = 0 → 1024 ≤ node →
    (found = none → Ends (.mbxPost r) s r d.index 0x0706 (fun u => u = s)) ∧
    (found = some rec_ → ndRelease rec_ ≠ 0 → Ends (.mbxPost r) s r d.index 0x0706 (fun u => u = s)) ∧
    (found = some rec_ → ndRelease rec_ = 0 → s.planeRuns (ndPlane rec_) = false → Ends (.mbxPost r) s r d.index 0x0707 (fun u => u = s)) ∧
    (s.nodeOf node = some (i, rec_) → ndRelease rec_ = 0 → s.planeRuns (ndPlane rec_) = true → s.newestInst (ndGrid rec_) = some inst →
      s.instOf (ndGrid rec_) inst.num = some inst → s.pastDeadline (s.deadlineOf inst rec_) = false → ndInCount rec_ ≤ 1 →
      s.levelOpen (ndLevel rec_) = true → ∃ u : State, exec (.mbxPost r) s =
        .next (u.finishAt r d.index stOk 0 s.now (some (BitVec.ofNat 32 (inst.num % 256 + 256 * ndLevel rec_)))) ∧
        s.newItem inst rec_ (field d.w1 15 0) d.w2.toNat ∈ u.wick.items ∧ u.lan = s.lan))

/-- R190 to R192: a task that has run past its limit is a core fault: CAUSE, the program counter and the instant are recorded, the task is
aborted and the core held out, logged where the audit buffer has room (without room it stands still and its removal waits; the model's
choice of the instant is in log entry 180).

R183: a core between bundles, outside a window of NI, with the interrupt pending and enabled, takes it once its results have landed: ipc
and icst save the program counter and cst, cst.IE falls, and the core goes on at ivec plus 0x200 for each source. -/
def Obligations.CoresFaultAndTakeInterrupts : Prop :=
  (∀ (s : State) (dt c cycles : Nat) (k : WTask) (i : Image) (r : List Byte),
    let u := s.elapse dt
    let x := s.core c
    c < 128 → s.taskOf c = some k → s.nodeOf k.item.node = some (i, r) → x.issued ≤ cycles →
    (max 2 (field (s.effReg 0x70000) 7 0) * ndCost r < cycles → Runs (.taskWatchdog dt c cycles) s (fun t =>
      (t.reg (regCore c + 4)).toNat = 2 ^ 31 + 65536 * (k.item.node % 4096) + flWatchdog ∧ (t.reg (regCore c + 8)).toNat = x.pc % 2 ^ 19 ∧
      t.reg64 (regCore c + 12) = u.now % 2 ^ 64 ∧ t.reg 0x70100 = s.up 0x70100 1 ∧ t.reg 0x50124 = s.up 0x50124 1 ∧
      k ∉ t.wick.tasks ∧ (t.core c).r = LCore.idle0.r ∧ (t.core c).acc = [] ∧ (t.core c).dma = x.dma ∧
      (s.isOut c = false → s.removalAsked c = false → s.auditRoom 1 = true → t.isOut c = true ∧ Logged s t) ∧
      (t.isOut c = true ∨ (t.core c).st = 2) ∧ (∀ d, d ≠ c → t.core d = s.core d) ∧ BytesKept s t)) ∧
    (cycles ≤ max 2 (field (s.effReg 0x70000) 7 0) * ndCost r → exec (.taskWatchdog dt c cycles) s = .next u)) ∧
  (∀ (s : State) (dt c src : Nat),
    let x := s.core c
    let y := x.landBy x.issued
    let z := x.drained
    s.coreRuns c = true → src < 2 → x.bundle = [] → x.branch = none → bitOf y.cst 21 = true → bitOf y.cst (17 + src) = true → y.ni = 0 →
    (if src = 0 then y.tcmp ≤ (s.elapse dt).now else x.dmaPend = true) → Runs (.interruptEntry dt c src) s (fun t =>
      (t.core c).pc = ((z.reg 73).toNat + 0x200 * src) % 2 ^ 19 ∧ (t.core c).reg 71 = BitVec.ofNat 32 z.pc ∧ (t.core c).reg 72 = z.cst ∧
      (t.core c).reg 74 = setBitOf z.cst 21 false ∧ (t.core c).inHandler = true ∧ (src = 1 → (t.core c).dmaPend = false) ∧
      (∀ n, n ≠ 71 → n ≠ 72 → n ≠ 74 → (t.core c).reg n = z.reg n) ∧ (t.core c).acc = z.acc ∧ (∀ d, d ≠ c → t.core d = s.core d) ∧
      Frame [.clock, .lan] s t ∧ BytesKept s t))

/-- R390 to R393: a test of a held-out block that passes waits for the block's return at a boundary, and the rerun after a failed test is
reported; one that fails leaves the block out, and ends the command that asked with TEST_FAILED. A passed periodic test of an FFT unit
is counted; a failed one asks for the unit's removal and a rerun. -/
def Obligations.SelfTestsEnd : Prop := ∀ (s : State) (dt target seg : Nat) (v : VigilTest),
  (s.vig.tests.find? (fun x => x.target == target && x.passed.isNone) = some v →
    Runs (.selfTestDone dt target none) s (fun t =>
      t.vig.tests = s.vig.tests.map (fun x => if x = v then { x with passed := some s.mgt.tick.count } else x) ∧ t.mgt = s.mgt ∧
      (if v.test = 1 ∨ v.test = 2 then t.reg 0x12011C = s.up 0x12011C 1 ∧ t.reg 0x120120 = s.up 0x120120 1 ∧
          RegsKept [0x12011C, 0x120120, 0x2000C, 0x10114] s t
        else t.regs = s.regs)) ∧
    (v.cmd = none → Runs (.selfTestDone dt target (some seg)) s (fun t =>
      t.vig.tests = s.vig.tests.erase v ∧ t.mgt = s.mgt ∧ t.reg 0x12011C = s.up 0x12011C 1)) ∧
    (∀ i, v.cmd = some i → Ends (.selfTestDone dt target (some seg)) s 0 i mgtTestFailed (fun u =>
      u.vig.tests = s.vig.tests.erase v ∧ u.mgt = s.mgt ∧ u.reg 0x12011C = s.up 0x12011C 1))) ∧
  (∀ c < 16, s.vig.tests = [] → s.flag 0x120000 0 = true → 192 ≤ Cells.get (fun _ => 0) s.lan.fftSegs c → s.isOut (0x80 + c) = false →
    s.removalAsked (0x80 + c) = false →
    Runs (.selfTestDone dt (0x80 + c) none) s (fun t =>
      Cells.get (fun _ => 0) t.lan.fftSegs c = Cells.get (fun _ => 0) s.lan.fftSegs c - 192 ∧
      t.reg 0x120108 = s.up 0x120108 1 ∧ RegsKept [0x120108] s t ∧ BytesKept s t ∧ Frame [.clock, .regs, .lan] s t) ∧
    Runs (.selfTestDone dt (0x80 + c) (some seg)) s (fun t =>
      ∃ a, t.mgt.ctl = s.mgt.ctl ++ [a] ∧ a.target = 0x80 + c ∧ a.action = 1 ∧ a.origin = 4 ∧ a.test = 2))

/-- R189: the oldest transfer of a core moves its bytes and leaves the core's list; a core frozen in DMA.WAIT goes on once few enough are
left, and one frozen for room gets its transfer in. A transfer of DRAM is a request of its channels.

R171, R172, R192: a finished job leaves its unit's queue with STATUS 1 and is counted, one whose record is out of range with STATUS 2; a
residue failure gives STATUS 3, is counted, and asks for the unit's removal and a test. -/
def Obligations.TransfersAndTransformsEnd : Prop :=
  (∀ (s : State) (dt c : Nat) (j : DmaJob) (js : List DmaJob),
    let x := s.core c
    let parts := if j.kind < 2 then [Part.clock, .regs, .host, .rings, .dram, .lan] else [.clock, .lan]
    c < 128 → x.dma = j :: js →
    (x.freeze = none → Runs (.dmaTransferDone dt c) s (fun t =>
      (t.core c).dma = js ∧ (t.core c).dmaPend = decide (x.st = 1) ∧ (∀ d, d ≠ c → (t.core d).dma = (s.core d).dma) ∧ t.lan.prog = s.lan.prog ∧
      (j.kind = 0 → t.lan.tile.load j.local_ j.bytes = s.lan.dram.load j.remote j.bytes ∧ t.lan.dram = s.lan.dram) ∧
      (j.kind = 1 → t.lan.dram.load j.remote j.bytes = s.lan.tile.load j.local_ j.bytes ∧ t.lan.tile = s.lan.tile) ∧
      (j.kind = 2 → t.lan.tile.load j.local_ j.bytes = s.lan.tile.load j.remote j.bytes ∧ t.lan.dram = s.lan.dram) ∧
      (j.kind = 3 → t.lan.tile.load j.remote j.bytes = s.lan.tile.load j.local_ j.bytes ∧ t.lan.dram = s.lan.dram) ∧
      (∀ a, (j.kind = 0 ∨ j.kind = 2) → (a < j.local_ ∨ j.local_ + j.bytes ≤ a) → t.lan.tile.byte a = s.lan.tile.byte a) ∧
      (∀ a, j.kind = 3 → (a < j.remote ∨ j.remote + j.bytes ≤ a) → t.lan.tile.byte a = s.lan.tile.byte a) ∧
      (∀ a, j.kind = 1 → (a < j.remote ∨ j.remote + j.bytes ≤ a) → t.lan.dram.byte a = s.lan.dram.byte a) ∧
      RegsKept [0x40100, 0x40104, 0x2000C, 0x10114] s t ∧ Frame parts s t)) ∧
    (∀ n, x.freeze = some (.dmaWait n) → Runs (.dmaTransferDone dt c) s (fun t =>
      (t.core c).freeze = (if js.length ≤ n then none else some (.dmaWait n)) ∧ (t.core c).dma = js ∧ Frame parts s t)) ∧
    (∀ k, x.freeze = some (.dma k) → js.length < 4 → Runs (.dmaTransferDone dt c) s (fun t =>
      (t.core c).freeze = none ∧ (t.core c).dma = js ++ [k] ∧ Frame parts s t))) ∧
  (∀ (s : State) (dt c : Nat) (j : FftJob) (rest : List FftJob),
    c < 16 → s.fftQ c = j :: rest →
    ((∀ p ∈ s.lan.cores, ∀ k, p.2.freeze ≠ some (.fftRun k)) →
      ((s.fftPlaces j).isSome = true → Runs (.fftJobDone dt c false) s (fun t =>
        t.lan.tile.byte (j.addr + 13) = 1 ∧ t.fftQ c = rest ∧ t.reg 0x70110 = s.up 0x70110 1 ∧
        RegsKept [0x70110] s t ∧ t.lan.dram = s.lan.dram ∧ t.lan.prog = s.lan.prog ∧ Frame [.clock, .regs, .lan] s t)) ∧
      (s.fftPlaces j = none → Runs (.fftJobDone dt c false) s (fun t =>
        t.lan.tile.byte (j.addr + 13) = 2 ∧ (∀ a, a ≠ j.addr + 13 → t.lan.tile.byte a = s.lan.tile.byte a) ∧ t.fftQ c = rest ∧
        Frame [.clock, .lan] s t))) ∧
    Runs (.fftJobDone dt c true) s (fun t => t.lan.tile.byte (j.addr + 13) = 3 ∧ t.fftQ c = rest ∧
      (∀ a, a ≠ j.addr + 13 → t.lan.tile.byte a = s.lan.tile.byte a) ∧ t.reg 0x110204 = s.up 0x110204 1 ∧
      (s.isOut (0x80 + c) = false → s.removalAsked (0x80 + c) = false →
        ∃ a, t.mgt.ctl = s.mgt.ctl ++ [a] ∧ a.target = 0x80 + c ∧ a.action = 1 ∧ a.origin = 1 ∧ a.test = 5)))

/-- R195, R378, R379, R414: an image is refused at the first check that fails, before any later one; a customer image whose envelope,
signer, signature, SVN and payload pass is accepted and logged, a firmware image is written to the slot that did not boot, which is the
one written last once the write is whole; one that a check with source 47 refuses fires it, and nothing is held.

R377: SEC_SET_OWNER sets the owner key's hash once, and is refused from then on; SEC_COMMIT_SVN raises a minimum to the SVN of the held
image, one OTP step each, with no effect where it is not above the minimum, and refused with no step left, or where no image of the TYPE
is held. -/
def Obligations.ImagesAndKeysAreChecked : Prop :=
  (∀ (s : State) (r : Nat) (d : Desc) (hs bs : Option (List Byte)) (cut : Option Nat)
      (b body : List Byte) (img : Image),
    let load : Instr := .imgLoad r hs bs cut
    let shape := d.flags = 0 ∧ d.spec = 0 ∧ d.w4 = 0 ∧ d.w5 = 0 ∧ d.addr % 32 = 0
    let signer := sha384 ((b.drop 16).take 97)
    let slot := some (leAt b 8 4, b)
    s.nextDesc r 0x70 = some d →
    (¬ shape → Ends load s r d.index stBadDesc (fun u => u = s)) ∧
    (shape → d.w1.toNat < 384 ∨ 16777216 < d.w1.toNat → Ends load s r d.index secBadFormat (fun u => u = s)) ∧
    (shape → 384 ≤ d.w1.toNat → d.w1.toNat ≤ 16777216 → s.auditRoom 1 = true →
      (imageRead d.w1.toNat hs bs = none → Ends load s r d.index stDmaError (fun u => u = s)) ∧
      (imageRead d.w1.toNat hs bs = some b →
        (envelopeOk b = false → Ends load s r d.index secBadFormat (fun u => u = s)) ∧
        (envelopeOk b = true → leAt b 4 1 = 2 → s.sec.ownerHash ≠ some signer →
          Ends load s r d.index secBadSigner (fun u => u.imgs = s.imgs ∧ u.flag 0x2000C 15 = true)) ∧
        (envelopeOk b = true → leAt b 4 1 = 2 → s.sec.ownerHash = some signer → imageSigned b = false →
          Ends load s r d.index secBadSig (fun u => u.imgs = s.imgs ∧ u.flag 0x2000C 15 = true)) ∧
        (envelopeOk b = true → leAt b 4 1 = 2 → s.sec.ownerHash = some signer → imageSigned b = true → leAt b 8 4 < s.sec.ownerMin →
          Ends load s r d.index secRollback (fun u => u.imgs = s.imgs ∧ u.flag 0x2000C 15 = true)) ∧
        (∀ st, s.openImage b = .inl (st, true) → Ends load s r d.index st (fun u =>
          u.imgs = s.imgs ∧ u.flag 0x2000C 15 = true ∧ RegsKept [0x2000C, 0x10114] s u ∧ Frame [.regs, .host, .rings] s u)) ∧
        (s.openImage b = .inr body → leAt b 4 1 = 1 → Ends load s r d.index stOk (fun u =>
          u.imgs = { s.imgs with boot := some b, bootSvn := leAt b 8 4 } ∧ Logged s u ∧
          (s.pwr.booted = 0 → u.pwr.slotA = s.pwr.slotA ∧ (cut = none → u.pwr.slotB = slot ∧ u.pwr.newest = 1)) ∧
          (s.pwr.booted = 1 → u.pwr.slotB = s.pwr.slotB ∧ (cut = none → u.pwr.slotA = slot ∧ u.pwr.newest = 0)) ∧
          (cut ≠ none → u.pwr.newest = s.pwr.newest))) ∧
        (s.openImage b = .inr body → leAt b 4 1 = 2 →
          (checkImage s.imgs (leAt b 8 4) body = .inr img →
            Ends load s r d.index stOk (fun u => u.imgs = s.imgs.accept img ∧ u.pwr.slotA = s.pwr.slotA ∧ u.pwr.slotB = s.pwr.slotB ∧ Logged s u)) ∧
          (∀ st, checkImage s.imgs (leAt b 8 4) body = .inl st → Ends load s r d.index st (fun u => u = s)))))) ∧
  (∀ (s : State) (d : Desc) (bs : List Byte) (svn : Nat),
    let h := (bs ++ List.replicate 48 0).take 48
    let type := d.w1.toNat
    let old := if type = 1 then s.sec.fwMin else s.sec.ownerMin
    let steps := if type = 1 then s.sec.fwSteps else s.sec.ownerSteps
    (s.nextDesc 0 0xD2 = some d →
      (s.sec.ownerHash = none → s.auditRoom 1 = true → Ends (.secSetOwner (some bs)) s 0 d.index stOk (fun u =>
        u.sec = { s.sec with ownerHash := some h } ∧ Logged s u ∧ RegsKept auditRegs s u ∧ Frame [.regs, .host, .rings, .audit, .sec, .pwr, .sta] s u)) ∧
      (s.sec.ownerHash.isSome = true → Ends (.secSetOwner (some bs)) s 0 d.index secOwnerSet (fun u => u = s))) ∧
    (s.nextDesc 0 0xD1 = some d → s.heldSvn type = none → Ends .secCommitSvn s 0 d.index stNotFound (fun u => u = s)) ∧
    (s.nextDesc 0 0xD1 = some d → s.heldSvn type = some svn →
      (old < svn → 0 < steps → s.auditRoom 1 = true → Ends .secCommitSvn s 0 d.index stOk (fun u =>
        u.sec = (if type = 1 then { s.sec with fwMin := svn, fwSteps := steps - 1 } else { s.sec with ownerMin := svn, ownerSteps := steps - 1 }) ∧
        Logged s u ∧ RegsKept auditRegs s u ∧ Frame [.regs, .host, .rings, .audit, .sec, .pwr, .sta] s u)) ∧
      (svn ≤ old → Ends .secCommitSvn s 0 d.index stOk (fun u => u = s)) ∧
      (old < svn → steps = 0 → Ends .secCommitSvn s 0 d.index secOtpFull (fun u => u = s))))

/-- R403, R405, R407: what VIN and the rails do. A measurement is held in PWR_VIN; the module starts at 35 V, after OVERVOLTAGE at 75 V or
below; warnings raise and clear their flag of PWR_STATUS, drive SMB_ALERT_n and fire source 56; below 32 V, above 80 V and on a rail
fault Snuffer is triggered.

R406 to R409, R316: what temperature, the watchdog and MANTLE_FAULT do. An estimate is held in PWR_TEMP; 120 °C raises THERM_n and below
115 °C it falls; a module off for THERMAL powers up at 100 °C or below; 135 °C, or 130 °C for 1 s, 100 ms without service, and a
MANTLE_FAULT trigger Snuffer; after 50 ms source 62 warns once. -/
def Obligations.SupplyAndHeatAreSupervised : Prop :=
  (∀ (s : State) (dt mv strap : Nat),
    let u := s.elapse dt
    let vin := fun (t : State) => t.reg 0x130004 = BitVec.ofNat 32 (min (mv / 10) 65535)
    let told := fun (t : State) => s.mgt.modState ≠ 0 → t.flag 0x2000C 24 = true
    let kept := fun (t : State) => RegsKept [0x130000, 0x130004, 0x2000C, 0x10114] s t ∧ Frame [.clock, .regs, .host, .rings, .pwr] s t
    let starts := fun (i : Instr) => Runs i s (fun t => t.pg = true ∧ t.pwr.aux = true ∧ t.pwr.hold = 0 ∧ t.pwr.smbStrap = strap % 32 ∧
      vin t ∧ RegsKept [0x130000, 0x130004] s t ∧ Frame [.clock, .regs, .pwr] s t)
    let snuffs := fun (i : Instr) (cause : Nat) => s.pg = true → s.pwr.snuff = none → Runs i s (fun t =>
      Snuffed s t cause u.now ∧ RegsKept snuffRegs s t ∧ Frame [.free, .clock, .regs, .host, .rings, .audit, .mix, .pwr, .sta] s t)
    (s.pg = false → 35000 ≤ mv → s.pwr.hold = 4 → starts (.powerUpStart dt mv strap)) ∧
    (s.pg = false → 35000 ≤ mv → mv ≤ 75000 → s.pwr.hold = 5 → starts (.overvoltageRecovery dt mv strap)) ∧
    (mv < 35000 → Runs (.powerUpStart dt mv strap) s (fun t => vin t ∧ RegsKept [0x130004] s t ∧ Frame [.clock, .regs] s t)) ∧
    (mv < 34000 → s.flag 0x130000 4 = false → Runs (.vinLowWarning dt mv) s (fun t =>
      vin t ∧ t.flag 0x130000 4 = true ∧ t.pwr.alert = true ∧ told t ∧ kept t)) ∧
    (35000 ≤ mv → s.flag 0x130000 4 = true → Runs (.vinRecover dt mv) s (fun t =>
      vin t ∧ t.flag 0x130000 4 = false ∧ t.pwr.alert = true ∧ told t ∧ kept t)) ∧
    (77000 < mv → Runs (.overvoltageWarning dt mv) s (fun t =>
      vin t ∧ told t ∧ RegsKept [0x130004, 0x2000C, 0x10114] s t ∧ Frame [.clock, .regs, .host, .rings] s t)) ∧
    (mv < 32000 → snuffs (.undervoltage dt mv) 4) ∧
    (mv < 32000 → s.pg = false → s.pwr.hold = 9 → Runs (.undervoltage dt mv) s (fun t =>
      vin t ∧ t.pwr.hold = 4 ∧ RegsKept [0x130004] s t ∧ Frame [.clock, .regs, .pwr] s t)) ∧
    (80000 < mv → snuffs (.overvoltage dt mv) 5) ∧
    snuffs (.railFault dt) 9 ∧
    (s.pwr.aux = true → s.flag 0x130000 5 = false → Runs (.auxFault dt) s (fun t =>
      t.flag 0x130000 5 = true ∧ t.pwr.alert = true ∧ told t ∧ kept t)) ∧
    Runs (.auxFaultRecovery dt) s (fun t => t.flag 0x130000 5 = false ∧ (s.flag 0x130000 5 = true → t.pwr.alert = true) ∧
      RegsKept [0x130000] s t ∧ Frame [.clock, .regs, .pwr] s t)) ∧
  (∀ (s : State) (dt : Nat) (c : Int),
    let u := s.elapse dt
    let temp := fun (t : State) => t.reg 0x130008 = BitVec.ofNat 32 (pattern 16 c)
    let kept := fun (t : State) => RegsKept [0x130000, 0x130008, 0x2000C, 0x10114] s t ∧
      Frame [.free, .clock, .regs, .host, .rings, .pwr] s t
    let snuffs := fun (i : Instr) (cause : Nat) => s.pg = true → s.pwr.snuff = none → Runs i s (fun t =>
      Snuffed s t cause u.now ∧ RegsKept snuffRegs s t ∧ Frame [.free, .clock, .regs, .host, .rings, .audit, .mix, .pwr, .sta, .mnt] s t ∧
      (cause ≠ 8 → t.mnt = s.mnt))
    (1200 ≤ c → s.flag 0x130000 3 = false → s.pwr.hold ≠ 6 → Runs (.temperatureEstimate dt c) s (fun t =>
      temp t ∧ t.flag 0x130000 3 = true ∧ t.pwr.alert = true ∧ (s.mgt.modState ≠ 0 → t.flag 0x2000C 25 = true) ∧ kept t)) ∧
    (c < 1150 → s.flag 0x130000 3 = true → Runs (.temperatureEstimate dt c) s (fun t =>
      temp t ∧ t.flag 0x130000 3 = false ∧ t.pwr.alert = true ∧ t.pwr.hotSince = none ∧ kept t)) ∧
    (1300 ≤ c → s.pwr.hotSince = none → Runs (.temperatureEstimate dt c) s (fun t =>
      temp t ∧ t.pwr.hotSince = some u.clock.ticks ∧ (s.mgt.modState ≠ 0 → t.flag 0x2000C 26 = true) ∧ kept t)) ∧
    (c ≤ 1000 → s.pwr.hold = 6 → s.pg = false → Runs (.temperatureEstimate dt c) s (fun t =>
      temp t ∧ t.pg = true ∧ t.pwr.aux = true ∧ t.pwr.hold = 0 ∧ kept t)) ∧
    (1350 ≤ s.caseTemp → snuffs (.thermal dt) 6) ∧
    (∀ k, s.pwr.hotSince = some k → k + msTicks 1000 ≤ u.clock.ticks → snuffs (.thermal dt) 6) ∧
    (s.ready = true → s.pwr.warned = false → s.pwr.serviced + msTicks 50 ≤ u.clock.ticks → Runs (.watchdogWarning dt) s (fun t =>
      t.pwr.warned = true ∧ (s.mgt.modState ≠ 0 → t.flag 0x2000C 30 = true) ∧ RegsKept [0x2000C, 0x10114] s t ∧
      Frame [.clock, .regs, .host, .rings, .pwr] s t)) ∧
    (s.pwr.warned = true → Runs (.watchdogWarning dt) s (fun t => t = u)) ∧
    (s.ready = true → s.pwr.serviced + msTicks 100 ≤ u.clock.ticks → snuffs (.watchdog dt) 7) ∧
    Runs (.watchdogService dt) s (fun t => t.pwr.serviced = u.clock.ticks ∧ t.pwr.warned = false ∧
      (s.pwr.warned = true → s.mgt.modState ≠ 0 → t.flag 0x2000C 30 = true) ∧ RegsKept [0x2000C, 0x10114] s t ∧
      Frame [.clock, .regs, .host, .rings, .pwr] s t) ∧
    (s.mnt.st ≠ 7 → snuffs (.mantleFault dt) 8 ∧ Runs (.mantleFault dt) s (fun t => t.mnt.st = 7 ∧ t.mnt.sel = s.mnt.sel)))

/-- R407, R410 to R412: Snuffer at work writes its journal record, then the action of its cause follows: the module in reset, its rails off
for causes 4, 5, 6 and 9, held for those, 8, and 2 while RESET_n is low. Every register but the power registers and SEC_RESET_CAUSE is
then at reset; the owner key, the minimum SVNs and the journal stay. RESET_n low triggers Snuffer, and high releases its hold.

R381: a glitch resets the module at once: SEC_RESET_CAUSE keeps the detail, PWR_CAUSE reads 10 and FAULT is set; every other register
outside the power registers is at reset. -/
def Obligations.SnufferResetsTheModule : Prop :=
  (∀ (s : State) (dt cause time : Nat),
    let u := s.elapse dt
    let off := cause = 4 ∨ cause = 5 ∨ cause = 6 ∨ cause = 9
    let snuffs := fun (i : Instr) (k : Nat) => s.pg = true → s.pwr.snuff = none → Runs i s (fun t =>
      Snuffed s t k u.now ∧ RegsKept snuffRegs s t ∧ Frame [.free, .clock, .regs, .host, .rings, .audit, .mix, .pwr, .sta] s t)
    (s.pwr.snuff = some (cause, time) → s.pwr.flushed = false → Runs (.snuffer dt) s (fun t =>
      t.pwr.flushed = true ∧ t.pwr.journal.head? = some (s.snuffRecord cause time) ∧ Frame [.clock, .pwr] s t)) ∧
    (u.modResetDue = true → snuffs (.snuffer dt) 3) ∧
    (s.pwr.snuff = some (cause, time) → s.pwr.flushed = true → Runs (.snufferEnd dt) s (fun t =>
      t.mgt.modState = 0 ∧ t.ready = false ∧ t.pwr.snuff = none ∧ t.pg = (if off then false else s.pg) ∧
      t.pwr.hold = (if off ∨ cause = 8 ∨ (cause = 2 ∧ s.pwr.resetLow = true) then cause else 0) ∧
      t.link.addr = (if off then 31 else s.link.addr) ∧ t.pwr.journal = s.pwr.journal ∧ t.sec.ownerHash = s.sec.ownerHash ∧
      t.sec.fwMin = s.sec.fwMin ∧ t.sec.ownerMin = s.sec.ownerMin ∧
      t.reg 0x140010 = (if cause = 4 then 0 else s.reg 0x140010) ∧ t.reg 0x130004 = s.reg 0x130004 ∧ t.reg 0x130008 = s.reg 0x130008 ∧
      t.reg 0x13000C = s.reg 0x13000C ∧
      (∀ k, (k < 0x130000 ∨ 0x13000C < k) → k ≠ 0x140010 → t.reg k = regReset k) ∧ t.lan = State.reset.lan ∧ t.rings = [])) ∧
    (s.pwr.hold ≠ 2 → s.pwr.hold ≠ 8 → s.pwr.hold ≠ 9 → snuffs (.resetN dt true) 2) ∧
    (s.pwr.hold = 8 ∨ s.pwr.hold = 9 → Runs (.resetN dt true) s (fun t =>
      t.pwr.resetLow = true ∧ t.pwr.hold = (if s.pwr.hold = 8 then 2 else 4) ∧ Frame [.clock, .pwr] s t)) ∧
    (s.pwr.hold = 2 → Runs (.resetN dt false) s (fun t => t.pwr.resetLow = false ∧ t.pwr.hold = 0 ∧ Frame [.clock, .pwr] s t))) ∧
  (∀ (s : State) (dt cause : Nat), s.pg = true → Runs (.glitch dt cause) s (fun t =>
    (t.reg 0x140010).toNat = 2 ^ 31 + cause % 16 ∧ t.reg 0x13000C = 10 ∧ t.flag 0x130000 2 = true ∧ t.ready = false ∧ t.pg = true ∧
    t.mgt.modState = 0 ∧ t.pwr.hold = (if s.pwr.resetLow then 2 else 0) ∧ t.reg 0x130004 = s.reg 0x130004 ∧ t.reg 0x130008 = s.reg 0x130008 ∧
    (∀ k, (k < 0x130000 ∨ 0x13000C < k) → k ≠ 0x140010 → t.reg k = regReset k) ∧ t.link.addr = s.link.addr ∧
    t.sec.ownerHash = s.sec.ownerHash ∧ t.lan = State.reset.lan))

/-- R410, R413 to R416, R418, R419: MOD_RESET is accepted with space for its entry; from reset the boot ROM boots the first slot whose image
passes R379, waits for the host, boots the image its chain answers with once one comes, or fails; in BOOT_WAIT and BOOT_FAILED an image
the host has loaded boots. PWR_STANDBY with nothing outstanding powers the MACs down and enters STANDBY; PWR_WAKE leaves it; each is
refused in the other's state. -/
def Obligations.TheModuleBootsAndSleeps : Prop := ∀ (s : State) (d : Desc) (dt sel addr slot svn : Nat) (head : Bool)
    (okA okB chainOk : Bool) (img : List Byte) (chain : Option (List Byte)),
  let boot : Instr := .boot dt head sel addr okA okB chain chainOk
  let passes := fun (x : Nat × Nat × List Byte) => (if x.1 = 0 then okA else okB) && s.firmwareOk x.2.2
  let ready := fun (t : State) => t.mgt.modState = 3 ∧ t.ready = true ∧ t.flag 0x130000 2 = false ∧ t.pwr.fw = img ∧ t.pwr.fwSvn = svn
  let may := s.pg = true ∧ s.pwr.hold = 0 ∧ s.pwr.snuff = none ∧ s.pwr.resetLow = false
  let parts : List Part := [.clock, .regs, .host, .rings, .audit, .mgt, .straps, .pwr, .sta, .link]
  (s.nextDesc 0 0xE1 = some d → pwrFields d = true → s.auditRoom 1 = true → Ends .modReset s 0 d.index stOk (fun u =>
    u.pwr.resetAt = some (s.now, d.index) ∧ u.audit.reserved = s.audit.reserved + 1 ∧ Frame [.regs, .host, .rings, .audit, .pwr] s u)) ∧
  (may → s.mgt.modState = 0 →
    (sel % 4 = 0 → s.pwr.slots.find? passes = some (slot, svn, img) →
      Runs boot s (fun t => ready t ∧ t.pwr.booted = slot ∧ t.straps = { head := head, boot := sel % 4, addr := addr % 32 } ∧
        (s.reg 0x13000C ≠ 10 → t.audit.index = restoredIndex s.pwr.journal + 1) ∧ Frame parts s t)) ∧
    (sel % 4 = 0 → s.pwr.slots.find? passes = none →
      Runs boot s (fun t => t.mgt.modState = 2 ∧ t.flag 0x130000 2 = true ∧ t.ready = s.ready ∧ Frame parts s t)) ∧
    (sel % 4 = 1 → Runs boot s (fun t => t.mgt.modState = 1 ∧ t.ready = s.ready ∧ Frame parts s t)) ∧
    (sel % 4 = 2 → head = false → chain = some img → leAt img 8 4 = svn → chainOk = true → s.firmwareOk img = true →
      Runs boot s (fun t => ready t ∧ Frame parts s t)) ∧
    (sel % 4 = 2 → head = false → chain = none → exec boot s = .next (s.elapse dt)) ∧
    (sel % 4 = 3 ∨ (sel % 4 = 2 ∧ (head = true ∨ chain = some img ∧ (chainOk = false ∨ s.firmwareOk img = false))) → Runs boot s (fun t => t.mgt.modState = 2 ∧ t.flag 0x130000 2 = true ∧ Frame parts s t))) ∧
  (may → s.mgt.modState = 1 ∨ s.mgt.modState = 2 → s.imgs.boot = some img → s.imgs.bootSvn = svn → Runs boot s (fun t =>
    ready t ∧ t.audit.index = s.audit.index + 1 ∧ Frame parts s t)) ∧
  (s.nextDesc 0 0xE2 = some d → pwrFields d = true → s.anyRun = false → s.pwr.standby = none → (s.ring 0).descs = [d] →
    (∀ r, r ≠ 0 → (s.ring r).descs = []) → s.host.lateAborts = [] → Runs .pwrStandby s (fun t =>
      t.mgt.modState = 5 ∧ t.pwr.standby = none ∧ (∀ n < 4, t.mac n = (s.mac n).powerDown))) ∧
  (s.nextDesc 0 0xE2 = some d → pwrFields d = true → s.anyRun = true → Ends .pwrStandby s 0 d.index 0x0D01 (fun u => u = s)) ∧
  (s.nextDesc 0 0xE3 = some d → pwrFields d = true → s.mgt.modState = 5 → Ends .pwrWake s 0 d.index stOk (fun u =>
    u.mgt.modState = 3 ∧ (∀ ch < 4, (u.chan ch).selfRefresh = false) ∧
    (∀ n < 4, u.mac n = if s.flag (regNet n 0) 0 then { s.mac n with st := 1 } else s.mac n) ∧
    Frame [.regs, .host, .rings, .mgt, .dram, .macs] s u)) ∧
  (s.nextDesc 0 0xE3 = some d → pwrFields d = true → s.mgt.modState ≠ 5 → Ends .pwrWake s 0 d.index 0x0D03 (fun u => u = s))

/-- R420: PWR_STANDBY while a plane runs completes with PWR_NOT_STOPPED; in standby every ring 0 command but PWR_WAKE and NOP completes with
PWR_IN_STANDBY, one fetched then and one that stood behind the PWR_STANDBY alike; PWR_WAKE outside standby completes with
PWR_NOT_STANDBY. -/
def Obligations.PowerCommandsAreRefused : Prop := ∀ (s : State) (d : Desc) (ws : List Word),
  let x := s.ring 0
  let e := mkDesc (2 ^ 32 * x.epoch + x.fetched) ws
  (s.nextDesc 0 0xE2 = some d → pwrFields d = true → s.anyRun = true → Ends .pwrStandby s 0 d.index 0x0D01 (fun u => u = s)) ∧
  (s.mgt.modState = 5 ∨ s.pwr.standby.isSome = true → entrySeal 0 x.fetched e.body = (ws.getD 7 0).toNat → ringAccepts 0 e.opcode = true → e.opcode ≠ 0 → e.opcode ≠ 0xE3 →
    ((s.takeDesc 0 ws).ring 0).descs = x.descs ++ [{ e with phase := .done 0x0D02 0 s.now none }]) ∧
  (s.nextDesc 0 0xE2 = some d → pwrFields d = true → s.anyRun = false → s.pwr.standby = none → Runs .pwrStandby s (fun t =>
    ∀ y ∈ (t.ring 0).descs, y.opcode ≠ 0 → y.opcode ≠ 0xE3 → y.phase ≠ .fetched)) ∧
  (s.nextDesc 0 0xE3 = some d → pwrFields d = true → s.mgt.modState ≠ 5 → Ends .pwrWake s 0 d.index 0x0D03 (fun u => u = s))

/-- R432: the management bus answers whenever AUX3V3 is good: VIN, temperature, cause and status by their command, the module's address to
the Alert Response Address, which releases SMB_ALERT_n; a write is not acknowledged. -/
def Obligations.TheManagementBusAnswers : Prop := ∀ (s : State),
  let answers := fun (i : Instr) (b : List Byte) => Runs i s (fun t =>
    t.pwr = { s.pwr with smb := if s.pwr.aux then some b else none } ∧ Frame [.pwr] s t)
  answers .smbReadVin (leBytes 2 (s.fld 0x130004 15 0)) ∧ answers .smbReadTemp (leBytes 2 (s.fld 0x130008 15 0)) ∧
  answers .smbReadCause (leBytes 1 (s.fld 0x13000C 3 0)) ∧ answers .smbReadStatus (leBytes 1 (s.fld 0x130000 5 0)) ∧
  Runs .smbWrite s (fun t => t.pwr = { s.pwr with smb := none } ∧ Frame [.pwr] s t) ∧
  (s.pwr.aux = true → s.pwr.alert = true → Runs .alertResponse s (fun t =>
    t.pwr = { s.pwr with smb := some (leBytes 1 (if s.pwr.smbStrap ≤ 16 then 0x50 + s.pwr.smbStrap else 0x51 + s.pwr.smbStrap))
                         alert := false } ∧ Frame [.pwr] s t)) ∧
  (s.pwr.aux = false ∨ s.pwr.alert = false → Runs .alertResponse s (fun t =>
    t.pwr = { s.pwr with smb := none } ∧ Frame [.pwr] s t))

/-- R258, R259, R279: the states of a MAC: enabled it acquires, on lock it is UP, on a fault at 10 Gb/s it is in FAULT, and 1 ms after the
fault has cleared UP again; each change fires source 59, each departure from UP is counted and empties its class queues. A change of
ENABLE or SPEED of a live MAC waits for its boundary. Low-power idle is entered, left with its wake time, and received.

R260, R261, R280: an MDIO operation starts with BUSY and lasts 64 MDC cycles; it ends with BUSY low, a read with what the PHY drove, or
ERROR and FFFFH where it drove nothing; a write of NET0_MDIO_CMD while BUSY sets ERROR. DA_LO is held until DA_HI commits the whole
entry of the filter. A read of an octet counter gives its low word and latches its high one. -/
def Obligations.MacsChangeAndAreWritten : Prop :=
  (∀ (s : State) (dt n : Nat) (v : Word) (o : Origin) (an lf rf : Bool) (rx : Option Nat),
    n < 4 →
    let u := s.elapse dt
    let x := s.mac n
    let en := s.flag (regNet n 0) 0
    let up := fun (off : Nat) => BitVec.ofNat 32 (satU 32 ((s.reg off).toNat + 1))
    let told := fun (t : State) => t.flag 0x2000C 27 = true ∧ RegsKept [0x2000C, 0x10114] s t ∧ ∀ k, k ≠ n → t.mac k = s.mac k
    let left := fun (t : State) (st : Nat) => (t.mac n).st = st ∧ t.flag 0x2000C 27 = true ∧ t.reg (regNet n 0x15C) = up (regNet n 0x15C) ∧
      ∀ tc < 8, (t.queue 1 (8 * n + tc)).drain = []
    let new := v &&& 7
    (x.st = 1 → s.netGig n = false ∨ s.flag (regNet n 0) 2 = false ∨ an = true → Runs (.blockLock n an) s (fun t =>
      (t.mac n).st = 2 ∧ (t.mac n).lock = true ∧ (t.mac n).anDone = (s.netGig n && s.flag (regNet n 0) 2 && an) ∧ told t ∧
      Frame [.regs, .host, .rings, .macs] s t)) ∧
    (x.st = 1 → s.netGig n = true → s.flag (regNet n 0) 2 = true → Runs (.blockLock n false) s (fun t =>
      t.mac n = { x with lock := true, anDone := false } ∧ Frame [.macs] s t)) ∧
    (x.st = 2 → s.pwr.standby = none → Runs (.macLockLoss n rx) s (fun t => left t 1 ∧ (t.mac n).lock = false)) ∧
    (x.st = 2 → s.netGig n = false → s.pwr.standby = none → Runs (.macFault n lf rf rx) s (fun t =>
      left t 3 ∧ (t.mac n).localFault = lf ∧ (t.mac n).remoteFault = rf)) ∧
    (x.st = 3 → Runs (.macFaultClear dt n) s (fun t => (t.mac n).st = 2 ∧ (t.mac n).localFault = false ∧ (t.mac n).remoteFault = false ∧
      told t ∧ Frame [.clock, .regs, .host, .rings, .macs] s t)) ∧
    (∀ i ∈ [Instr.netEnable n v o, .netSpeed n v o], s.auditRoom 1 = true →
      (en = false → Runs i s (fun t => t.reg (regNet n 0) = new ∧ Logged s t ∧ RegsKept (regNet n 0 :: auditRegs) s t ∧
        (t.mac n).st = (if bitOf new 0 = true ∧ s.mgt.modState ≠ 5 then 1 else x.st) ∧
        Frame [.regs, .host, .rings, .audit, .macs, .pwr, .sta] s t)) ∧
      (en = true → bitOf v 0 = true → bitOf v 1 = s.netGig n → Runs i s (fun t => t.reg (regNet n 0) = new ∧ Logged s t ∧
        RegsKept (regNet n 0 :: auditRegs) s t ∧ t.macs = s.macs)) ∧
      (en = true → s.anyRun = false → s.mgt.modState ≠ 5 → s.pwr.standby = none → (bitOf v 0 = false ∨ bitOf v 1 ≠ s.netGig n) → Runs i s (fun t =>
        t.reg (regNet n 0) = new ∧ (t.mac n).st = (if bitOf v 0 then 1 else 0) ∧ (t.mac n).lock = false)) ∧
      (en = true → s.anyRun = true → (bitOf v 0 = false ∨ bitOf v 1 ≠ s.netGig n) → Runs i s (fun t =>
        t.reg (regNet n 0) = s.reg (regNet n 0) ∧ t.audit.reserved = s.audit.reserved + 1 ∧ t.mgt.modeWrites = s.mgt.modeWrites ++
          [{ off := regNet n 0, v := v, origin := originCode o, originId := originId o, req := s.request 0 0 }] ∧ t.macs = s.macs ∧
        RegsKept auditRegs s t ∧ Frame [.regs, .host, .rings, .audit, .mgt] s t))) ∧
    (x.st = 2 → Runs (.lpiReceive n an) s (fun t => t.mac n = { x with lpiRx := an } ∧
      t.reg (regNet n 0x158) = (if an && !x.lpiRx then up (regNet n 0x158) else s.reg (regNet n 0x158)) ∧
      RegsKept [regNet n 0x158] s t ∧ Frame [.regs, .macs] s t)) ∧
    (s.flag (regNet n 0x18) 16 = true → x.st = 2 → s.netGig n = true → x.lpiTx = false → x.line = none → u.anyEligible n = false →
      x.idleSince + 1000 * max 1 (s.fld (regNet n 0x18) 15 0) ≤ u.now → u.launchWithin n (2 * s.twNs n) = false →
      Runs (.lpiEntry dt n) s (fun t => t.mac n = { x with lpiTx := true } ∧ t.reg (regNet n 0x154) = up (regNet n 0x154) ∧
        RegsKept [regNet n 0x154] s t ∧ Frame [.clock, .regs, .macs] s t)) ∧
    (x.lpiTx = true → u.anyEligible n = true ∨ u.launchWithin n (s.twNs n) = true ∨ s.flag (regNet n 0x18) 16 = false → Runs (.lpiWake dt n) s (fun t =>
      t.mac n = { x with lpiTx := false, wakeAt := u.now + s.twNs n } ∧ RegsKept [] s t ∧ Frame [.clock, .macs] s t))) ∧
  (∀ (s : State) (dt n e : Nat) (v : Word) (o : Origin) (x : BitVec 16) (tx : Bool),
    let u := s.elapse dt
    let busy := s.flag 0xC0044 31
    let logged := fun (t : State) (off : Nat) => Logged s t ∧ RegsKept (off :: auditRegs) s t
    (busy = false → s.auditRoom 1 = true → Runs (.mdioStart v o) s (fun t =>
      t.reg 0xC0044 = setBitOf (v &&& 0xF01F1F00) 27 (s.flag 0xC0044 27 && !bitOf v 27) ∧ logged t 0xC0044 ∧
      t.mdioEnd = (if bitOf v 31 then s.now + 512 * (max 9 (s.fld 0xC0040 7 0) + 1) else s.mdioEnd) ∧
      Frame [.regs, .host, .rings, .audit, .mdioEnd, .pwr, .sta] s t)) ∧
    (busy = true → Runs (.mdioStart v o) s (fun t => t.reg 0xC0044 = setBitOf (s.reg 0xC0044) 27 true ∧ RegsKept [0xC0044] s t ∧
      Frame [.regs] s t)) ∧
    (busy = true → s.mdioEnd ≤ u.now →
      (s.fld 0xC0044 29 28 = 3 ∨ (s.fld 0xC0044 29 28 = 2 ∧ s.flag 0xC0044 30 = false) →
        Runs (.mdioDone dt (some x)) s (fun t => t.flag 0xC0044 31 = false ∧ t.flag 0xC0044 27 = s.flag 0xC0044 27 ∧
          t.reg 0xC0048 = x.setWidth 32 ∧ RegsKept [0xC0044, 0xC0048] s t ∧ Frame [.clock, .regs] s t) ∧
        Runs (.mdioDone dt none) s (fun t => t.flag 0xC0044 31 = false ∧ t.flag 0xC0044 27 = true ∧ t.reg 0xC0048 = 0xFFFF ∧
          RegsKept [0xC0044, 0xC0048] s t ∧ Frame [.clock, .regs] s t)) ∧
      (s.fld 0xC0044 29 28 = 1 ∨ (s.fld 0xC0044 29 28 = 0 ∧ s.flag 0xC0044 30 = false) → Runs (.mdioDone dt none) s (fun t =>
        t.flag 0xC0044 31 = false ∧ t.flag 0xC0044 27 = s.flag 0xC0044 27 ∧ RegsKept [0xC0044] s t ∧ Frame [.clock, .regs] s t)) ∧
      (s.flag 0xC0044 30 = true → s.fld 0xC0044 29 28 = 0 ∨ s.fld 0xC0044 29 28 = 2 → Runs (.mdioDone dt (some x)) s (fun t =>
        t.flag 0xC0044 31 = false ∧ t.flag 0xC0044 27 = true ∧ t.reg 0xC0048 = (if s.fld 0xC0044 29 28 = 2 then 0xFFFF else s.reg 0xC0048) ∧
        RegsKept [0xC0044, 0xC0048] s t ∧ Frame [.clock, .regs] s t))) ∧
    (n < 4 → e < 32 → s.auditRoom 1 = true →
      Runs (.daLo n e v o) s (fun t => t.reg (regNet n 0x200 + 8 * e) = v ∧ logged t (regNet n 0x200 + 8 * e) ∧ t.macs = s.macs ∧
        Frame [.regs, .host, .rings, .audit, .pwr, .sta] s t) ∧
      Runs (.daHi n e v o) s (fun t => t.reg (regNet n 0x204 + 8 * e) = v &&& 0x8000FFFF ∧ logged t (regNet n 0x204 + 8 * e) ∧
        Cells.get (fun _ => 0) (t.mac n).filter e =
          beNat (leBytes 4 (s.reg (regNet n 0x200 + 8 * e)).toNat ++ leBytes 2 (field v 15 0)) + (if bitOf v 31 then 2 ^ 48 else 0) ∧
        (∀ k, k ≠ e → Cells.get (fun _ => 0) (t.mac n).filter k = Cells.get (fun _ => 0) (s.mac n).filter k) ∧
        (∀ k, k ≠ n → t.mac k = s.mac k) ∧ Frame [.regs, .host, .rings, .audit, .macs, .pwr, .sta] s t)) ∧
    (n < 4 → let off := regNet n (if tx then 0x12C else 0x104)
      let c := if tx then (s.mac n).txOctets else (s.mac n).rxOctets
      Runs (.octetCounterRead n tx) s (fun t => t.host = { s.host with lastRead := some (off, BitVec.ofNat 32 c) } ∧
        t.reg (off + 4) = BitVec.ofNat 32 (c / 2 ^ 32) ∧ RegsKept [off + 4] s t ∧ Frame [.regs, .host] s t)))

/-- R257, R261 to R264, R284: a frame at a MAC that is not UP is not seen; a good MAC Control frame is counted, whatever its address (the
model's order, log entry 201); another that passes no filter entry is counted; a frame with a fault is counted under each fault it shows
and reaches no consumer; a good frame no engine takes enters the high or the normal host queue, as its words and two trailer words, a
PTP frame the high one, unless firmware owns the servo on that MAC and takes it.

R265 to R268: an RX_BUF descriptor becomes an available buffer; a frame at the head of a host queue is written to buffers that hold it,
good ones counted, and leaves the queue; a frame for which none come in time, or whose ring does not run, is dropped and counted. -/
def Obligations.ReceivedFramesReachTheHost : Prop :=
  (∀ (s : State) (dt n stamp entry m : Nat) (f : List Byte) (ok align parity : Bool) (sync : Option Int),
    n < 4 →
    let u := s.elapse dt
    let p := parseEth f
    let ip := parseUdp p
    let bad := s.rxFaults n f.length ok align
    let up := fun (off : Nat) => s.up off 1
    let i : Instr := .frameReceive dt n f ok align stamp parity sync
    let pcp := match p.tag with | some t => t / 8192 % 8 | none => 0
    let high := (ptpType p).isSome || (p.tag.isSome && decide (s.fld (regNet n 8) 7 4 ≤ pcp))
    let event := match ptpType p with | some (ty, ev) => ev && decide (ty ≤ 3) | none => false
    let flags := (if event || s.flag (regNet n 8) 3 then 0x80 else 0) + (match p.tag with | some _ => 0x100 + 0x200 * pcp | none => 0)
    let ta := ((stamp : Int) - signed 16 (s.fld (0xD0040 + 4 * n) 15 0)).toNat
    let control := p.etherType = 0x8808 ∧ bad = []
    let servo := (ptpType p).isSome = true ∧ s.servoOwned = true ∧ s.fld regTimCtrl 19 18 = n
    ((s.mac n).st ≠ 2 → exec i s = .next u) ∧
    ((s.mac n).st = 2 → s.lanesTaken = false →
      (control → Runs i s (fun t => t.reg (regNet n 0x120) = up (regNet n 0x120) ∧
        RegsKept [regNet n 0x120] s t ∧ Frame [.clock, .regs] s t)) ∧
      (¬ control → s.filterMatch n p.dst = none → Runs i s (fun t => t.reg (regNet n 0x11C) = up (regNet n 0x11C) ∧
        RegsKept [regNet n 0x11C] s t ∧ Frame [.clock, .regs] s t)) ∧
      (s.filterMatch n p.dst = some (entry, m) →
        (bad ≠ [] → s.flag (regNet n 8) 0 = false → Runs i s (fun t =>
          (∀ k ∈ [(2, 0x10C), (3, 0x110), (4, 0x114), (5, 0x118)],
            t.reg (regNet n k.2) = if k ∈ bad then up (regNet n k.2) else s.reg (regNet n k.2)) ∧
          t.reg (regNet n 0x100) = s.reg (regNet n 0x100) ∧ (t.mac n).rxOctets = (s.mac n).rxOctets ∧ t.vox = s.vox ∧ t.streams = s.streams)) ∧
        (bad = [] → p.etherType ≠ 0x8808 → u.streamFor n p ip = none → u.voxFor n p ip = none →
          (¬ servo → exec i s = .next (u.rxPush n (if high then 1 else 2) f flags (entry + 32 * m) ta false)) ∧
          (servo → Runs i s (fun t => t.reg (regNet n 0x100) = up (regNet n 0x100) ∧ t.tim.ptpLast = u.now ∧ t.queues = s.queues ∧
            (t.mac n).rxOctets = ((s.mac n).rxOctets + f.length) % 2 ^ 64)))))) ∧
  (∀ (s : State) (dt n : Nat) (high parity : Bool) (b : Desc) (ws : List Nat),
    n < 4 →
    let u := s.elapse dt
    let q := if high then 1 else 2
    let r := rxRing n q
    let k := ws.length - 2
    let len := ws.getD k 0 % 65536
    let flags := ws.getD k 0 / 2 ^ 16 % 65536
    (s.nextDesc r 0x48 = some b → field b.w0 31 8 = 0 → b.w4 = 0 → b.w5 = 0 → b.w1.toNat % 64 = 0 → 256 ≤ b.w1.toNat → b.w1.toNat ≤ 16384 →
      b.addr % 32 = 0 → Runs (.rxBuf r) s (fun t => t.atPhase r b.index .accepted ∧ Frame [.rings] s t)) ∧
    ((s.queue 0 (4 * n + q)).head = some ws → bufferRun len (s.buffers r) = some [b] → s.linkOk = true →
      Runs (.rxDmaDeliver dt n high parity) s (fun t =>
        (∃ l, t.host.out = s.host.out ++ [.mem b.addr ((((ws.take k).map (leBytes 8)).flatten.take len).take b.w1.toNat)] ++ l) ∧
        t.queue 0 (4 * n + q) = (s.popItem 0 (4 * n + q)).queue 0 (4 * n + q) ∧
        t.reg (regNet n 0x100) = (if flags % 64 / 4 = 0 then s.up (regNet n 0x100) 1 else s.reg (regNet n 0x100)))) ∧
    ((s.queue 0 (4 * n + q)).head = some ws → (bufferRun len (s.buffers r) = none ∨ s.linkOk = false) →
      (Cells.get (fun _ => 0) (s.mac n).headAt q + min 100000000 (s.reg (regNet n 0x10)).toNat ≤ u.now ∨ (s.ring r).state ≠ .running) →
      Runs (.rxHoldExpiry dt n high) s (fun t => t.queue 0 (4 * n + q) = (s.popItem 0 (4 * n + q)).queue 0 (4 * n + q) ∧
        t.reg (regNet n 0x124) = s.up (regNet n 0x124) 1 ∧ RegsKept [regNet n 0x124] s t ∧ Frame [.clock, .regs, .queues, .macs] s t)))

/-- R270, R271, R275, R276, R289, R290: a transmit descriptor that passes its checks is accepted: an untimed frame enters its class queue,
padded to 60 bytes, a timed one the launch queue, a segmentation job stands with the frames its payload makes; on a disabled MAC the
frame is counted and the descriptor ends with DISABLED. A launch queue's head is launched at its time while the MAC is UP, and dropped,
counted, where it has not started in time. -/
def Obligations.TransmitDescriptorsBecomeFrames : Prop := ∀ (s : State) (dt ring : Nat) (d : Desc) (bs rec_ : List Byte) (m : TxMeta)
    (f : List Byte) (rest : List (TxMeta × List Byte)),
  let n := (ring - 24) / 4
  let x := s.mac n
  let u := s.elapse dt
  let len := d.w1.toNat
  let tc := field d.w0 18 16
  let g := padFrame (bs.take len)
  let info : TxMeta := { src := 0, ring := ring, index := d.index, sso := 0, tc := tc, len := g.length, launch := d.time, stamp := bitOf d.w0 8
                         lateSend := bitOf d.w0 9, skipped := false }
  let fair := field d.w0 31 19 = 0 ∧ field d.w0 15 11 = 0 ∧ 14 ≤ len ∧ len + 4 ≤ s.netMaxLen n ∧ d.time ≤ s.now + 10000000000
  (s.txNext ring 0x40 = some d → fair → bitOf d.w0 10 = false → x.jobs = [] →
    (x.st = 2 → d.time = 0 → s.itemFits 1 (8 * n + tc) (1 + (g.length + 7) / 8) = true → Runs (.txFrame ring (some bs)) s (fun t =>
      Cells.get (fun _ => none) (t.mac n).metas x.nextId = some info ∧ (t.mac n).nextId = x.nextId + 1 ∧ t.atPhase ring d.index .accepted ∧
      t.queue 1 (8 * n + tc) =
        (s.pushItem 1 (8 * n + tc) (x.nextId :: toWords64 (g.length + 1) g) false).queue 1 (8 * n + tc) ∧
      Frame [.regs, .host, .rings, .queues, .macs] s t)) ∧
    (x.st ≠ 0 → d.time ≠ 0 → x.launch.length < 64 → Runs (.txFrame ring (some bs)) s (fun t =>
      (t.mac n).launch = x.launch ++ [(info, g)] ∧ t.atPhase ring d.index .accepted ∧ RegsKept [] s t ∧
      Frame [.regs, .host, .rings, .queues, .macs] s t)) ∧
    (x.st = 0 → exec (.txFrame ring (some bs)) s =
      .next ((s.bump (regNet n 0x134) 1).finishAt ring d.index netDisabled 0 s.now (some 0)))) ∧
  (s.txNext ring 0x41 = some d → field d.w0 31 19 = 0 → field d.w0 15 10 = 0 → d.addr % 32 = 0 → len = 32 + ssoHdr rec_ → x.st = 2 →
    d.time ≤ s.now + 10000000000 → ssoOk rec_ (s.netMaxLen n) d.time = true → x.jobs = [] → Runs (.txSso ring (some rec_) (some bs)) s (fun t =>
      t.atPhase ring d.index .accepted ∧
      (∃ j ∈ (t.mac n).jobs, j.ring = ring ∧ j.index = d.index ∧ j.total = ssoFrames rec_ ∧ j.ended = 0 ∧ j.tc = tc) ∧
      Frame [.regs, .host, .rings, .queues, .macs] s t)) ∧
  (x.launch = (m, f) :: rest → x.launched = false → m.launch ≤ u.now → x.st = 2 → Runs (.launch dt n) s (fun t =>
    t.mac n = { x with launched := true } ∧ (∀ k, k ≠ n → t.mac k = s.mac k) ∧ Frame [.clock, .macs] s t)) ∧
  (x.launch = (m, f) :: rest → m.lateSend = false → m.skipped = false → m.launch + s.lateNs n ≤ u.now → x.jobs = [] →
    Runs (.lateDrop dt n) s (fun t => t.mac n = { x with launch := rest, launched := false } ∧
      t.reg (regNet n 0x144) = s.up (regNet n 0x144) 1 ∧ RegsKept [regNet n 0x144] s t ∧ Frame [.clock, .regs, .macs] s t))

/-- R272, R277: with the line free the highest class whose gate is open and whose head fits starts its head frame, which is then on the wire
for its wire time; a frame that ends is counted with its octets, and a single-frame descriptor completes with RESULT 1, stamped with the
instant its frame started, LATE_SENT where it was late; one that failed parity ends with NET_PARITY.

R272 to R274: GATE_CHANGE takes a time at or after the base, whole cycles on; a second one while one is pending sets ERROR; at its time
the admin list becomes operational, entry for entry, with its first segment; at the end of a segment the next one is in force. -/
def Obligations.FramesAreSelectedThroughGates : Prop :=
  (∀ (s : State) (dt n : Nat) (h : HeadAt) (m : TxMeta) (f : List Byte) (w : InFlight) (j : TxJob),
    n < 4 →
    let x := s.mac n
    let u := s.elapse dt
    let v := [7, 6, 5, 4, 3, 2, 1, 0].foldl (fun (s : State) tc => s.dropNever n tc) u
    let pick := [7, 6, 5, 4, 3, 2, 1, 0].findSome? (fun tc => v.eligible n tc)
    let late := w.meta_.launch != 0 && (w.meta_.skipped || decide (w.meta_.launch + s.lateNs n < w.start))
    (x.st = 2 → x.line = none → x.lpiTx = false → x.wakeAt ≤ u.now → s.pwr.standby = none →
      (pick = some (h, m, f) → Runs (.transmitSelection dt n) s (fun t =>
        (t.mac n).line = some { meta_ := m, bytes := f, start := u.now, finish := u.now + wireNs (s.netGig n) f.length } ∧
        (m.src = 0 → t.atPhase m.ring m.index .committed))) ∧
      (pick = none → exec (.transmitSelection dt n) s = .next v)) ∧
    ((x.st ≠ 2 ∨ x.line.isSome = true) → exec (.transmitSelection dt n) s = .next u) ∧
    (x.line = some w → w.finish ≤ u.now → w.meta_.stamp = false →
      (w.meta_.src ≠ 0 → Runs (.frameTransmitted dt n false) s (fun t =>
        t.mac n = { x with line := none, idleSince := u.now, txOctets := (x.txOctets + w.bytes.length) % 2 ^ 64 } ∧
        t.reg (regNet n 0x128) = s.up (regNet n 0x128) 1 ∧ RegsKept [regNet n 0x128] s t ∧ Frame [.clock, .regs, .macs] s t)) ∧
      (w.meta_.src = 0 → x.jobs = [j] → j.ring = w.meta_.ring → j.index = w.meta_.index → j.total = 1 → j.ended = 0 → j.sent = 0 →
        j.flags = 0 → j.status = 0 →
        (∃ z : State, exec (.frameTransmitted dt n false) s =
          .next (z.finishAt j.ring j.index stOk (if late then txLateSent else 0) w.start (some 1)) ∧ (z.mac n).line = none ∧ (z.mac n).jobs = [] ∧
          z.reg (regNet n 0x128) = s.up (regNet n 0x128) 1 ∧ RegsKept [regNet n 0x128] s z) ∧
        (∃ z : State, exec (.frameTransmitted dt n true) s =
          .next (z.finishAt j.ring j.index netParity txCorrupted u.now (some 0)) ∧ (z.mac n).line = none ∧
          z.reg (regNet n 0x14C) = s.up (regNet n 0x14C) 1 ∧ z.reg 0x110210 = s.up 0x110210 1 ∧ RegsKept [regNet n 0x14C, 0x110210] s z)))) ∧
  (∀ (s : State) (dt n at_ : Nat) (v : Word) (o : Origin),
    n < 4 →
    let u := s.elapse dt
    let g := (s.mac n).gates
    let base := s.reg64 (regNet n 0x408)
    let cycle := min 1000000000 (max 1000 (s.reg (regNet n 0x410)).toNat)
    let len := min 256 (s.fld (regNet n 0x414) 8 0)
    let segs := s.adminSegs n
    (g.change = none → s.auditRoom 1 = true → Runs (.gateChange n v o) s (fun t =>
      t.reg (regNet n 0x400) = v &&& 3 ∧ Logged s t ∧ RegsKept (regNet n 0x400 :: auditRegs) s t ∧
      (bitOf v 1 = false → t.macs = s.macs) ∧
      (bitOf v 1 = true → ∃ c, (t.mac n).gates = { g with change := some c } ∧ base ≤ c ∧ (c - base) % cycle = 0 ∧
        (s.now + 1000 ≤ c) ∧ (s.now + 1000 ≤ base → c = base)) ∧
      Frame [.regs, .host, .rings, .audit, .macs, .pwr, .sta] s t)) ∧
    (g.change.isSome = true → Runs (.gateChange n v o) s (fun t => t.flag (regNet n 0x404) 17 = true ∧
      RegsKept [regNet n 0x404] s t ∧ Frame [.regs] s t)) ∧
    (g.change = some at_ → u.now < at_ → exec (.gateListSwitch dt n) s = .next u) ∧
    (g.change = some at_ → at_ ≤ u.now → Runs (.gateListSwitch dt n) s (fun t =>
      (t.mac n).gates = { en := s.flag (regNet n 0x400) 0, segs := segs, pos := 0, until_ := at_ + (segs.getD 0 (0, 0)).2, change := none } ∧
      (∀ e < len, t.reg (regNet n 0xC00 + 4 * e) = s.reg (regNet n 0x800 + 4 * e)) ∧ t.reg64 (regNet n 0x418) = at_ % 2 ^ 64 ∧
      t.flag (regNet n 0x400) 1 = false ∧ t.flag (regNet n 0x400) 0 = s.flag (regNet n 0x400) 0 ∧ t.fld (regNet n 0x404) 8 0 = len ∧
      t.flag (regNet n 0x404) 16 = s.flag (regNet n 0x400) 0 ∧ Frame [.clock, .regs, .macs] s t)) ∧
    (g.en = true → g.segs ≠ [] → g.until_ ≤ u.now → Runs (.gateEntryAdvance dt n) s (fun t =>
      let k := if g.pos + 1 < g.segs.length then g.pos + 1 else 0
      (t.mac n).gates = { g with pos := k, until_ := g.until_ + (g.segs.getD k (0, 0)).2 } ∧ (∀ k, k ≠ n → t.mac k = s.mac k) ∧
      Frame [.clock, .macs] s t)))

/-- R29, R281 to R284: the increment pair is held and committed within its range, a clamped one setting its flag; an accepted step moves
TIME64 by TIM_STEP, counted and logged twice; a backward one while a plane runs is refused and counted; a write by another than the
servo's owner changes nothing. A read of TIM_NOW latches the high word and the fraction. Without synchronisation PTP_VALID falls. -/
def Obligations.TheClockIsSteered : Prop := ∀ (s : State) (dt : Nat) (v : Word) (o : Origin) (expired : Bool),
  let u := s.elapse dt
  let pair := v.toNat * 2 ^ 32 + s.clock.heldFrac
  let step := signed 64 (s.reg64 0xD001C)
  (s.servoOwned = true → o ≠ .firmware → ∀ i ∈ [Instr.timIncrFrac v o, .timIncrNs v o, .go v o], exec i s = .next s) ∧
  (s.servoOwned = false ∨ o = .firmware →
    Runs (.timIncrFrac v o) s (fun t => t.reg 0xD0014 = v ∧ t.clock = { s.clock with heldFrac := v.toNat } ∧ RegsKept [0xD0014] s t ∧
      Frame [.clock, .regs] s t) ∧
    Runs (.timIncrNs v o) s (fun t => t.reg 0xD0018 = v ∧
      t.clock = { s.clock with incr := min 8632884264 (max 8546984920 pair) } ∧
      (pair < 8546984920 ∨ 8632884264 < pair → t.flag 0xD0004 1 = true) ∧ RegsKept [0xD0018, 0xD0004] s t ∧ Frame [.clock, .regs] s t) ∧
    (s.auditRoom 2 = true → bitOf v 0 = false → Runs (.go v o) s (fun t => Logged s t ∧ t.clock = s.clock ∧ RegsKept auditRegs s t)) ∧
    (s.auditRoom 2 = true → bitOf v 0 = true → 0 ≤ step ∨ s.anyRun = false → Runs (.go v o) s (fun t =>
      (t.now : Int) = ((s.now : Int) + step) % 2 ^ 64 ∧ t.clock.acc % 2 ^ 32 = s.clock.acc % 2 ^ 32 ∧ t.clock.ticks = s.clock.ticks ∧
      t.audit.index = s.audit.index + 2 ∧ t.mgt.tick.stepped = true ∧ t.reg 0xD0200 = s.up 0xD0200 1 ∧
      RegsKept ([0xD0200, 0xE0200] ++ auditRegs) s t ∧ Frame [.free, .clock, .regs, .host, .rings, .audit, .mgt, .macs, .pwr, .sta, .mnt, .tim] s t)) ∧
    (s.auditRoom 2 = true → bitOf v 0 = true → step < 0 → s.anyRun = true → Runs (.go v o) s (fun t =>
      t.clock = s.clock ∧ t.reg 0xD0204 = s.up 0xD0204 1 ∧ t.flag 0xD0004 2 = true ∧ Logged s t ∧
      RegsKept ([0xD0204, 0xD0004] ++ auditRegs) s t ∧ Frame [.regs, .host, .rings, .audit, .pwr, .sta] s t))) ∧
  Runs .timNowRead s (fun t => t.host = { s.host with lastRead := some (0xD0008, BitVec.ofNat 32 s.now) } ∧
    t.reg 0xD000C = BitVec.ofNat 32 (s.now / 2 ^ 32) ∧ (t.reg 0xD0010).toNat = s.clock.acc / 2 ^ 16 % 2 ^ 16 ∧
    RegsKept [0xD000C, 0xD0010] s t ∧ Frame [.regs, .host] s t) ∧
  (s.servoOwned = true → expired = true ∨ s.tim.ptpLast + 3000000000 ≤ u.now → Runs (.syncReceiptTimeout dt expired) s (fun t =>
    t.flag 0xE0008 0 = false ∧ t.tim = { s.tim with syncRun := 0 } ∧ RegsKept [0xE0008] s t ∧ Frame [.clock, .regs, .tim] s t))

/-- R29, R291, R292: a trigger enabled with its start ahead waits for it, one whose start has passed for the next instant of its series;
when it comes source 31 fires, the pin rises where it drives one, and the series goes on or ends; while another running series has an
earlier instant, that one acts first. Pulse outputs rise at the second plus offset; a pulse in within half a second of the last is a
glitch, any other is captured. The servo tick fires source 30 at each multiple of its period. -/
def Obligations.TriggersAndPulsesKeepTime : Prop := ∀ (s : State) (dt k e : Nat) (v : Word) (o : Origin),
  let u := s.elapse dt
  let x := s.trig k
  let start := s.reg64 (regTrig k + 4)
  let period := (s.reg (regTrig k + 12)).toNat
  let off := min 999999999 (s.reg 0xD0034).toNat
  let width := 1000000 * min 999 (max 1 (s.fld 0xD0030 31 22))
  let per := 1000000 * min 1000 (s.fld 0xD0000 9 0)
  (k < 8 → s.auditRoom 1 = true → Runs (.triggerEnable k v o) s (fun t =>
    t.reg (regTrig k) = v ∧ Logged s t ∧ RegsKept (regTrig k :: auditRegs) s t ∧ (∀ j, j ≠ k → t.trig j = s.trig j) ∧
    (bitOf v 31 = false → t.trig k = { x with running := false }) ∧
    (bitOf v 31 = true → s.now ≤ start → (t.trig k).running = true ∧ (t.trig k).next = start ∧ (t.trig k).period = period) ∧
    (bitOf v 31 = true → period ≠ 0 → s.now ≤ (t.trig k).next ∧ ((t.trig k).next - start) % period = 0) ∧
    (bitOf v 30 = false → t.tim.gpio.testBit k = false) ∧ Frame [.regs, .host, .rings, .audit, .tim, .pwr, .sta] s t)) ∧
  (x.running = true → x.next ≤ u.now → s.trigEarlier x = false → Runs (.triggerFire dt k) s (fun t =>
    t.flag 0x20008 31 = true ∧ (s.flag (regTrig k) 30 = true → t.tim.gpio.testBit k = true) ∧
    (x.period = 0 → (t.trig k).running = false) ∧
    (x.left = none → x.period ≠ 0 → u.now < (t.trig k).next ∧ ((t.trig k).next - x.next) % x.period = 0 ∧ (t.trig k).running = true) ∧
    (∀ j, j ≠ k → t.trig j = s.trig j) ∧ RegsKept [0x20008, 0x10114] s t ∧ Frame [.clock, .regs, .host, .rings, .tim] s t)) ∧
  (u.now < x.next ∨ s.trigEarlier x = true → exec (.triggerFire dt k) s = .next u) ∧
  (x.pulseEnd ≤ u.now → s.tim.gpio.testBit k = true → Runs (.triggerPulseEnd dt k) s (fun t =>
    t.tim.gpio.testBit k = false ∧ (∀ j, j ≠ k → t.tim.gpio.testBit j = s.tim.gpio.testBit j) ∧ t.tim.triggers = s.tim.triggers ∧
    Frame [.clock, .tim] s t)) ∧
  (s.flag 0xD0000 15 = true → off ≤ e → (e - off) % 1000000000 = 0 → e ≤ u.now → u.now < e + 1000000000 → s.tim.ppsLast < e →
    Runs (.ppsOut dt) s (fun t => t.tim = { s.tim with ppsHigh := decide (u.now < e + width), ppsFall := e + width, ppsLast := e } ∧
      Frame [.clock, .tim] s t)) ∧
  (s.flag 0xD0000 15 = true → off ≤ e → (e - off) % 1000000000 = 0 → e ≤ u.now → u.now < e + 1000000000 → e ≤ s.tim.ppsLast →
    s.tim.ppsFall ≤ u.now → Runs (.ppsOut dt) s (fun t => t.tim = { s.tim with ppsHigh := false } ∧ Frame [.clock, .tim] s t)) ∧
  (s.flag 0xD0000 15 = false → Runs (.ppsOut dt) s (fun t => t.tim = { s.tim with ppsHigh := false } ∧ Frame [.clock, .tim] s t)) ∧
  ((∀ p, s.tim.ppsIn = some p → p + 500000000 ≤ u.now) → Runs (.ppsIn dt) s (fun t =>
    t.tim = { s.tim with ppsIn := some u.now } ∧ t.reg64 0xD0028 = u.now % 2 ^ 64 ∧ (s.flag 0xD0000 16 = true → t.flag 0x20008 30 = true) ∧
    RegsKept [0xD0028, 0xD002C, 0x20008, 0x10114] s t ∧ Frame [.clock, .regs, .host, .rings, .tim] s t)) ∧
  (∀ p, s.tim.ppsIn = some p → u.now < p + 500000000 → Runs (.ppsIn dt) s (fun t => t.reg 0xD0208 = s.up 0xD0208 1 ∧
    RegsKept [0xD0208] s t ∧ Frame [.clock, .regs] s t)) ∧
  (per ≠ 0 → e % per = 0 → e ≤ u.now → u.now < e + per → s.tim.servoLast < e → Runs (.servoTick dt) s (fun t =>
    t.tim = { s.tim with servoLast := e } ∧ t.flag 0x20008 30 = true ∧ RegsKept [0x20008, 0x10114] s t ∧
    Frame [.clock, .regs, .host, .rings, .tim] s t)) ∧
  (per = 0 → exec (.servoTick dt) s = .next u)

/-- R294 to R296, R299, R303, R304: an STR_START that passes the checks arms its stream, an STR_STOP waits on it; each takes effect at its
boundary, logged; a packet of a running transmit stream whose block is whole goes to the launch scheduler of its MAC at the instant of
R299, and one with a bad block is withheld and counted where the stream does not conceal. -/
def Obligations.StreamsStartRunAndStop : Prop := ∀ (s : State) (d : Desc) (dt i : Nat) (bs : List Byte) (q : Req),
  let k := field d.w0 23 16
  let x := s.stream i
  let r := x.record
  let u := s.elapse dt
  let p := x.nextP
  let at_ := s.mediaInstant (p + strSpp r) + strDelay r
  let parts : List Part := [.regs, .host, .rings, .audit, .streams]
  let bad := (u.packetSamples r p).any (·.2)
  (s.nextDesc 0 0xB1 = some d → field d.w0 31 24 = 0 → d.flags = 0 →
    (strStartCheck s k d (some (bs.take 128)) = none → s.auditRoom 1 = true → Runs (.strStart (some bs)) s (fun t =>
      t.stream k = { Stream.idle0 with st := 1, record := bs.take 128, ops := (s.stream k).ops ++ [(true, s.request d.index d.time)] } ∧
      (∀ j, j ≠ k → t.stream j = s.stream j) ∧ t.audit.reserved = s.audit.reserved + 1 ∧ t.atPhase 0 d.index .accepted ∧ Frame parts s t)) ∧
    ((s.stream k).st ≠ 0 → Ends (.strStart (some bs)) s 0 d.index timStrBusy (fun v => v = s))) ∧
  (s.nextDesc 0 0xB2 = some d → field d.w0 31 24 = 0 → d.flags = 0 →
    ((s.stream k).st ≠ 0 → d.w1 = 0 → d.w2 = 0 → d.w3 = 0 → d.time ≤ s.now + 3600000000000 → s.auditRoom 1 = true → Runs .strStop s (fun t =>
      t.stream k = { s.stream k with st := (if (s.stream k).st = 2 then 3 else (s.stream k).st)
                                     ops := (s.stream k).ops ++ [(false, s.request d.index d.time)] } ∧
      t.audit.reserved = s.audit.reserved + 1 ∧ t.atPhase 0 d.index .accepted ∧ Frame parts s t)) ∧
    ((s.stream k).st = 0 → Ends .strStop s 0 d.index timStrIdle (fun v => v = s))) ∧
  (∀ start, x.ops = [(start, q)] →
    (s.reqDue q = false → exec (.streamStateChange i) s = .next s) ∧
    (s.reqDue q = true → ∃ v : State, exec (.streamStateChange i) s = .next (v.finishAt 0 q.index stOk 0 s.mgt.tick.last none) ∧
      Logged s v ∧ RegsKept auditRegs s v ∧ (v.stream i).st = (if start then 2 else 0) ∧ (v.stream i).ops = [] ∧
      (∀ j, j ≠ i → v.stream j = s.stream j) ∧
      (start = true → (v.stream i).record = r ∧ (1 ≤ strSpp r → s.mediaNow ≤ (v.stream i).nextP ∧ (v.stream i).nextP % strSpp r = 0)))) ∧
  (2 ≤ x.st → strTx r = true → p + strSpp r ≤ s.mediaNow + 32 → at_ ≤ u.now →
    (bad = true → strConceal r = false → Runs (.streamPacketLaunch dt i) s (fun t => t.stream i = { x with nextP := p + strSpp r } ∧
      t.reg (regStr i + 0x1C) = s.up (regStr i + 0x1C) 1 ∧ t.macs = s.macs ∧ RegsKept [regStr i + 0x1C] s t)) ∧
    (bad = false → s.snuffDone = false → strRed r = false → (s.mac (strMac r)).st = 2 → Runs (.streamPacketLaunch dt i) s (fun t =>
      t.stream i = { x with nextP := p + strSpp r } ∧ t.reg (regStr i + 4) = s.up (regStr i + 4) 1 ∧ RegsKept [regStr i + 4] s t ∧
      (∃ f, (t.mac (strMac r)).streamQ = (s.mac (strMac r)).streamQ ++
        [({ src := 2, ring := i, index := 0, sso := 0, tc := strPlaneTc r % 8, len := f.length, launch := at_, stamp := false
            lateSend := true, skipped := false }, f)]) ∧
      (∀ n, n ≠ strMac r → t.mac n = s.mac n) ∧ Frame [.clock, .regs, .macs, .streams] s t)))

/-- R307 to R313, R315, R316, R319: candidates qualify as their measurements and faults say; a pull completes at once while no plane runs
and moves by a step of R312 while one does; a better candidate takes over where REVERT is set; HOLDOVER ends after its time; FORCE,
FAMILY and RATE are written, FAMILY and RATE only while the module is stopped. -/
def Obligations.MantleFollowsItsReference : Prop := ∀ (s : State) (dt c cause : Nat) (offs : List (Nat × Int)) (out : Int) (v : Word) (o : Origin)
    (t0 : Nat) (e : Int),
  let u := s.elapse dt
  let x := s.cand c
  let edge := fun (c : Nat) => (offs.find? (fun p => p.1 == c)).map (·.2)
  let m := (List.range 11).foldl (fun (s : State) c => s.setCand c ((s.cand c).measure (s.reg (0xE0100 + 4 * c)) (edge c))) u
  let f := m.candFault c (edge c).isSome
  let wait := if x.ever then s.mntSeconds 0xE0018 2 3600 else 2
  let ref : Int := 1000 * (s.cand t0).offset
  let old := s.reg 0xE0000
  let new := v &&& 0x1F7F
  let same := field new 6 5 = field old 6 5 ∧ bitOf new 8 = bitOf old 8
  let mntRegs := [0xE0000, 0xE0004, 0xE0200, 0xE0204, 0xE020C] ++ auditRegs
  let y := pullStep s.slewMax s.slewAcc (s.mnt.out - ref) e
  (c < 11 → Runs (.candidateMeasurement dt offs out) s (fun t =>
    (t.cand c).cfg = s.reg (0xE0100 + 4 * c) ∧ (∀ a, edge c = some a → (t.cand c).offset = a) ∧
    (edge c = none → (t.cand c).qual = 0 ∧ (t.cand c).offs = []) ∧ (f ≠ 0 → (t.cand c).qual = 0 ∧ (t.cand c).cause = f) ∧
    (f = 0 → x.qual = 0 → (t.cand c).qual = 1 ∧ (t.cand c).since = u.clock.ticks) ∧
    (f = 0 → x.qual = 1 → (t.cand c).qual = if x.since + wait * secTicks ≤ u.clock.ticks then 2 else 1) ∧
    Frame [.free, .clock, .regs, .host, .rings, .mnt] s t)) ∧
  (c < 11 → cause = 1 ∨ cause = 3 → Runs (.candidateFault dt c cause) s (fun t =>
    (t.cand c).qual = 0 ∧ (t.cand c).cause = cause ∧ t.reg 0xE0204 = (if x.qual = 0 then s.reg 0xE0204 else s.up 0xE0204 1) ∧
    (∀ k, k ≠ c → t.cand k = s.cand k) ∧ Frame [.free, .clock, .regs, .host, .rings, .mnt] s t)) ∧
  (s.mnt.pull = some (t0, e) →
    (t0 ≠ 15 → s.anyRun = false → Runs (.pullUpdate dt) s (fun t => t.mnt.pull = none ∧ t.mnt.out = ref ∧ t.mnt.sel = t0 ∧
      t.mnt.st = (if (s.cand t0).qual = 3 then 3 else 2) ∧ t.mnt.cands = s.mnt.cands)) ∧
    (t0 ≠ 15 → t0 ≠ 4 → s.anyRun = true → 100000 ≤ y.2.natAbs → Runs (.pullUpdate dt) s (fun t =>
      t.mnt = { s.mnt with out := ref + y.1, pull := some (t0, y.2) } ∧ Frame [.clock, .mnt] s t))) ∧
  (s.bestOf 2 = some t0 → s.flag 0xE0000 4 = true → s.forced = none → 1 ≤ s.mnt.st → s.mnt.st ≤ 4 → (s.cand s.mnt.sel).prio < (s.cand t0).prio →
    (∀ k, s.mnt.lastPull = some k → k + s.mntSeconds 0xE001C 1 3600 * secTicks ≤ u.clock.ticks) → Runs (.revertiveSwitch dt) s (fun t =>
      t.mnt.st = 4 ∧ t.mnt.sel = t0 ∧ (∃ a : Int, t.mnt.pull = some (t0, a) ∧ a.natAbs ≤ s.pullReach t0) ∧
      t.mnt.lastPull = some u.clock.ticks ∧ t.reg 0xE0200 = s.up 0xE0200 1 ∧ RegsKept [0xE0200, 0x20008, 0x10114] s t ∧
      Frame [.free, .clock, .regs, .host, .rings, .mnt] s t)) ∧
  (s.mnt.st = 5 → s.fld 0xE0020 15 0 ≠ 65535 → s.mnt.heldSince + s.fld 0xE0020 15 0 * secTicks ≤ u.clock.ticks →
    Runs (.returnToNominal dt) s (fun t => t.mnt.st = 6 ∧ t.mnt.sel = 15 ∧ t.mnt.pull = some (15, 0) ∧
      RegsKept [0xE0200, 0x20008, 0x10114] s t ∧ Frame [.free, .clock, .regs, .host, .rings, .mnt] s t)) ∧
  (∀ i ∈ [Instr.force v o, .family v o, .rate v o], s.auditRoom 1 = true →
    (same → field new 6 5 ≠ 3 → Runs i s (fun t => t.reg 0xE0000 = new ∧ Logged s t ∧ t.mnt.cands = s.mnt.cands ∧ t.mgt = s.mgt ∧
      RegsKept mntRegs s t)) ∧
    (¬ same → s.mgt.modState ≠ 3 → Runs i s (fun t => t.fld 0xE0000 6 5 = field old 6 5 ∧ t.flag 0xE0000 8 = bitOf old 8 ∧
      t.fld 0xE0000 4 0 = field new 4 0 ∧ t.flag 0xE0004 16 = true ∧ Logged s t ∧ RegsKept mntRegs s t)) ∧
    (¬ same → s.mgt.modState = 3 → field new 6 5 ≠ 3 → Runs i s (fun t => t.reg 0xE0000 = new ∧ Logged s t ∧ t.mgt.tick.captured = 0 ∧
      RegsKept mntRegs s t ∧
      (bitOf new 8 ≠ bitOf old 8 → ∀ k < 11, (t.cand k).offs = [] ∧ ((t.cand k).qual = 1 ∨ ((t.cand k).qual = 0 ∧ (t.cand k).cause = 7))))))

/-- R328: a slot sample of width W becomes the Q1.31 ingress value v × 2^(32 − W); an egress Q1.31 value becomes round(v, 32 − W) saturated
to W bits; at W = 32 both are exact, and at every width a slot sample comes back as it was. -/
def Obligations.SlotSamplesAreConverted : Prop := ∀ (w : Nat), 0 < w → w ≤ 32 →
  (∀ n : Nat, slotIn w n = signed w n * 2 ^ (32 - w)) ∧
  (∀ v : Int, slotOut w v =
    max (-(2 ^ (w - 1))) (min (2 ^ (w - 1) - 1) (if w = 32 then v else (v + 2 ^ (31 - w)).fdiv (2 ^ (32 - w))))) ∧
  (∀ n : Nat, slotIn 32 n = signed 32 n) ∧
  (∀ v : Int, -(2 ^ 31) ≤ v → v < 2 ^ 31 → slotOut 32 v = v) ∧
  (∀ n : Nat, n < 2 ^ w → slotOut w (slotIn w n) = signed w n)

/-- R322 to R324, R329, R333: TDMpp_CFG enables a port whose configuration passes, a slave in ACQUIRE, a master DISABLED until the tick, and
disables one that does not carry live data; every other write of a configuration register while the port is enabled is refused; a
disable of a live port waits for its boundary. A slot mask is held until its frame start. -/
def Obligations.PortsAreConfigured : Prop := ∀ (s : State) (p k : Nat) (v : Word) (o : Origin) (tx last : Bool),
  p < 16 →
  let off := 0xF0000 + 0x800 * p
  let old := s.reg off
  let new := v &&& 0xFFC007FF
  let refused := fun (t : State) => t.flag (off + 0x20) 31 = true ∧ RegsKept [off + 0x20] s t ∧ Frame [.regs] s t
  (∀ i ∈ [Instr.portEnable p v o, .portDisable p v o, .portCfgWrite p 0 v o],
    (bitOf old 31 = false → bitOf new 31 = true → s.portCfgOk p new = true → s.auditRoom 1 = true → Runs i s (fun t =>
      t.reg off = new ∧ (t.port p).st = (if bitOf v 30 then 0 else 1) ∧ Logged s t ∧ (∀ j, j ≠ p → t.port j = s.port j) ∧
      RegsKept (off :: auditRegs) s t ∧ Frame [.regs, .host, .rings, .audit, .pwr, .sta, .ports] s t)) ∧
    (bitOf old 31 = false → bitOf new 31 = true → s.portCfgOk p new = false → Runs i s refused) ∧
    (bitOf old 31 = true → setBitOf new 31 true ≠ setBitOf old 31 true → Runs i s refused) ∧
    (bitOf old 31 = true → bitOf new 31 = false → setBitOf new 31 true = setBitOf old 31 true → s.auditRoom 1 = true →
      ((s.port p).st = 0 ∨ s.anyRun = false → Runs i s (fun t => t.reg off = new ∧ (t.port p).st = 0 ∧ (t.port p).next = none ∧ Logged s t ∧
        (∀ j, j ≠ p → t.port j = s.port j) ∧ Frame [.regs, .host, .rings, .audit, .queues, .pwr, .sta, .ports] s t)) ∧
      ((s.port p).st ≠ 0 → s.anyRun = true → Runs i s (fun t => t.reg off = old ∧ t.ports = s.ports ∧
        t.audit.reserved = s.audit.reserved + 1 ∧ t.mgt.modeWrites = s.mgt.modeWrites ++
          [{ off := off, v := new, origin := originCode o, originId := originId o, req := s.request 0 0 }] ∧
        RegsKept auditRegs s t ∧ Frame [.regs, .host, .rings, .audit, .mgt] s t)))) ∧
  (1 ≤ k → k < 4 →
    let w := v &&& (if k = 1 then 0xFFFF else if k = 2 then 0xFFFFFF else 0x3FFF0FFF)
    (bitOf old 31 = false ∨ w = s.reg (off + 4 * k) → s.auditRoom 1 = true → Runs (.portCfgWrite p k v o) s (fun t =>
      t.reg (off + 4 * k) = w ∧ Logged s t ∧ RegsKept ((off + 4 * k) :: auditRegs) s t ∧
      Frame [.regs, .host, .rings, .audit, .pwr, .sta] s t)) ∧
    (bitOf old 31 = true → w ≠ s.reg (off + 4 * k) → Runs (.portCfgWrite p k v o) s refused)) ∧
  (s.auditRoom 1 = true → Runs (.maskWrite p tx v last o) s (fun t => t.reg (off + (if tx then 0x14 else 0x10)) = v ∧ Logged s t ∧
    t.port p = (if tx then { s.port p with txNew := some (v.toNat, last) } else { s.port p with rxNew := some (v.toNat, last) }) ∧
    RegsKept ((off + (if tx then 0x14 else 0x10)) :: auditRegs) s t ∧ Frame [.regs, .host, .rings, .audit, .pwr, .sta, .ports] s t))

/-- R326 to R328, R332 to R334: frames of an enabled port: at a port that runs a frame start takes in the live slots of the frame and sends
the frame before, in its place on the render grid; a frame of a wrong length is a glitch, a repeated or dropped one a slip, each
counted. The rate meter gives the rate of a window and a class once two agree. A slave with no frame start for two frame periods is
LOST. -/
def Obligations.PortFramesAreTaken : Prop := ∀ (s : State) (dt p len e n edges span : Nat) (sdi : List Nat),
  p < 16 →
  let u := s.elapse dt
  let x := s.port p
  let off := 0xF0000 + 0x800 * p
  let fb := s.fld off 10 0
  let w := s.portWidth p
  let slave := s.portMaster p = false
  let rate := if edges < 2 ∨ span = 0 then 0 else (2 * (edges - 1) * 1000000000000 + span) / (2 * span)
  let wins := if rate = 0 then 0 else min 2 (x.wins + 1)
  (s.flag off 31 = false → exec (.tdmFrame dt p sdi len) s = .next u) ∧
  (s.flag off 31 = true → s.pinsTaken = false → x.st = 3 → Runs (.tdmFrame dt p sdi len) s (fun t =>
    t.port p = { x with st := 1, lastStart := some u.now } ∧ Frame [.clock, .ports] s t)) ∧
  (s.flag off 31 = true → s.pinsTaken = false → x.st = 2 → x.rxNew = none → x.txNew = none →
    (u.portMap p = (e, 0, false) → (fb ≤ len + 1 ∧ len ≤ fb + 1) ∨ s.portMaster p = true → x.rxLive.testBit 0 = true → 0 < s.portSlots p →
      Runs (.tdmFrame dt p sdi len) s (fun t =>
      (t.port p).got = x.got ++ [{ idx := e + 1, mask := x.rxLive, kind := 0, con := x.mark
                                   vals := (List.range (s.portSlots p)).map (fun i => if x.rxLive.testBit i then slotIn w (sdi.getD i 0) else 0) }] ∧
      (t.port p).next = some (e + 1) ∧ (t.port p).lastStart = some u.now ∧ (t.port p).sent = x.sent ++ [(t.port p).sdo] ∧
      (t.port p).sdo.length = s.portSlots p ∧
      t.reg (off + 0x200) = s.reg (off + 0x200) ∧ t.reg (off + 0x204) = s.reg (off + 0x204) ∧
      (∀ j, j ≠ p → t.port j = s.port j) ∧ Frame [.clock, .regs, .host, .rings, .queues, .ports] s t)) ∧
    (slave → u.portMap p = (e, 0, false) → len + 1 < fb ∨ fb + 1 < len → Runs (.tdmFrame dt p sdi len) s (fun t =>
      t.reg (off + 0x200) = s.up (off + 0x200) 1 ∧ t.flag (off + 0x20) 30 = true ∧ (t.port p).next = some (e + 1))) ∧
    (u.portMap p = (e, 0, true) → Runs (.tdmFrame dt p sdi len) s (fun t =>
      t.reg (off + 0x204) = s.up (off + 0x204) 1 ∧ t.flag (off + 0x20) 29 = true ∧ (t.port p).got = x.got ∧ (t.port p).mark = true)) ∧
    (n ≠ 0 → u.portMap p = (e, n, false) → Runs (.tdmFrame dt p sdi len) s (fun t =>
      t.reg (off + 0x204) = s.up (off + 0x204) n ∧ t.flag (off + 0x20) 29 = true ∧ (t.port p).got.length = x.got.length + n + 1))) ∧
  Runs (.rateWindow dt p edges span) s (fun t => (t.port p).rate = rate ∧ (t.port p).prev = rate ∧ (t.port p).wins = wins ∧
    (t.port p).cls = (if wins < 2 then 0 else classOf rate x.prev) ∧
    (s.portMaster p = true → (t.port p).st = x.st) ∧ (∀ j, j ≠ p → t.port j = s.port j) ∧
    Frame [.clock, .regs, .host, .rings, .queues, .ports] s t) ∧
  (∀ at_, slave → x.st = 2 → x.lastStart = some at_ → at_ + 2000000000 / s.renderRate ≤ u.now → Runs (.portLost dt p) s (fun t =>
    (t.port p).st = 3 ∧ (t.port p).next = none ∧ t.reg (off + 0x208) = s.up (off + 0x208) 1 ∧ t.flag 0x2000C 0 = true ∧
    (∀ j, j ≠ p → t.port j = s.port j) ∧ Frame [.clock, .regs, .host, .rings, .queues, .ports] s t))

/-- R335 to R339: the 20th agreeing sample of the other jack state changes it and fires source 35; the 20th low code of a headset presses
its button and the 20th high one releases it, each with source 37; 200 ms after insertion the accessory is classified from the median of
its codes, or named without bias 7. -/
def Obligations.HeadsetsAreSensed : Prop := ∀ (s : State) (dt c code : Nat) (jack : Bool),
  let u := s.elapse dt
  let o := s.opsChan c
  let inserted := jack == s.flag 0xF8000 (8 + c)
  let taken := if s.opsBias then code % 4096 else 0
  let parts : List Part := [.clock, .regs, .host, .rings, .vox, .ops]
  let others := fun (t : State) => ∀ k, k ≠ c → t.opsChan k = s.opsChan k
  (s.opsEnabled c = false → exec (.sarSample dt c code jack) s = .next u) ∧
  (s.opsEnabled c = true → Runs (.sarSample dt c code jack) s (fun t => (t.opsChan c).code = taken ∧
    (t.opsChan c).codes = (taken :: o.codes).take 50 ∧ others t ∧ Frame parts s t)) ∧
  (s.opsEnabled c = true → inserted ≠ o.plugged → o.jackRun = 19 → Runs (.sarSample dt c code jack) s (fun t =>
    (t.opsChan c).plugged = inserted ∧ (t.opsChan c).acc = 0 ∧ t.flag 0x2000C 3 = true ∧
    (t.opsChan c).due = (if inserted then some (u.now + 200000000) else none) ∧
    t.reg 0xF8100 = (if inserted then s.up 0xF8100 1 else s.reg 0xF8100))) ∧
  (s.opsEnabled c = true → s.opsBias = true → inserted = o.plugged → o.acc = 1 ∨ o.acc = 2 →
    (o.pressed = false → taken < 123 → o.runLo = 19 → o.relOn = none → Runs (.sarSample dt c code jack) s (fun t =>
      (t.opsChan c).pressed = true ∧ (t.opsChan c).onAt = u.now - 19000000 ∧ t.flag 0x2000C 5 = true ∧ t.reg 0xF8104 = s.up 0xF8104 1)) ∧
    (o.pressed = true → 246 ≤ taken → o.runHi = 19 → Runs (.sarSample dt c code jack) s (fun t =>
      (t.opsChan c).pressed = false ∧ (t.opsChan c).relOn = some (u.now - 19000000) ∧ t.flag 0x2000C 5 = true ∧
      t.reg 0xF8104 = s.up 0xF8104 1))) ∧
  (∀ at_, s.opsEnabled c = true → o.plugged = true → o.due = some at_ → at_ ≤ u.now →
    (s.opsBias = false → Runs (.accessoryClassify dt c) s (fun t => t.opsChan c = { o with acc := 7, due := none } ∧ others t ∧
      Frame [.clock, .ops] s t)) ∧
    (∀ m, s.opsBias = true → o.codes ≠ [] → (∀ a ∈ o.codes, a = m) → Runs (.accessoryClassify dt c) s (fun t =>
      (t.opsChan c).acc = (if m ≤ 122 then 4 else if m ≤ 1023 then 1 else if m ≤ 3481 then 2 else if m ≤ 3972 then 3 else 0) ∧
      (t.opsChan c).due = none ∧ t.flag 0x2000C 4 = true ∧ RegsKept [0x2000C, 0x10114] s t ∧ others t ∧
      Frame [.free, .clock, .regs, .host, .rings, .ops] s t)))

/-- R344, R350, R351, R355: a link port acquires when it is enabled, measures once a lane locks, is IN_SERVICE after four good markers with
a hop delay, and acquires again when its last lane or two markers are lost; a disable waits for a boundary where the port carries live
data. A valid marker is kept with what it says, one that is not counts as a CRC error. -/
def Obligations.LinkPortsComeUp : Prop := ∀ (s : State) (dt p l : Nat) (v : Word) (o : Origin) (m : List Byte),
  p < 2 → l < 2 →
  let u := s.elapse dt
  let x := s.lport p
  let off := 0x100100 + 0x40 * p
  let en := bitOf (s.reg off) 0
  let left := if x.lanes.testBit l then x.lanes - 2 ^ l else x.lanes
  let told := fun (t : State) => t.flag 0x2000C 27 = true
  let others := fun (t : State) => ∀ q, q ≠ p → t.lport q = s.lport q
  (s.auditRoom 1 = true → en = false ∨ bitOf v 0 = true ∨ x.st = 0 ∨ s.anyRun = false → Runs (.linkPortEnable p v o) s (fun t =>
    t.reg off = v &&& 1 ∧ Logged s t ∧ (en = false → bitOf v 0 = true → (t.lport p).st = if x.st = 0 then 1 else x.st) ∧
    (en = true → bitOf v 0 = false → (t.lport p).st = 0 ∧ (t.lport p).lanes = 0) ∧ others t ∧
    RegsKept (off :: auditRegs) s t ∧ Frame [.regs, .host, .rings, .audit, .pwr, .sta, .link] s t)) ∧
  (s.auditRoom 1 = true → en = true → bitOf v 0 = false → x.st ≠ 0 → s.anyRun = true → Runs (.linkPortEnable p v o) s (fun t =>
    t.link = s.link ∧ t.audit.reserved = s.audit.reserved + 1 ∧ t.mgt.modeWrites = s.mgt.modeWrites ++
      [{ off := off, v := 0, origin := originCode o, originId := originId o, req := s.request 0 0 }] ∧ RegsKept auditRegs s t)) ∧
  (x.st ≠ 0 → Runs (.laneLock p l) s (fun t => (t.lport p).lanes = x.lanes ||| 2 ^ l ∧ (t.lport p).st = max 2 x.st ∧
    (x.st = 1 → told t) ∧ others t ∧ RegsKept [0x2000C, 0x10114] s t ∧ Frame [.regs, .host, .rings, .link] s t)) ∧
  (x.st ≠ 0 → Runs (.laneLockLoss p l) s (fun t => (t.lport p).lanes = left ∧ (t.lport p).st = (if left = 0 then 1 else x.st) ∧
    (left = 0 → x.st ≠ 1 → told t) ∧ others t ∧ RegsKept [0x2000C, 0x10114] s t ∧ Frame [.regs, .host, .rings, .link] s t)) ∧
  (x.st = 3 → Runs (.markerLoss dt p) s (fun t => (t.lport p).st = 1 ∧ (t.lport p).good = 0 ∧ told t ∧ others t ∧
    RegsKept [0x2000C, 0x10114] s t ∧ Frame [.clock, .regs, .host, .rings, .link] s t)) ∧
  (x.st = 2 ∨ x.st = 3 → s.lanesTaken = false →
    (m.length ≠ 64 ∨ crc32c (m.take 60) ≠ leAt m 60 4 → Runs (.markerReceive dt p m) s (fun t =>
      t.lport p = { x with good := 0 } ∧ t.reg 0x100300 = s.up 0x100300 1 ∧ RegsKept [0x100300] s t ∧ Frame [.clock, .regs, .link] s t)) ∧
    (m.length = 64 → crc32c (m.take 60) = leAt m 60 4 → Runs (.markerReceive dt p m) s (fun t =>
      let y := t.lport p
      y.good = x.good + 1 ∧ y.headTime = leAt m 0 8 ∧ y.headId = leAt m 8 4 ∧ y.hop = leAt m 12 1 ∧ y.sender = leAt m 13 1 ∧
      y.gotAt.head? = some (leAt m 40 4, u.now) ∧ (y.st = 2 ∨ y.st = 3) ∧
      (x.st = 2 → 3 ≤ x.good → x.delays ≠ [] → y.st = 3) ∧ (x.st = 2 → x.good < 3 → y.st = 2) ∧ others t ∧
      RegsKept [0x2000C, 0x10114] s t ∧ Frame [.clock, .regs, .host, .rings, .link] s t)))

/-- R343, R346, R349, R354, R393: a link frame is taken where its port carries them: one whose CRC fails is counted, the errors of a PRBS
frame are added; the first copy of a channel group or a metadata part of another module goes on out of the other port and is kept where
the module takes part in the chain, a further copy of metadata is dropped. The head captures the next group at its instant. -/
def Obligations.LinkFramesAreForwarded : Prop := ∀ (s : State) (dt p errs : Nat) (f : List Byte),
  p < 2 →
  let u := s.elapse dt
  let len := leAt f 4 2
  let cls := leAt f 0 1
  let origin := leAt f 1 1
  let seq := leAt f 8 4
  let arg := leAt f 12 4
  let part := leAt f 6 2
  let whole := f.length = len + 20 ∧ len ≤ 2048 ∧ crc32c (f.take (16 + len)) = leAt f (16 + len) 4
  let seen := s.link.seen.contains (origin, cls + 256 * part, seq)
  let kept : LinkPart := { path := p, origin := origin, num := arg, part := part, arg := arg, bytes := (f.drop 16).take len }
  let i : Instr := .linkFrameReceive dt p f errs
  (s.linkOpen p = false → exec i s = .next u) ∧
  (s.linkOpen p = true →
    (cls = 7 → Runs i s (fun t => t.reg 0x10031C = s.up 0x10031C errs ∧ (t.lport p).prbs = (s.lport p).prbs + errs ∧
      t.link.out = s.link.out ∧ t.link.seen = s.link.seen)) ∧
    (cls ≠ 7 → ¬ whole → Runs i s (fun t => t.reg 0x100300 = s.up 0x100300 1 ∧ RegsKept [0x100300] s t ∧ Frame [.clock, .regs] s t)) ∧
    (whole → origin ≠ s.link.addr → seen = false → cls = 3 ∨ cls = 5 → Runs i s (fun t =>
      (cls = 3 → t.link.groups = s.link.groups ++ (if s.chainEn then [kept] else []) ∧ t.link.metas = s.link.metas) ∧
      (cls = 5 → t.link.metas = s.link.metas ++ (if s.chainMeta then [kept] else []) ∧ t.link.groups = s.link.groups) ∧
      (origin, cls + 256 * part, seq) ∈ t.link.seen ∧
      t.link.out = s.link.out ++ (if s.linkOpen (1 - p) then
        [(1 - p, linkFrame cls origin (leAt f 2 1) (leAt f 3 1 + 1) part seq arg ((f.drop 16).take len))] else []) ∧
      RegsKept [] s t ∧ Frame [.clock, .link] s t)) ∧
    (whole → seen = true → cls = 5 → exec i s = .next u)) ∧
  (s.casting = true → 0 < s.mgt.tick.count → s.link.capG < 7 → s.sampleInstant (4 * s.link.capG + 4) ≤ u.now →
    Runs (.groupCapture dt) s (fun t => t.link.capG = s.link.capG + 1 ∧ RegsKept [] s t ∧ Frame [.clock, .link] s t)) ∧
  (s.casting = false → exec (.groupCapture dt) s = .next u)

/-- R352, R353, R354, R360: READDRESS drops the address, on the head to take 1 again; ACCEPT takes the strap's address where conflict 1
stands and MAP has it free, each logged; LNK_CFG, LNK_BCAST and LNK_RX take their value where it may stand and set ERROR where it may
not. LNK_SLICE_APPLY is accepted for its boundary, refused where its map is bad. -/
def Obligations.AddressesAndSlicesAreSet : Prop := ∀ (s : State) (v : Word) (o : Origin) (k : Fin 3) (d : Desc),
  let off := if k = 0 then 0x100000 else if k = 1 then 0x10000C else 0x100010
  let w := v &&& (if k = 0 then 0x1F else if k = 1 then 0x7FF0FFF else 0x30000FFF)
  let logged : List Part := [.regs, .host, .rings, .audit, .pwr, .sta, .link]
  (∀ i ∈ [Instr.readdress v, .accept v], s.auditRoom 1 = true →
    (bitOf v 0 = true → bitOf v 1 = false → s.isHead = false → Runs i s (fun t => Logged s t ∧ t.link = { s.link with
      addr := 31, conflict := if s.link.conflict = 3 ∨ s.link.conflict = 5 then s.link.conflict else 0 } ∧ RegsKept auditRegs s t ∧
      Frame logged s t)) ∧
    (bitOf v 0 = true → bitOf v 1 = false → s.isHead = true → Runs i s (fun t => Logged s t ∧ t.link = { s.link with addr := 1 } ∧
      t.flag 0x2000C 28 = true ∧ RegsKept auditRegs s t ∧ Frame logged s t)) ∧
    (bitOf v 0 = false → bitOf v 1 = true → s.link.conflict = 1 → s.link.map.testBit (s.straps.addr - 1) = false → Runs i s (fun t =>
      Logged s t ∧ t.link = { s.link with addr := s.straps.addr, conflict := 0 } ∧ t.flag 0x2000C 28 = true ∧ RegsKept auditRegs s t ∧
      Frame logged s t)) ∧
    (bitOf v 0 = false → bitOf v 1 = false ∨ s.link.conflict ≠ 1 → Runs i s (fun t => Logged s t ∧ t.link = s.link ∧
      RegsKept auditRegs s t ∧ Frame logged s t))) ∧
  (s.lnkCfgBad off w = false → s.auditRoom 1 = true → Runs (.lnkCfgWrite k v o) s (fun t =>
    t.reg off = w ∧ Logged s t ∧ RegsKept (off :: auditRegs) s t ∧ Frame [.regs, .host, .rings, .audit, .pwr, .sta] s t)) ∧
  (s.lnkCfgBad off w = true → Runs (.lnkCfgWrite k v o) s (fun t => t.flag 0x100004 31 = true ∧ RegsKept [0x100004] s t ∧ Frame [.regs] s t)) ∧
  (s.nextDesc 0 0xC1 = some d → d.w1 = 0 → d.w2 = 0 → d.w3 = 0 →
    (s.sliceBad = true → Ends .lnkSliceApply s 0 d.index lnkSliceBad (fun u => u = s)) ∧
    (s.sliceBad = false → d.time ≤ s.now + 3600000000000 → s.auditRoom 1 = true → Runs .lnkSliceApply s (fun t =>
      t.link = { s.link with slices := s.link.slices ++ [s.request d.index d.time] } ∧ t.audit.reserved = s.audit.reserved + 1 ∧
      t.atPhase 0 d.index .accepted ∧ t.slice = s.slice ∧ Frame [.regs, .host, .rings, .audit, .link] s t)))

/-- R361, R362: a TUN_SEND message goes out of every port that carries link frames and completes with those ports as RESULT; its own
address, one above 16, and a chain that is down are refused. A message received for the host goes to its tunnel ring, and stays in its
queue while that is full; a remote command a module does not take is counted. -/
def Obligations.TunnelMessagesPass : Prop := ∀ (s : State) (r dt p : Nat) (d : Desc) (bs : List Byte) (ws : List Nat),
  let u := s.elapse dt
  let dest := field d.w0 20 16
  let len := d.w1.toNat
  let up := fun (n : Nat) => if s.linkOpen n then 1 else 0
  let arg := ws.getD 3 0
  let tr := if arg.testBit 17 then 55 else 54
  let popped := fun (t : State) => t.queue 4 (2 * p) = (s.popItem 4 (2 * p)).queue 4 (2 * p)
  (s.nextDesc r 0x50 = some d → field d.w0 31 21 = 0 → field d.w0 15 9 = 0 →
    (dest < 17 → dest ≠ s.link.addr → s.anyLink = true → 1 ≤ len → len ≤ 4096 → d.addr % 32 = 0 → ∃ v : State,
      exec (.tunSend r (some bs)) s = .next (v.finishAt r d.index stOk 0 v.now (some (BitVec.ofNat 32 (up 0 + 2 * up 1)))) ∧
      (∃ l, v.link.out = s.link.out ++ l ∧ (∀ q ∈ l, s.linkOpen q.1 = true) ∧ (s.linkOpen 0 = true ∨ s.linkOpen 1 = true → l ≠ [])) ∧
      Frame [.regs, .host, .rings, .queues, .link] s v) ∧
    (17 ≤ dest ∨ dest = s.link.addr → Ends (.tunSend r (some bs)) s r d.index lnkBadDest (fun v => v = s)) ∧
    (dest < 17 → dest ≠ s.link.addr → s.anyLink = false → Ends (.tunSend r (some bs)) s r d.index lnkDown (fun v => v = s))) ∧
  ((s.queue 4 (2 * p)).head = some ws →
    (arg.testBit 16 = true → s.flag 0x100000 4 = false → Runs (.tunnelReceive dt p) s (fun t => popped t ∧
      t.reg 0x100318 = s.up 0x100318 1 ∧ RegsKept [0x100318] s t ∧ Frame [.clock, .regs, .queues] s t)) ∧
    (arg.testBit 16 = false → s.d2hFull tr = true → exec (.tunnelReceive dt p) s = .next u) ∧
    (arg.testBit 16 = false → s.d2hFull tr = false → (s.ring tr).waiting = [] → Runs (.tunnelReceive dt p) s (fun t => popped t ∧
      (t.ring tr).waiting = [] ∧ (t.ring tr).wr = idxAdd (s.ring tr).wr 1 ∧ RegsKept [0x20008] s t ∧
      Frame [.clock, .regs, .host, .rings, .queues] s t)))

/-- R372 to R376: a check-value job of one piece in host memory, in any of the four polynomials, from its initial value: VALUE and RESULT
are written into the record, the running value is in its register, the job is counted and its compared value is the completion's RESULT;
against an EXPECT that differs it ends with MISMATCH, counted. COPY writes the piece to its destination too. A record out of range is
refused. -/
def Obligations.CheckValueJobsRun : Prop := ∀ (s : State) (r : Nat) (d : Desc) (rec_ src : List Byte) (parity : Bool),
  let p := jobPoly rec_
  let value := polyRun p (polyInit p) (src.take (jobLen rec_))
  let result := value ^^^ polyFinal p
  let hit := leAt rec_ 29 1 = 0 ∨ value = leAt rec_ 48 8
  let runs := fun (i : Instr) (w : List HostWrite) => ∃ v : State, exec i s =
      .next (v.finishAt r d.index (if hit then stOk else icuMismatch) 0 s.now (some (BitVec.ofNat 32 value))) ∧
    v.host.out = s.host.out ++ w ++ [.mem (d.addr + 40) (leBytes 8 value), .mem (d.addr + 56) (leBytes 8 result)] ∧
    v.reg64 (0x110104 + 16 * (r - 44)) = value % 2 ^ 64 ∧ v.reg 0x110224 = s.up 0x110224 1 ∧
    v.reg 0x110228 = (if hit then s.reg 0x110228 else s.up 0x110228 1) ∧
    RegsKept [0x110104 + 16 * (r - 44), 0x110108 + 16 * (r - 44), 0x110224, 0x110228] s v ∧ Frame [.regs, .host, .evs] s v
  let fair := d.flags = 0 ∧ d.spec = 0 ∧ d.w4 = 0 ∧ d.w5 = 0 ∧ d.addr % 32 = 0 ∧ d.w1 = 64
  44 ≤ r → r < 52 → fair →
  (∀ i ∈ [(0x60, Instr.cvRun r (some rec_) (some src) false), (0x69, .scan r (some rec_) (some src) false)], s.nextDesc r i.1 = some d →
    jobOk 0 rec_ = true → jobCount rec_ = 1 → leAt rec_ 29 1 = 0 ∨ leAt rec_ 29 1 = 8 → jobSrc rec_ + jobLen rec_ ≤ 2 ^ 64 → runs i.2 []) ∧
  (s.nextDesc r 0x68 = some d → jobOk 1 rec_ = true → p ≤ 3 → jobCount rec_ = 1 → leAt rec_ 29 1 = 0 ∨ leAt rec_ 29 1 = 8 →
    jobSrc rec_ + jobLen rec_ ≤ 2 ^ 64 → jobDst rec_ + jobLen rec_ ≤ 2 ^ 64 →
    runs (.copy r (some rec_) (some src) false) [.mem (jobDst rec_) (src.take (jobLen rec_))]) ∧
  (∀ i ∈ [(0x60, 0, Instr.cvRun r (some rec_) (some src) parity), (0x69, 0, .scan r (some rec_) (some src) parity),
      (0x68, 1, .copy r (some rec_) (some src) parity)], s.nextDesc r i.1 = some d → jobOk i.2.1 rec_ = false →
    Ends i.2.2 s r d.index icuBadRecord (fun v => v = s))

/-- R380: the instructions of the JTAG port select what the port shifts out; those that take pins are logged and fire source 47; a challenge
is 48 bytes, none within 1 s of a failed response; a response up to DBG_MAX with the owner's signature on the challenge and the level
opens that level, and any other is counted; either ends the challenge. -/
def Obligations.TheDebugPortAnswers : Prop := ∀ (s : State) (dt level : Nat) (pins sig : List Byte),
  let u := s.elapse dt
  let selects := fun (i : Instr) (n : Nat) (out : List Byte) => Runs i s (fun t => t.sec = { s.sec with jtag := n, tdo := out } ∧ Frame [.sec] s t)
  let takes := fun (i : Instr) (n : Nat) => Runs i s (fun t => t.sec = { s.sec with jtag := n, tdo := pins } ∧ t.flag 0x2000C 15 = true ∧
    (s.auditRoom 1 = true → s.audit.late = [] → Logged s t) ∧ RegsKept auditRegs s t ∧
    Frame [.regs, .host, .rings, .audit, .sec, .pwr, .sta] s t)
  let ok := s.dbgSigned level sig = true ∧ level ≠ 0 ∧ level ≤ s.dbgMax
  selects .bypass 0 [0] ∧ selects .idcode 1 (leBytes 4 Config.idcode) ∧ selects (.samplePreload pins) 2 pins ∧
  takes (.extest pins) 3 ∧ takes (.extestPulse pins) 4 ∧ takes (.extestTrain pins) 5 ∧
  (u.now < s.sec.waitUntil → Runs (.dbgChallenge dt) s (fun t => t.sec = { s.sec with jtag := 6, tdo := [] } ∧ Frame [.clock, .sec] s t)) ∧
  (s.sec.waitUntil ≤ u.now → Runs (.dbgChallenge dt) s (fun t => ∃ c, t.sec = { s.sec with jtag := 6, tdo := c, challenge := some c } ∧
    c.length = 48 ∧ c.drop 32 = leBytes 8 Config.serial.toNat ++ List.replicate 8 0 ∧ Frame [.free, .clock, .sec] s t)) ∧
  (ok → Runs (.dbgResponse level sig) s (fun t =>
    t.sec = { s.sec with jtag := 7, tdo := [], challenge := none, dbgLevel := level } ∧
    (s.auditRoom 1 = true → s.audit.late = [] → Logged s t) ∧ RegsKept auditRegs s t)) ∧
  (¬ ok → Runs (.dbgResponse level sig) s (fun t => t.sec = { s.sec with
      jtag := 7, tdo := [], challenge := none, dbgFails := min 255 (s.sec.dbgFails + 1), waitUntil := s.now + 1000000000 } ∧
    t.flag 0x2000C 15 = true ∧ RegsKept [0x2000C, 0x10114] s t ∧ Frame [.regs, .host, .rings, .sec] s t))

/-- R384 to R387, R395, R399, R401: the oldest checkpoint owed goes to ring 3; when space returns an entry that waited is written and no
ring is held back for a command that does not wait; STA_EPOCH is written and takes effect at the next boundary; reads of the epoch and
of the audit index latch their high word; a DRAM scrub unit moves the position on and counts a failing word. -/
def Obligations.RecordsAreKept : Prop := ∀ (s : State) (dt a i at_ hash r : Nat) (rest : List (Nat × Nat × Nat)) (v : Word) (o : Origin) (e : LateEntry)
    (pages : List Nat),
  let pos := s.fld 0x120010 22 0
  (s.audit.owed = (i, at_, hash) :: rest →
    (s.d2hFull 3 = true → Runs .checkpoint s (fun t => t.audit = { s.audit with owed := rest } ∧
      (∃ b, t.ring 3 = { s.ring 3 with waiting := (s.ring 3).waiting ++ [b] } ∧ b.code = 2 ∧ b.time = at_ ∧ b.w1 = BitVec.ofNat 32 i ∧
        b.payload.take 32 = leBytes 8 i ++ leBytes 8 at_ ++ leBytes 8 hash ++ leBytes 8 s.now ∧ b.payload.length = 128) ∧
      RegsKept [] s t ∧ Frame [.free, .rings, .audit] s t)) ∧
    (s.d2hFull 3 = false → (s.ring 3).waiting = [] → Runs .checkpoint s (fun t => t.audit = { s.audit with owed := rest } ∧
      (t.ring 3).waiting = [] ∧ (t.ring 3).wr = idxAdd (s.ring 3).wr 1 ∧ RegsKept [0x20008] s t ∧
      Frame [.free, .regs, .host, .rings, .audit] s t))) ∧
  (s.mgt.ctl = [] → s.audit.waiting = [] →
    (s.audit.late = [e] → s.auditRoom 1 = true → Runs .auditSpaceReturn s (fun t => t.audit.late = [] ∧ Logged s t ∧ RegsKept auditRegs s t)) ∧
    (s.audit.late = [e] → s.auditRoom 1 = false → Runs .auditSpaceReturn s (fun t => t.audit.late = [e] ∧ t.audit.index = s.audit.index)) ∧
    (s.audit.late = [] → r < 64 → Runs .auditSpaceReturn s (fun t => (t.ring r).stalled = false ∧ t.audit.index = s.audit.index ∧
      RegsKept [] s t))) ∧
  (s.auditRoom 1 = true → Runs (.staEpochWrite v o) s (fun t => t.reg 0x120800 = v &&& 0x001FFFFF ∧ t.sta.force = true ∧ Logged s t ∧
    RegsKept (0x120800 :: auditRegs) s t ∧ Frame [.regs, .host, .rings, .audit, .pwr, .sta] s t)) ∧
  (s.auditRoom 1 = false → Runs (.staEpochWrite v o) s (fun t => t.reg 0x300 = s.up 0x300 1 ∧ RegsKept [0x300] s t ∧ Frame [.regs] s t)) ∧
  Runs .staCurEpochRead s (fun t => t.host = { s.host with lastRead := some (0x120808, BitVec.ofNat 32 s.sta.epoch) } ∧
    t.reg 0x12080C = BitVec.ofNat 32 (s.sta.epoch / 2 ^ 32) ∧ RegsKept [0x12080C] s t ∧ Frame [.regs, .host] s t) ∧
  Runs .mgtAudIndexRead s (fun t => t.host = { s.host with lastRead := some (0x204, BitVec.ofNat 32 s.audit.index) } ∧
    t.reg 0x208 = BitVec.ofNat 32 (s.audit.index / 2 ^ 32) ∧ RegsKept [0x208] s t ∧ Frame [.regs, .host] s t) ∧
  (s.mgt.modState = 3 ∨ s.mgt.modState = 4 → s.flag 0x120000 2 = true → pos + 1 < 3670016 →
    Runs (.dramScrub dt none pages) s (fun t => (t.reg 0x120010).toNat = pos + 1 ∧ RegsKept [0x120010, 0x120114] s t ∧
      Frame [.clock, .regs, .vig] s t) ∧
    Runs (.dramScrub dt (some a) pages) s (fun t => (t.reg 0x120010).toNat = pos + 1 ∧ t.reg 0x11020C = s.up 0x11020C 1 ∧
      RegsKept [0x120010, 0x120114, 0x11020C] s t ∧ Frame [.clock, .regs, .evs, .vig] s t))
end

