-- ==== Sys2Proof/Laws/Cells.lean ====
section
/-!
SUPPORT. Laws/Cells.lean: what a store into a sparse table can do: the key it names reads the value, every other key reads what
it did, and the canonical form stays. Byte memories and the register file are such tables.
-/
namespace Sys2Proof.Machine

-- One proof at a time: the proofs of this file in parallel ask for more threads than the memory bound holds.
set_option Elab.async false

/-- A lower bound that a canonical table respects. -/
theorem Cells.wfFrom_weaken [DecidableEq β] {d : Nat → β} {m : Cells β} {b : Nat} (h : Cells.wfFrom d (some b) m = true) :
    Cells.wfFrom d none m = true := by
  cases m with
  | nil => rfl
  | cons p r => simp_all [Cells.wfFrom]

theorem Cells.wfFrom_lower [DecidableEq β] {d : Nat → β} {m : Cells β} {a b : Nat} (hab : a ≤ b)
    (h : Cells.wfFrom d (some b) m = true) : Cells.wfFrom d (some a) m = true := by
  cases m with
  | nil => rfl
  | cons p r =>
    simp only [Cells.wfFrom, Bool.and_eq_true, decide_eq_true_eq] at h ⊢
    exact ⟨⟨by omega, h.1.2⟩, h.2⟩

theorem Cells.wfFrom_filter [DecidableEq β] {d : Nat → β} {p : Nat × β → Bool} : {m : Cells β} → {b : Option Nat} →
    Cells.wfFrom d b m = true → Cells.wfFrom d b (m.filter p) = true
  | [], _, _ => rfl
  | (i, w) :: r, b, h => by
    have hr : Cells.wfFrom d (some i) r = true := by cases b <;> simp_all [Cells.wfFrom]
    have ih := Cells.wfFrom_filter (p := p) hr
    rw [List.filter_cons]
    split
    · cases b <;> simp_all [Cells.wfFrom]
    · cases b with
      | none => exact Cells.wfFrom_weaken ih
      | some x =>
        simp only [Cells.wfFrom, Bool.and_eq_true, decide_eq_true_eq] at h
        exact Cells.wfFrom_lower (Nat.le_of_lt h.1.1) ih

/-- Dropping entries keeps the canonical form. -/
theorem Cells.wf_filter [DecidableEq β] {d : Nat → β} {p : Nat × β → Bool} {m : Cells β} (h : Cells.wf d m = true) :
    Cells.wf d (m.filter p) = true := Cells.wfFrom_filter h

theorem Cells.wfFrom_enter [DecidableEq β] {d : Nat → β} : {m : Cells β} → {b : Option Nat} → {k : Nat} → {v : β} →
    (∀ x ∈ b, x < k) → v ≠ d k → Cells.wfFrom d b m = true → Cells.wfFrom d b (Cells.enter m k v) = true
  | [], b, k, v, hb, hv, _ => by
    cases b with
    | none => simp [Cells.enter, Cells.wfFrom, hv]
    | some x => simpa [Cells.enter, Cells.wfFrom, hv] using hb x rfl
  | (j, w) :: r, b, k, v, hb, hv, h => by
    have hj : decide (w ≠ d j) && Cells.wfFrom d (some j) r = true := by
      cases b <;> simp_all [Cells.wfFrom]
    simp only [Bool.and_eq_true, decide_eq_true_eq] at hj
    unfold Cells.enter
    split
    · rename_i hk
      cases b with
      | none => simp [Cells.wfFrom, hv, hk, hj]
      | some x => simpa [Cells.wfFrom, hv, hk, hj] using hb x rfl
    · split
      · rename_i _ hk
        subst hk
        cases b with
        | none => simp [Cells.wfFrom, hv, hj]
        | some x => simpa [Cells.wfFrom, hv, hj] using hb x rfl
      · rename_i h1 h2
        have hr := Cells.wfFrom_enter (v := v) (b := some j) (k := k) (by simp; omega) hv hj.2
        cases b with
        | none => simp [Cells.wfFrom, hr, hj]
        | some x => simp_all [Cells.wfFrom]

/-- A store keeps the canonical form. -/
theorem Cells.wf_put [DecidableEq β] {d : Nat → β} {m : Cells β} {k : Nat} {v : β} (h : Cells.wf d m = true) :
    Cells.wf d (Cells.put d m k v) = true := by
  unfold Cells.put
  split
  · exact Cells.wf_filter h
  · rename_i hv
    exact Cells.wfFrom_enter (by simp) hv h

theorem Cells.get_filter_ne {d : Nat → β} : {m : Cells β} → {k j : Nat} → j ≠ k →
    Cells.get d (m.filter (fun p => p.1 != k)) j = Cells.get d m j
  | [], _, _, _ => rfl
  | (i, w) :: r, k, j, h => by
    rw [List.filter_cons]
    split
    · simp only [Cells.get, Cells.get_filter_ne (m := r) h]
    · rename_i hi
      simp only [bne_iff_ne, ne_eq, Decidable.not_not] at hi
      rw [Cells.get_filter_ne h, Cells.get, if_neg (by omega)]

theorem Cells.get_filter_self {d : Nat → β} : {m : Cells β} → {k : Nat} →
    Cells.get d (m.filter (fun p => p.1 != k)) k = d k
  | [], _ => rfl
  | (i, w) :: r, k => by
    rw [List.filter_cons]
    split
    · rename_i hi
      simp only [bne_iff_ne, ne_eq] at hi
      rw [Cells.get, if_neg hi, Cells.get_filter_self]
    · exact Cells.get_filter_self

theorem Cells.get_enter_ne {d : Nat → β} : {m : Cells β} → {k j : Nat} → {v : β} → j ≠ k →
    Cells.get d (Cells.enter m k v) j = Cells.get d m j
  | [], k, j, v, h => by simp [Cells.enter, Cells.get, Ne.symm h]
  | (i, w) :: r, k, j, v, h => by
    unfold Cells.enter
    split
    · simp [Cells.get, Ne.symm h]
    · split
      · rename_i _ hk
        subst hk
        simp [Cells.get, Ne.symm h]
      · simp [Cells.get, Cells.get_enter_ne h]

theorem Cells.get_enter_self {d : Nat → β} : {m : Cells β} → {k : Nat} → {v : β} → Cells.get d (Cells.enter m k v) k = v
  | [], k, v => by simp [Cells.enter, Cells.get]
  | (i, w) :: r, k, v => by
    unfold Cells.enter
    split
    · simp [Cells.get]
    · split
      · simp [Cells.get]
      · rename_i _ hk
        rw [Cells.get, if_neg (Ne.symm hk), Cells.get_enter_self]

/-- A store leaves every other key as it was. -/
theorem Cells.get_put_ne [DecidableEq β] {d : Nat → β} {m : Cells β} {k j : Nat} {v : β} (h : j ≠ k) :
    Cells.get d (Cells.put d m k v) j = Cells.get d m j := by
  unfold Cells.put
  split
  · exact Cells.get_filter_ne h
  · exact Cells.get_enter_ne h

/-- The key of a store reads the value stored. -/
theorem Cells.get_put_self [DecidableEq β] {d : Nat → β} {m : Cells β} {k : Nat} {v : β} :
    Cells.get d (Cells.put d m k v) k = v := by
  unfold Cells.put
  split
  · rename_i hv
    rw [hv]
    exact Cells.get_filter_self
  · exact Cells.get_enter_self

theorem Cells.wf_putList [DecidableEq β] {d : Nat → β} : {vs : List β} → {m : Cells β} → {k : Nat} → Cells.wf d m = true →
    Cells.wf d (Cells.putList d m k vs) = true
  | [], _, _, h => h
  | _ :: vs, _, _, h => Cells.wf_putList (vs := vs) (Cells.wf_put h)

/-- A store of a run of values leaves every key outside the run as it was. -/
theorem Cells.get_putList_out [DecidableEq β] {d : Nat → β} : {vs : List β} → {m : Cells β} → {k j : Nat} →
    (j < k ∨ k + vs.length ≤ j) → Cells.get d (Cells.putList d m k vs) j = Cells.get d m j
  | [], _, _, _, _ => rfl
  | v :: vs, m, k, j, h => by
    rw [Cells.putList, Cells.get_putList_out (by simp only [List.length_cons] at h; omega),
      Cells.get_put_ne (by simp only [List.length_cons] at h; omega)]

/-- A store of a run of values is read back from its keys. -/
theorem Cells.getList_putList [DecidableEq β] {d : Nat → β} : {vs : List β} → {m : Cells β} → {k : Nat} →
    Cells.getList d (Cells.putList d m k vs) k vs.length = vs
  | [], _, _ => rfl
  | v :: vs, m, k => by
    rw [Cells.putList, List.length_cons, Cells.getList, Cells.get_putList_out (by omega), Cells.get_put_self,
      Cells.getList_putList]

/-- A memory store keeps the canonical form. -/
theorem Memory.wf_store {m : Memory} {a : Nat} {bs : List Byte} (h : m.wf = true) : (m.store a bs).wf = true :=
  Cells.wf_putList h

/-- A memory store leaves every byte outside what it stores as it was. -/
theorem Memory.byte_store_out {m : Memory} {a j : Nat} {bs : List Byte} (h : j < a ∨ a + bs.length ≤ j) :
    (m.store a bs).byte j = m.byte j := Cells.get_putList_out h

/-- What a memory store wrote is read back. -/
theorem Memory.load_store {m : Memory} {a : Nat} {bs : List Byte} : (m.store a bs).load a bs.length = bs :=
  Cells.getList_putList

end Sys2Proof.Machine
end

