-- ==== Sys2Proof/Laws/Frame.lean ====
section
/-!
SUPPORT. Laws/Frame.lean: how the frame of an operation is found from those of the operations it calls. `Does ps s t` says that
`t` differs from `s` in the parts `ps` only and is sound where `s` is; each operation of the model has one lemma `…_does` that adds
it to such a chain.
-/
namespace Sys2Proof.Machine

-- One proof at a time: the proofs of this file in parallel ask for more threads than the memory bound holds.
set_option Elab.async false

/-- `t` came from `s` by operations that write the parts `ps` and keep what is sound. -/
structure Does (ps : List Part) (s t : State) : Prop where
  frame : Frame ps s t
  sound : Sound s → Sound t

/-- The same of the outcome of a command: it is a next state. -/
def DoesR (ps : List Part) (s : State) (r : Res) : Prop := ∃ t, r = .next t ∧ Does ps s t

/-- What a word of a bundle answers: a fault, or a state that came so far. -/
def IssuedDoes (ps : List Part) (s0 : State) (r : Issued) : Prop := ∀ o, r = .ok o → Does ps s0 o.s

theorem Part.same_refl {s : State} {p : Part} : Part.same s s p := by cases p <;> rfl

theorem Part.same_trans {s t u : State} {p : Part} (h : Part.same s t p) (k : Part.same t u p) : Part.same s u p := by
  cases p <;> exact Eq.trans k h

theorem Does.refl {ps : List Part} {s : State} : Does ps s s := ⟨fun _ _ => Part.same_refl, id⟩

theorem Does.trans {ps : List Part} {s t u : State} (h : Does ps s t) (k : Does ps t u) : Does ps s u :=
  ⟨fun p hp => Part.same_trans (h.frame p hp) (k.frame p hp), fun hs => k.sound (h.sound hs)⟩

theorem Does.weaken {ps qs : List Part} {s t : State} (hw : ps ⊆ qs) (h : Does ps s t) : Does qs s t :=
  ⟨fun p hp => h.frame p (fun hq => hp (hw hq)), h.sound⟩

/-- A subset of what an operation may write. -/
theorem sub {a b ps : List Part} (hw : b ⊆ ps) (h : a ⊆ b := by decide) : a ⊆ ps := List.Subset.trans h hw

/-- An update of fields. -/
theorem Does.upd {ps : List Part} {s t u : State} (w : List Part) (hw : w ⊆ ps) (h : Does ps s t)
    (hf : ∀ p, p ∉ w → Part.same t u p := by intro p hp; cases p <;> first | rfl | exact absurd (by decide) hp)
    (hs : Sound t → Sound u := by
      intro h
      first
        | exact h
        | (obtain ⟨h1, h2, h3, h4, h5, h6, h7, h8, h9, h10, h11⟩ := h
           exact ⟨by first | exact h1 | exact Cells.wf_put h1, h2, h3, h4, by first | exact h5 | exact Nat.le_of_ble_eq_true rfl,
             by first | exact h6 | exact Cells.wf_put h6, by first | exact h7 | exact Cells.wf_put h7,
             by first | exact h8 | exact Cells.wf_put h8, by first | exact h9 | exact Cells.wf_put h9,
             by first | exact h10 | exact Cells.wf_put h10, by first | exact h11 | exact Cells.wf_put h11⟩)) : Does ps s u :=
  h.trans ⟨fun p hp => hf p (fun hq => hp (hw hq)), hs⟩

/-- The same, where the state updated is an expression, found by its queue. -/
theorem Does.updOf {ps : List Part} {s t : State}
    {free' : Nat} {clock' : Counter} {regs' : RegFile} {host' : HostIf} {rings' : Cells Ring} {audit' : Audit} {mgt' :
    Mgt} {ing' : Ingress} {rnd' : Render} {cnv' : Conv} {mix' : Mix} {slice' : Cells Word} {evs' : Cells (Option FrameEv)}
    {ev53' : Option RenderEv} {straps' : Straps} {queues' : Cells EQueue} {dram' : Dram} {tiles' : Cells Tile} {parWords'
    : List (Nat × Nat)} {macs' : Cells Mac} {mdioEnd' : Nat} {tim' : TimeBlock} {streams' : Cells Stream} {vox' : Vox}
    {heldRegs' : Cells (Option Word)} {imgs' : Images} {wick' : Wick} {lan' : Lantern} {vig' : VigilSt} {sec' : Sec} {pwr'
    : Pwr} {sta' : Sta} {mnt' : Mantle} {ports' : Cells Port} {ops' : Cells OpsChan} {link' : Link}
    (w : List Part) (hw : w ⊆ ps) (h : Does ps s t)
    (hf : ∀ p, p ∉ w → Part.same t (State.mk t.pending free' clock' regs' host' rings' audit' mgt' ing' rnd' cnv' mix' slice' evs' ev53' straps' queues'
    dram' tiles' parWords' macs' mdioEnd' tim' streams' vox' heldRegs' imgs' wick' lan' vig' sec' pwr' sta' mnt' ports'
    ops' link') p := by
      intro p hp; cases p <;> first | rfl | exact absurd (by decide) hp)
    (hs : Sound t → Sound (State.mk t.pending free' clock' regs' host' rings' audit' mgt' ing' rnd' cnv' mix' slice' evs' ev53' straps' queues'
    dram' tiles' parWords' macs' mdioEnd' tim' streams' vox' heldRegs' imgs' wick' lan' vig' sec' pwr' sta' mnt' ports'
    ops' link') := by
      intro h
      first
        | exact h
        | (obtain ⟨h1, h2, h3, h4, h5, h6, h7, h8, h9, h10, h11⟩ := h
           exact ⟨by first | exact h1 | exact Cells.wf_put h1, h2, h3, h4, by first | exact h5 | exact Nat.le_of_ble_eq_true rfl,
             by first | exact h6 | exact Cells.wf_put h6, by first | exact h7 | exact Cells.wf_put h7,
             by first | exact h8 | exact Cells.wf_put h8, by first | exact h9 | exact Cells.wf_put h9,
             by first | exact h10 | exact Cells.wf_put h10, by first | exact h11 | exact Cells.wf_put h11⟩)) :
    Does ps s (State.mk t.pending free' clock' regs' host' rings' audit' mgt' ing' rnd' cnv' mix' slice' evs' ev53' straps' queues'
    dram' tiles' parWords' macs' mdioEnd' tim' streams' vox' heldRegs' imgs' wick' lan' vig' sec' pwr' sta' mnt' ports'
    ops' link') :=
  .upd w hw h hf hs

theorem Does.ite {ps : List Part} {s a b : State} {c : Prop} [Decidable c] (ha : Does ps s a) (hb : Does ps s b) :
    Does ps s (if c then a else b) := by split <;> assumption

theorem Does.ite_fst {β : Type} {ps : List Part} {s : State} {a b : State × β} {c : Prop} [Decidable c] (ha : Does ps s a.1)
    (hb : Does ps s b.1) : Does ps s (if c then a else b).1 := by split <;> assumption

theorem Does.ite_snd {β : Type} {ps : List Part} {s : State} {a b : β × State} {c : Prop} [Decidable c] (ha : Does ps s a.2)
    (hb : Does ps s b.2) : Does ps s (if c then a else b).2 := by split <;> assumption

/-- What keeps the three byte memories canonical. -/
def LanKept (f : Lantern → Lantern) : Prop := ∀ l : Lantern,
  (Memory.wf l.tile = true → Memory.wf l.dram = true → Memory.wf (f l).tile = true ∧ Memory.wf (f l).dram = true) ∧
    (Memory.wf l.prog = true → Memory.wf (f l).prog = true) ∧ (f l).cores = l.cores

/-- What follows on a state that came so far. -/
theorem Does.after {ps : List Part} {s t u : State} (k : Does ps t u) (h : Does ps s t) : Does ps s u := h.trans k

theorem DoesR.next {ps : List Part} {s t : State} (h : Does ps s t) : DoesR ps s (.next t) := ⟨t, rfl, h⟩

theorem DoesR.ite {ps : List Part} {s : State} {a b : Res} {c : Prop} [Decidable c] (ha : DoesR ps s a) (hb : DoesR ps s b) :
    DoesR ps s (if c then a else b) := by split <;> assumption

theorem DoesR.after {ps : List Part} {s t : State} {r : Res} (k : DoesR ps t r) (h : Does ps s t) : DoesR ps s r := by
  obtain ⟨u, rfl, hu⟩ := k
  exact ⟨u, rfl, h.trans hu⟩

theorem Does.foldl {α : Type} {ps : List Part} {s : State} {g : State → α → State} {l : List α} {t : State}
    (h : Does ps s t) (hg : ∀ u a, Does ps s u → Does ps s (g u a)) : Does ps s (l.foldl g t) := by
  induction l generalizing t with
  | nil => exact h
  | cons a l ih => exact ih (hg t a h)

/-- The state half of a fold over a pair. -/
theorem Does.foldl_fst {α β : Type} {ps : List Part} {s : State} {g : State × β → α → State × β} {l : List α} {t : State × β}
    (h : Does ps s t.1) (hg : ∀ u a, Does ps s u.1 → Does ps s (g u a).1) : Does ps s (l.foldl g t).1 := by
  induction l generalizing t with
  | nil => exact h
  | cons a l ih => exact ih (hg t a h)

theorem Does.foldl_snd {α β : Type} {ps : List Part} {s : State} {g : β × State → α → β × State} {l : List α} {t : β × State}
    (h : Does ps s t.2) (hg : ∀ u a, Does ps s u.2 → Does ps s (g u a).2) : Does ps s (l.foldl g t).2 := by
  induction l generalizing t with
  | nil => exact h
  | cons a l ih => exact ih (hg t a h)

/-- A state that a pair holds. -/
theorem Does.of_fst {β : Type} {ps : List Part} {s t : State} {p : State × β} {b : β} (e : p = (t, b)) (h : Does ps s p.1) :
    Does ps s t := by subst e; exact h

theorem Does.of_snd {β : Type} {ps : List Part} {s t : State} {p : β × State} {b : β} (e : p = (b, t)) (h : Does ps s p.2) :
    Does ps s t := by subst e; exact h

theorem IssuedDoes.ok {ps : List Part} {s0 : State} {o : Issue} (h : Does ps s0 o.s) : IssuedDoes ps s0 (.ok o) := by
  intro o' e; cases e; exact h

theorem IssuedDoes.error {ps : List Part} {s0 : State} {e : Nat} : IssuedDoes ps s0 (.error e) := by intro _ k; cases k

theorem IssuedDoes.ite {ps : List Part} {s0 : State} {a b : Issued} {c : Prop} [Decidable c] (ha : IssuedDoes ps s0 a) (hb : IssuedDoes ps s0 b) :
    IssuedDoes ps s0 (if c then a else b) := by split <;> assumption

theorem Issue.ite_does {ps : List Part} {s0 : State} {a b : Issue} {c : Prop} [Decidable c] (ha : Does ps s0 a.s) (hb : Does ps s0 b.s) :
    Does ps s0 (if c then a else b).s := by split <;> assumption

end Sys2Proof.Machine
end

