-- ==== Sys2Proof/Laws/DoesOps.lean ====
section
/-!
SUPPORT. Laws/DoesOps.lean: what each operation of Machine/Ops.lean, Machine/Cancel.lean, Machine/Events.lean, Machine/Trajectory.lean, Machine/Render.lean may write, and that it keeps what is sound.
The proofs put the lemmas of the operations called together in the mods in which the operation calls them.
-/
namespace Sys2Proof.Machine

-- One proof at a time: the proofs of this file in parallel ask for more threads than the memory bound holds.
set_option Elab.async false
variable {ps : List Part} {s0 : State}

/-! ### Machine/Ops.lean -/

theorem State.setRing_does {s : State} {r : Nat} {x : Ring} (hw : [.rings] ⊆ ps) (h : Does ps s0 s) :
    Does ps s0 (State.setRing s r x) := by
  unfold State.setRing
  exact Does.upd [.rings] hw h

theorem State.onRing_does {s : State} {r : Nat} {f : Ring → Ring} (hw : [.rings] ⊆ ps) (h : Does ps s0 s) :
    Does ps s0 (State.onRing s r f) := by
  unfold State.onRing
  exact State.setRing_does hw h

theorem State.setPhase_does {s : State} {r : Nat} {index : Nat} {p : Phase} (hw : [.rings] ⊆ ps) (h : Does ps s0 s) :
    Does ps s0 (State.setPhase s r index p) := by
  unfold State.setPhase
  exact State.onRing_does hw h

theorem State.setReg_does {s : State} {off : Nat} {v : Word} (hw : [.regs] ⊆ ps) (h : Does ps s0 s) :
    Does ps s0 (s.setReg off v) :=
  .upd [.regs] hw h (hs := fun hs => ⟨Cells.wf_put hs.1, hs.2⟩)

theorem State.bump_does {s : State} {off : Nat} {n : Nat} (hw : [.regs] ⊆ ps) (h : Does ps s0 s) :
    Does ps s0 (State.bump s off n) := by
  unfold State.bump
  exact State.setReg_does hw h

theorem State.onHost_does {s : State} {f : HostIf → HostIf} (hw : [.host] ⊆ ps) (h : Does ps s0 s) :
    Does ps s0 (State.onHost s f) := by
  unfold State.onHost
  exact Does.upd [.host] hw h

theorem State.emit_does {s : State} {w : HostWrite} (hw : [.host] ⊆ ps) (h : Does ps s0 s) :
    Does ps s0 (State.emit s w) := by
  unfold State.emit
  exact State.onHost_does hw h

theorem State.setFlag_does {s : State} {off : Nat} {n : Nat} {b : Bool} (hw : [.regs] ⊆ ps) (h : Does ps s0 s) :
    Does ps s0 (State.setFlag s off n b) := by
  unfold State.setFlag
  exact State.setReg_does hw h

theorem State.firedFlags_does {s : State} {v : Nat} (hw : [.regs, .host] ⊆ ps) (h : Does ps s0 s) :
    Does ps s0 (State.firedFlags s v) := by
  unfold State.firedFlags
  exact State.onHost_does (sub hw) (State.setFlag_does (sub hw) h)

theorem State.consumerWrite_does {s : State} {r : Nat} (hw : [.host] ⊆ ps) (h : Does ps s0 s) :
    Does ps s0 (State.consumerWrite s r) := by
  unfold State.consumerWrite
  exact State.emit_does hw h

theorem State.sendMsi_does {s : State} {v : Nat} (hw : [.host] ⊆ ps) (h : Does ps s0 s) :
    Does ps s0 (State.sendMsi s v) := by
  unfold State.sendMsi
  exact Does.ite (Does.ite (State.emit_does hw h) (State.onHost_does hw (State.emit_does hw h))) (State.onHost_does hw h)

theorem State.message_does {s : State} {v : Nat} (hw : [.host] ⊆ ps) (h : Does ps s0 s) :
    Does ps s0 (State.message s v) := by
  unfold State.message
  exact Does.ite (Does.ite (State.onHost_does hw h) (Does.ite (State.onHost_does hw h) (State.sendMsi_does hw h))) h

theorem State.writeRing1_does {s : State} {e : List Byte} {ring : Nat} (hw : [.regs, .host, .rings] ⊆ ps) (h : Does ps s0 s) :
    Does ps s0 (State.writeRing1 s e ring) := by
  unfold State.writeRing1
  exact Does.after (Does.ite Does.refl (State.message_does (sub hw) Does.refl)) (State.firedFlags_does (sub hw) (State.consumerWrite_does (sub hw) (State.setRing_does (sub hw) (State.emit_does (sub hw) h))))

theorem State.toRing1Entry_does {s : State} {e : List Byte} {ring : Nat} (hw : [.regs, .host, .rings] ⊆ ps) (h : Does ps s0 s) :
    Does ps s0 (State.toRing1Entry s e ring) := by
  unfold State.toRing1Entry
  exact Does.ite (State.onHost_does (sub hw) h) (State.writeRing1_does hw h)

theorem State.fireRing_does {s : State} {src : Nat} {ring : Nat} (hw : [.regs, .host] ⊆ ps) (h : Does ps s0 s) :
    Does ps s0 (State.fireRing s src ring) := by
  unfold State.fireRing
  exact Does.ite (State.firedFlags_does hw h) (State.message_does (sub hw) (State.firedFlags_does hw h))

theorem State.writeCompletion_does {s : State} {r : Nat} {d : Desc} (hw : [.regs, .host, .rings, .link] ⊆ ps) (h : Does ps s0 s) :
    Does ps s0 (State.writeCompletion s r d) := by
  unfold State.writeCompletion
  split
  · extract_lets x stamp s1 s2
    have k : Does ps s0 s2 :=
      Does.ite (State.bump_does (sub hw) (State.onRing_does (sub hw) h)) (State.onRing_does (sub hw) h)
    clear_value s2
    refine Does.ite (Does.upd [.link] (sub hw) k) (Does.ite (State.toRing1Entry_does (sub hw) k) ?_)
    refine State.fireRing_does (sub hw) (State.consumerWrite_does (sub hw) (State.onRing_does (sub hw) (State.emit_does (sub hw) ?_)))
    rename_i res _ _ _ _ _ _
    cases res with
    | some w => exact State.emit_does (sub hw) k
    | none => exact k
  · exact h

theorem State.retireGo_does {r : Nat} {kept ds : List Desc} {s : State} (hw : [.regs, .host, .rings, .link] ⊆ ps)
    (h : Does ps s0 s) : Does ps s0 (State.retireGo r kept ds s) := by
  induction ds generalizing kept s with
  | nil => exact State.onRing_does (sub hw) h
  | cons d ds ih => exact Does.ite (ih (State.writeCompletion_does hw h)) (ih h)

theorem State.standbyEnds_does {s : State} (hw : [.regs, .host, .rings, .mgt, .macs, .pwr, .link] ⊆ ps) (h : Does ps s0 s) :
    Does ps s0 (State.standbyEnds s) := by
  unfold State.standbyEnds
  exact (by
  (try extract_lets); split
  · exact h
  · exact Does.ite (State.retireGo_does (sub hw) (State.setPhase_does (sub hw) (Does.upd [.mgt, .macs, .pwr] (sub hw) h))) h)

theorem State.lateAbortsGo_does {l : List (Nat × Nat × Nat × Nat)} {s : State} (hw : [.regs, .host, .rings] ⊆ ps)
    (h : Does ps s0 s) : Does ps s0 (State.lateAbortsGo l s) := by
  induction l generalizing s with
  | nil => exact h
  | cons a l ih =>
    exact Does.ite (ih (State.onHost_does (sub hw) h))
      (ih (State.setPhase_does (sub hw) (Does.ite (State.bump_does (sub hw) h) h)))

theorem State.retireAll_does {s : State} {r : Nat} (hw : [.regs, .host, .rings, .link] ⊆ ps) (h : Does ps s0 s) :
    Does ps s0 (State.retireAll s r) := by
  unfold State.retireAll
  exact Does.ite (State.retireGo_does hw h) (State.retireGo_does hw (State.lateAbortsGo_does (sub hw) (State.onHost_does (sub hw) (State.retireGo_does hw h))))

theorem State.retire_does {s : State} {r : Nat} (hw : [.regs, .host, .rings, .mgt, .macs, .pwr, .link] ⊆ ps) (h : Does ps s0 s) :
    Does ps s0 (State.retire s r) := by
  unfold State.retire
  exact State.standbyEnds_does hw (State.retireAll_does (sub hw) h)

theorem State.onAudit_does {s : State} {f : Audit → Audit} (hw : [.audit] ⊆ ps) (h : Does ps s0 s) :
    Does ps s0 (State.onAudit s f) := by
  unfold State.onAudit
  exact Does.upd [.audit] hw h

theorem State.auditRelease_does {s : State} {n : Nat} (hw : [.audit] ⊆ ps) (h : Does ps s0 s) :
    Does ps s0 (State.auditRelease s n) := by
  unfold State.auditRelease
  exact State.onAudit_does hw h

theorem State.onMgt_does {s : State} {f : Mgt → Mgt} (hw : [.mgt] ⊆ ps) (h : Does ps s0 s)
    (hf : ∀ m, m.modState ≤ 5 → (f m).modState ≤ 5 := by
      intro m hm; (repeat' split) <;> first | exact hm | exact Nat.le_of_ble_eq_true rfl) :
    Does ps s0 (s.onMgt f) :=
  .upd [.mgt] hw h (hs := fun hs => ⟨hs.1, hs.2.1, hs.2.2.1, hs.2.2.2.1, hf _ hs.2.2.2.2.1, hs.2.2.2.2.2⟩)

theorem State.fresh_does {s : State} {bound : Nat} (hw : [.free] ⊆ ps) (h : Does ps s0 s) :
    Does ps s0 (State.fresh s bound).2 := by
  unfold State.fresh
  (try dsimp only); exact Does.upd [.free] hw h

theorem State.writeD2h_does {s : State} {r : Nat} {e : D2h} (hw : [.host, .rings] ⊆ ps) (h : Does ps s0 s) :
    Does ps s0 (State.writeD2h s r e) := by
  unfold State.writeD2h
  exact State.consumerWrite_does (sub hw) (State.setRing_does (sub hw) (State.emit_does (sub hw) (Does.ite h (State.emit_does (sub hw) h))))

theorem State.writeOrDrop_does {s : State} {r : Nat} {lostCounter : Nat} {e : D2h} (hw : [.regs, .host, .rings] ⊆ ps) (h : Does ps s0 s) :
    Does ps s0 (State.writeOrDrop s r lostCounter e) := by
  unfold State.writeOrDrop
  exact Does.ite (State.bump_does (sub hw) (State.onRing_does (sub hw) h)) (State.writeD2h_does (sub hw) h)

theorem State.fireAt_does {s : State} {v : Nat} {w1 : Word} {w2 : Word} {w3 : Word} {time : Nat} (hw : [.regs, .host, .rings] ⊆ ps) (h : Does ps s0 s) :
    Does ps s0 (State.fireAt s v w1 w2 w3 time) := by
  unfold State.fireAt
  exact State.message_does (sub hw) (State.writeOrDrop_does hw (State.onHost_does (sub hw) (State.firedFlags_does (sub hw) h)))

theorem State.fire_does {s : State} {v : Nat} {w1 : Word} {w2 : Word} {w3 : Word} (hw : [.regs, .host, .rings] ⊆ ps) (h : Does ps s0 s) :
    Does ps s0 (State.fire s v w1 w2 w3) := by
  unfold State.fire
  exact State.fireAt_does hw h

theorem State.fireOpen_does {s : State} {v : Nat} (hw : [.free, .regs, .host, .rings] ⊆ ps) (h : Does ps s0 s) :
    Does ps s0 (State.fireOpen s v) := by
  unfold State.fireOpen
  exact (by
  (try extract_lets); split
  · rename_i e; have h1 := Does.of_snd e (State.fresh_does (sub hw) h); exact (by
   (try extract_lets); split
   · rename_i e; have h2 := Does.of_snd e (State.fresh_does (sub hw) h1); exact (by
    (try extract_lets); split
    · rename_i e; have h3 := Does.of_snd e (State.fresh_does (sub hw) h2); exact State.fire_does (sub hw) h3)))

theorem State.drainSnapsGo_does {l : List Snap} {s : State} (hw : [.regs, .host, .rings, .sta] ⊆ ps) (h : Does ps s0 s) :
    Does ps s0 (State.drainSnapsGo l s) := by
  induction l generalizing s with
  | nil => exact Does.upd [.sta] (sub hw) h
  | cons a l ih =>
    exact Does.ite (Does.upd [.sta] (sub hw) h)
      (ih (State.bump_does (sub hw) (State.fireRing_does (sub hw) (State.writeD2h_does (sub hw) h))))

theorem State.drainTraceGo_does {l : List TraceRec} {s : State} (hw : [.regs, .host, .rings, .wick] ⊆ ps) (h : Does ps s0 s) :
    Does ps s0 (State.drainTraceGo l s) := by
  induction l generalizing s with
  | nil => exact Does.upd [.wick] (sub hw) h
  | cons a l ih =>
    exact Does.ite (Does.upd [.wick] (sub hw) h) (ih (State.fireRing_does (sub hw) (State.writeD2h_does (sub hw) h)))

theorem State.drainGo_does {r : Nat} {l : List D2h} {s : State} (hw : [.regs, .host, .rings] ⊆ ps) (h : Does ps s0 s) :
    Does ps s0 (State.drainGo r l s) := by
  induction l generalizing s with
  | nil => exact State.onRing_does (sub hw) h
  | cons a l ih =>
    exact Does.ite (State.onRing_does (sub hw) h) (ih (State.fireRing_does (sub hw) (State.writeD2h_does (sub hw) h)))

theorem State.drain_does {s : State} {r : Nat} (hw : [.regs, .host, .rings, .wick, .sta] ⊆ ps) (h : Does ps s0 s) :
    Does ps s0 (State.drain s r) := by
  unfold State.drain
  exact Does.ite (State.drainSnapsGo_does (sub hw) h) (Does.ite (State.drainTraceGo_does (sub hw) h) (State.drainGo_does (sub hw) h))

theorem State.auditCross_does {s : State} {before : Nat} (hw : [.regs, .host, .rings] ⊆ ps) (h : Does ps s0 s) :
    Does ps s0 (State.auditCross s before) := by
  unfold State.auditCross
  exact Does.after (Does.ite (State.fire_does hw Does.refl) Does.refl) (Does.ite (State.fire_does hw (State.setFlag_does (sub hw) h)) h)

theorem State.auditReserve_does {s : State} {n : Nat} (hw : [.regs, .host, .rings, .audit] ⊆ ps) (h : Does ps s0 s) :
    Does ps s0 (State.auditReserve s n) := by
  unfold State.auditReserve
  exact State.auditCross_does (sub hw) (State.onAudit_does (sub hw) h)

theorem State.finishAt_does {s : State} {r : Nat} {index : Nat} {status : Nat} {flags : Nat} {time : Nat} {result : Option Word} (hw : [.regs, .host, .rings, .mgt, .macs, .pwr, .link] ⊆ ps) (h : Does ps s0 s) :
    Does ps s0 (State.finishAt s r index status flags time result) := by
  unfold State.finishAt
  exact State.retire_does hw (State.setPhase_does (sub hw) h)

theorem State.finish_does {s : State} {r : Nat} {index : Nat} {status : Nat} (hw : [.regs, .host, .rings, .mgt, .macs, .pwr, .link] ⊆ ps) (h : Does ps s0 s) :
    Does ps s0 (State.finish s r index status) := by
  unfold State.finish
  exact State.finishAt_does hw h

theorem State.journalWrite_does {s : State} {j : Journal} (hw : [.pwr] ⊆ ps) (h : Does ps s0 s) :
    Does ps s0 (State.journalWrite s j) := by
  unfold State.journalWrite
  exact Does.upd [.pwr] hw h

theorem State.enqueue_does {s : State} {r : Nat} {e : D2h} (hw : [.regs, .host, .rings, .wick, .sta] ⊆ ps) (h : Does ps s0 s) :
    Does ps s0 (State.enqueue s r e) := by
  unfold State.enqueue
  exact State.drain_does hw (State.onRing_does (sub hw) h)

theorem State.chainEntry_does {s : State} {time : Nat} {origin : Nat} {originId : Nat} {kind : Nat} {flags : Nat} {target : Word} {old : Word} {new : Word} (hw : [.regs, .host, .rings, .audit, .wick, .pwr, .sta] ⊆ ps) (h : Does ps s0 s) :
    Does ps s0 (State.chainEntry s time origin originId kind flags target old new) := by
  unfold State.chainEntry
  exact State.enqueue_does (sub hw) (Does.ite (State.journalWrite_does (sub hw) (State.onAudit_does (sub hw) h)) (State.onAudit_does (sub hw) h))

theorem State.ring2Entry_does {s : State} {code : Nat} {bits : Nat} {w1 : Word} {w2 : Word} {time : Nat} (hw : [.regs, .host, .rings] ⊆ ps) (h : Does ps s0 s) :
    Does ps s0 (State.ring2Entry s code bits w1 w2 time) := by
  unfold State.ring2Entry
  exact Does.ite (State.writeOrDrop_does hw h) (State.fireRing_does (sub hw) (State.writeOrDrop_does hw h))

theorem State.auditNow_does {s : State} {origin : Nat} {originId : Nat} {kind : Nat} {flags : Nat} {target : Word} {old : Word} {new : Word} (hw : [.regs, .host, .rings, .audit, .wick, .pwr, .sta] ⊆ ps) (h : Does ps s0 s) :
    Does ps s0 (State.auditNow s origin originId kind flags target old new) := by
  unfold State.auditNow
  exact State.chainEntry_does hw (State.auditRelease_does (sub hw) (State.auditReserve_does (sub hw) h))

theorem State.auditLate_does {s : State} {origin : Nat} {kind : Nat} {flags : Nat} {target : Word} {old : Word} {new : Word} (hw : [.regs, .host, .rings, .audit, .wick, .pwr, .sta] ⊆ ps) (h : Does ps s0 s) :
    Does ps s0 (State.auditLate s origin kind flags target old new) := by
  unfold State.auditLate
  exact Does.ite (State.auditNow_does hw h) (State.onAudit_does (sub hw) h)

theorem State.auditSnuffer_does {s : State} {kind : Nat} {target : Word} (hw : [.regs, .host, .rings, .audit, .wick, .pwr, .sta] ⊆ ps) (h : Does ps s0 s) :
    Does ps s0 (State.auditSnuffer s kind target) := by
  unfold State.auditSnuffer
  exact Does.ite (State.auditNow_does hw h) (Does.ite (State.chainEntry_does hw h) (State.bump_does (sub hw) h))

theorem State.auditWrite_does {s : State} {origin : Nat} {kind : Nat} {flags : Nat} {target : Word} {old : Word} {new : Word} (hw : [.regs, .host, .rings, .audit, .wick, .pwr, .sta] ⊆ ps) (h : Does ps s0 s) :
    Does ps s0 (State.auditWrite s origin kind flags target old new) := by
  unfold State.auditWrite
  exact State.chainEntry_does hw (State.auditRelease_does (sub hw) h)

theorem State.auditWriteBy_does {s : State} {origin : Nat} {oid : Nat} {kind : Nat} {flags : Nat} {target : Word} {old : Word} {new : Word} (hw : [.regs, .host, .rings, .audit, .wick, .pwr, .sta] ⊆ ps) (h : Does ps s0 s) :
    Does ps s0 (State.auditWriteBy s origin oid kind flags target old new) := by
  unfold State.auditWriteBy
  exact State.chainEntry_does hw (State.auditRelease_does (sub hw) h)

theorem State.elapse_does {s : State} {dt : Nat} (hw : [.clock] ⊆ ps) (h : Does ps s0 s) :
    Does ps s0 (State.elapse s dt) := by
  unfold State.elapse
  exact Does.upd [.clock] hw h

theorem State.setFld_does {s : State} {off : Nat} {hi : Nat} {lo : Nat} {v : Nat} (hw : [.regs] ⊆ ps) (h : Does ps s0 s) :
    Does ps s0 (State.setFld s off hi lo v) := by
  unfold State.setFld
  exact State.setReg_does hw h

theorem State.setReg64_does {s : State} {off : Nat} {v : Nat} (hw : [.regs] ⊆ ps) (h : Does ps s0 s) :
    Does ps s0 (State.setReg64 s off v) := by
  unfold State.setReg64
  exact State.setReg_does hw (State.setReg_does hw h)

theorem State.pulseWrite_does {s : State} {o : Origin} {off : Nat} {old : Word} {new : Word} {act : State → State}
    (hw : [.regs, .host, .rings, .audit, .wick, .pwr, .sta] ⊆ ps) (h : Does ps s0 s)
    (ha : ∀ t, Does ps s0 t → Does ps s0 (act t)) : Does ps s0 (State.pulseWrite s o off old new act) := by
  unfold State.pulseWrite
  exact Does.ite (ha _ (State.auditNow_does hw h)) (State.bump_does (sub hw) h)

theorem State.freshBytes_does {s : State} {n : Nat} (hw : [.free] ⊆ ps) (h : Does ps s0 s) :
    Does ps s0 (State.freshBytes s n).2 := by
  unfold State.freshBytes
  (try dsimp only); exact Does.upd [.free] hw h

theorem State.stall_does {s : State} {r : Nat} {c : Instr} (hw : [.regs, .rings, .audit] ⊆ ps) (h : Does ps s0 s) :
    Does ps s0 (State.stall s r c) := by
  unfold State.stall
  exact State.onAudit_does (sub hw) (Does.ite h (State.bump_does (sub hw) (State.onRing_does (sub hw) h)))

/-! ### Machine/Cancel.lean -/

theorem State.eachRing_does {f : Nat → State → State} {s : State} (h : Does ps s0 s)
    (hf : ∀ r t, Does ps s0 t → Does ps s0 (f r t)) : Does ps s0 (State.eachRing f s) :=
  Does.foldl h fun _ _ k => hf _ _ k

theorem State.unstall_does {s : State} {ring : Nat} {index : Nat} (hw : [.rings, .audit] ⊆ ps) (h : Does ps s0 s) :
    Does ps s0 (State.unstall s ring index) := by
  unfold State.unstall
  exact Does.ite (State.onAudit_does (sub hw) (State.onRing_does (sub hw) h)) h

theorem State.cancelStreams_does {s : State} {index : Nat} (hw : [.audit, .streams] ⊆ ps) (h : Does ps s0 s) :
    Does ps s0 (State.cancelStreams s index) := by
  unfold State.cancelStreams
  exact Does.foldl h fun _ _ h1 => (by
  (try extract_lets); split
  · exact h1
  · exact State.auditRelease_does (sub hw) (Does.upd [.streams] (sub hw) h1))

theorem State.cancelTiles_does {s : State} {index : Nat} (hw : [.regs, .audit, .tiles] ⊆ ps) (h : Does ps s0 s) :
    Does ps s0 (State.cancelTiles s index) := by
  unfold State.cancelTiles
  exact Does.foldl h fun _ _ h1 => Does.ite (State.auditRelease_does (sub hw) (Does.upd [.tiles] (sub hw) h1)) (Does.ite (State.auditRelease_does (sub hw) (State.setFlag_does (sub hw) (Does.upd [.tiles] (sub hw) h1))) h1)

theorem State.releaseIf_does {s : State} {b : Bool} (hw : [.audit] ⊆ ps) (h : Does ps s0 s) :
    Does ps s0 (State.releaseIf s b) := by
  unfold State.releaseIf
  exact Does.ite (State.auditRelease_does hw h) h

theorem State.cancelActions_does {s : State} {index : Nat} (hw : [.audit, .mgt, .link] ⊆ ps) (h : Does ps s0 s) :
    Does ps s0 (State.cancelActions s index) := by
  unfold State.cancelActions
  exact Does.updOf [.link] (sub hw) (State.onMgt_does (sub hw) (State.releaseIf_does (sub hw) (State.releaseIf_does (sub hw) (State.releaseIf_does (sub hw) h))))

theorem State.cancelAudio_does {s : State} {ring : Nat} {index : Nat} (hw : [.audit, .rnd, .cnv, .mix] ⊆ ps) (h : Does ps s0 s) :
    Does ps s0 (State.cancelAudio s ring index) := by
  unfold State.cancelAudio
  exact Does.updOf [.rnd, .cnv, .mix] (sub hw) (State.releaseIf_does (sub hw) h)

theorem State.endCalls_does {s : State} {c : VoxChan} {ops : List VoxOp} (hw : [.rings, .audit] ⊆ ps) (h : Does ps s0 s) :
    Does ps s0 (State.endCalls s c ops) := by
  unfold State.endCalls
  exact Does.foldl (Does.foldl (Does.foldl h fun _ _ h1 => State.setPhase_does (sub hw) (State.auditRelease_does (sub hw) h1)) fun _ _ h2 => State.setPhase_does (sub hw) h2) fun _ _ h3 => State.setPhase_does (sub hw) h3

theorem State.cancelChan_does {s : State} {v : Nat} {c : VoxChan} {index : Nat} (hw : [.rings, .audit, .vox] ⊆ ps) (h : Does ps s0 s) :
    Does ps s0 (State.cancelChan s v c index) := by
  unfold State.cancelChan
  exact (by
  (try extract_lets); split
  · exact Does.ite (State.endCalls_does (sub hw) (Does.updOf [.vox] (sub hw) (State.auditRelease_does (sub hw) h))) (Does.updOf [.vox] (sub hw) (State.auditRelease_does (sub hw) h))
  · exact Does.upd [.vox] (sub hw) h)

theorem State.cancelVoice_does {s : State} {ring : Nat} {index : Nat} (hw : [.rings, .audit, .vox] ⊆ ps) (h : Does ps s0 s) :
    Does ps s0 (State.cancelVoice s ring index) := by
  unfold State.cancelVoice
  exact Does.foldl h fun _ _ h1 => Does.ite (State.cancelChan_does hw h1) h1

theorem State.cancelTx_does {s : State} {ring : Nat} {index : Nat} (hw : [.macs] ⊆ ps) (h : Does ps s0 s) :
    Does ps s0 (State.cancelTx s ring index) := by
  unfold State.cancelTx
  exact Does.upd [.macs] hw h

theorem State.cancelPost_does {s : State} {ring : Nat} {index : Nat} (hw : [.wick] ⊆ ps) (h : Does ps s0 s) :
    Does ps s0 (State.cancelPost s ring index) := by
  unfold State.cancelPost
  exact Does.upd [.wick] hw h

theorem State.cancel_does {s : State} {ring : Nat} {index : Nat} (hw : [.regs, .rings, .audit, .mgt, .rnd, .cnv, .mix, .tiles, .macs, .streams, .vox, .wick, .link] ⊆ ps) (h : Does ps s0 s) :
    Does ps s0 (State.cancel s ring index) := by
  unfold State.cancel
  exact Does.ite (State.cancelStreams_does (sub hw) (State.cancelTiles_does (sub hw) (State.cancelActions_does (sub hw) (State.unstall_does (sub hw) h)))) (Does.ite (State.cancelAudio_does (sub hw) (State.unstall_does (sub hw) h)) (Does.ite (State.cancelVoice_does (sub hw) (State.unstall_does (sub hw) h)) (Does.ite (State.cancelTx_does (sub hw) (State.unstall_does (sub hw) h)) (Does.ite (State.cancelPost_does (sub hw) (State.unstall_does (sub hw) h)) (State.unstall_does (sub hw) h)))))

theorem State.withdraw_does {s : State} {ring : Nat} {index : Nat} (hw : [.regs, .rings, .audit, .mgt, .rnd, .cnv, .mix, .tiles, .macs, .streams, .vox, .wick, .link] ⊆ ps) (h : Does ps s0 s) :
    Does ps s0 (State.withdraw s ring index) := by
  unfold State.withdraw
  exact State.setPhase_does (sub hw) (State.cancel_does hw h)

theorem State.withdrawGo_does {ring : Nat} {l : List Desc} {s : State}
    (hw : [.regs, .rings, .audit, .mgt, .rnd, .cnv, .mix, .tiles, .macs, .streams, .vox, .wick, .link] ⊆ ps) (h : Does ps s0 s) :
    Does ps s0 (State.withdrawGo ring l s) := by
  induction l generalizing s with
  | nil => exact h
  | cons d l ih => exact ih (Does.ite (State.withdraw_does hw h) h)

theorem State.stopRing_does {s : State} {r : Nat} {cause : Nat} (hw : [.regs, .host, .rings, .audit, .mgt, .rnd, .cnv, .mix, .tiles, .macs, .streams, .vox, .wick, .pwr, .link] ⊆ ps) (h : Does ps s0 s) :
    Does ps s0 (State.stopRing s r cause) := by
  unfold State.stopRing
  exact State.retire_does (sub hw) (State.withdrawGo_does (sub hw) (State.onRing_does (sub hw) h))

/-! ### Machine/Events.lean -/

theorem State.badBlock_does {s : State} {plane : Nat} (hw : [.regs] ⊆ ps) (h : Does ps s0 s) :
    Does ps s0 (State.badBlock s plane) := by
  unfold State.badBlock
  exact State.bump_does hw h

theorem State.noteEvent_does {s : State} {src : Nat} {w1 : Nat} {w2 : Nat} {w3 : Nat} (hw : [.evs] ⊆ ps) (h : Does ps s0 s) :
    Does ps s0 (State.noteEvent s src w1 w2 w3) := by
  unfold State.noteEvent
  exact Does.upd [.evs] hw h

theorem State.sealFailure_does {s : State} {stream : Nat} {channel : Nat} {seq : Nat} {plane : Nat} (hw : [.regs, .evs] ⊆ ps) (h : Does ps s0 s) :
    Does ps s0 (State.sealFailure s stream channel seq plane) := by
  unfold State.sealFailure
  exact State.noteEvent_does (sub hw) (State.badBlock_does (sub hw) (State.bump_does (sub hw) h))

theorem State.note53_does {s : State} {bits : Nat} {late : Nat} {shed : Nat} (hw : [.ev53] ⊆ ps) (h : Does ps s0 s) :
    Does ps s0 (State.note53 s bits late shed) := by
  unfold State.note53
  exact Does.upd [.ev53] hw h

theorem State.flushEvent_does {s : State} {src : Nat} (hw : [.regs, .host, .rings] ⊆ ps) (h : Does ps s0 s) :
    Does ps s0 (State.flushEvent s src) := by
  unfold State.flushEvent
  exact (by
  (try extract_lets); split
  · exact h
  · exact State.fireAt_does hw h)

theorem State.flushEvents_does {s : State} (hw : [.regs, .host, .rings, .evs, .ev53] ⊆ ps) (h : Does ps s0 s) :
    Does ps s0 (State.flushEvents s) := by
  unfold State.flushEvents
  exact (by
  (try extract_lets); split
  · exact Does.updOf [.evs] (sub hw) (Does.foldl h fun _ _ h1 => State.flushEvent_does (sub hw) h1)
  · exact State.fireAt_does (sub hw) (Does.updOf [.ev53] (sub hw) (Does.updOf [.evs] (sub hw) (Does.foldl h fun _ _ h1 => State.flushEvent_does (sub hw) h1))))

/-! ### Machine/Trajectory.lean -/

theorem State.onRnd_does {s : State} {f : Render → Render} (hw : [.rnd] ⊆ ps) (h : Does ps s0 s) :
    Does ps s0 (State.onRnd s f) := by
  unfold State.onRnd
  exact Does.upd [.rnd] hw h

theorem State.setRun_does {s : State} {o : Nat} {r : ObjRun} (hw : [.rnd] ⊆ ps) (h : Does ps s0 s) :
    Does ps s0 (State.setRun s o r) := by
  unfold State.setRun
  exact State.onRnd_does hw h

theorem State.latchRec_does {s : State} {es ee : Nat} {m : MetaRec} (hw : [.regs, .rnd] ⊆ ps) (h : Does ps s0 s) :
    Does ps s0 (State.latchRec s es ee m).2 := by
  unfold State.latchRec
  refine Does.ite_snd (State.bump_does (sub hw) h) (Does.ite_snd (State.bump_does (sub hw) h) (Does.ite_snd h ?_))
  generalize applyMeta es ee m (s.runOf m.obj) = q
  obtain ⟨st, late, run⟩ := q
  have k : Does ps s0 (if late then s.bump 0x80100 1 else s) := Does.ite (State.bump_does (sub hw) h) h
  exact Does.ite_snd (State.setRun_does (sub hw) k) (State.setRun_does (sub hw) (State.bump_does (sub hw) k))

theorem State.latchRecs_does {es ee n st : Nat} {l : List MetaRec} {s : State} (hw : [.regs, .rnd] ⊆ ps) (h : Does ps s0 s) :
    Does ps s0 (State.latchRecs es ee n st l s).2.2.2 := by
  induction l generalizing n st s with
  | nil => cases n <;> exact h
  | cons m l ih =>
    cases n with
    | zero => exact h
    | succ n =>
      unfold State.latchRecs
      exact ih (State.latchRec_does hw h)

theorem State.latchGo_does {es ee n : Nat} {l : List MetaDesc} {s : State} (hw : [.regs, .host, .rings, .mgt, .rnd, .macs, .pwr, .link] ⊆ ps) (h : Does ps s0 s) :
    Does ps s0 (State.latchGo es ee n l s).2 := by
  induction l generalizing n s with
  | nil => exact h
  | cons d l ih =>
    unfold State.latchGo
    refine Does.ite_snd (ih h) ?_
    have k : Does ps s0 (State.latchRecs es ee n d.status d.recs s).2.2.2 := State.latchRecs_does (sub hw) h
    exact Does.ite_snd (ih (State.finish_does (sub hw) k)) (ih k)

theorem State.latch_does {s : State} {es : Nat} {ee : Nat} (hw : [.regs, .host, .rings, .mgt, .rnd, .macs, .pwr, .link] ⊆ ps) (h : Does ps s0 s) :
    Does ps s0 (State.latch s es ee) := by
  unfold State.latch
  exact (by
  (try extract_lets); split
  · rename_i e; have h2 := Does.of_snd e (State.latchGo_does hw (State.onRnd_does (sub hw) h)); exact State.onRnd_does (sub hw) h2)

theorem State.queueMeta_does {s : State} {ring : Nat} {index : Nat} {recs : List MetaRec} (hw : [.rings, .rnd] ⊆ ps) (h : Does ps s0 s) :
    Does ps s0 (State.queueMeta s ring index recs) := by
  unfold State.queueMeta
  exact State.onRnd_does (sub hw) (State.setPhase_does (sub hw) h)

theorem execObjBatch_does {ring : Nat} {data : Option (List Byte)} {s : State} (hw : [.regs, .host, .rings, .mgt, .rnd, .macs, .pwr, .link] ⊆ ps) (h : Does ps s0 s) :
    DoesR ps s0 (execObjBatch ring data s) := by
  unfold execObjBatch
  exact (by
  (try extract_lets); split
  · exact DoesR.next h
  · exact DoesR.ite (DoesR.next (State.finish_does (sub hw) (State.bump_does (sub hw) h))) (DoesR.ite (DoesR.next (State.finish_does (sub hw) h)) ((by
   (try extract_lets); split
   · exact DoesR.next (State.finish_does (sub hw) h)
   · exact DoesR.next (State.queueMeta_does (sub hw) h)))))

theorem execObjPos_does {ring : Nat} {s : State} (hw : [.regs, .host, .rings, .mgt, .rnd, .macs, .pwr, .link] ⊆ ps) (h : Does ps s0 s) :
    DoesR ps s0 (execObjPos ring s) := by
  unfold execObjPos
  exact (by
  (try extract_lets); split
  · exact DoesR.next h
  · exact DoesR.ite (DoesR.next (State.finish_does (sub hw) h)) (DoesR.ite (DoesR.next (State.finish_does (sub hw) (State.bump_does (sub hw) h))) (DoesR.next (State.queueMeta_does (sub hw) h))))

/-! ### Machine/Render.lean -/

theorem State.capUpdate_does {s : State} (hw : [.rnd] ⊆ ps) (h : Does ps s0 s) :
    Does ps s0 (State.capUpdate s) := by
  unfold State.capUpdate
  exact State.onRnd_does hw h

theorem State.countPlan_does {s : State} {pl : Plan} {sats : Nat} {late : Nat} {accSat : List Nat} {shed : Nat} (hw : [.regs, .evs, .ev53] ⊆ ps) (h : Does ps s0 s) :
    Does ps s0 (State.countPlan s pl sats late accSat shed) := by
  unfold State.countPlan
  exact Does.after (Does.ite (State.note53_does (sub hw) Does.refl) Does.refl) (Does.foldl (State.bump_does (sub hw) (State.bump_does (sub hw) (State.bump_does (sub hw) (State.bump_does (sub hw) (State.bump_does (sub hw) (State.bump_does (sub hw) (State.bump_does (sub hw) (State.bump_does (sub hw) h)))))))) fun _ _ h1 => State.noteEvent_does (sub hw) h1)

theorem State.renderStage_does {s : State} {i : RenderIn} (hw : [.regs, .rnd, .mix, .evs, .ev53] ⊆ ps) (h : Does ps s0 s) :
    Does ps s0 (State.renderStage s i) := by
  unfold State.renderStage
  exact (by
  (try extract_lets); split
  · exact (by
   (try extract_lets); split
   · exact (by
    (try extract_lets); split
    · exact (by
     (try extract_lets); split
     · exact Does.after (Does.ite Does.refl (State.note53_does (sub hw) Does.refl)) (State.countPlan_does (sub hw) (State.onRnd_does (sub hw) (Does.updOf [.mix] (sub hw) (State.onRnd_does (sub hw) h))))
     · exact Does.ite (State.onRnd_does (sub hw) (Does.updOf [.mix] (sub hw) (State.onRnd_does (sub hw) h))) ((by
      (try extract_lets); split
      · exact Does.after (Does.ite Does.refl (State.note53_does (sub hw) Does.refl)) (State.countPlan_does (sub hw) (State.onRnd_does (sub hw) (Does.updOf [.mix] (sub hw) (State.onRnd_does (sub hw) h))))))))))

end Sys2Proof.Machine
end

