-- ==== Sys2Proof/Laws/DoesRings.lean ====
section
/-!
SUPPORT. Laws/DoesRings.lean: what each operation of Machine/Conv.lean, Machine/Pset.lean, Machine/Swap.lean, Machine/Feeders.lean, Machine/Queue.lean, Machine/Dram.lean, Machine/Memory.lean may write, and that it keeps what is sound.
The proofs put the lemmas of the operations called together in the mods in which the operation calls them.
-/
namespace Sys2Proof.Machine

-- One proof at a time: the proofs of this file in parallel ask for more threads than the memory bound holds.
set_option Elab.async false
variable {ps : List Part} {s0 : State}

/-! ### Machine/Conv.lean -/

theorem State.onCnv_does {s : State} {f : Conv → Conv} (hw : [.cnv] ⊆ ps) (h : Does ps s0 s) :
    Does ps s0 (State.onCnv s f) := by
  unfold State.onCnv
  exact Does.upd [.cnv] hw h

theorem State.setConvOut_does {s : State} {o : Nat} {x : ConvOut} (hw : [.cnv] ⊆ ps) (h : Does ps s0 s) :
    Does ps s0 (State.setConvOut s o x) := by
  unfold State.setConvOut
  exact State.onCnv_does hw h

theorem State.convFault_does {s : State} {f : FrameFault} (hw : [.cnv] ⊆ ps) (h : Does ps s0 s) :
    Does ps s0 (State.convFault s f) := by
  unfold State.convFault
  exact (by
  (try extract_lets); split
  · exact State.setConvOut_does hw h
  · exact State.setConvOut_does hw h
  · exact h)

theorem State.shedSeg_does {s : State} {p : Nat × Nat} (hw : [.cnv] ⊆ ps) (h : Does ps s0 s) :
    Does ps s0 (State.shedSeg s p) := by
  unfold State.shedSeg
  exact State.setConvOut_does hw h

theorem State.shedMore_does {s : State} (hw : [.regs, .cnv] ⊆ ps) (h : Does ps s0 s) :
    Does ps s0 (State.shedMore s) := by
  unfold State.shedMore
  exact Does.ite (State.onCnv_does (sub hw) (State.bump_does (sub hw) (Does.foldl h fun _ _ h1 => State.shedSeg_does (sub hw) h1))) h

theorem State.convEnd_does {s : State} {m : Nat} {faults : List FrameFault} {lastPct : Nat} (hw : [.free, .regs, .host, .rings, .cnv] ⊆ ps) (h : Does ps s0 s) :
    Does ps s0 (State.convEnd s m faults lastPct) := by
  unfold State.convEnd
  exact Does.after (Does.ite (State.onCnv_does (sub hw) Does.refl) Does.refl) (Does.after (Does.ite (State.onCnv_does (sub hw) (State.shedMore_does (sub hw) (State.fireOpen_does (sub hw) (State.setFlag_does (sub hw) Does.refl)))) (Does.ite (State.onCnv_does (sub hw) Does.refl) (State.onCnv_does (sub hw) Does.refl))) (State.setFld_does (sub hw) (State.setFld_does (sub hw) (Does.foldl h fun _ _ h1 => State.convFault_does (sub hw) h1))))

theorem State.convOne_does {s : State} {o : Nat} {faults : List FrameFault} {swapJ : Option Nat} {b : Block} (hw : [.regs, .cnv] ⊆ ps)
    (h : Does ps s0 s) : Does ps s0 (State.convOne s o faults swapJ b).2 := by
  unfold State.convOne
  extract_lets miss good
  generalize (s.convOut o).block s.rateClass s.convBlockNo o miss swapJ b.samples good = q
  obtain ⟨ys, a, n, x⟩ := q
  have k : Does ps s0 (s.setConvOut o x) := State.setConvOut_does (sub hw) h
  have k1 : Does ps s0 (if a then (s.setConvOut o x).bump 0x90108 1 else s.setConvOut o x) := Does.ite (State.bump_does (sub hw) k) k
  have k2 := State.bump_does (off := 0x9010C) (n := n) (sub hw) k1
  exact Does.ite k2 (State.bump_does (sub hw) k2)

theorem State.fltRefuse_does {s : State} {ring : Nat} {index : Nat} {status : Nat} (hw : [.regs, .host, .rings, .mgt, .macs, .pwr, .link] ⊆ ps) (h : Does ps s0 s) :
    Does ps s0 (State.fltRefuse s ring index status) := by
  unfold State.fltRefuse
  exact State.finish_does hw (State.bump_does (sub hw) h)

theorem State.fltApply_does {s : State} {l : FltLoad} (hw : [.regs, .host, .rings, .mgt, .cnv, .macs, .pwr, .link] ⊆ ps) (h : Does ps s0 s) :
    Does ps s0 (State.fltApply s l) := by
  unfold State.fltApply
  exact Does.ite (State.fltRefuse_does (sub hw) h) (State.finish_does (sub hw) (State.setConvOut_does (sub hw) h))

theorem State.fltAccept_does {s : State} {l : FltLoad} (hw : [.regs, .host, .rings, .mgt, .cnv, .macs, .pwr, .link] ⊆ ps) (h : Does ps s0 s) :
    Does ps s0 (State.fltAccept s l) := by
  unfold State.fltAccept
  exact Does.ite (State.fltApply_does hw (State.setPhase_does (sub hw) h)) (State.onCnv_does (sub hw) (State.setPhase_does (sub hw) h))

theorem State.fltFollow_does {ring : Nat} {l : List FltLoad} {s : State} (hw : [.regs, .host, .rings, .mgt, .cnv, .macs, .pwr, .link] ⊆ ps) (h : Does ps s0 s) :
    Does ps s0 (State.fltFollow ring l s).2 := by
  induction l generalizing s with
  | nil => exact h
  | cons a l ih => exact Does.ite_snd (ih h) (Does.ite_snd h (ih (State.fltApply_does hw h)))

theorem State.restoreSeg_does {m : Nat} {s : State} {p : Nat × Nat} (hw : [.cnv] ⊆ ps) (h : Does ps s0 s) :
    Does ps s0 (State.restoreSeg m s p) := by
  unfold State.restoreSeg
  exact State.setConvOut_does hw h

theorem execFilterCrossfadeEnd_does {dt : Nat} {out : Nat} {s : State} (hw : [.clock, .cnv] ⊆ ps) (h : Does ps s0 s) :
    DoesR ps s0 (execFilterCrossfadeEnd dt out s) := by
  unfold execFilterCrossfadeEnd
  exact DoesR.next ((by
  (try extract_lets); split
  · exact Does.ite (State.setConvOut_does (sub hw) (State.elapse_does (sub hw) h)) (State.elapse_does (sub hw) h)
  · exact State.elapse_does (sub hw) h))

theorem execFilterLoadDone_does {dt : Nat} {ring : Nat} {s : State} (hw : [.clock, .regs, .host, .rings, .mgt, .cnv, .macs, .pwr, .link] ⊆ ps) (h : Does ps s0 s) :
    DoesR ps s0 (execFilterLoadDone dt ring s) := by
  unfold execFilterLoadDone
  exact (by
  (try extract_lets); split
  · exact DoesR.next (State.elapse_does (sub hw) h)
  · exact (by
   (try extract_lets); split
   · rename_i e; have h2 := Does.of_snd e (State.fltFollow_does (sub hw) (State.fltApply_does (sub hw) (State.onCnv_does (sub hw) (State.elapse_does (sub hw) h)))); exact DoesR.next (State.onCnv_does (sub hw) h2)))

theorem execFltDisarm_does {ring : Nat} {s : State} (hw : [.regs, .host, .rings, .mgt, .cnv, .macs, .pwr, .link] ⊆ ps) (h : Does ps s0 s) :
    DoesR ps s0 (execFltDisarm ring s) := by
  unfold execFltDisarm
  exact (by
  (try extract_lets); split
  · exact DoesR.next h
  · exact DoesR.ite (DoesR.next (State.finish_does (sub hw) h)) (DoesR.ite (DoesR.next (State.fltRefuse_does (sub hw) h)) (DoesR.ite (DoesR.next (State.fltRefuse_does (sub hw) h)) (DoesR.next (State.fltAccept_does hw h)))))

theorem execFltLoad_does {ring : Nat} {data : Option (List Byte)} {s : State} (hw : [.regs, .host, .rings, .mgt, .cnv, .macs, .pwr, .link] ⊆ ps) (h : Does ps s0 s) :
    DoesR ps s0 (execFltLoad ring data s) := by
  unfold execFltLoad
  exact (by
  (try extract_lets); split
  · exact DoesR.next h
  · exact DoesR.ite (DoesR.next (State.finish_does (sub hw) h)) (DoesR.ite (DoesR.next (State.fltRefuse_does (sub hw) h)) (DoesR.ite (DoesR.next (State.fltRefuse_does (sub hw) h)) ((by
   (try extract_lets); split
   · exact DoesR.ite (DoesR.next (State.fltRefuse_does (sub hw) h)) (DoesR.next (State.finish_does (sub hw) h))
   · exact (by
    (try extract_lets); split
    · exact DoesR.next (State.fltRefuse_does (sub hw) (State.onCnv_does (sub hw) h))
    · exact DoesR.ite (DoesR.next (State.fltRefuse_does (sub hw) (State.onCnv_does (sub hw) h))) (DoesR.next (State.fltAccept_does hw (State.bump_does (sub hw) (State.onCnv_does (sub hw) h))))))))))

theorem execFltUnity_does {ring : Nat} {s : State} (hw : [.regs, .host, .rings, .mgt, .cnv, .macs, .pwr, .link] ⊆ ps) (h : Does ps s0 s) :
    DoesR ps s0 (execFltUnity ring s) := by
  unfold execFltUnity
  exact (by
  (try extract_lets); split
  · exact DoesR.next h
  · exact DoesR.ite (DoesR.next (State.finish_does (sub hw) h)) (DoesR.ite (DoesR.next (State.fltRefuse_does (sub hw) h)) (DoesR.ite (DoesR.next (State.fltRefuse_does (sub hw) h)) (DoesR.ite (DoesR.next (State.fltRefuse_does (sub hw) h)) (DoesR.next (State.fltAccept_does hw h))))))

theorem execSegmentRestore_does {s : State} (hw : [.cnv] ⊆ ps) (h : Does ps s0 s) :
    DoesR ps s0 (execSegmentRestore s) := by
  unfold execSegmentRestore
  exact DoesR.ite (DoesR.next (State.onCnv_does hw (Does.foldl h fun _ _ h1 => State.restoreSeg_does hw h1))) (DoesR.next h)

/-! ### Machine/Pset.lean -/

theorem State.onMix_does {s : State} {f : Mix → Mix} (hw : [.mix] ⊆ ps) (h : Does ps s0 s) :
    Does ps s0 (State.onMix s f) := by
  unfold State.onMix
  exact Does.upd [.mix] hw h

theorem State.mixRefuse_does {s : State} {ring : Nat} {index : Nat} {status : Nat} (hw : [.regs, .host, .rings, .mgt, .macs, .pwr, .link] ⊆ ps) (h : Does ps s0 s) :
    Does ps s0 (State.mixRefuse s ring index status) := by
  unfold State.mixRefuse
  exact State.finish_does hw (State.bump_does (sub hw) h)

theorem State.setIdle_does {s : State} {b : Sets} (hw : [.rnd, .mix] ⊆ ps) (h : Does ps s0 s) :
    Does ps s0 (State.setIdle s b) := by
  unfold State.setIdle
  exact Does.upd [.rnd, .mix] hw h

theorem State.copyJob_does {s : State} {j : PsetJob} (hw : [.regs, .host, .rings, .mgt, .rnd, .mix, .macs, .pwr, .link] ⊆ ps) (h : Does ps s0 s) :
    Does ps s0 (State.copyJob s j) := by
  unfold State.copyJob
  exact Does.ite (State.mixRefuse_does (sub hw) (State.onMix_does (sub hw) h)) (State.finish_does (sub hw) (State.setIdle_does (sub hw) (State.onMix_does (sub hw) h)))

theorem State.copiesGo_does {ring : Nat} {l : List PsetJob} {s : State} (hw : [.regs, .host, .rings, .mgt, .rnd, .mix, .macs, .pwr, .link] ⊆ ps)
    (h : Does ps s0 s) : Does ps s0 (State.copiesGo ring l s) := by
  induction l generalizing s with
  | nil => exact h
  | cons a l ih => exact Does.ite (ih h) (Does.ite h (ih (State.copyJob_does hw h)))

theorem State.copyAtTick_does {s : State} {ring : Nat} (hw : [.regs, .host, .rings, .mgt, .rnd, .mix, .macs, .pwr, .link] ⊆ ps) (h : Does ps s0 s) :
    Does ps s0 (State.copyAtTick s ring) := by
  unfold State.copyAtTick
  exact State.copiesGo_does hw h

theorem execPsetCopy_does {ring : Nat} {s : State} (hw : [.regs, .host, .rings, .mgt, .mix, .macs, .pwr, .link] ⊆ ps) (h : Does ps s0 s) :
    DoesR ps s0 (execPsetCopy ring s) := by
  unfold execPsetCopy
  exact (by
  (try extract_lets); split
  · exact DoesR.next h
  · exact DoesR.ite (DoesR.next (State.finish_does (sub hw) h)) (DoesR.ite (DoesR.next (State.mixRefuse_does (sub hw) h)) (DoesR.ite (DoesR.next (State.mixRefuse_does (sub hw) h)) (DoesR.ite (DoesR.next (State.mixRefuse_does (sub hw) h)) (DoesR.ite (DoesR.next (State.mixRefuse_does (sub hw) h)) (DoesR.next (State.onMix_does (sub hw) (State.setPhase_does (sub hw) h))))))))

theorem psetLoad_does {tags : Cells Nat} {ring : Nat} {data : Option (List Byte)} {s : State} (hw : [.regs, .host, .rings, .mgt, .mix, .macs, .pwr, .link] ⊆ ps) (h : Does ps s0 s) :
    Does ps s0 (psetLoad tags ring data s) := by
  unfold psetLoad
  exact (by
  (try extract_lets); split
  · exact h
  · exact Does.ite (State.finish_does (sub hw) h) (Does.ite (State.mixRefuse_does (sub hw) h) (Does.ite (State.mixRefuse_does (sub hw) h) (Does.ite (State.mixRefuse_does (sub hw) h) (Does.ite (State.mixRefuse_does (sub hw) h) ((by
   (try extract_lets); split
   · exact State.finish_does (sub hw) h
   · exact (by
    (try extract_lets); split
    · exact State.mixRefuse_does (sub hw) h
    · exact State.onMix_does (sub hw) (State.setPhase_does (sub hw) h)))))))))

theorem psetDone_does {tags : Cells Nat} {s : State} {j : PsetJob} {payload : List Byte} (hw : [.regs, .host, .rings, .mgt, .rnd, .mix, .macs, .pwr, .link] ⊆ ps) (h : Does ps s0 s) :
    Does ps s0 (psetDone tags s j payload) := by
  unfold psetDone
  exact Does.ite (State.mixRefuse_does (sub hw) h) ((by
  (try extract_lets); split
  · exact State.mixRefuse_does (sub hw) h
  · exact State.finish_does (sub hw) (State.setIdle_does (sub hw) h)))

theorem psetLoadDone_does {tags : Cells Nat} {ring : Nat} {s : State} (hw : [.regs, .host, .rings, .mgt, .rnd, .mix, .macs, .pwr, .link] ⊆ ps) (h : Does ps s0 s) :
    Does ps s0 (psetLoadDone tags ring s) := by
  unfold psetLoadDone
  exact (by
  (try extract_lets); split
  · exact (by
   (try extract_lets); split
   · exact psetDone_does hw (State.onMix_does (sub hw) h)
   · exact h)
  · exact h)

/-! ### Machine/Swap.lean -/

theorem State.commitSwap_does {s : State} {w : Swap} (hw : [.rings] ⊆ ps) (h : Does ps s0 s) :
    Does ps s0 (State.commitSwap s w).1 := by
  unfold State.commitSwap
  (try dsimp only); exact (by
 refine Does.ite_fst ?_ ?_
 · (try dsimp only); exact h
 · (try dsimp only); exact (by
    (try extract_lets); split
    · (try dsimp only); exact h
    · (try dsimp only); exact State.setPhase_does hw h))

theorem State.commitSwapsGo_does {l : List Swap} {s : State} (hw : [.rings] ⊆ ps) (h : Does ps s0 s) :
    Does ps s0 (State.commitSwapsGo l s).2 := by
  induction l generalizing s with
  | nil => exact h
  | cons w l ih => exact ih (State.commitSwap_does hw h)

theorem State.commitSwaps_does {s : State} (hw : [.rings, .mix] ⊆ ps) (h : Does ps s0 s) :
    Does ps s0 (State.commitSwaps s) := by
  unfold State.commitSwaps
  exact (by
  (try extract_lets); split
  · rename_i e; have h1 := Does.of_snd e (State.commitSwapsGo_does (sub hw) h); exact State.onMix_does (sub hw) h1)

theorem swapAccept_does {s : State} {ring : Nat} {d : Desc} (hw : [.regs, .host, .rings, .audit, .cnv, .mix] ⊆ ps) (h : Does ps s0 s) :
    Does ps s0 (swapAccept s ring d) := by
  unfold swapAccept
  exact State.onMix_does (sub hw) (Does.after (Does.ite (State.onCnv_does (sub hw) Does.refl) Does.refl) (State.auditReserve_does (sub hw) (State.setPhase_does (sub hw) h)))

theorem swapCmd_does {tags : Cells Nat} {ring : Nat} {again : Instr} {s : State} (hw : [.regs, .host, .rings, .audit, .mgt, .cnv, .mix, .macs, .pwr, .link] ⊆ ps) (h : Does ps s0 s) :
    Does ps s0 (swapCmd tags ring again s) := by
  unfold swapCmd
  exact (by
  (try extract_lets); split
  · exact h
  · exact Does.ite h (Does.ite (State.finish_does (sub hw) h) ((by
   (try extract_lets); split
   · exact State.mixRefuse_does (sub hw) h
   · exact Does.ite (swapAccept_does (sub hw) h) (State.stall_does (sub hw) h)))))

theorem State.swapActs_does {s : State} {w : Swap} {instant : Nat} {late : Bool} (hw : [.regs, .host, .rings, .audit, .mgt, .mix, .macs, .wick, .pwr, .sta, .link] ⊆ ps) (h : Does ps s0 s) :
    Does ps s0 (State.swapActs s w instant late) := by
  unfold State.swapActs
  exact State.finishAt_does (sub hw) (State.chainEntry_does (sub hw) (State.auditRelease_does (sub hw) (State.bump_does (sub hw) (Does.after (Does.ite (State.bump_does (sub hw) Does.refl) Does.refl) (State.setReg64_does (sub hw) (State.setReg_does (sub hw) (State.onMix_does (sub hw) h)))))))

theorem execSwapAct_does {dt : Nat} {s : State} (hw : [.clock, .regs, .host, .rings, .audit, .mgt, .mix, .macs, .wick, .pwr, .sta, .link] ⊆ ps) (h : Does ps s0 s) :
    DoesR ps s0 (execSwapAct dt s) := by
  unfold execSwapAct
  exact (by
  (try extract_lets); split
  · exact (by
   (try extract_lets); split
   · exact DoesR.next (State.swapActs_does (sub hw) (State.elapse_does (sub hw) h))
   · exact DoesR.next (State.elapse_does (sub hw) h))
  · exact DoesR.next (State.elapse_does (sub hw) h))

theorem execTaperRampEnd_does {dt : Nat} {point : GainRef} {s : State} (hw : [.clock, .mix] ⊆ ps) (h : Does ps s0 s) :
    DoesR ps s0 (execTaperRampEnd dt point s) := by
  unfold execTaperRampEnd
  exact (by
  (try extract_lets); split
  · exact DoesR.ite (DoesR.next (Does.ite (State.onMix_does (sub hw) (State.onMix_does (sub hw) (State.elapse_does (sub hw) h))) (State.onMix_does (sub hw) (State.elapse_does (sub hw) h)))) (DoesR.next (State.elapse_does (sub hw) h))
  · exact DoesR.next (State.elapse_does (sub hw) h))

theorem execZcTimeout_does {dt : Nat} {point : GainRef} {s : State} (hw : [.clock, .regs, .mix] ⊆ ps) (h : Does ps s0 s) :
    DoesR ps s0 (execZcTimeout dt point s) := by
  unfold execZcTimeout
  extract_lets s1
  have k : Does ps s0 s1 := State.elapse_does (sub hw) h
  clear_value s1
  split
  · exact DoesR.ite (DoesR.next (State.bump_does (sub hw) (State.onMix_does (sub hw) k))) (DoesR.next k)
  · exact DoesR.next k

/-! ### Machine/Feeders.lean -/

theorem State.setStream_does {s : State} {i : Nat} {x : Stream} (hw : [.streams] ⊆ ps) (h : Does ps s0 s) :
    Does ps s0 (State.setStream s i x) := by
  unfold State.setStream
  exact Does.upd [.streams] hw h

theorem execSwap_does {ring : Nat} {s : State} (hw : [.regs, .host, .rings, .audit, .mgt, .cnv, .mix, .macs, .pwr, .link] ⊆ ps) (h : Does ps s0 s) :
    DoesR ps s0 (execSwap ring s) := by
  unfold execSwap
  exact DoesR.next (swapCmd_does hw h)

theorem execPsetLoad_does {ring : Nat} {data : Option (List Byte)} {s : State} (hw : [.regs, .host, .rings, .mgt, .mix, .macs, .pwr, .link] ⊆ ps) (h : Does ps s0 s) :
    DoesR ps s0 (execPsetLoad ring data s) := by
  unfold execPsetLoad
  exact DoesR.next (psetLoad_does hw h)

theorem execPsetLoadDone_does {dt : Nat} {ring : Nat} {s : State} (hw : [.clock, .regs, .host, .rings, .mgt, .rnd, .mix, .macs, .pwr, .link] ⊆ ps) (h : Does ps s0 s) :
    DoesR ps s0 (execPsetLoadDone dt ring s) := by
  unfold execPsetLoadDone
  exact DoesR.next (psetLoadDone_does (sub hw) (State.elapse_does (sub hw) h))

/-! ### Machine/Queue.lean -/

theorem State.setQueue_does {s : State} {owner : Nat} {inst : Nat} {q : EQueue} (hw : [.queues] ⊆ ps) (h : Does ps s0 s) :
    Does ps s0 (State.setQueue s owner inst q) := by
  unfold State.setQueue
  exact Does.upd [.queues] hw h

theorem State.popItem_does {s : State} {owner : Nat} {inst : Nat} (hw : [.queues] ⊆ ps) (h : Does ps s0 s) :
    Does ps s0 (State.popItem s owner inst) := by
  unfold State.popItem
  exact (by
  (try extract_lets); split
  · exact State.setQueue_does hw h)

theorem State.queueEffects_does {s : State} {owner : Nat} {inst : Nat} {sh : QShape} {before : Nat} {q : EQueue} {o : QOut} (hw : [.regs, .host, .rings, .queues] ⊆ ps) (h : Does ps s0 s) :
    Does ps s0 (State.queueEffects s owner inst sh before q o) := by
  unfold State.queueEffects
  exact Does.after (Does.ite (State.fire_does (sub hw) Does.refl) Does.refl) (Does.after (Does.ite Does.refl (State.bump_does (sub hw) Does.refl)) (Does.after (Does.ite Does.refl (State.bump_does (sub hw) Does.refl)) (Does.ite (State.setQueue_does (sub hw) h) (State.bump_does (sub hw) (State.setQueue_does (sub hw) h)))))

theorem State.queuePush_does {s : State} {owner : Nat} {inst : Nat} {sh : QShape} {x : Nat} {soi : Bool} {eoi : Bool} {bad : Bool} (hw : [.regs, .host, .rings, .queues] ⊆ ps) (h : Does ps s0 s) :
    Does ps s0 (State.queuePush s owner inst sh x soi eoi bad) := by
  unfold State.queuePush
  exact (by
  (try extract_lets); split
  · exact State.queueEffects_does hw h)

theorem State.pushGo_does {owner inst : Nat} {sh : QShape} {bad soi : Bool} {l : List Nat} {s : State}
    (hw : [.regs, .host, .rings, .queues] ⊆ ps) (h : Does ps s0 s) : Does ps s0 (State.pushGo owner inst sh bad soi l s) := by
  induction l generalizing soi s with
  | nil => exact h
  | cons x l ih =>
    cases l with
    | nil => exact State.queuePush_does hw h
    | cons y l => exact ih (State.queuePush_does hw h)

theorem State.pushItem_does {s : State} {owner : Nat} {inst : Nat} {words : List Nat} {bad : Bool} (hw : [.regs, .host, .rings, .queues] ⊆ ps) (h : Does ps s0 s) :
    Does ps s0 (State.pushItem s owner inst words bad) := by
  unfold State.pushItem
  exact (by
  (try extract_lets); split
  · exact h
  · exact State.setQueue_does (sub hw) (State.pushGo_does hw h))

theorem State.queueFlush_does {s : State} {owner : Nat} {inst : Nat} (hw : [.regs, .queues] ⊆ ps) (h : Does ps s0 s) :
    Does ps s0 (State.queueFlush s owner inst) := by
  unfold State.queueFlush
  exact (by
  (try extract_lets); split
  · exact h
  · exact Does.ite h (State.setQueue_does (sub hw) (State.bump_does (sub hw) h)))

theorem State.flushWrite_does {s : State} {o : Origin} {owner : Nat} {inst : Nat} {v : Word} (hw : [.regs, .host, .rings, .audit, .queues, .wick, .pwr, .sta] ⊆ ps) (h : Does ps s0 s) :
    Does ps s0 (State.flushWrite s o owner inst v) := by
  unfold State.flushWrite
  exact (by
  (try extract_lets); split
  · exact h
  · exact State.pulseWrite_does (sub hw) h (fun _ h1 => Does.ite (State.queueFlush_does (sub hw) h1) h1))

theorem State.queueParity_does {s : State} {owner : Nat} {inst : Nat} (hw : [.regs, .evs] ⊆ ps) (h : Does ps s0 s) :
    Does ps s0 (State.queueParity s owner inst) := by
  unfold State.queueParity
  exact State.noteEvent_does (sub hw) (State.bump_does (sub hw) h)

theorem State.queueUnderrun_does {s : State} {owner : Nat} {inst : Nat} {sh : QShape} (hw : [.regs, .host, .rings] ⊆ ps) (h : Does ps s0 s) :
    Does ps s0 (State.queueUnderrun s owner inst sh) := by
  unfold State.queueUnderrun
  exact Does.ite h (State.fire_does hw (State.setFlag_does (sub hw) h))

theorem State.queueFlushDone_does {s : State} {owner : Nat} {inst : Nat} (hw : [.queues] ⊆ ps) (h : Does ps s0 s) :
    Does ps s0 (State.queueFlushDone s owner inst) := by
  unfold State.queueFlushDone
  exact State.setQueue_does hw h

theorem execFlush_does {owner : Nat} {inst : Nat} {v : Word} {s : State} (hw : [.regs, .host, .rings, .audit, .queues, .wick, .pwr, .sta] ⊆ ps) (h : Does ps s0 s) :
    DoesR ps s0 (execFlush owner inst v s) := by
  unfold execFlush
  exact DoesR.next (State.flushWrite_does hw h)

theorem execFlushDone_does {owner : Nat} {inst : Nat} {s : State} (hw : [.queues] ⊆ ps) (h : Does ps s0 s) :
    DoesR ps s0 (execFlushDone owner inst s) := by
  unfold execFlushDone
  exact (by
  (try extract_lets); split
  · exact DoesR.next (State.queueFlushDone_does hw h)
  · exact DoesR.next h)

theorem execQueueRead_does {owner : Nat} {inst : Nat} {parity : Bool} {s : State} (hw : [.regs, .host, .rings, .evs, .queues] ⊆ ps) (h : Does ps s0 s) :
    DoesR ps s0 (execQueueRead owner inst parity s) := by
  unfold execQueueRead
  exact (by
  (try extract_lets); split
  · exact DoesR.next h
  · exact (by
   (try extract_lets); split
   · exact DoesR.next h
   · exact (by
    (try extract_lets); split
    · exact DoesR.next (Does.ite (State.queueParity_does (sub hw) (State.setQueue_does (sub hw) h)) (State.setQueue_does (sub hw) h))
    · exact DoesR.next (State.queueUnderrun_does (sub hw) h))))

theorem execQueueSwap_does {owner : Nat} {inst : Nat} {s : State} (hw : [.queues] ⊆ ps) (h : Does ps s0 s) :
    DoesR ps s0 (execQueueSwap owner inst s) := by
  unfold execQueueSwap
  exact (by
  (try extract_lets); split
  · exact DoesR.next (State.setQueue_does hw h)
  · exact DoesR.next h)

theorem execQueueWord_does {owner : Nat} {inst : Nat} {x : Nat} {soi : Bool} {eoi : Bool} {bad : Bool} {s : State} (hw : [.regs, .host, .rings, .queues] ⊆ ps) (h : Does ps s0 s) :
    DoesR ps s0 (execQueueWord owner inst x soi eoi bad s) := by
  unfold execQueueWord
  exact (by
  (try extract_lets); split
  · exact DoesR.next (State.queuePush_does hw h)
  · exact DoesR.next h)

/-! ### Machine/Dram.lean -/

theorem State.onChan_does {s : State} {ch : Nat} {f : DramChan → DramChan} (hw : [.dram] ⊆ ps) (h : Does ps s0 s) :
    Does ps s0 (State.onChan s ch f) := by
  unfold State.onChan
  exact Does.upd [.dram] hw h

theorem State.leaveSelfRefresh_does {s : State} {ch : Nat} (hw : [.regs, .host, .rings, .dram] ⊆ ps) (h : Does ps s0 s) :
    Does ps s0 (State.leaveSelfRefresh s ch) := by
  unfold State.leaveSelfRefresh
  exact Does.ite (State.fire_does (sub hw) (State.onChan_does (sub hw) h)) h

theorem State.dramTouch_does {s : State} {line : Nat} (hw : [.regs, .host, .rings, .dram] ⊆ ps) (h : Does ps s0 s) :
    Does ps s0 (State.dramTouch s line) := by
  unfold State.dramTouch
  exact State.onChan_does (sub hw) (State.leaveSelfRefresh_does hw h)

theorem State.dramRead_does {s : State} {addr : Nat} {n : Nat} (hw : [.regs, .host, .rings, .dram] ⊆ ps) (h : Does ps s0 s) :
    Does ps s0 (State.dramRead s addr n) := by
  unfold State.dramRead
  exact Does.foldl h fun _ _ h1 => (by
  (try extract_lets); split
  · exact State.bump_does (sub hw) (State.dramTouch_does hw h1)
  · exact State.bump_does (sub hw) (State.dramTouch_does hw h1)
  · exact State.dramTouch_does hw h1)

theorem State.dramWrite_does {s : State} {addr : Nat} {n : Nat} (hw : [.regs, .host, .rings, .dram] ⊆ ps) (h : Does ps s0 s) :
    Does ps s0 (State.dramWrite s addr n) := by
  unfold State.dramWrite
  exact Does.foldl h fun _ _ h1 => State.onChan_does (sub hw) (State.dramTouch_does hw h1)

theorem State.reserveDram_does {s : State} {p : Nat} (hw : [.rnd, .cnv, .vox] ⊆ ps) (h : Does ps s0 s) :
    Does ps s0 (State.reserveDram s p) := by
  unfold State.reserveDram
  exact Does.ite (Does.upd [.rnd, .cnv] (sub hw) h) (Does.upd [.vox] (sub hw) h)

/-! ### Machine/Memory.lean -/

theorem State.ctlLog_does {s : State} {i : Nat} {act : Nat} {t : Nat} {arg : Nat} {time : Nat} (hw : [.regs, .host, .rings, .audit, .wick, .pwr, .sta] ⊆ ps) (h : Does ps s0 s) :
    Does ps s0 (State.ctlLog s i act t arg time) := by
  unfold State.ctlLog
  exact State.chainEntry_does hw (State.auditRelease_does (sub hw) h)

theorem State.ownLog_does {s : State} {origin : Nat} {act : Nat} {t : Nat} {arg : Nat} {time : Nat} (hw : [.regs, .host, .rings, .audit, .wick, .pwr, .sta] ⊆ ps) (h : Does ps s0 s) :
    Does ps s0 (State.ownLog s origin act t arg time) := by
  unfold State.ownLog
  exact State.chainEntry_does hw (State.auditRelease_does (sub hw) h)

theorem State.matrixError_does {s : State} {kind : Nat} {master : Nat} {target : Nat} {addr : Nat} (hw : [.regs] ⊆ ps) (h : Does ps s0 s) :
    Does ps s0 (State.matrixError s kind master target addr) := by
  unfold State.matrixError
  exact Does.ite h (State.setReg64_does hw (State.setReg_does hw h))

theorem State.decodeError_does {s : State} {master : Nat} {target : Nat} {addr : Nat} (hw : [.regs] ⊆ ps) (h : Does ps s0 s) :
    Does ps s0 (State.decodeError s master target addr) := by
  unfold State.decodeError
  exact State.matrixError_does hw (State.bump_does hw h)

theorem State.enterSelfRefresh_does {s : State} {ch : Nat} (hw : [.regs, .host, .rings, .dram] ⊆ ps) (h : Does ps s0 s) :
    Does ps s0 (State.enterSelfRefresh s ch) := by
  unfold State.enterSelfRefresh
  exact State.fire_does (sub hw) (State.onChan_does (sub hw) h)

theorem State.sramFail_does {s : State} {mem : Nat} {offset : Nat} (hw : [.regs, .evs, .parWords] ⊆ ps) (h : Does ps s0 s) :
    Does ps s0 (State.sramFail s mem offset) := by
  unfold State.sramFail
  exact Does.after (Does.ite (Does.upd [.parWords] (sub hw) Does.refl) Does.refl) (State.noteEvent_does (sub hw) (State.bump_does (sub hw) (Does.ite (State.bump_does (sub hw) h) (State.setReg_does (sub hw) (State.setReg_does (sub hw) (State.bump_does (sub hw) h))))))

theorem State.noSpare_does {s : State} {c : Nat} (hw : [.regs] ⊆ ps) (h : Does ps s0 s) :
    Does ps s0 (State.noSpare s c) := by
  unfold State.noSpare
  exact State.setFlag_does hw (State.setFld_does hw h)

theorem State.setTile_does {s : State} {c : Nat} {t : Tile} (hw : [.tiles] ⊆ ps) (h : Does ps s0 s) :
    Does ps s0 (State.setTile s c t) := by
  unfold State.setTile
  exact Does.upd [.tiles] hw h

theorem State.retireBank_does {s : State} {c : Nat} {p : Nat} (hw : [.regs] ⊆ ps) (h : Does ps s0 s) :
    Does ps s0 (State.retireBank s c p) := by
  unfold State.retireBank
  exact State.bump_does hw (State.setFlag_does hw h)

theorem State.retireSpare_does {s : State} {c : Nat} {i : Nat} (hw : [.regs, .host, .rings, .audit, .mgt, .macs, .wick, .pwr, .sta, .link] ⊆ ps) (h : Does ps s0 s) :
    Does ps s0 (State.retireSpare s c i) := by
  unfold State.retireSpare
  exact State.finish_does (sub hw) (State.ctlLog_does (sub hw) (State.noSpare_does (sub hw) (State.retireBank_does (sub hw) h)))

theorem State.startCopy_does {s : State} {c : Nat} {victim : Nat} {retire : Bool} {cmd : Option Nat} {req : Req} (hw : [.regs, .tiles] ⊆ ps) (h : Does ps s0 s) :
    Does ps s0 (State.startCopy s c victim retire cmd req) := by
  unfold State.startCopy
  exact State.setFlag_does (sub hw) (State.setTile_does (sub hw) h)

theorem State.retireStart_does {s : State} {c : Nat} {bank : Nat} {i : Nat} {q : Req} (hw : [.regs, .host, .rings, .audit, .mgt, .tiles, .macs, .wick, .pwr, .sta, .link] ⊆ ps) (h : Does ps s0 s) :
    Does ps s0 (State.retireStart s c bank i q) := by
  unfold State.retireStart
  have k1 : Does ps s0 (s.setTile c { s.tile c with phase := 0, cmd := none, next := none }) := State.setTile_does (sub hw) h
  extract_lets asked src s1 src2 s2
  have k : Does ps s0 s2 := Does.ite (Does.ite (State.setTile_does (sub hw) k1) (State.retireSpare_does (sub hw) k1)) (State.startCopy_does (sub hw) k1)
  clear_value s2 asked
  cases asked
  · exact k
  · exact State.finish_does (sub hw) (State.auditRelease_does (sub hw) k)

theorem State.waitAudit_does {s : State} {c : Instr} (hw : [.audit] ⊆ ps) (h : Does ps s0 s) :
    Does ps s0 (State.waitAudit s c) := by
  unfold State.waitAudit
  exact State.onAudit_does hw h

theorem State.setTileMap_does {s : State} {c : Nat} {l : Nat} {p : Nat} (hw : [.regs] ⊆ ps) (h : Does ps s0 s) :
    Does ps s0 (State.setTileMap s c l p) := by
  unfold State.setTileMap
  exact State.setFld_does hw h

theorem State.tileExchange_does {s : State} {c : Nat} {time : Nat} (hw : [.regs, .host, .rings, .audit, .mgt, .tiles, .macs, .wick, .pwr, .sta, .link] ⊆ ps) (h : Does ps s0 s) :
    Does ps s0 (State.tileExchange s c time) := by
  unfold State.tileExchange
  extract_lets t sp s1 s2 src s3 act s4
  have k1 : Does ps s0 s1 := by
    show Does ps s0 (match (List.range 16).find? (fun l => s.tileMap c l == t.victim) with
      | some l => s.setTileMap c l sp
      | none => s)
    split
    · exact State.setTileMap_does (sub hw) h
    · exact h
  have k2 : Does ps s0 s2 :=
    Does.ite (State.noSpare_does (sub hw) (State.retireBank_does (sub hw) k1)) (State.setFld_does (sub hw) k1)
  have k3 : Does ps s0 s3 := State.setTile_does (sub hw) (State.setFlag_does (sub hw) k2)
  clear_value s3
  have k4 : Does ps s0 s4 := by
    show Does ps s0 (match t.cmd with
      | some i => (s3.ctlLog i act (0xD0 + c) (if t.retire then t.victim else 0) time).finishAt 0 i stOk 0 time none
      | none => (s3.auditReserve 1).ownLog 4 act (0xD0 + c) t.victim time)
    split
    · exact State.finishAt_does (sub hw) (State.ctlLog_does (sub hw) k3)
    · exact State.ownLog_does (sub hw) (State.auditReserve_does (sub hw) k3)
  clear_value s4
  split
  · exact State.retireStart_does hw k4
  · exact k4

theorem execBankCopyDone_does {dt : Nat} {c : Nat} {s : State} (hw : [.clock, .regs, .host, .rings, .audit, .mgt, .tiles, .macs, .wick, .pwr, .sta, .link] ⊆ ps) (h : Does ps s0 s) :
    DoesR ps s0 (execBankCopyDone dt c s) := by
  unfold execBankCopyDone
  exact DoesR.ite (DoesR.next (State.elapse_does (sub hw) h)) (DoesR.ite (DoesR.next (State.setTile_does (sub hw) (State.elapse_does (sub hw) h))) (DoesR.ite (DoesR.next (State.waitAudit_does (sub hw) (State.elapse_does (sub hw) h))) (DoesR.next (State.tileExchange_does (sub hw) (State.elapse_does (sub hw) h)))))

theorem State.spareFails_does {s : State} {c : Nat} (hw : [.regs, .host, .rings, .audit, .mgt, .tiles, .macs, .wick, .pwr, .sta, .link] ⊆ ps) (h : Does ps s0 s) :
    Does ps s0 (State.spareFails s c) := by
  unfold State.spareFails
  exact (by
  (try extract_lets); split
  · exact State.finish_does (sub hw) (State.ctlLog_does (sub hw) (State.fire_does (sub hw) (State.bump_does (sub hw) (State.ownLog_does (sub hw) (State.auditReserve_does (sub hw) (State.setTile_does (sub hw) (State.noSpare_does (sub hw) (State.retireBank_does (sub hw) h))))))))
  · exact State.fire_does (sub hw) (State.bump_does (sub hw) (State.ownLog_does (sub hw) (State.auditReserve_does (sub hw) (State.setTile_does (sub hw) (State.noSpare_does (sub hw) (State.retireBank_does (sub hw) h)))))))

theorem execSpareRotation_does {dt : Nat} {c : Nat} {pass : Bool} {s : State} (hw : [.clock, .regs, .host, .rings, .audit, .mgt, .tiles, .macs, .wick, .pwr, .sta, .link] ⊆ ps) (h : Does ps s0 s) :
    DoesR ps s0 (execSpareRotation dt c pass s) := by
  unfold execSpareRotation
  exact DoesR.ite (DoesR.next (State.elapse_does (sub hw) h)) (DoesR.ite (DoesR.next (State.startCopy_does (sub hw) (State.elapse_does (sub hw) h))) (DoesR.ite (DoesR.next (State.waitAudit_does (sub hw) (State.elapse_does (sub hw) h))) (DoesR.next (State.spareFails_does (sub hw) (State.elapse_does (sub hw) h)))))

theorem execBankRetire_does {dt : Nat} {c : Nat} {bank : Nat} {failed : Bool} {s : State} (hw : [.clock, .regs, .host, .rings, .audit, .mgt, .tiles, .macs, .pwr, .link] ⊆ ps) (h : Does ps s0 s) :
    DoesR ps s0 (execBankRetire dt c bank failed s) := by
  unfold execBankRetire
  exact DoesR.ite (DoesR.next (State.elapse_does (sub hw) h)) (DoesR.ite (DoesR.next (State.setFlag_does (sub hw) (State.elapse_does (sub hw) h))) (DoesR.ite (DoesR.next (State.elapse_does (sub hw) h)) (DoesR.next ((by
  (try extract_lets); split
  · exact State.finish_does (sub hw) (State.auditRelease_does (sub hw) (State.startCopy_does (sub hw) (State.setTile_does (sub hw) (State.elapse_does (sub hw) h))))
  · exact State.startCopy_does (sub hw) (State.setTile_does (sub hw) (State.elapse_does (sub hw) h)))))))

theorem execForcedRefresh_does {dt : Nat} {ch : Nat} {s : State} (hw : [.clock, .regs, .dram] ⊆ ps) (h : Does ps s0 s) :
    DoesR ps s0 (execForcedRefresh dt ch s) := by
  unfold execForcedRefresh
  exact DoesR.ite (DoesR.next (State.bump_does (sub hw) (State.onChan_does (sub hw) (State.elapse_does (sub hw) h)))) (DoesR.next (State.elapse_does (sub hw) h))

theorem execLockBroken_does {dt : Nat} {master : Nat} {target : Nat} {addr : Nat} {s : State} (hw : [.clock, .regs] ⊆ ps) (h : Does ps s0 s) :
    DoesR ps s0 (execLockBroken dt master target addr s) := by
  unfold execLockBroken
  exact DoesR.next (State.matrixError_does (sub hw) (State.bump_does (sub hw) (State.elapse_does (sub hw) h)))

theorem execPowerDownEntry_does {dt : Nat} {ch : Nat} {s : State} (hw : [.clock, .dram] ⊆ ps) (h : Does ps s0 s) :
    DoesR ps s0 (execPowerDownEntry dt ch s) := by
  unfold execPowerDownEntry
  exact DoesR.ite (DoesR.next (State.onChan_does (sub hw) (State.elapse_does (sub hw) h))) (DoesR.next (State.elapse_does (sub hw) h))

theorem execRefresh_does {dt : Nat} {ch : Nat} {kind : RefreshKind} {s : State} (hw : [.clock, .regs, .dram] ⊆ ps) (h : Does ps s0 s) :
    DoesR ps s0 (execRefresh dt ch kind s) := by
  unfold execRefresh
  exact DoesR.ite (DoesR.next (State.elapse_does (sub hw) h)) ((by
  (try extract_lets); split
  · exact DoesR.next (Does.ite (State.bump_does (sub hw) (State.onChan_does (sub hw) (State.elapse_does (sub hw) h))) (State.onChan_does (sub hw) (State.elapse_does (sub hw) h)))))

theorem execRefreshRateCheck_does {dt : Nat} {req : Nat} {s : State} (hw : [.clock, .regs, .host, .rings, .dram] ⊆ ps) (h : Does ps s0 s) :
    DoesR ps s0 (execRefreshRateCheck dt req s) := by
  unfold execRefreshRateCheck
  exact DoesR.next (Does.after (Does.ite (State.fire_does (sub hw) Does.refl) Does.refl) (Does.ite (State.fire_does (sub hw) (Does.updOf [.dram] (sub hw) (State.elapse_does (sub hw) h))) (Does.updOf [.dram] (sub hw) (State.elapse_does (sub hw) h))))

theorem execScrubPass_does {dt : Nat} {mem : Nat} {fails : List Nat} {s : State} (hw : [.clock, .regs, .evs, .parWords] ⊆ ps) (h : Does ps s0 s) :
    DoesR ps s0 (execScrubPass dt mem fails s) := by
  unfold execScrubPass
  exact DoesR.ite (DoesR.next (State.elapse_does (sub hw) h)) (DoesR.next (Does.after (Does.ite Does.refl (State.bump_does (sub hw) Does.refl)) (Does.foldl (State.elapse_does (sub hw) h) fun _ _ h1 => State.sramFail_does (sub hw) h1)))

theorem execSelfRefreshEntry_does {dt : Nat} {ch : Nat} {arrives : Bool} {s : State} (hw : [.clock, .regs, .host, .rings, .dram] ⊆ ps) (h : Does ps s0 s) :
    DoesR ps s0 (execSelfRefreshEntry dt ch arrives s) := by
  unfold execSelfRefreshEntry
  exact DoesR.ite (DoesR.next (State.elapse_does (sub hw) h)) (DoesR.ite (DoesR.next (State.bump_does (sub hw) (State.elapse_does (sub hw) h))) (DoesR.next (State.enterSelfRefresh_does (sub hw) (State.elapse_does (sub hw) h))))

end Sys2Proof.Machine
end

