-- ==== Sys2Proof/Laws/DoesNet.lean ====
section
/-!
SUPPORT. Laws/DoesNet.lean: what each operation of Machine/Rings.lean, Machine/Net.lean may write, and that it keeps what is sound.
The proofs put the lemmas of the operations called together in the mods in which the operation calls them.
-/
namespace Sys2Proof.Machine

-- One proof at a time: the proofs of this file in parallel ask for more threads than the memory bound holds.
set_option Elab.async false
variable {ps : List Part} {s0 : State}

/-! ### Machine/Rings.lean -/

theorem State.drain1Go_does {l : List (List Byte)} {s : State} (hw : [.regs, .host, .rings] ⊆ ps) (h : Does ps s0 s) :
    Does ps s0 (State.drain1Go l s) := by
  induction l generalizing s with
  | nil => exact State.onHost_does (sub hw) h
  | cons a l ih => exact Does.ite (State.onHost_does (sub hw) h) (ih (State.writeRing1_does (sub hw) h))

theorem State.takeDesc_does {s : State} {r : Nat} {ws : List Word} (hw : [.regs, .rings] ⊆ ps) (h : Does ps s0 s) :
    Does ps s0 (State.takeDesc s r ws) := by
  unfold State.takeDesc
  exact State.setRing_does (sub hw) (Does.ite (State.bump_does (sub hw) h) h)

theorem State.fetchGo_does {r n : Nat} {l : List (Option (List Word))} {s : State} (hw : [.regs, .host, .rings, .audit, .mgt, .rnd, .cnv, .mix, .tiles, .macs, .streams, .vox, .wick, .pwr, .link] ⊆ ps) (h : Does ps s0 s) :
    Does ps s0 (State.fetchGo r n l s) := by
  induction n generalizing l s with
  | zero => exact h
  | succ n ih =>
    cases l with
    | nil => exact h
    | cons w l =>
      cases w with
      | none => exact State.stopRing_does (sub hw) (State.bump_does (sub hw) h)
      | some w => exact ih (State.takeDesc_does (sub hw) h)

theorem State.fetchRing_does {s : State} {r : Nat} {burst : Nat} {l : List (Option (List Word))} (hw : [.regs, .host, .rings, .audit, .mgt, .rnd, .cnv, .mix, .tiles, .macs, .streams, .vox, .wick, .pwr, .link] ⊆ ps) (h : Does ps s0 s) :
    Does ps s0 (State.fetchRing s r burst l) := by
  unfold State.fetchRing
  exact Does.ite h (State.retire_does (sub hw) (Does.ite (State.consumerWrite_does (sub hw) (State.fetchGo_does hw h)) (State.fetchGo_does hw h)))

theorem State.loggedWrite_does {s : State} {o : Origin} {off : Nat} {v : Word} (hw : [.regs, .host, .rings, .audit, .wick, .pwr, .sta] ⊆ ps) (h : Does ps s0 s) :
    Does ps s0 (State.loggedWrite s o off v) := by
  unfold State.loggedWrite
  exact Does.ite (State.auditNow_does hw (State.setReg_does (sub hw) h)) (State.bump_does (sub hw) h)

theorem State.hostReset_does {s : State} {kind : Nat} (hw : [.regs, .host, .rings, .audit, .mgt, .rnd, .cnv, .mix, .tiles, .macs, .streams, .vox, .wick, .pwr, .sta, .link] ⊆ ps) (h : Does ps s0 s) :
    Does ps s0 (State.hostReset s kind) := by
  unfold State.hostReset
  extract_lets s1 s2 s3 s4 s5
  have k1 : Does ps s0 s1 := State.eachRing_does h fun _ _ k => State.withdrawGo_does (sub hw) k
  clear_value s1
  have k2 : Does ps s0 s2 := Does.upd [.regs] (sub hw) k1 (hs := fun hs => ⟨Cells.wf_filter hs.1, hs.2⟩)
  clear_value s2
  exact State.auditLate_does (sub hw) (State.setFlag_does (sub hw) (State.onHost_does (sub hw)
    (State.eachRing_does k2 fun _ _ k => State.onRing_does (sub hw) k)))

theorem ringSetupWrites_does {s : State} {t : Nat} {d : Desc} (hw : [.regs, .host, .rings, .audit, .wick, .pwr, .sta] ⊆ ps) (h : Does ps s0 s) :
    Does ps s0 (ringSetupWrites s t d) := by
  unfold ringSetupWrites
  exact State.loggedWrite_does hw (State.loggedWrite_does hw (State.loggedWrite_does hw (State.loggedWrite_does hw h)))

theorem State.startRing_does {s : State} {r : Nat} (hw : [.rings] ⊆ ps) (h : Does ps s0 s) :
    Does ps s0 (State.startRing s r) := by
  unfold State.startRing
  exact State.onRing_does hw h

theorem execRingSetup_does {s : State} (hw : [.regs, .host, .rings, .audit, .mgt, .macs, .wick, .pwr, .sta, .link] ⊆ ps) (h : Does ps s0 s) :
    DoesR ps s0 (execRingSetup s) := by
  unfold execRingSetup
  exact (by
  (try extract_lets); split
  · exact DoesR.next h
  · exact DoesR.ite (DoesR.next (State.finish_does (sub hw) h)) (DoesR.ite (DoesR.next (State.finish_does (sub hw) h)) (DoesR.ite (DoesR.next (State.finish_does (sub hw) h)) (DoesR.ite (DoesR.next (State.stall_does (sub hw) h)) (DoesR.next (State.finish_does (sub hw) (Does.ite (State.startRing_does (sub hw) (ringSetupWrites_does (sub hw) h)) (State.onRing_does (sub hw) (ringSetupWrites_does (sub hw) h)))))))))

theorem State.setupDiscard_does {s : State} (hw : [.regs] ⊆ ps) (h : Does ps s0 s) :
    Does ps s0 (State.setupDiscard s) := by
  unfold State.setupDiscard
  exact State.setFlag_does hw (State.bump_does hw h)

theorem State.stopD2h_does {s : State} (hw : [.regs, .host, .rings, .audit, .mgt, .rnd, .cnv, .mix, .tiles, .macs, .streams, .vox, .wick, .pwr, .link] ⊆ ps) (h : Does ps s0 s) :
    Does ps s0 (State.stopD2h s) := by
  unfold State.stopD2h
  exact Does.ite (State.eachRing_does h (fun _ _ h1 => Does.ite (State.stopRing_does hw h1) h1)) h

theorem State.takeDoorbell_does {s : State} {r : Nat} {e : DWord} (hw : [.regs, .host, .rings, .audit, .mgt, .rnd, .cnv, .mix, .tiles, .macs, .streams, .vox, .wick, .pwr, .link] ⊆ ps) (h : Does ps s0 s) :
    Does ps s0 (State.takeDoorbell s r e) := by
  unfold State.takeDoorbell
  exact Does.ite h (Does.ite (State.bump_does (sub hw) h) (Does.ite (State.setRing_does (sub hw) h) (State.stopRing_does hw h)))

theorem State.takeDoorbells_does {r : Nat} {l : List DWord} {s : State} (hw : [.regs, .host, .rings, .audit, .mgt, .rnd, .cnv, .mix, .tiles, .macs, .streams, .vox, .wick, .pwr, .link] ⊆ ps) (h : Does ps s0 s) :
    Does ps s0 (State.takeDoorbells r l s) := by
  induction l generalizing r s with
  | nil => exact h
  | cons e l ih => exact ih (State.takeDoorbell_does hw h)

theorem runWrite_does {s : State} {o : Origin} {v : Word} (hw : [.regs, .host, .rings, .audit, .mgt, .rnd, .cnv, .mix, .tiles, .macs, .streams, .vox, .wick, .pwr, .sta, .link] ⊆ ps) (h : Does ps s0 s) :
    Does ps s0 (runWrite s o v) := by
  unfold runWrite
  exact Does.ite (State.bump_does (sub hw) h) (Does.ite (Does.ite (State.loggedWrite_does (sub hw) h) (State.onHost_does (sub hw) (State.loggedWrite_does (sub hw) h))) (Does.ite (State.stopD2h_does (sub hw) (State.eachRing_does (State.loggedWrite_does (sub hw) h) (fun _ _ h2 => Does.ite (State.stopRing_does (sub hw) h2) h2))) (State.loggedWrite_does (sub hw) h)))

theorem ringCfgWrite_does {s : State} {o : Origin} {r : Nat} {v : Word} (hw : [.regs, .host, .rings, .audit, .wick, .pwr, .sta] ⊆ ps) (h : Does ps s0 s) :
    Does ps s0 (ringCfgWrite s o r v) := by
  unfold ringCfgWrite
  exact Does.ite (State.setupDiscard_does (sub hw) h) (Does.ite (State.bump_does (sub hw) h) (Does.after (Does.ite (State.startRing_does (sub hw) Does.refl) (Does.ite Does.refl (State.onRing_does (sub hw) Does.refl))) (Does.ite (State.setupDiscard_does (sub hw) (State.loggedWrite_does hw h)) (State.loggedWrite_does hw h))))

theorem abortTarget_does {s : State} {d : Desc} {t : Nat} (hw : [.regs, .host, .rings, .audit, .mgt, .rnd, .cnv, .mix, .tiles, .macs, .streams, .vox, .wick, .pwr, .link] ⊆ ps) (h : Does ps s0 s) :
    Does ps s0 (abortTarget s d t) := by
  unfold abortTarget
  exact (by
  (try extract_lets); split
  · exact State.finish_does (sub hw) h
  · exact Does.ite (State.onHost_does (sub hw) (State.setPhase_does (sub hw) h)) (State.retire_does (sub hw) (State.onHost_does (sub hw) (State.setPhase_does (sub hw) (State.withdraw_does (sub hw) h)))))

theorem execAbort_does {fetch : List (Option (List Word))} {s : State} (hw : [.regs, .host, .rings, .audit, .mgt, .rnd, .cnv, .mix, .tiles, .macs, .streams, .vox, .wick, .pwr, .link] ⊆ ps) (h : Does ps s0 s) :
    DoesR ps s0 (execAbort fetch s) := by
  unfold execAbort
  exact (by
  (try extract_lets); split
  · exact DoesR.next h
  · exact DoesR.ite (DoesR.next (State.finish_does (sub hw) h)) (DoesR.ite (DoesR.next (State.finish_does (sub hw) h)) (DoesR.next (abortTarget_does hw (State.fetchRing_does hw h)))))

theorem execD2hRingDrain_does {ring : Nat} {s : State} (hw : [.regs, .host, .rings, .wick, .sta] ⊆ ps) (h : Does ps s0 s) :
    DoesR ps s0 (execD2hRingDrain ring s) := by
  unfold execD2hRingDrain
  exact DoesR.ite (DoesR.next (State.drain1Go_does (sub hw) h)) (DoesR.ite (DoesR.next (State.drain_does hw h)) (DoesR.next h))

theorem execDoorbellPoll_does {page : Option (List DWord)} {fetch : List (Nat × Option (List Word))} {s : State} (hw : [.regs, .host, .rings, .audit, .mgt, .rnd, .cnv, .mix, .tiles, .macs, .streams, .vox, .wick, .pwr, .link] ⊆ ps) (h : Does ps s0 s) :
    DoesR ps s0 (execDoorbellPoll page fetch s) := by
  unfold execDoorbellPoll
  exact DoesR.ite (DoesR.next h) ((by
  (try extract_lets); split
  · exact DoesR.next (Does.after (Does.ite (State.setFlag_does (sub hw) Does.refl) Does.refl) (State.onHost_does (sub hw) (State.bump_does (sub hw) (State.bump_does (sub hw) h))))
  · exact DoesR.next (State.eachRing_does ((by
   (try extract_lets); split
   · exact State.onHost_does (sub hw) (State.ring2Entry_does (sub hw) (State.takeDoorbells_does hw (State.onHost_does (sub hw) (State.bump_does (sub hw) h))))
   · exact State.takeDoorbells_does hw (State.onHost_does (sub hw) (State.bump_does (sub hw) h)))) (fun _ _ h4 => State.fetchRing_does hw h4))))

theorem execEnable_does {ring : Nat} {v : Word} {s : State} (hw : [.regs, .host, .rings, .audit, .wick, .pwr, .sta] ⊆ ps) (h : Does ps s0 s) :
    DoesR ps s0 (execEnable ring v s) := by
  unfold execEnable
  exact DoesR.next (Does.ite (ringCfgWrite_does hw h) h)

theorem execFunctionLevelReset_does {s : State} (hw : [.regs, .host, .rings, .audit, .mgt, .rnd, .cnv, .mix, .tiles, .macs, .streams, .vox, .wick, .pwr, .sta, .link] ⊆ ps) (h : Does ps s0 s) :
    DoesR ps s0 (execFunctionLevelReset s) := by
  unfold execFunctionLevelReset
  exact DoesR.next (State.hostReset_does hw h)

theorem execHoldoffEnd_does {dt : Nat} {src : Nat} {s : State} (hw : [.clock, .host] ⊆ ps) (h : Does ps s0 s) :
    DoesR ps s0 (execHoldoffEnd dt src s) := by
  unfold execHoldoffEnd
  exact DoesR.ite (DoesR.next (Does.ite (State.message_does (sub hw) (State.onHost_does (sub hw) (State.elapse_does (sub hw) h))) (State.onHost_does (sub hw) (State.elapse_does (sub hw) h)))) (DoesR.next (State.elapse_does (sub hw) h))

theorem execLinkDown_does {linkUp : Bool} {bme : Bool} {s : State} (hw : [.host] ⊆ ps) (h : Does ps s0 s) :
    DoesR ps s0 (execLinkDown linkUp bme s) := by
  unfold execLinkDown
  exact DoesR.next (State.onHost_does hw h)

theorem State.vectorMask_does {s : State} {vec : Nat} {mask : Bool} (hw : [.host] ⊆ ps) (h : Does ps s0 s) :
    Does ps s0 (State.vectorMask s vec mask) := by
  unfold State.vectorMask
  exact Does.ite (State.onHost_does hw h) (Does.ite (State.sendMsi_does hw (State.onHost_does hw h)) (State.onHost_does hw h))

theorem State.msixWrite_does {s : State} {off : Nat} {v : Word} (hw : [.host] ⊆ ps) (h : Does ps s0 s) :
    Does ps s0 (State.msixWrite s off v) := by
  unfold State.msixWrite
  exact Does.ite h (Does.ite (State.vectorMask_does hw h) (State.onHost_does hw h))

theorem execMsixVectorUnmask_does {vec : Nat} {s : State} (hw : [.host] ⊆ ps) (h : Does ps s0 s) :
    DoesR ps s0 (execMsixVectorUnmask vec s) := by
  unfold execMsixVectorUnmask
  exact DoesR.next (State.vectorMask_does hw h)

theorem execNop_does {ring : Nat} {s : State} (hw : [.regs, .host, .rings, .mgt, .macs, .pwr, .link] ⊆ ps) (h : Does ps s0 s) :
    DoesR ps s0 (execNop ring s) := by
  unfold execNop
  exact (by
  (try extract_lets); split
  · exact DoesR.next h
  · exact DoesR.ite (DoesR.next (State.finishAt_does hw h)) (DoesR.next (State.finish_does hw h)))

theorem execPcieLinkRestored_does {width : Nat} {speed : Nat} {s : State} (hw : [.regs, .host, .rings, .mgt, .macs, .wick, .pwr, .sta, .link] ⊆ ps) (h : Does ps s0 s) :
    DoesR ps s0 (execPcieLinkRestored width speed s) := by
  unfold execPcieLinkRestored
  exact DoesR.next (State.eachRing_does (State.drain1Go_does (sub hw) (Does.foldl (State.onHost_does (sub hw) (State.onHost_does (sub hw) h)) fun _ _ h3 => Does.ite (State.sendMsi_does (sub hw) h3) h3)) (fun _ _ h4 => Does.ite (State.drain_does (sub hw) h4) (State.retire_does (sub hw) h4)))

theorem execPerstN_does {s : State} (hw : [.regs, .host, .rings, .audit, .mgt, .rnd, .cnv, .mix, .tiles, .macs, .streams, .vox, .wick, .pwr, .sta, .link] ⊆ ps) (h : Does ps s0 s) :
    DoesR ps s0 (execPerstN s) := by
  unfold execPerstN
  exact DoesR.next (State.hostReset_does hw h)

theorem execRingStop_does {s : State} (hw : [.regs, .host, .rings, .audit, .mgt, .rnd, .cnv, .mix, .tiles, .macs, .streams, .vox, .wick, .pwr, .link] ⊆ ps) (h : Does ps s0 s) :
    DoesR ps s0 (execRingStop s) := by
  unfold execRingStop
  exact (by
  (try extract_lets); split
  · exact DoesR.next h
  · exact DoesR.ite (DoesR.next (State.finish_does (sub hw) h)) (DoesR.ite (DoesR.next (State.finish_does (sub hw) h)) (DoesR.ite (DoesR.next (State.finish_does (sub hw) h)) (DoesR.next (State.stopRing_does hw (State.onRing_does (sub hw) (State.setPhase_does (sub hw) h)))))))

theorem execRingStopped_does {ring : Nat} {s : State} (hw : [.regs, .host, .rings, .audit, .mgt, .rnd, .cnv, .mix, .tiles, .macs, .streams, .vox, .wick, .pwr, .link] ⊆ ps) (h : Does ps s0 s) :
    DoesR ps s0 (execRingStopped ring s) := by
  unfold execRingStopped
  exact DoesR.ite (DoesR.ite (DoesR.next (State.stopD2h_does hw ((by
  (try extract_lets); split
  · exact State.finish_does (sub hw) (State.ring2Entry_does (sub hw) (State.setRing_does (sub hw) h))
  · exact State.ring2Entry_does (sub hw) (State.setRing_does (sub hw) h))))) (DoesR.next (State.stopD2h_does hw ((by
  (try extract_lets); split
  · exact State.finish_does (sub hw) (State.setRing_does (sub hw) h)
  · exact State.setRing_does (sub hw) h))))) (DoesR.next h)

theorem execRun_does {v : Word} {s : State} (hw : [.regs, .host, .rings, .audit, .mgt, .rnd, .cnv, .mix, .tiles, .macs, .streams, .vox, .wick, .pwr, .sta, .link] ⊆ ps) (h : Does ps s0 s) :
    DoesR ps s0 (execRun v s) := by
  unfold execRun
  exact DoesR.next (runWrite_does hw h)

theorem execStatusPageWrite_does {dt : Nat} {s : State} (hw : [.clock, .host] ⊆ ps) (h : Does ps s0 s) :
    DoesR ps s0 (execStatusPageWrite dt s) := by
  unfold execStatusPageWrite
  exact DoesR.ite (DoesR.next (State.onHost_does (sub hw) (State.emit_does (sub hw) (State.elapse_does (sub hw) h)))) (DoesR.next (State.elapse_does (sub hw) h))

/-! ### Machine/Net.lean -/

theorem State.onMac_does {s : State} {n : Nat} {f : Mac → Mac} (hw : [.macs] ⊆ ps) (h : Does ps s0 s) :
    Does ps s0 (State.onMac s n f) := by
  unfold State.onMac
  exact Does.upd [.macs] hw h

theorem State.copyGates_does {s : State} {n : Nat} {len : Nat} (hw : [.regs] ⊆ ps) (h : Does ps s0 s) :
    Does ps s0 (State.copyGates s n len) := by
  unfold State.copyGates
  exact Does.foldl h fun _ _ h1 => State.setReg_does hw h1

theorem State.skipWithdrawn_does {n tc k : Nat} {s : State} (hw : [.queues] ⊆ ps) (h : Does ps s0 s) :
    Does ps s0 (State.skipWithdrawn n tc k s) := by
  induction k generalizing s with
  | zero => exact h
  | succ k ih =>
    unfold State.skipWithdrawn
    split
    · exact Does.ite (ih (State.popItem_does hw h)) h
    · exact h

theorem State.jobDone_does {s : State} {n : Nat} {j : TxJob} (hw : [.regs, .host, .rings, .mgt, .macs, .pwr, .link] ⊆ ps) (h : Does ps s0 s) :
    Does ps s0 (State.jobDone s n j) := by
  unfold State.jobDone
  exact Does.ite h (State.finishAt_does hw (State.onMac_does (sub hw) h))

theorem State.frameEnds_does {s : State} {n : Nat} {m : TxMeta} {sent : Option Nat} {flags : Nat} {status : Nat} (hw : [.regs, .host, .rings, .mgt, .macs, .pwr, .link] ⊆ ps) (h : Does ps s0 s) :
    Does ps s0 (State.frameEnds s n m sent flags status) := by
  unfold State.frameEnds
  exact Does.ite h ((by
  (try extract_lets); split
  · exact h
  · exact State.jobDone_does hw (State.onMac_does (sub hw) h)))

theorem State.takeHead_does {s : State} {n : Nat} {tc : Nat} {h' : HeadAt} (hw : [.queues, .macs] ⊆ ps) (h : Does ps s0 s) :
    Does ps s0 (State.takeHead s n tc h') := by
  unfold State.takeHead
  exact (by
  (try extract_lets); split
  · exact State.onMac_does (sub hw) h
  · exact State.onMac_does (sub hw) h
  · exact State.popItem_does (sub hw) (State.onMac_does (sub hw) h))

theorem State.dropNever_does {s : State} {n : Nat} {tc : Nat} (hw : [.regs, .host, .rings, .mgt, .queues, .macs, .pwr, .link] ⊆ ps) (h : Does ps s0 s) :
    Does ps s0 (State.dropNever s n tc) := by
  unfold State.dropNever
  exact (by
  (try extract_lets); split
  · exact State.skipWithdrawn_does (sub hw) h
  · exact (by
   (try extract_lets); split
   · exact Does.ite (State.frameEnds_does (sub hw) (State.bump_does (sub hw) (State.takeHead_does (sub hw) (State.skipWithdrawn_does (sub hw) h)))) (State.skipWithdrawn_does (sub hw) h)
   · exact State.skipWithdrawn_does (sub hw) h))

theorem State.dropQueue_does {s : State} {owner : Nat} {inst : Nat} (hw : [.queues] ⊆ ps) (h : Does ps s0 s) :
    Does ps s0 (State.dropQueue s owner inst) := by
  unfold State.dropQueue
  exact State.setQueue_does hw h

theorem State.intoClass_does {s : State} {n : Nat} {m : TxMeta} {f : List Byte} (hw : [.regs, .host, .rings, .queues, .macs] ⊆ ps) (h : Does ps s0 s) :
    Does ps s0 (State.intoClass s n m f) := by
  unfold State.intoClass
  exact State.pushItem_does (sub hw) (State.onMac_does (sub hw) h)

theorem State.engineFrame_does {s : State} {n : Nat} {m : TxMeta} {f : List Byte} (hw : [.regs, .host, .rings, .queues, .macs] ⊆ ps) (h : Does ps s0 s) :
    Does ps s0 (State.engineFrame s n m f) := by
  unfold State.engineFrame
  exact Does.ite (State.bump_does (sub hw) h) (State.intoClass_does hw h)

theorem State.frameLinkDown_does {s : State} {n : Nat} {m : TxMeta} {flags : Nat} (hw : [.regs, .host, .rings, .mgt, .macs, .pwr, .link] ⊆ ps) (h : Does ps s0 s) :
    Does ps s0 (State.frameLinkDown s n m flags) := by
  unfold State.frameLinkDown
  exact State.frameEnds_does hw (State.bump_does (sub hw) h)

theorem State.macState_does {s : State} {n : Nat} {st : Nat} (hw : [.regs, .host, .rings, .macs] ⊆ ps) (h : Does ps s0 s) :
    Does ps s0 (State.macState s n st) := by
  unfold State.macState
  exact Does.ite h (State.fire_does (sub hw) (State.onMac_does (sub hw) h))

theorem State.macFail_does {s : State} {n : Nat} {all : Bool} (hw : [.regs, .host, .rings, .mgt, .macs, .pwr, .link] ⊆ ps) (h : Does ps s0 s) :
    Does ps s0 (State.macFail s n all) := by
  unfold State.macFail
  exact Does.foldl (State.onMac_does (sub hw) (Does.foldl (Does.foldl (State.onMac_does (sub hw) ((by
  (try extract_lets); split
  · exact State.frameLinkDown_does hw (State.onMac_does (sub hw) h)
  · exact h))) fun _ _ h3 => State.frameLinkDown_does hw h3) fun _ _ h4 => State.frameLinkDown_does hw h4)) fun _ _ h6 => State.frameLinkDown_does hw h6

theorem State.pumpJob_does {s : State} {n : Nat} {j : TxJob} (hw : [.regs, .host, .rings, .mgt, .queues, .macs, .pwr, .link] ⊆ ps) (h : Does ps s0 s) :
    Does ps s0 (State.pumpJob s n j).1 := by
  unfold State.pumpJob
  split
  refine Does.ite_fst h ?_
  extract_lets s1 s2
  have k : Does ps s0 s2 := Does.ite (State.onMac_does (sub hw) h) (State.bump_does (sub hw) (State.onMac_does (sub hw) h))
  clear_value s2
  refine Does.ite_fst ?_ (Does.ite_fst ?_ ?_)
  · exact State.frameLinkDown_does (sub hw) k
  · dsimp only
    exact State.onMac_does (sub hw) k
  · exact State.intoClass_does (sub hw) k

theorem State.pumpGo_does {n k : Nat} {s : State} (hw : [.regs, .host, .rings, .mgt, .queues, .macs, .pwr, .link] ⊆ ps) (h : Does ps s0 s) :
    Does ps s0 (State.pumpGo n k s) := by
  induction k generalizing s with
  | zero => exact h
  | succ k ih =>
    unfold State.pumpGo
    extract_lets pick try_
    have f : ∀ r, Does ps s0 (try_ r).1 := by
      intro r
      change Does ps s0 (match pick r with
        | some j => s.pumpJob n j
        | none => (s, false)).1
      split
      · exact State.pumpJob_does hw h
      · exact h
    clear_value try_
    exact Does.ite (ih (f _)) (Does.ite (ih (f _)) h)

theorem State.pump_does {s : State} {n : Nat} (hw : [.regs, .host, .rings, .mgt, .queues, .macs, .pwr, .link] ⊆ ps) (h : Does ps s0 s) :
    Does ps s0 (State.pump s n) := by
  unfold State.pump
  exact State.pumpGo_does hw h

theorem State.macDisable_does {s : State} {n : Nat} (hw : [.regs, .host, .rings, .mgt, .queues, .macs, .pwr, .link] ⊆ ps) (h : Does ps s0 s) :
    Does ps s0 (State.macDisable s n) := by
  unfold State.macDisable
  exact State.pump_does hw (State.onMac_does (sub hw) (Does.foldl (Does.foldl (State.macFail_does (sub hw) (State.macState_does (sub hw) (Does.ite (State.bump_does (sub hw) h) h))) fun _ _ h1 => State.queueFlushDone_does (sub hw) (State.queueFlush_does (sub hw) h1)) fun _ _ h2 => State.queueFlushDone_does (sub hw) (State.queueFlush_does (sub hw) h2)))

theorem State.macCtrlApply_does {s : State} {n : Nat} {v : Word} {origin : Nat} {oid : Nat} {time : Nat} (hw : [.regs, .host, .rings, .audit, .mgt, .queues, .macs, .wick, .pwr, .sta, .link] ⊆ ps) (h : Does ps s0 s) :
    Does ps s0 (State.macCtrlApply s n v origin oid time) := by
  unfold State.macCtrlApply
  exact Does.after (Does.ite (State.macState_does (sub hw) Does.refl) Does.refl) (Does.after (Does.ite (State.macDisable_does (sub hw) Does.refl) Does.refl) (State.chainEntry_does (sub hw) (State.setReg_does (sub hw) h)))

theorem State.macRxCut_does {s : State} {n : Nat} {rx : Option Nat} (hw : [.regs] ⊆ ps) (h : Does ps s0 s) :
    Does ps s0 (State.macRxCut s n rx) := by
  unfold State.macRxCut
  exact (by
  (try extract_lets); split
  · exact Does.ite (State.bump_does hw (State.bump_does hw h)) h
  · exact h)

theorem State.macDown_does {s : State} {n : Nat} {st : Nat} {rx : Option Nat} (hw : [.regs, .host, .rings, .mgt, .queues, .macs, .pwr, .link] ⊆ ps) (h : Does ps s0 s) :
    Does ps s0 (State.macDown s n st rx) := by
  unfold State.macDown
  exact Does.after (Does.ite (State.pump_does hw (State.onMac_does (sub hw) (Does.foldl (State.macFail_does (sub hw) Does.refl) fun _ _ h3 => State.dropQueue_does (sub hw) h3))) Does.refl) (State.macState_does (sub hw) (Does.ite (State.macRxCut_does (sub hw) (State.bump_does (sub hw) h)) h))

theorem State.startFrame_does {s : State} {n : Nat} {h' : HeadAt} {m : TxMeta} {f : List Byte} (hw : [.regs, .host, .rings, .mgt, .queues, .macs, .pwr, .link] ⊆ ps) (h : Does ps s0 s) :
    Does ps s0 (State.startFrame s n h' m f) := by
  unfold State.startFrame
  exact State.pump_does hw (State.onMac_does (sub hw) (Does.after (Does.ite (State.bump_does (sub hw) Does.refl) Does.refl) (Does.ite (State.setPhase_does (sub hw) (State.takeHead_does (sub hw) h)) (State.takeHead_does (sub hw) h))))

theorem State.txRefuse_does {s : State} {n : Nat} {ring : Nat} {index : Nat} {st : Nat} (hw : [.regs, .host, .rings, .mgt, .macs, .pwr, .link] ⊆ ps) (h : Does ps s0 s) :
    Does ps s0 (State.txRefuse s n ring index st) := by
  unfold State.txRefuse
  exact State.finishAt_does hw (Does.ite (State.bump_does (sub hw) h) h)

theorem State.txStamp_does {s : State} {n : Nat} {m : TxMeta} {start : Nat} (hw : [.regs, .host, .rings, .macs, .wick, .sta] ⊆ ps) (h : Does ps s0 s) :
    Does ps s0 (State.txStamp s n m start).1 := by
  unfold State.txStamp
  (try dsimp only); exact (by
 refine Does.ite_fst ?_ ?_
 · (try dsimp only); exact State.fireRing_does (sub hw) (State.onMac_does (sub hw) (State.bump_does (sub hw) h))
 · (try dsimp only); exact State.enqueue_does (sub hw) (State.onMac_does (sub hw) h))

theorem macCtrlWrite_does {s : State} {o : Origin} {n : Nat} {v : Word} (hw : [.regs, .host, .rings, .audit, .mgt, .queues, .macs, .wick, .pwr, .sta, .link] ⊆ ps) (h : Does ps s0 s) :
    Does ps s0 (macCtrlWrite s o n v) := by
  unfold macCtrlWrite
  exact Does.ite (State.bump_does (sub hw) h) (Does.ite (State.onMgt_does (sub hw) (State.auditReserve_does (sub hw) h)) (State.macCtrlApply_does hw (State.auditRelease_does (sub hw) (State.auditReserve_does (sub hw) h))))

theorem mdioCmdWrite_does {s : State} {o : Origin} {v : Word} (hw : [.regs, .host, .rings, .audit, .mdioEnd, .wick, .pwr, .sta] ⊆ ps) (h : Does ps s0 s) :
    Does ps s0 (mdioCmdWrite s o v) := by
  unfold mdioCmdWrite
  exact Does.ite (State.setFlag_does (sub hw) h) (Does.ite (State.bump_does (sub hw) h) (Does.ite (Does.updOf [.mdioEnd] (sub hw) (State.loggedWrite_does (sub hw) h)) (State.loggedWrite_does (sub hw) h)))

theorem daHiWrite_does {s : State} {o : Origin} {n : Nat} {e : Nat} {v : Word} (hw : [.regs, .host, .rings, .audit, .macs, .wick, .pwr, .sta] ⊆ ps) (h : Does ps s0 s) :
    Does ps s0 (daHiWrite s o n e v) := by
  unfold daHiWrite
  exact Does.ite (State.bump_does (sub hw) h) (State.onMac_does (sub hw) (State.loggedWrite_does (sub hw) h))

theorem gateCtrlWrite_does {s : State} {o : Origin} {n : Nat} {v : Word} (hw : [.regs, .host, .rings, .audit, .macs, .wick, .pwr, .sta] ⊆ ps) (h : Does ps s0 s) :
    Does ps s0 (gateCtrlWrite s o n v) := by
  unfold gateCtrlWrite
  exact Does.ite (State.setFlag_does (sub hw) h) (Does.ite (State.bump_does (sub hw) h) (Does.ite (State.onMac_does (sub hw) (State.loggedWrite_does (sub hw) h)) (State.loggedWrite_does (sub hw) h)))

theorem execBlockLock_does {mac : Nat} {an : Bool} {s : State} (hw : [.regs, .host, .rings, .macs] ⊆ ps) (h : Does ps s0 s) :
    DoesR ps s0 (execBlockLock mac an s) := by
  unfold execBlockLock
  exact DoesR.ite (DoesR.next (Does.ite (State.onMac_does (sub hw) h) (State.macState_does hw (State.onMac_does (sub hw) h)))) (DoesR.next h)

theorem execDaHi_does {mac : Nat} {e : Nat} {v : Word} {origin : Origin} {s : State} (hw : [.regs, .host, .rings, .audit, .macs, .wick, .pwr, .sta] ⊆ ps) (h : Does ps s0 s) :
    DoesR ps s0 (execDaHi mac e v origin s) := by
  unfold execDaHi
  exact DoesR.next (Does.ite (daHiWrite_does hw h) h)

theorem execDaLo_does {mac : Nat} {e : Nat} {v : Word} {origin : Origin} {s : State} (hw : [.regs, .host, .rings, .audit, .wick, .pwr, .sta] ⊆ ps) (h : Does ps s0 s) :
    DoesR ps s0 (execDaLo mac e v origin s) := by
  unfold execDaLo
  exact DoesR.next (Does.ite (State.loggedWrite_does hw h) h)

theorem execFrameTransmitted_does {dt : Nat} {mac : Nat} {parity : Bool} {s : State} (hw : [.clock, .regs, .host, .rings, .mgt, .evs, .macs, .wick, .pwr, .sta, .link] ⊆ ps) (h : Does ps s0 s) :
    DoesR ps s0 (execFrameTransmitted dt mac parity s) := by
  unfold execFrameTransmitted
  exact (by
  (try extract_lets); split
  · exact DoesR.next (State.elapse_does (sub hw) h)
  · exact DoesR.ite (DoesR.next (State.elapse_does (sub hw) h)) (DoesR.ite (DoesR.next (State.frameEnds_does (sub hw) (State.queueParity_does (sub hw) (State.bump_does (sub hw) (State.onMac_does (sub hw) (State.elapse_does (sub hw) h)))))) ((by
   (try extract_lets); split
   · rename_i e; have h3 := Does.of_fst e (Does.after ((by
   refine Does.ite_fst ?_ ?_
   · (try dsimp only); exact State.txStamp_does (sub hw) Does.refl
   · (try dsimp only); exact Does.refl)) (State.onMac_does (sub hw) (State.bump_does (sub hw) (State.onMac_does (sub hw) (State.elapse_does (sub hw) h))))); exact DoesR.next (State.frameEnds_does (sub hw) h3)))))

theorem execGateChange_does {mac : Nat} {v : Word} {origin : Origin} {s : State} (hw : [.regs, .host, .rings, .audit, .macs, .wick, .pwr, .sta] ⊆ ps) (h : Does ps s0 s) :
    DoesR ps s0 (execGateChange mac v origin s) := by
  unfold execGateChange
  exact DoesR.next (Does.ite (gateCtrlWrite_does hw h) h)

theorem execGateEntryAdvance_does {dt : Nat} {mac : Nat} {s : State} (hw : [.clock, .macs] ⊆ ps) (h : Does ps s0 s) :
    DoesR ps s0 (execGateEntryAdvance dt mac s) := by
  unfold execGateEntryAdvance
  exact DoesR.next (Does.ite (State.onMac_does (sub hw) (State.elapse_does (sub hw) h)) (State.elapse_does (sub hw) h))

theorem execGateListSwitch_does {dt : Nat} {mac : Nat} {s : State} (hw : [.clock, .regs, .macs] ⊆ ps) (h : Does ps s0 s) :
    DoesR ps s0 (execGateListSwitch dt mac s) := by
  unfold execGateListSwitch
  exact (by
  (try extract_lets); split
  · exact DoesR.next (State.elapse_does (sub hw) h)
  · exact DoesR.ite (DoesR.next (State.elapse_does (sub hw) h)) (DoesR.next (Does.after (Does.ite (State.bump_does (sub hw) Does.refl) Does.refl) (State.setFlag_does (sub hw) (State.setFld_does (sub hw) (State.setFlag_does (sub hw) (State.setReg64_does (sub hw) (State.onMac_does (sub hw) (State.copyGates_does (sub hw) (State.elapse_does (sub hw) h))))))))))

theorem execLateDrop_does {dt : Nat} {mac : Nat} {s : State} (hw : [.clock, .regs, .host, .rings, .mgt, .queues, .macs, .pwr, .link] ⊆ ps) (h : Does ps s0 s) :
    DoesR ps s0 (execLateDrop dt mac s) := by
  unfold execLateDrop
  exact (by
  (try extract_lets); split
  · exact DoesR.next (State.elapse_does (sub hw) h)
  · exact DoesR.ite (DoesR.next (State.elapse_does (sub hw) h)) (DoesR.next (State.pump_does (sub hw) (State.frameEnds_does (sub hw) (State.bump_does (sub hw) (State.onMac_does (sub hw) (State.elapse_does (sub hw) h)))))))

theorem execLaunch_does {dt : Nat} {mac : Nat} {s : State} (hw : [.clock, .regs, .host, .rings, .mgt, .queues, .macs, .pwr, .link] ⊆ ps) (h : Does ps s0 s) :
    DoesR ps s0 (execLaunch dt mac s) := by
  unfold execLaunch
  exact (by
  (try extract_lets); split
  · exact DoesR.next (State.elapse_does (sub hw) h)
  · exact DoesR.ite (DoesR.next (State.elapse_does (sub hw) h)) (DoesR.ite (DoesR.next (State.pump_does (sub hw) (State.frameLinkDown_does (sub hw) (State.onMac_does (sub hw) (State.elapse_does (sub hw) h))))) (DoesR.next (State.onMac_does (sub hw) (State.elapse_does (sub hw) h)))))

theorem execLpiEntry_does {dt : Nat} {mac : Nat} {s : State} (hw : [.clock, .regs, .macs] ⊆ ps) (h : Does ps s0 s) :
    DoesR ps s0 (execLpiEntry dt mac s) := by
  unfold execLpiEntry
  exact DoesR.ite (DoesR.next (State.bump_does (sub hw) (State.onMac_does (sub hw) (State.elapse_does (sub hw) h)))) (DoesR.next (State.elapse_does (sub hw) h))

theorem execLpiReceive_does {mac : Nat} {on : Bool} {s : State} (hw : [.regs, .macs] ⊆ ps) (h : Does ps s0 s) :
    DoesR ps s0 (execLpiReceive mac on s) := by
  unfold execLpiReceive
  exact DoesR.ite (DoesR.next (Does.ite (State.bump_does (sub hw) (State.onMac_does (sub hw) h)) (State.onMac_does (sub hw) h))) (DoesR.next h)

theorem execLpiWake_does {dt : Nat} {mac : Nat} {s : State} (hw : [.clock, .macs] ⊆ ps) (h : Does ps s0 s) :
    DoesR ps s0 (execLpiWake dt mac s) := by
  unfold execLpiWake
  exact DoesR.ite (DoesR.next (State.onMac_does (sub hw) (State.elapse_does (sub hw) h))) (DoesR.next (State.elapse_does (sub hw) h))

theorem execMacFault_does {mac : Nat} {localF : Bool} {remoteF : Bool} {rx : Option Nat} {s : State} (hw : [.regs, .host, .rings, .mgt, .queues, .macs, .pwr, .link] ⊆ ps) (h : Does ps s0 s) :
    DoesR ps s0 (execMacFault mac localF remoteF rx s) := by
  unfold execMacFault
  exact DoesR.ite (DoesR.next (State.onMac_does (sub hw) (State.macDown_does hw h))) (DoesR.next h)

theorem execMacFaultClear_does {dt : Nat} {mac : Nat} {s : State} (hw : [.clock, .regs, .host, .rings, .macs] ⊆ ps) (h : Does ps s0 s) :
    DoesR ps s0 (execMacFaultClear dt mac s) := by
  unfold execMacFaultClear
  exact DoesR.ite (DoesR.next (State.macState_does (sub hw) (State.onMac_does (sub hw) (State.elapse_does (sub hw) h)))) (DoesR.next (State.elapse_does (sub hw) h))

theorem execMacLockLoss_does {mac : Nat} {rx : Option Nat} {s : State} (hw : [.regs, .host, .rings, .mgt, .queues, .macs, .pwr, .link] ⊆ ps) (h : Does ps s0 s) :
    DoesR ps s0 (execMacLockLoss mac rx s) := by
  unfold execMacLockLoss
  exact DoesR.ite (DoesR.next (State.macDown_does hw (State.onMac_does (sub hw) h))) (DoesR.next h)

theorem execMdioDone_does {dt : Nat} {data : Option (BitVec 16)} {s : State} (hw : [.clock, .regs] ⊆ ps) (h : Does ps s0 s) :
    DoesR ps s0 (execMdioDone dt data s) := by
  unfold execMdioDone
  exact DoesR.ite (DoesR.next (State.elapse_does (sub hw) h)) (DoesR.ite (DoesR.next (Does.after (Does.ite (State.setReg_does (sub hw) Does.refl) Does.refl) (State.setFlag_does (sub hw) (State.setFlag_does (sub hw) (State.elapse_does (sub hw) h))))) (DoesR.ite ((by
  (try extract_lets); split
  · exact DoesR.next (State.setReg_does (sub hw) (State.setFlag_does (sub hw) (State.elapse_does (sub hw) h)))
  · exact DoesR.next (State.setReg_does (sub hw) (State.setFlag_does (sub hw) (State.setFlag_does (sub hw) (State.elapse_does (sub hw) h)))))) (DoesR.next (State.setFlag_does (sub hw) (State.elapse_does (sub hw) h)))))

theorem execMdioStart_does {v : Word} {origin : Origin} {s : State} (hw : [.regs, .host, .rings, .audit, .mdioEnd, .wick, .pwr, .sta] ⊆ ps) (h : Does ps s0 s) :
    DoesR ps s0 (execMdioStart v origin s) := by
  unfold execMdioStart
  exact DoesR.next (mdioCmdWrite_does hw h)

theorem execNetEnable_does {mac : Nat} {v : Word} {origin : Origin} {s : State} (hw : [.regs, .host, .rings, .audit, .mgt, .queues, .macs, .wick, .pwr, .sta, .link] ⊆ ps) (h : Does ps s0 s) :
    DoesR ps s0 (execNetEnable mac v origin s) := by
  unfold execNetEnable
  exact DoesR.next (Does.ite (macCtrlWrite_does hw h) h)

theorem execNetSpeed_does {mac : Nat} {v : Word} {origin : Origin} {s : State} (hw : [.regs, .host, .rings, .audit, .mgt, .queues, .macs, .wick, .pwr, .sta, .link] ⊆ ps) (h : Does ps s0 s) :
    DoesR ps s0 (execNetSpeed mac v origin s) := by
  unfold execNetSpeed
  exact DoesR.next (Does.ite (macCtrlWrite_does hw h) h)

theorem execOctetCounterRead_does {mac : Nat} {tx : Bool} {s : State} (hw : [.regs, .host] ⊆ ps) (h : Does ps s0 s) :
    DoesR ps s0 (execOctetCounterRead mac tx s) := by
  unfold execOctetCounterRead
  exact DoesR.ite (DoesR.next h) (DoesR.next (State.onHost_does (sub hw) (State.setReg_does (sub hw) h)))

theorem execRxBuf_does {ring : Nat} {s : State} (hw : [.regs, .host, .rings, .mgt, .macs, .pwr, .link] ⊆ ps) (h : Does ps s0 s) :
    DoesR ps s0 (execRxBuf ring s) := by
  unfold execRxBuf
  exact DoesR.ite (DoesR.next h) ((by
  (try extract_lets); split
  · exact DoesR.next h
  · exact DoesR.ite (DoesR.next (State.finish_does hw h)) (DoesR.ite (DoesR.next (State.finish_does hw h)) (DoesR.next (State.setPhase_does (sub hw) h)))))

theorem execTransmitSelection_does {dt : Nat} {mac : Nat} {s : State} (hw : [.clock, .regs, .host, .rings, .mgt, .queues, .macs, .pwr, .link] ⊆ ps) (h : Does ps s0 s) :
    DoesR ps s0 (execTransmitSelection dt mac s) := by
  unfold execTransmitSelection
  exact DoesR.ite (DoesR.next (State.elapse_does (sub hw) h)) ((by
  (try extract_lets); split
  · exact DoesR.next (State.startFrame_does (sub hw) (Does.foldl (State.elapse_does (sub hw) h) fun _ _ h1 => State.dropNever_does (sub hw) h1))
  · exact DoesR.next (Does.foldl (State.elapse_does (sub hw) h) fun _ _ h1 => State.dropNever_does (sub hw) h1)))

theorem execTxFrame_does {ring : Nat} {data : Option (List Byte)} {s : State} (hw : [.regs, .host, .rings, .mgt, .queues, .macs, .pwr, .link] ⊆ ps) (h : Does ps s0 s) :
    DoesR ps s0 (execTxFrame ring data s) := by
  unfold execTxFrame
  exact (by
  (try extract_lets); split
  · exact DoesR.next h
  · exact (by
   (try extract_lets); split
   · exact DoesR.next (State.txRefuse_does (sub hw) h)
   · exact (by
    (try extract_lets); split
    · exact DoesR.next (State.txRefuse_does (sub hw) (State.bump_does (sub hw) h))
    · exact DoesR.next (State.pump_does hw (State.onMac_does (sub hw) (State.setPhase_does (sub hw) h))))))

theorem execTxSso_does {ring : Nat} {record : Option (List Byte)} {payload : Option (List Byte)} {s : State} (hw : [.regs, .host, .rings, .mgt, .queues, .macs, .pwr, .link] ⊆ ps) (h : Does ps s0 s) :
    DoesR ps s0 (execTxSso ring record payload s) := by
  unfold execTxSso
  exact (by
  (try extract_lets); split
  · exact DoesR.next h
  · exact (by
   (try extract_lets); split
   · exact DoesR.ite (DoesR.next (State.txRefuse_does (sub hw) h)) (DoesR.next (State.txRefuse_does (sub hw) h))
   · exact (by
    (try extract_lets); split
    · exact DoesR.next (State.txRefuse_does (sub hw) (State.bump_does (sub hw) h))
    · exact DoesR.ite (DoesR.next (State.txRefuse_does (sub hw) h)) ((by
     (try extract_lets); split
     · exact DoesR.next (State.txRefuse_does (sub hw) (State.bump_does (sub hw) h))
     · exact DoesR.next (State.pump_does hw (State.onMac_does (sub hw) (State.setPhase_does (sub hw) h))))))))

end Sys2Proof.Machine
end

