-- ==== Sys2Proof/Laws/DoesVoice.lean ====
section
/-!
SUPPORT. Laws/DoesVoice.lean: what each operation of Machine/Streams.lean, Machine/Voice.lean, Machine/VoiceTick.lean may write, and that it keeps what is sound.
The proofs put the lemmas of the operations called together in the mods in which the operation calls them.
-/
namespace Sys2Proof.Machine

-- One proof at a time: the proofs of this file in parallel ask for more threads than the memory bound holds.
set_option Elab.async false
variable {ps : List Part} {s0 : State}

/-! ### Machine/Streams.lean -/

theorem State.noteUpcoming_does {s : State} (hw : [.macs] ⊆ ps) (h : Does ps s0 s) :
    Does ps s0 (State.noteUpcoming s) := by
  unfold State.noteUpcoming
  exact Does.foldl h fun _ _ h1 => State.onMac_does hw h1

theorem State.streamChannels_does {i m0 n : Nat} {s : State} {out : List (Nat × Block)} (hw : [.regs, .streams] ⊆ ps)
    (h : Does ps s0 s) : Does ps s0 (State.streamChannels i m0 n s out).1 := by
  induction n generalizing s out with
  | zero => exact h
  | succ n ih =>
    unfold State.streamChannels
    extract_lets
    refine Does.ite_fst (ih h) ?_
    exact ih (Does.after (Does.ite (State.bump_does (sub hw) Does.refl) (Does.ite (State.bump_does (sub hw) Does.refl) Does.refl))
      (State.setStream_does (sub hw) h))

theorem State.streamIngress_does {s : State} {m0 m1 : Nat} (hw : [.regs, .streams] ⊆ ps) (h : Does ps s0 s) :
    Does ps s0 (State.streamIngress s m0 m1).1 :=
  Does.foldl_fst h fun _ _ k => Does.ite_fst (State.setStream_does (sub hw) (State.streamChannels_does (sub hw) k)) k

theorem State.launchPacket_does {s : State} {i : Nat} {r : List Byte} {payload : List Byte} {p : Nat} {at_ : Nat} (hw : [.regs, .macs] ⊆ ps) (h : Does ps s0 s) :
    Does ps s0 (State.launchPacket s i r payload p at_) := by
  unfold State.launchPacket
  exact Does.foldl (Does.ite (State.bump_does (sub hw) h) h) fun _ _ h1 => Does.ite (State.bump_does (sub hw) h1) (State.onMac_does (sub hw) h1)

theorem execStrStart_does {data : Option (List Byte)} {s : State} (hw : [.regs, .host, .rings, .audit, .mgt, .macs, .streams, .pwr, .link] ⊆ ps) (h : Does ps s0 s) :
    DoesR ps s0 (execStrStart data s) := by
  unfold execStrStart
  exact (by
  (try extract_lets); split
  · exact DoesR.next h
  · exact DoesR.ite (DoesR.next (State.finish_does (sub hw) h)) ((by
   (try extract_lets); split
   · exact DoesR.next (State.finish_does (sub hw) (Does.ite (State.bump_does (sub hw) h) h))
   · exact DoesR.ite (DoesR.next (State.stall_does (sub hw) h)) (DoesR.next (State.setStream_does (sub hw) (State.auditReserve_does (sub hw) (State.setPhase_does (sub hw) h)))))))

theorem execStrStop_does {s : State} (hw : [.regs, .host, .rings, .audit, .mgt, .macs, .streams, .pwr, .link] ⊆ ps) (h : Does ps s0 s) :
    DoesR ps s0 (execStrStop s) := by
  unfold execStrStop
  exact (by
  (try extract_lets); split
  · exact DoesR.next h
  · exact DoesR.ite (DoesR.next (State.finish_does (sub hw) h)) (DoesR.ite (DoesR.next (State.finish_does (sub hw) h)) (DoesR.ite (DoesR.next (State.finish_does (sub hw) h)) (DoesR.ite (DoesR.next (State.finish_does (sub hw) h)) (DoesR.ite (DoesR.next (State.stall_does (sub hw) h)) (DoesR.next (State.setStream_does (sub hw) (State.auditReserve_does (sub hw) (State.setPhase_does (sub hw) h)))))))))

theorem State.streamRx_does {s : State} {i : Nat} {n : Nat} {p : Parsed} {u : Option Udp} {parity : Bool} (hw : [.regs, .streams] ⊆ ps) (h : Does ps s0 s) :
    Does ps s0 (State.streamRx s i n p u parity) := by
  unfold State.streamRx
  exact (by
  (try extract_lets); split
  · exact (by
   (try extract_lets); split
   · exact Does.after (Does.ite (State.bump_does (sub hw) Does.refl) Does.refl) (Does.ite (State.bump_does (sub hw) (State.bump_does (sub hw) (State.setStream_does (sub hw) h))) (State.bump_does (sub hw) (State.setStream_does (sub hw) h))))
  · exact State.bump_does (sub hw) h)

theorem execStreamPacketLaunch_does {dt : Nat} {stream : Nat} {s : State} (hw : [.clock, .regs, .macs, .streams] ⊆ ps) (h : Does ps s0 s) :
    DoesR ps s0 (execStreamPacketLaunch dt stream s) := by
  unfold execStreamPacketLaunch
  exact DoesR.ite (DoesR.next (State.elapse_does (sub hw) h)) (DoesR.after (DoesR.ite (DoesR.next Does.refl) (DoesR.next (State.launchPacket_does (sub hw) Does.refl))) (Does.ite (State.bump_does (sub hw) (State.setStream_does (sub hw) (State.elapse_does (sub hw) h))) (State.setStream_does (sub hw) (State.elapse_does (sub hw) h))))

theorem execStreamStateChange_does {stream : Nat} {s : State} (hw : [.regs, .host, .rings, .audit, .mgt, .macs, .streams, .wick, .pwr, .sta, .link] ⊆ ps) (h : Does ps s0 s) :
    DoesR ps s0 (execStreamStateChange stream s) := by
  unfold execStreamStateChange
  exact (by
  (try extract_lets); split
  · exact DoesR.next h
  · exact DoesR.ite (DoesR.next h) (DoesR.next (State.finishAt_does (sub hw) (State.setStream_does (sub hw) (State.chainEntry_does (sub hw) (State.auditRelease_does (sub hw) h))))))

/-! ### Machine/Voice.lean -/

theorem State.setVox_does {s : State} {v : Nat} {c : VoxChan} (hw : [.vox] ⊆ ps) (h : Does ps s0 s) :
    Does ps s0 (State.setVox s v c) := by
  unfold State.setVox
  exact Does.upd [.vox] hw h

theorem State.onVox_does {s : State} {v : Nat} {f : VoxChan → VoxChan} (hw : [.vox] ⊆ ps) (h : Does ps s0 s) :
    Does ps s0 (State.onVox s v f) := by
  unfold State.onVox
  exact State.setVox_does hw h

theorem State.voxEvent_does {s : State} {v : Nat} {code : Nat} {w1 : Nat} {w2 : Nat} {time : Nat} (hw : [.regs, .host, .rings] ⊆ ps) (h : Does ps s0 s) :
    Does ps s0 (State.voxEvent s v code w1 w2 time) := by
  unfold State.voxEvent
  exact Does.ite (State.setFlag_does (sub hw) (State.writeOrDrop_does hw h)) (State.fireRing_does (sub hw) (State.writeOrDrop_does hw h))

theorem State.ecuSwitch_does {s : State} {u : Nat} {out : Bool} (hw : [.regs, .host, .rings, .vox] ⊆ ps) (h : Does ps s0 s) :
    Does ps s0 (State.ecuSwitch s u out) := by
  unfold State.ecuSwitch
  exact Does.foldl h fun _ _ h1 => State.voxEvent_does (sub hw) (Does.ite h1 (State.onVox_does (sub hw) h1))

theorem State.degradeOne_does {step : Nat} {s : State} {v : Nat} (hw : [.regs, .host, .rings, .vox] ⊆ ps) (h : Does ps s0 s) :
    Does ps s0 (State.degradeOne step s v) := by
  unfold State.degradeOne
  exact Does.ite h (Does.ite (Does.ite (State.setVox_does (sub hw) h) h) (Does.ite h (State.voxEvent_does (sub hw) (State.setVox_does (sub hw) h))))

theorem State.restoreOne_does {step : Nat} {s : State} {v : Nat} (hw : [.regs, .host, .rings, .vox] ⊆ ps) (h : Does ps s0 s) :
    Does ps s0 (State.restoreOne step s v) := by
  unfold State.restoreOne
  exact Does.ite (Does.ite (State.voxEvent_does (sub hw) (State.voxEvent_does (sub hw) (State.bump_does (sub hw) (State.setVox_does (sub hw) h)))) h) (Does.ite (State.setVox_does (sub hw) h) h)

theorem State.voxDegrade_does {s : State} (hw : [.regs, .host, .rings, .vox] ⊆ ps) (h : Does ps s0 s) :
    Does ps s0 (State.voxDegrade s) := by
  unfold State.voxDegrade
  exact Does.ite h (Does.after (Does.ite Does.refl (Does.foldl Does.refl fun _ _ h5 => State.restoreOne_does hw h5)) (Does.foldl (Does.foldl (Does.foldl h fun _ _ h1 => State.degradeOne_does hw h1) fun _ _ h2 => State.degradeOne_does hw h2) fun _ _ h3 => State.restoreOne_does hw h3))

theorem State.opsIndicate_does {s : State} {c : Nat} {kind : Nat} {long : Bool} (hw : [.vox] ⊆ ps) (h : Does ps s0 s) :
    Does ps s0 (State.opsIndicate s c kind long) := by
  unfold State.opsIndicate
  exact Does.foldl h fun _ _ h1 => State.onVox_does hw h1

theorem State.callAudit_does {s : State} {v : Nat} {op : Nat} {old : List Byte} {new : List Byte} (hw : [.regs, .host, .rings, .audit, .wick, .pwr, .sta] ⊆ ps) (h : Does ps s0 s) :
    Does ps s0 (State.callAudit s v op old new) := by
  unfold State.callAudit
  exact State.auditWrite_does hw h

theorem State.voxEndOps_does {s : State} {v : Nat} {time : Nat} {c : VoxChan} (hw : [.regs, .host, .rings, .audit, .mgt, .macs, .wick, .pwr, .sta, .link] ⊆ ps) (h : Does ps s0 s) :
    Does ps s0 (State.voxEndOps s v time c) := by
  unfold State.voxEndOps
  exact Does.foldl (Does.foldl (Does.foldl h fun _ _ h1 => Does.ite (State.finishAt_does (sub hw) (Does.ite h1 (State.callAudit_does (sub hw) h1))) (State.finishAt_does (sub hw) (State.auditRelease_does (sub hw) h1))) fun _ _ h2 => State.finishAt_does (sub hw) h2) fun _ _ h3 => State.finishAt_does (sub hw) h3

theorem State.voxToIdle_does {s : State} {v : Nat} {reason : Nat} {time : Nat} (hw : [.regs, .host, .rings, .audit, .mgt, .macs, .vox, .wick, .pwr, .sta, .link] ⊆ ps) (h : Does ps s0 s) :
    Does ps s0 (State.voxToIdle s v reason time) := by
  unfold State.voxToIdle
  exact State.voxEndOps_does (sub hw) (State.setVox_does (sub hw) (State.voxEvent_does (sub hw) h))

theorem State.voxStopAll_does {s : State} (hw : [.regs, .host, .rings, .audit, .mgt, .macs, .vox, .wick, .pwr, .sta, .link] ⊆ ps) (h : Does ps s0 s) :
    Does ps s0 (State.voxStopAll s) := by
  unfold State.voxStopAll
  exact Does.foldl h fun _ _ h1 => State.voxToIdle_does hw h1

theorem State.voxRefuse_does {s : State} {ring : Nat} {index : Nat} {st : Nat} (hw : [.regs, .host, .rings, .mgt, .macs, .pwr, .link] ⊆ ps) (h : Does ps s0 s) :
    Does ps s0 (State.voxRefuse s ring index st) := by
  unfold State.voxRefuse
  exact State.finish_does hw (State.bump_does (sub hw) h)

theorem execVoxOpen_does {ring : Nat} {data : Option (List Byte)} {s : State} (hw : [.regs, .host, .rings, .audit, .mgt, .macs, .vox, .pwr, .link] ⊆ ps) (h : Does ps s0 s) :
    DoesR ps s0 (execVoxOpen ring data s) := by
  unfold execVoxOpen
  split
  · exact DoesR.next h
  · extract_lets v r have_ bad
    clear_value bad
    cases bad with
    | some st =>
      exact DoesR.next (State.voxRefuse_does (sub hw) (Does.ite (State.bump_does (sub hw) h) h))
    | none =>
      exact DoesR.ite (DoesR.next (State.stall_does (sub hw) h))
        (DoesR.next (State.setVox_does (sub hw) (State.auditReserve_does (sub hw) (State.setPhase_does (sub hw) h))))

theorem execVoxModify_does {ring : Nat} {data : Option (List Byte)} {s : State} (hw : [.regs, .host, .rings, .audit, .mgt, .macs, .vox, .pwr, .link] ⊆ ps) (h : Does ps s0 s) :
    DoesR ps s0 (execVoxModify ring data s) := by
  unfold execVoxModify
  split
  · exact DoesR.next h
  · extract_lets v c r have_ bad
    clear_value bad
    cases bad with
    | some st =>
      exact DoesR.next (State.voxRefuse_does (sub hw) (Does.ite (State.bump_does (sub hw) h) h))
    | none =>
      exact DoesR.ite (DoesR.next (State.stall_does (sub hw) h))
        (DoesR.next (State.onVox_does (sub hw) (State.auditReserve_does (sub hw) (State.setPhase_does (sub hw) h))))

theorem execVoxClose_does {ring : Nat} {s : State} (hw : [.regs, .host, .rings, .audit, .mgt, .macs, .vox, .pwr, .link] ⊆ ps) (h : Does ps s0 s) :
    DoesR ps s0 (execVoxClose ring s) := by
  unfold execVoxClose
  split
  · exact DoesR.next h
  · extract_lets v bad
    clear_value bad
    cases bad with
    | some st => exact DoesR.next (State.voxRefuse_does (sub hw) h)
    | none =>
      exact DoesR.ite (DoesR.next (State.stall_does (sub hw) h))
        (DoesR.next (State.onVox_does (sub hw) (State.auditReserve_does (sub hw) (State.setPhase_does (sub hw) h))))

theorem State.voxHold_does {s : State} {v : Nat} {p : Rtp} {units : Nat} (hw : [.regs, .vox] ⊆ ps) (h : Does ps s0 s) :
    Does ps s0 (State.voxHold s v p units) := by
  unfold State.voxHold
  exact Does.ite (State.bump_does (sub hw) (State.setVox_does (sub hw) h)) (Does.ite (State.bump_does (sub hw) (State.setVox_does (sub hw) h)) (Does.ite (State.bump_does (sub hw) (State.setVox_does (sub hw) h)) (State.setVox_does (sub hw) h)))

theorem State.voxAccept_does {s : State} {v : Nat} {ta : Nat} {p : Rtp} {units : Nat} (hw : [.regs, .host, .rings, .vox] ⊆ ps) (h : Does ps s0 s) :
    Does ps s0 (State.voxAccept s v ta p units) := by
  unfold State.voxAccept
  exact (by
  (try extract_lets); split
  · exact Does.ite ((by
   (try extract_lets); split
   · exact State.voxHold_does (sub hw) (State.voxEvent_does (sub hw) (State.bump_does (sub hw) (State.setVox_does (sub hw) h))))) (State.voxHold_does (sub hw) (State.setVox_does (sub hw) h)))

theorem State.voxRx_does {s : State} {v : Nat} {u : Udp} {ta : Nat} (hw : [.regs, .host, .rings, .vox] ⊆ ps) (h : Does ps s0 s) :
    Does ps s0 (State.voxRx s v u ta) := by
  unfold State.voxRx
  exact Does.ite h (Does.ite (State.bump_does (sub hw) h) (Does.ite (State.bump_does (sub hw) h) ((by
  (try extract_lets); split
  · exact State.bump_does (sub hw) h
  · exact (by
   (try extract_lets); split
   · exact State.bump_does (sub hw) h
   · exact (by
    (try extract_lets); split
    · exact State.voxAccept_does hw h
    · exact Does.ite (State.voxAccept_does hw (State.onVox_does (sub hw) h)) (Does.ite (State.bump_does (sub hw) h) (Does.ite (State.bump_does (sub hw) (State.onVox_does (sub hw) h)) (State.voxAccept_does hw (State.voxEvent_does (sub hw) (State.voxEvent_does (sub hw) (State.bump_does (sub hw) (State.onVox_does (sub hw) h)))))))))))))

theorem State.talkOffAct_does {s : State} {v : Nat} {pos : Nat} (hw : [.regs, .host, .rings, .vox] ⊆ ps) (h : Does ps s0 s) :
    Does ps s0 (State.talkOffAct s v pos) := by
  unfold State.talkOffAct
  exact Does.ite (State.voxEvent_does (sub hw) (State.setVox_does (sub hw) h)) (State.setVox_does (sub hw) h)

theorem execChannelIdle_does {dt : Nat} {chan : Nat} {s : State} (hw : [.clock, .regs, .host, .rings, .audit, .mgt, .macs, .vox, .wick, .pwr, .sta, .link] ⊆ ps) (h : Does ps s0 s) :
    DoesR ps s0 (execChannelIdle dt chan s) := by
  unfold execChannelIdle
  exact (by
  (try extract_lets); split
  · exact DoesR.ite (DoesR.next (State.voxDegrade_does (sub hw) (State.voxToIdle_does (sub hw) (State.elapse_does (sub hw) h)))) (DoesR.next (State.elapse_does (sub hw) h))
  · exact DoesR.next (State.elapse_does (sub hw) h))

theorem execCodecTaskMissed_does {dt : Nat} {chan : Nat} {s : State} (hw : [.clock, .regs, .host, .rings, .vox] ⊆ ps) (h : Does ps s0 s) :
    DoesR ps s0 (execCodecTaskMissed dt chan s) := by
  unfold execCodecTaskMissed
  exact (by
  (try extract_lets); split
  · exact DoesR.ite (DoesR.next (State.elapse_does (sub hw) h)) (DoesR.next (State.voxDegrade_does (sub hw) (State.bump_does (sub hw) (State.setVox_does (sub hw) (State.elapse_does (sub hw) h)))))
  · exact DoesR.next (State.elapse_does (sub hw) h))

theorem execConcealmentLimit_does {dt : Nat} {chan : Nat} {s : State} (hw : [.clock, .vox] ⊆ ps) (h : Does ps s0 s) :
    DoesR ps s0 (execConcealmentLimit dt chan s) := by
  unfold execConcealmentLimit
  exact DoesR.next (Does.ite (State.setVox_does (sub hw) (State.elapse_does (sub hw) h)) (State.elapse_does (sub hw) h))

theorem execEcEnabled_does {dt : Nat} {chan : Nat} {s : State} (hw : [.clock, .regs, .host, .rings, .vox] ⊆ ps) (h : Does ps s0 s) :
    DoesR ps s0 (execEcEnabled dt chan s) := by
  unfold execEcEnabled
  exact DoesR.ite (DoesR.next (State.voxEvent_does (sub hw) (State.setVox_does (sub hw) (State.elapse_does (sub hw) h)))) (DoesR.next (State.elapse_does (sub hw) h))

theorem execKeyChange_does {chan : Nat} {s : State} (hw : [.regs, .host, .rings, .mgt, .macs, .vox, .pwr, .link] ⊆ ps) (h : Does ps s0 s) :
    DoesR ps s0 (execKeyChange chan s) := by
  unfold execKeyChange
  exact DoesR.ite (DoesR.next h) (DoesR.next (Does.foldl (Does.ite (State.setVox_does (sub hw) h) (State.voxEvent_does (sub hw) (State.setVox_does (sub hw) h))) fun _ _ h1 => State.finishAt_does (sub hw) h1))

theorem execNlpForceEnd_does {dt : Nat} {chan : Nat} {s : State} (hw : [.clock, .vox] ⊆ ps) (h : Does ps s0 s) :
    DoesR ps s0 (execNlpForceEnd dt chan s) := by
  unfold execNlpForceEnd
  exact DoesR.next (Does.ite (State.setVox_does (sub hw) (State.elapse_does (sub hw) h)) (State.elapse_does (sub hw) h))

theorem execRxTimeout_does {dt : Nat} {chan : Nat} {s : State} (hw : [.clock, .regs, .host, .rings, .vox] ⊆ ps) (h : Does ps s0 s) :
    DoesR ps s0 (execRxTimeout dt chan s) := by
  unfold execRxTimeout
  exact DoesR.ite (DoesR.next (State.voxEvent_does (sub hw) (State.setVox_does (sub hw) (State.elapse_does (sub hw) h)))) (DoesR.next (State.elapse_does (sub hw) h))

theorem execTalkOff_does {dt : Nat} {chan : Nat} {s : State} (hw : [.clock, .regs, .host, .rings, .vox] ⊆ ps) (h : Does ps s0 s) :
    DoesR ps s0 (execTalkOff dt chan s) := by
  unfold execTalkOff
  exact (by
  (try extract_lets); split
  · exact DoesR.next (State.talkOffAct_does (sub hw) (State.elapse_does (sub hw) h))
  · exact DoesR.next (State.elapse_does (sub hw) h))

theorem execVoxKey_does {ring : Nat} {s : State} (hw : [.regs, .host, .rings, .mgt, .macs, .vox, .pwr, .link] ⊆ ps) (h : Does ps s0 s) : DoesR ps s0 (execVoxKey ring s) := by
  unfold execVoxKey
  split
  · exact DoesR.next h
  · extract_lets v bad
    clear_value bad
    cases bad with
    | some st => exact DoesR.next (State.voxRefuse_does (sub hw) h)
    | none => exact DoesR.next (State.onVox_does (sub hw) (State.setPhase_does (sub hw) h))

theorem execVoxQuery_does {ring : Nat} {s : State} (hw : [.regs, .host, .rings, .mgt, .macs, .vox, .pwr, .link] ⊆ ps) (h : Does ps s0 s) :
    DoesR ps s0 (execVoxQuery ring s) := by
  unfold execVoxQuery
  split
  · exact DoesR.next h
  · extract_lets v bad
    clear_value bad
    cases bad with
    | some st => exact DoesR.next (State.voxRefuse_does (sub hw) h)
    | none => exact DoesR.next (State.onVox_does (sub hw) (State.setPhase_does (sub hw) h))

/-! ### Machine/VoiceTick.lean -/

theorem State.voxConverge_does {s : State} {v : Nat} {at_ : Nat} (hw : [.regs, .host, .rings, .vox] ⊆ ps) (h : Does ps s0 s) :
    Does ps s0 (State.voxConverge s v at_) := by
  unfold State.voxConverge
  exact Does.ite (State.voxEvent_does (sub hw) (State.setVox_does (sub hw) h)) h

theorem State.cancelGo_does {v n k : Nat} {start : Int} {at_ : Nat} {sin : List Int} {s : State} (hw : [.regs, .host, .rings, .vox] ⊆ ps)
    (h : Does ps s0 s) : Does ps s0 (State.cancelGo v n k start at_ sin s).1 := by
  induction k generalizing start at_ sin s with
  | zero => exact h
  | succ k ih => exact ih (State.voxConverge_does (sub hw) (State.setVox_does (sub hw) h))

theorem State.voxAdvance_does {s : State} (hw : [.vox] ⊆ ps) (h : Does ps s0 s) :
    Does ps s0 (State.voxAdvance s) := by
  unfold State.voxAdvance
  exact Does.foldl h fun _ _ h1 => State.onVox_does hw h1

theorem State.voxRout_does {s : State} {v : Nat} {t : VoxTask} (hw : [.regs, .vox] ⊆ ps) (h : Does ps s0 s) :
    Does ps s0 (State.voxRout s v t).1 := by
  unfold State.voxRout
  extract_lets c r fch n lead
  generalize (if lead = n then _ else _) = q
  obtain ⟨dec, ys⟩ := q
  dsimp only
  generalize muteGo _ _ _ _ = q
  obtain ⟨xs, ms, mute⟩ := q
  exact State.setVox_does (sub hw) (Does.ite (State.bump_does (sub hw) h) h)

theorem State.voxTalk_does {s : State} {v : Nat} {pos : Nat} {xs : List Int} (hw : [.regs, .host, .rings, .vox] ⊆ ps) (h : Does ps s0 s) :
    Does ps s0 (State.voxTalk s v pos xs) := by
  unfold State.voxTalk
  exact Does.after (Does.ite (Does.ite (State.setVox_does (sub hw) Does.refl) (Does.ite (State.voxEvent_does (sub hw) (State.setVox_does (sub hw) Does.refl)) (State.setVox_does (sub hw) Does.refl))) (Does.ite (State.setVox_does (sub hw) Does.refl) (State.setVox_does (sub hw) Does.refl))) ((by
  (try extract_lets); split
  · exact State.talkOffAct_does hw h
  · exact h))

theorem State.voxSend_does {s : State} {v : Nat} {t : VoxTask} (hw : [.regs, .host, .rings, .queues, .macs, .vox] ⊆ ps) (h : Does ps s0 s) :
    Does ps s0 (State.voxSend s v t) := by
  unfold State.voxSend
  exact (by
  (try extract_lets); split
  · exact (by
   (try extract_lets); split
   · exact State.setVox_does (sub hw) h
   · exact State.engineFrame_does (sub hw) (State.setVox_does (sub hw) h)))

theorem State.voxFinish_does {s : State} {v : Nat} (hw : [.regs, .host, .rings, .queues, .macs, .vox] ⊆ ps) (h : Does ps s0 s) :
    Does ps s0 (State.voxFinish s v) := by
  unfold State.voxFinish
  exact (by
  (try extract_lets); split
  · exact h
  · exact (by
   (try extract_lets); split
   · rename_i e; have h1 := Does.of_fst e (State.voxRout_does (sub hw) (State.setVox_does (sub hw) h)); exact State.voxSend_does hw (Does.foldl (State.onVox_does (sub hw) h1) fun _ _ h3 => State.voxTalk_does (sub hw) h3)))

theorem State.voxAct_does {s : State} {v : Nat} {tk : Nat} {o : VoxOp} (hw : [.regs, .host, .rings, .audit, .mgt, .macs, .vox, .wick, .pwr, .sta, .link] ⊆ ps) (h : Does ps s0 s) :
    Does ps s0 (State.voxAct s v tk o) := by
  unfold State.voxAct
  exact (by
  (try extract_lets); split
  · exact State.finishAt_does (sub hw) (State.setVox_does (sub hw) (State.callAudit_does (sub hw) h))
  · exact Does.ite h (State.finishAt_does (sub hw) (State.setVox_does (sub hw) (State.callAudit_does (sub hw) h)))
  · exact Does.ite h (State.setPhase_does (sub hw) (State.setVox_does (sub hw) (State.callAudit_does (sub hw) h))))

theorem State.voxActs_does {s : State} {k : Nat} {tk : Nat} (hw : [.regs, .host, .rings, .audit, .mgt, .macs, .vox, .wick, .pwr, .sta, .link] ⊆ ps) (h : Does ps s0 s) :
    Does ps s0 (State.voxActs s k tk) := by
  unfold State.voxActs
  exact Does.foldl h fun _ _ h1 => Does.foldl h1 fun _ _ h2 => State.voxAct_does hw h2

theorem State.voxCancel_does {s : State} {v : Nat} {k : Nat} {sin : List Int} (hw : [.regs, .host, .rings, .vox] ⊆ ps) (h : Does ps s0 s) :
    Does ps s0 (State.voxCancel s v k sin).1 := by
  unfold State.voxCancel
  (try dsimp only); exact (by
 refine Does.ite_fst ?_ ?_
 · (try dsimp only); exact h
 · (try dsimp only); exact State.cancelGo_does hw h)

theorem State.voxProcess_does {s : State} {k : Nat} {tk : Nat} {v : Nat} (hw : [.regs, .host, .rings, .vox] ⊆ ps) (h : Does ps s0 s) :
    Does ps s0 (State.voxProcess s k tk v) := by
  unfold State.voxProcess
  exact Does.ite ((by
  (try extract_lets); split
  · rename_i e; have h1 := Does.of_fst e (State.voxCancel_does hw h); exact (by
   (try extract_lets); split
   · exact Does.ite (State.bump_does (sub hw) (State.setVox_does (sub hw) h1)) (State.setVox_does (sub hw) h1)))) h

theorem State.voxObserve_does {s : State} {k : Nat} {tk : Nat} {o : VoiceObs} (hw : [.regs, .host, .rings, .vox] ⊆ ps) (h : Does ps s0 s) :
    Does ps s0 (State.voxObserve s k tk o) := by
  unfold State.voxObserve
  exact (by
  (try extract_lets); split
  · exact Does.ite ((by
   (try extract_lets); split
   · exact State.voxEvent_does (sub hw) (State.setVox_does (sub hw) h)
   · exact h)) h
  · exact (by
   (try extract_lets); split
   · exact Does.ite (Does.ite (State.voxEvent_does (sub hw) (State.setVox_does (sub hw) h)) (State.setVox_does (sub hw) h)) h
   · exact h)
  · exact Does.ite (State.voxEvent_does (sub hw) (State.setVox_does (sub hw) h)) h
  · exact Does.ite (Does.ite (State.voxEvent_does (sub hw) (State.setVox_does (sub hw) h)) (State.setVox_does (sub hw) h)) h
  · exact Does.ite h (Does.ite (State.voxEvent_does (sub hw) (State.setVox_does (sub hw) (Does.ite (State.voxEvent_does (sub hw) h) h))) (Does.ite (State.voxEvent_does (sub hw) h) h)))

theorem State.voxQueries_does {s : State} {v : Nat} {tk : Nat} (hw : [.regs, .host, .rings, .mgt, .macs, .vox, .pwr, .link] ⊆ ps) (h : Does ps s0 s) :
    Does ps s0 (State.voxQueries s v tk) := by
  unfold State.voxQueries
  exact Does.foldl (State.setVox_does (sub hw) h) fun _ _ h1 => State.finishAt_does (sub hw) (State.emit_does (sub hw) h1)

theorem State.voiceTick_does {s : State} {obs : List VoiceObs} (hw : [.regs, .host, .rings, .audit, .mgt, .queues, .macs, .vox, .wick, .pwr, .sta, .link] ⊆ ps) (h : Does ps s0 s) :
    Does ps s0 (State.voiceTick s obs) := by
  unfold State.voiceTick
  exact Does.updOf [.vox] (sub hw) (Does.foldl (Does.foldl (Does.foldl (State.voxDegrade_does (sub hw) (State.voxActs_does (sub hw) (Does.foldl h fun _ _ h1 => State.voxFinish_does (sub hw) h1))) fun _ _ h2 => State.voxProcess_does (sub hw) h2) fun _ _ h3 => State.voxObserve_does (sub hw) h3) fun _ _ h4 => Does.ite (State.voxQueries_does (sub hw) h4) h4)

theorem State.voxFinishBy_does {s : State} {t : Nat} (hw : [.regs, .host, .rings, .queues, .macs, .vox] ⊆ ps) (h : Does ps s0 s) :
    Does ps s0 (State.voxFinishBy s t) := by
  unfold State.voxFinishBy
  exact Does.foldl h fun _ _ h1 => (by
  (try extract_lets); split
  · exact Does.ite (State.voxFinish_does hw h1) h1
  · exact h1)

end Sys2Proof.Machine
end

