-- ==== Sys2Proof/Laws/DoesPorts.lean ====
section
/-!
SUPPORT. Laws/DoesPorts.lean: what each operation of Machine/Wick.lean, Machine/Images.lean, Machine/Sec.lean, Machine/Mantle.lean may write, and that it keeps what is sound.
The proofs put the lemmas of the operations called together in the mods in which the operation calls them.
-/
namespace Sys2Proof.Machine

-- One proof at a time: the proofs of this file in parallel ask for more threads than the memory bound holds.
set_option Elab.async false
variable {ps : List Part} {s0 : State}

/-! ### Machine/Wick.lean -/

theorem State.onWick_does {s : State} {f : Wick → Wick} (hw : [.wick] ⊆ ps) (h : Does ps s0 s) :
    Does ps s0 (State.onWick s f) := by
  unfold State.onWick
  exact Does.upd [.wick] hw h

theorem State.levelSettle_does {s : State} (hw : [.free, .regs, .host, .rings, .wick] ⊆ ps) (h : Does ps s0 s) :
    Does ps s0 (State.levelSettle s) := by
  unfold State.levelSettle
  exact Does.foldl (State.onWick_does (sub hw) h) fun _ _ h2 => State.fireOpen_does (sub hw) h2

theorem State.setCore_does {s : State} {c : Nat} {x : LCore} (hw : [.lan] ⊆ ps) (h : Does ps s0 s) :
    Does ps s0 (State.setCore s c x) := by
  unfold State.setCore
  exact Does.upd [.lan] hw h

theorem State.onCore_does {s : State} {c : Nat} {f : LCore → LCore} (hw : [.lan] ⊆ ps) (h : Does ps s0 s) :
    Does ps s0 (State.onCore s c f) := by
  unfold State.onCore
  exact State.setCore_does hw h

theorem State.joinsFree_does {s : State} {g : Nat} {num : Nat} (hw : [.wick] ⊆ ps) (h : Does ps s0 s) :
    Does ps s0 (State.joinsFree s g num) := by
  unfold State.joinsFree
  exact Does.ite h (State.onWick_does hw h)

theorem State.traceRecord_does {s : State} {r : TraceRec} (hw : [.free, .regs, .host, .rings, .wick, .sta] ⊆ ps) (h : Does ps s0 s) :
    Does ps s0 (State.traceRecord s r) := by
  unfold State.traceRecord
  exact Does.ite (State.fireOpen_does (sub hw) (State.drain_does (sub hw) (State.onWick_does (sub hw) h))) (State.drain_does (sub hw) (State.onWick_does (sub hw) h))

theorem State.traceLost_does {s : State} (hw : [.regs, .wick] ⊆ ps) (h : Does ps s0 s) :
    Does ps s0 (State.traceLost s) := by
  unfold State.traceLost
  exact State.onWick_does (sub hw) (State.setFlag_does (sub hw) (State.bump_does (sub hw) h))

theorem State.trace_does {s : State} {code : Nat} {it : WItem} {core : Nat} {abort : Bool} {slice : Bool} (hw : [.free, .regs, .host, .rings, .wick, .sta] ⊆ ps) (h : Does ps s0 s) :
    Does ps s0 (State.trace s code it core abort slice) := by
  unfold State.trace
  exact Does.ite h (Does.after (Does.ite (State.traceLost_does (sub hw) Does.refl) (State.traceRecord_does hw Does.refl)) (Does.ite h (State.onWick_does (sub hw) (State.traceRecord_does hw h))))

theorem State.taskEnds_does {s : State} {t : WTask} {abort : Bool} (hw : [.free, .regs, .host, .rings, .wick, .sta] ⊆ ps) (h : Does ps s0 s) :
    Does ps s0 (State.taskEnds s t abort) := by
  unfold State.taskEnds
  exact Does.after (Does.ite Does.refl (Does.ite (State.bump_does (sub hw) Does.refl) (State.badBlock_does (sub hw) (State.bump_does (sub hw) Does.refl)))) (State.joinsFree_does (sub hw) (State.trace_does hw (State.onWick_does (sub hw) h)))

theorem State.abortTask_does {s : State} {c : Nat} (hw : [.free, .regs, .host, .rings, .wick, .lan, .sta] ⊆ ps) (h : Does ps s0 s) :
    Does ps s0 (State.abortTask s c) := by
  unfold State.abortTask
  exact (by
  (try extract_lets); split
  · exact h
  · exact State.taskEnds_does (sub hw) (State.onCore_does (sub hw) (State.levelSettle_does (sub hw) (State.onWick_does (sub hw) h))))

theorem State.expireItem_does {s : State} {it : WItem} (hw : [.free, .regs, .host, .rings, .wick, .sta] ⊆ ps) (h : Does ps s0 s) :
    Does ps s0 (State.expireItem s it) := by
  unfold State.expireItem
  exact State.trace_does hw (State.bump_does (sub hw) h)

theorem State.raiseEarlier_does {s : State} {ready : Nat} {flow : Nat} {level : Nat} (hw : [.free, .regs, .host, .rings, .wick, .sta] ⊆ ps) (h : Does ps s0 s) :
    Does ps s0 (State.raiseEarlier s ready flow level) := by
  unfold State.raiseEarlier
  exact Does.ite h (Does.foldl h fun _ _ h1 => (by
  (try extract_lets); split
  · exact Does.ite (State.trace_does hw (State.onWick_does (sub hw) h1)) h1
  · exact h1))

theorem State.enterItem_does {s : State} {it : WItem} (hw : [.free, .regs, .host, .rings, .wick, .sta] ⊆ ps) (h : Does ps s0 s) :
    Does ps s0 (State.enterItem s it) := by
  unfold State.enterItem
  exact State.levelSettle_does (sub hw) (State.onWick_does (sub hw) (State.raiseEarlier_does hw (State.onWick_does (sub hw) h)))

theorem State.tryPost_does {s : State} {q : WPost} {oldest : Bool} (hw : [.free, .regs, .host, .rings, .wick, .sta] ⊆ ps) (h : Does ps s0 s) :
    Does ps s0 (State.tryPost s q oldest).2 := by
  unfold State.tryPost
  (try dsimp only); exact (by
  (try extract_lets); split
  · (try dsimp only); exact (by
  refine Does.ite_snd ?_ ?_
  · (try dsimp only); exact h
  · (try dsimp only); exact State.fireRing_does (sub hw) (State.writeD2h_does (sub hw) h))
  · (try dsimp only); exact (by
   (try extract_lets); split
   · (try dsimp only); exact (by
   refine Does.ite_snd ?_ ?_
   · (try dsimp only); exact State.expireItem_does hw h
   · (try dsimp only); exact (by
     refine Does.ite_snd ?_ ?_
     · (try dsimp only); exact (by
       refine Does.ite_snd ?_ ?_
       · (try dsimp only); exact State.enterItem_does hw (State.onWick_does (sub hw) h)
       · (try dsimp only); exact h)
     · (try dsimp only); exact (by
       refine Does.ite_snd ?_ ?_
       · (try dsimp only); exact h
       · (try dsimp only); exact State.onWick_does (sub hw) h)))
   · (try dsimp only); exact (by
   refine Does.ite_snd ?_ ?_
   · (try dsimp only); exact h
   · (try dsimp only); exact h)))

theorem State.postReturn_does {s : State} {c : Nat} {dest : Nat} {code : Nat} (hw : [.lan] ⊆ ps) (h : Does ps s0 s) :
    Does ps s0 (State.postReturn s c dest code) := by
  unfold State.postReturn
  exact State.onCore_does hw h

theorem State.postEnds_does {s : State} {q : WPost} {code : Nat} (hw : [.regs, .host, .rings, .mgt, .macs, .lan, .pwr, .link] ⊆ ps) (h : Does ps s0 s) :
    Does ps s0 (State.postEnds s q code) := by
  unfold State.postEnds
  exact (by
  (try extract_lets); split
  · exact (by
   (try extract_lets); split
   · exact State.postReturn_does (sub hw) h
   · exact h)
  · exact Does.ite (State.finishAt_does (sub hw) h) (State.finish_does (sub hw) h))

theorem State.admitGo_does {l : List WPost} {tried : List Nat} {s : State} (hw : [.free, .regs, .host, .rings, .mgt, .macs, .wick, .lan, .pwr, .sta, .link] ⊆ ps) (h : Does ps s0 s) :
    Does ps s0 (State.admitGo l tried s) := by
  induction l generalizing tried s with
  | nil => exact h
  | cons q l ih =>
    unfold State.admitGo
    extract_lets a l'
    have k : Does ps s0 (s.tryPost a true).2 := State.tryPost_does (sub hw) h
    refine Does.ite (ih h) ?_
    generalize s.tryPost a true = p at k
    obtain ⟨p, t⟩ := p
    have kw : ∀ f, Does ps s0 (t.onWick f).levelSettle := fun f => State.levelSettle_does (sub hw) (State.onWick_does (sub hw) k)
    dsimp only at k ⊢
    split
    · exact ih h
    · exact State.postEnds_does (sub hw) (Does.ite (State.trace_does (sub hw) (kw _)) (kw _))

theorem State.blockPost_does {s : State} {q : WPost} (hw : [.free, .regs, .host, .rings, .wick, .sta] ⊆ ps) (h : Does ps s0 s) :
    Does ps s0 (State.blockPost s q) := by
  unfold State.blockPost
  exact State.trace_does hw (State.onWick_does (sub hw) (State.bump_does (sub hw) h))

theorem State.ageOne_does {s : State} {i : Nat} (hw : [.free, .regs, .host, .rings, .wick, .sta] ⊆ ps) (h : Does ps s0 s) :
    Does ps s0 (State.ageOne s i) := by
  unfold State.ageOne
  exact (by
  (try extract_lets); split
  · exact h
  · exact Does.ite h (State.raiseEarlier_does hw (Does.after (Does.ite (State.fireOpen_does (sub hw) (State.bump_does (sub hw) Does.refl)) Does.refl) (State.bump_does (sub hw) (State.trace_does hw (State.onWick_does (sub hw) h))))))

theorem State.releaseItem_does {s : State} {it : WItem} (hw : [.free, .regs, .host, .rings, .wick, .sta] ⊆ ps) (h : Does ps s0 s) :
    Does ps s0 (State.releaseItem s it) := by
  unfold State.releaseItem
  exact Does.ite (State.enterItem_does hw h) (Does.ite (State.fireOpen_does (sub hw) (State.trace_does hw (State.enterItem_does hw (State.bump_does (sub hw) h)))) (State.fireOpen_does (sub hw) (State.trace_does hw (State.bump_does (sub hw) h))))

theorem State.expireWhere_does {s : State} {p : WItem → Bool} (hw : [.free, .regs, .host, .rings, .wick, .sta] ⊆ ps) (h : Does ps s0 s) :
    Does ps s0 (State.expireWhere s p) := by
  unfold State.expireWhere
  exact State.levelSettle_does (sub hw) (Does.foldl (State.onWick_does (sub hw) h) fun _ _ h2 => State.joinsFree_does (sub hw) (State.expireItem_does hw h2))

theorem State.wickIngress_does {s : State} {chan : Nat} {seq : Nat} (hw : [.free, .regs, .host, .rings, .wick, .sta] ⊆ ps) (h : Does ps s0 s) :
    Does ps s0 (State.wickIngress s chan seq) := by
  unfold State.wickIngress
  exact Does.foldl h fun _ _ h1 => (by
  (try extract_lets); split
  · exact State.releaseItem_does hw h1
  · exact h1)

theorem State.noteNeed_does {s : State} {planes : Nat} (hw : [.regs] ⊆ ps) (h : Does ps s0 s) :
    Does ps s0 (State.noteNeed s planes) := by
  unfold State.noteNeed
  exact State.setReg_does hw h

theorem State.graphStart_does {s : State} {p : Nat} (hw : [.imgs, .wick, .lan] ⊆ ps) (h : Does ps s0 s) :
    Does ps s0 (State.graphStart s p) := by
  have wf : ∀ (l : List Nat) (g : Nat → List Image) (a : Nat → Image → Nat) (m : Memory), m.wf = true →
      (l.foldl (fun m c => (g c).foldl (fun m i => m.store (a c i) i.code) m) m).wf = true := by
    intro l g a
    induction l with
    | nil => exact fun m hm => hm
    | cons c l ih =>
      intro m hm
      refine ih _ ?_
      show ((g c).foldl (fun m i => m.store (a c i) i.code) m).wf = true
      generalize g c = is
      induction is generalizing m with
      | nil => exact hm
      | cons i is ih2 => exact ih2 (m.store (a c i) i.code) (Memory.wf_store hm)
  unfold State.graphStart
  extract_lets mine src s1 clusters prog s2
  have k : Does ps s0 s1 := Does.upd [.imgs] (sub hw) h
  have hp : Memory.wf s1.lan.prog = true → Memory.wf prog = true := wf clusters (fun _ => mine) _ _
  clear_value prog
  exact State.onWick_does (sub hw) (Does.upd (t := s1) [.lan] (sub hw) k (hs := fun hs => ⟨hs.1, hs.2.1, hp hs.2.2.1, hs.2.2.2⟩))

theorem State.vigilPost_does {s : State} (hw : [.free, .regs, .host, .rings, .wick, .sta] ⊆ ps) (h : Does ps s0 s) :
    Does ps s0 (State.vigilPost s) := by
  unfold State.vigilPost
  exact Does.ite h (Does.foldl h fun _ _ h1 => Does.ite h1 (Does.foldl h1 fun _ _ h2 => State.releaseItem_does hw h2))

theorem State.pruneInsts_does {s : State} (hw : [.wick] ⊆ ps) (h : Does ps s0 s) :
    Does ps s0 (State.pruneInsts s) := by
  unfold State.pruneInsts
  exact State.onWick_does hw h

theorem State.retireInst_does {s : State} {i : WInst} (hw : [.free, .regs, .host, .rings, .wick, .sta] ⊆ ps) (h : Does ps s0 s) :
    Does ps s0 (State.retireInst s i) := by
  unfold State.retireInst
  exact State.fireOpen_does (sub hw) (State.setFlag_does (sub hw) (State.onWick_does (sub hw) (State.expireWhere_does hw h)))

theorem State.tickInsts_does {s : State} {g : Nat} (hw : [.wick] ⊆ ps) (h : Does ps s0 s) :
    Does ps s0 (State.tickInsts s g) := by
  unfold State.tickInsts
  exact State.onWick_does hw (State.onWick_does hw h)

theorem State.wickTick_does {s : State} {g : Nat} {num : Nat} (hw : [.free, .regs, .host, .rings, .wick, .sta] ⊆ ps) (h : Does ps s0 s) :
    Does ps s0 (State.wickTick s g num) := by
  unfold State.wickTick
  exact Does.ite (State.pruneInsts_does (sub hw) h) (Does.foldl (State.tickInsts_does (sub hw) (State.onWick_does (sub hw) (Does.ite ((by
  (try extract_lets); split
  · exact State.retireInst_does hw (State.pruneInsts_does (sub hw) h)
  · exact State.pruneInsts_does (sub hw) h)) (State.pruneInsts_does (sub hw) h)))) fun _ _ h2 => Does.foldl h2 fun _ _ h3 => Does.foldl h3 fun _ _ h4 => State.releaseItem_does hw h4)

theorem State.grant_does {s : State} {res : Nat} {it : WItem} {slice : Bool} (hw : [.free, .regs, .host, .rings, .wick, .lan, .sta] ⊆ ps) (h : Does ps s0 s) :
    Does ps s0 (State.grant s res it slice) := by
  unfold State.grant
  exact Does.after (Does.ite Does.refl ((by
  (try extract_lets); split
  · exact State.onCore_does (sub hw) Does.refl))) (State.trace_does (sub hw) (State.bump_does (sub hw) (State.levelSettle_does (sub hw) (State.onWick_does (sub hw) h))))

theorem levelCapWrite_does {s : State} {o : Origin} {l : Nat} {v : Word} (hw : [.free, .regs, .host, .rings, .audit, .wick, .pwr, .sta] ⊆ ps) (h : Does ps s0 s) :
    Does ps s0 (levelCapWrite s o l v) := by
  unfold levelCapWrite
  exact Does.ite (State.setFlag_does (sub hw) h) (State.levelSettle_does (sub hw) (State.loggedWrite_does (sub hw) h))

theorem execAgingScan_does {dt : Nat} {s : State} (hw : [.free, .clock, .regs, .host, .rings, .wick, .sta] ⊆ ps) (h : Does ps s0 s) :
    DoesR ps s0 (execAgingScan dt s) := by
  unfold execAgingScan
  exact DoesR.next (State.levelSettle_does (sub hw) (Does.foldl (State.elapse_does (sub hw) h) fun _ _ h1 => State.ageOne_does (sub hw) h1))

theorem execDispatch_does {dt : Nat} {res : Nat} {s : State} (hw : [.free, .clock, .regs, .host, .rings, .wick, .lan, .sta] ⊆ ps) (h : Does ps s0 s) :
    DoesR ps s0 (execDispatch dt res s) := by
  unfold execDispatch
  extract_lets s1 ask cl mine slice past
  have k0 : Does ps s0 s1 := State.elapse_does (sub hw) h
  clear_value s1
  have k : Does ps s0 past := Does.ite (State.onWick_does (sub hw) k0) k0
  clear_value past slice
  refine DoesR.ite (DoesR.next k0) ?_
  cases slice
  · dsimp only
    split
    · exact DoesR.next (State.grant_does (sub hw) k)
    · exact DoesR.next k0
  · exact DoesR.next (State.grant_does (sub hw) (State.bump_does (sub hw) k))

theorem execExpire_does {dt : Nat} {s : State} (hw : [.free, .clock, .regs, .host, .rings, .wick, .sta] ⊆ ps) (h : Does ps s0 s) :
    DoesR ps s0 (execExpire dt s) := by
  unfold execExpire
  exact DoesR.next (State.expireWhere_does (sub hw) (State.elapse_does (sub hw) h))

theorem execLevelCapWrite_does {l : Nat} {v : Word} {origin : Origin} {s : State} (hw : [.free, .regs, .host, .rings, .audit, .wick, .pwr, .sta] ⊆ ps) (h : Does ps s0 s) :
    DoesR ps s0 (execLevelCapWrite l v origin s) := by
  unfold execLevelCapWrite
  exact DoesR.next (Does.ite (levelCapWrite_does hw h) h)

theorem execPostAdmit_does {s : State} (hw : [.free, .regs, .host, .rings, .mgt, .macs, .wick, .lan, .pwr, .sta, .link] ⊆ ps) (h : Does ps s0 s) :
    DoesR ps s0 (execPostAdmit s) := by
  unfold execPostAdmit
  exact DoesR.next (State.admitGo_does hw h)

theorem execPostTimeout_does {dt : Nat} {s : State} (hw : [.free, .clock, .regs, .host, .rings, .mgt, .macs, .wick, .lan, .pwr, .sta, .link] ⊆ ps) (h : Does ps s0 s) :
    DoesR ps s0 (execPostTimeout dt s) := by
  unfold execPostTimeout
  exact DoesR.next (Does.foldl (State.levelSettle_does (sub hw) (State.onWick_does (sub hw) (State.elapse_does (sub hw) h))) fun _ _ h2 => State.postEnds_does (sub hw) (State.trace_does (sub hw) (State.bump_does (sub hw) h2)))

/-! ### Machine/Images.lean -/

theorem State.flashImage_does {s : State} {b : List Byte} {cut : Option Nat} (hw : [.pwr] ⊆ ps) (h : Does ps s0 s) :
    Does ps s0 (State.flashImage s b cut) := by
  unfold State.flashImage
  exact Does.upd [.pwr] hw h

theorem State.holdImage_does {s : State} {type : Nat} {id : Nat} {svn : Nat} {body : List Byte} {imgs : Images} (hw : [.regs, .host, .rings, .audit, .imgs, .wick, .pwr, .sta] ⊆ ps) (h : Does ps s0 s) :
    Does ps s0 (State.holdImage s type id svn body imgs) := by
  unfold State.holdImage
  exact State.auditNow_does (sub hw) (Does.upd [.imgs] (sub hw) h)

theorem State.imageRefused_does {s : State} {ring : Nat} {index : Nat} {status : Nat} {fires : Bool} (hw : [.regs, .host, .rings, .mgt, .macs, .pwr, .link] ⊆ ps) (h : Does ps s0 s) :
    Does ps s0 (State.imageRefused s ring index status fires) := by
  unfold State.imageRefused
  exact State.finish_does hw (Does.ite (State.fire_does (sub hw) h) h)

theorem execImgLoad_does {ring : Nat} {head : Option (List Byte)} {body : Option (List Byte)} {cut : Option Nat} {s : State} (hw : [.regs, .host, .rings, .audit, .mgt, .macs, .imgs, .wick, .pwr, .sta, .link] ⊆ ps) (h : Does ps s0 s) :
    DoesR ps s0 (execImgLoad ring head body cut s) := by
  unfold execImgLoad
  exact (by
  (try extract_lets); split
  · exact DoesR.next h
  · exact DoesR.ite (DoesR.next (State.finish_does (sub hw) h)) (DoesR.ite (DoesR.next (State.finish_does (sub hw) h)) (DoesR.ite (DoesR.next (State.stall_does (sub hw) h)) ((by
   (try extract_lets); split
   · exact DoesR.next (State.finish_does (sub hw) h)
   · exact (by
    (try extract_lets); split
    · exact DoesR.next (State.imageRefused_does (sub hw) h)
    · exact DoesR.ite (DoesR.next (State.finish_does (sub hw) (State.flashImage_does (sub hw) (State.holdImage_does (sub hw) h)))) ((by
     (try extract_lets); split
     · exact DoesR.next (State.finish_does (sub hw) h)
     · exact DoesR.next (State.finish_does (sub hw) (State.holdImage_does (sub hw) h))))))))))

theorem execMbxPost_does {ring : Nat} {s : State} (hw : [.free, .regs, .host, .rings, .mgt, .macs, .wick, .lan, .pwr, .sta, .link] ⊆ ps) (h : Does ps s0 s) :
    DoesR ps s0 (execMbxPost ring s) := by
  unfold execMbxPost
  exact (by
  (try extract_lets); split
  · exact DoesR.next h
  · exact DoesR.ite (DoesR.next h) (DoesR.ite (DoesR.next (State.finish_does (sub hw) h)) ((by
   (try extract_lets); split
   · exact DoesR.next (State.finish_does (sub hw) h)
   · exact DoesR.ite (DoesR.next (State.finish_does (sub hw) h)) (DoesR.ite (DoesR.next (State.finish_does (sub hw) h)) ((by
    (try extract_lets); split
    · rename_i e; have h1 := Does.of_snd e (State.tryPost_does (sub hw) (State.setPhase_does (sub hw) h)); exact DoesR.next (State.postEnds_does (sub hw) h1)
    · rename_i e; have h2 := Does.of_snd e (State.tryPost_does (sub hw) (State.setPhase_does (sub hw) h)); exact DoesR.next (State.postEnds_does (sub hw) h2)
    · rename_i e; have h3 := Does.of_snd e (State.tryPost_does (sub hw) (State.setPhase_does (sub hw) h)); exact DoesR.next (State.blockPost_does (sub hw) h3))))))))

/-! ### Machine/Sec.lean -/

theorem State.onSec_does {s : State} {f : Sec → Sec} (hw : [.sec] ⊆ ps) (h : Does ps s0 s) :
    Does ps s0 (State.onSec s f) := by
  unfold State.onSec
  exact Does.upd [.sec] hw h

theorem State.dbgFail_does {s : State} (hw : [.regs, .host, .rings, .sec] ⊆ ps) (h : Does ps s0 s) :
    Does ps s0 (State.dbgFail s) := by
  unfold State.dbgFail
  exact State.fire_does (sub hw) (State.onSec_does (sub hw) h)

theorem State.jtagSelect_does {s : State} {n : Nat} {out : List Byte} (hw : [.sec] ⊆ ps) (h : Does ps s0 s) :
    Does ps s0 (State.jtagSelect s n out) := by
  unfold State.jtagSelect
  exact State.onSec_does hw h

theorem State.jtagTake_does {s : State} {n : Nat} {pins : List Byte} (hw : [.regs, .host, .rings, .audit, .wick, .sec, .pwr, .sta] ⊆ ps) (h : Does ps s0 s) :
    Does ps s0 (State.jtagTake s n pins) := by
  unfold State.jtagTake
  exact State.fire_does (sub hw) (State.auditLate_does (sub hw) (State.jtagSelect_does (sub hw) h))

theorem execSecSetOwner_does {data : Option (List Byte)} {s : State} (hw : [.regs, .host, .rings, .audit, .mgt, .macs, .wick, .sec, .pwr, .sta, .link] ⊆ ps) (h : Does ps s0 s) :
    DoesR ps s0 (execSecSetOwner data s) := by
  unfold execSecSetOwner
  exact (by
  (try extract_lets); split
  · exact DoesR.next h
  · exact DoesR.ite (DoesR.next (State.finish_does (sub hw) h)) (DoesR.ite (DoesR.next (State.stall_does (sub hw) h)) ((by
   (try extract_lets); split
   · exact DoesR.next (State.finish_does (sub hw) h)
   · exact DoesR.next (State.finish_does (sub hw) (State.auditNow_does (sub hw) (State.onSec_does (sub hw) h)))))))

theorem execSecCommitSvn_does {s : State} (hw : [.regs, .host, .rings, .audit, .mgt, .macs, .wick, .sec, .pwr, .sta, .link] ⊆ ps) (h : Does ps s0 s) :
    DoesR ps s0 (execSecCommitSvn s) := by
  unfold execSecCommitSvn
  exact (by
  (try extract_lets); split
  · exact DoesR.next h
  · exact (by
   (try extract_lets); split
   · exact DoesR.next (State.finish_does (sub hw) h)
   · exact DoesR.ite (DoesR.next (State.finish_does (sub hw) h)) (DoesR.ite (DoesR.next (State.finish_does (sub hw) h)) (DoesR.ite (DoesR.next (State.stall_does (sub hw) h)) (DoesR.next (State.finish_does (sub hw) (State.auditNow_does (sub hw) (State.onSec_does (sub hw) h))))))))

theorem execBypass_does {s : State} (hw : [.sec] ⊆ ps) (h : Does ps s0 s) :
    DoesR ps s0 (execBypass s) := by
  unfold execBypass
  exact DoesR.next (State.jtagSelect_does hw h)

theorem execDbgChallenge_does {dt : Nat} {s : State} (hw : [.free, .clock, .sec] ⊆ ps) (h : Does ps s0 s) :
    DoesR ps s0 (execDbgChallenge dt s) := by
  unfold execDbgChallenge
  exact DoesR.ite (DoesR.next (State.jtagSelect_does (sub hw) (State.elapse_does (sub hw) h))) ((by
  (try extract_lets); split
  · rename_i e; have h1 := Does.of_snd e (State.freshBytes_does (sub hw) (State.elapse_does (sub hw) h)); exact DoesR.next (State.onSec_does (sub hw) (State.jtagSelect_does (sub hw) h1))))

theorem execDbgResponse_does {level : Nat} {sig : List Byte} {s : State} (hw : [.regs, .host, .rings, .audit, .wick, .sec, .pwr, .sta] ⊆ ps) (h : Does ps s0 s) :
    DoesR ps s0 (execDbgResponse level sig s) := by
  unfold execDbgResponse
  exact DoesR.ite (DoesR.next (State.dbgFail_does (sub hw) (State.onSec_does (sub hw) (State.jtagSelect_does (sub hw) h)))) (DoesR.next (State.auditLate_does (sub hw) (State.onSec_does (sub hw) (State.onSec_does (sub hw) (State.jtagSelect_does (sub hw) h)))))

theorem execExtest_does {pins : List Byte} {s : State} (hw : [.regs, .host, .rings, .audit, .wick, .sec, .pwr, .sta] ⊆ ps) (h : Does ps s0 s) :
    DoesR ps s0 (execExtest pins s) := by
  unfold execExtest
  exact DoesR.next (State.jtagTake_does hw h)

theorem execExtestPulse_does {pins : List Byte} {s : State} (hw : [.regs, .host, .rings, .audit, .wick, .sec, .pwr, .sta] ⊆ ps) (h : Does ps s0 s) :
    DoesR ps s0 (execExtestPulse pins s) := by
  unfold execExtestPulse
  exact DoesR.next (State.jtagTake_does hw h)

theorem execExtestTrain_does {pins : List Byte} {s : State} (hw : [.regs, .host, .rings, .audit, .wick, .sec, .pwr, .sta] ⊆ ps) (h : Does ps s0 s) :
    DoesR ps s0 (execExtestTrain pins s) := by
  unfold execExtestTrain
  exact DoesR.next (State.jtagTake_does hw h)

theorem execIdcode_does {s : State} (hw : [.sec] ⊆ ps) (h : Does ps s0 s) :
    DoesR ps s0 (execIdcode s) := by
  unfold execIdcode
  exact DoesR.next (State.jtagSelect_does hw h)

theorem execSamplePreload_does {pins : List Byte} {s : State} (hw : [.sec] ⊆ ps) (h : Does ps s0 s) :
    DoesR ps s0 (execSamplePreload pins s) := by
  unfold execSamplePreload
  exact DoesR.next (State.jtagSelect_does hw h)

/-! ### Machine/Mantle.lean -/

theorem State.onMnt_does {s : State} {f : Mantle → Mantle} (hw : [.mnt] ⊆ ps) (h : Does ps s0 s) :
    Does ps s0 (State.onMnt s f) := by
  unfold State.onMnt
  exact Does.upd [.mnt] hw h

theorem State.mntGo_does {s : State} {st : Nat} {sel : Nat} {who : Nat} (hw : [.regs, .host, .rings, .mnt] ⊆ ps) (h : Does ps s0 s) :
    Does ps s0 (State.mntGo s st sel who) := by
  unfold State.mntGo
  exact Does.ite h (State.fire_does (sub hw) (State.onMnt_does (sub hw) h))

theorem State.startPull_does {s : State} {st : Nat} {t : Nat} {who : Nat} (hw : [.free, .regs, .host, .rings, .mnt] ⊆ ps) (h : Does ps s0 s) :
    Does ps s0 (State.startPull s st t who) := by
  unfold State.startPull
  exact (by
  (try extract_lets); split
  · rename_i e; have h1 := Does.of_snd e (State.fresh_does (sub hw) h); exact State.mntGo_does (sub hw) (State.onMnt_does (sub hw) (State.bump_does (sub hw) h1)))

theorem State.ptpStepped_does {s : State} (hw : [.free, .regs, .host, .rings, .mnt] ⊆ ps) (h : Does ps s0 s) :
    Does ps s0 (State.ptpStepped s) := by
  unfold State.ptpStepped
  exact Does.ite (State.startPull_does hw h) h

theorem State.setCand_does {s : State} {c : Nat} {x : MCand} (hw : [.mnt] ⊆ ps) (h : Does ps s0 s) :
    Does ps s0 (State.setCand s c x) := by
  unfold State.setCand
  exact State.onMnt_does hw h

theorem State.disqualify_does {s : State} {c : Nat} {cause : Nat} (hw : [.regs, .host, .rings, .mnt] ⊆ ps) (h : Does ps s0 s) :
    Does ps s0 (State.disqualify s c cause) := by
  unfold State.disqualify
  exact Does.ite (State.setCand_does (sub hw) h) (Does.ite (State.fire_does (sub hw) (State.bump_does (sub hw) (State.setCand_does (sub hw) h))) (State.bump_does (sub hw) (State.setCand_does (sub hw) h)))

theorem State.startNominal_does {s : State} {who : Nat} (hw : [.free, .regs, .host, .rings, .mnt] ⊆ ps) (h : Does ps s0 s) :
    Does ps s0 (State.startNominal s who) := by
  unfold State.startNominal
  exact State.startPull_does hw h

theorem State.enterHold_does {s : State} {who : Nat} (hw : [.free, .regs, .host, .rings, .mnt] ⊆ ps) (h : Does ps s0 s) :
    Does ps s0 (State.enterHold s who) := by
  unfold State.enterHold
  exact Does.ite (State.startNominal_does hw h) (Does.after (Does.ite (State.startNominal_does hw Does.refl) Does.refl) (State.fire_does (sub hw) (State.mntGo_does (sub hw) (State.onMnt_does (sub hw) (State.bump_does (sub hw) h)))))

theorem State.familyChanged_does {s : State} (hw : [.regs, .host, .rings, .mnt] ⊆ ps) (h : Does ps s0 s) :
    Does ps s0 (State.familyChanged s) := by
  unfold State.familyChanged
  exact Does.foldl h fun _ _ h1 => Does.ite (State.disqualify_does hw (State.setCand_does (sub hw) h1)) (State.setCand_does (sub hw) h1)

theorem State.mntSuspect_does {s : State} (hw : [.regs, .host, .rings, .mnt] ⊆ ps) (h : Does ps s0 s) :
    Does ps s0 (State.mntSuspect s) := by
  unfold State.mntSuspect
  exact Does.ite (State.mntGo_does hw h) (Does.ite (State.mntGo_does hw h) h)

theorem State.mntEvaluate_does {s : State} {who : Option Nat} (hw : [.free, .regs, .host, .rings, .mnt] ⊆ ps) (h : Does ps s0 s) :
    Does ps s0 (State.mntEvaluate s who) := by
  unfold State.mntEvaluate
  exact Does.ite h (Does.ite ((by
  (try extract_lets); split
  · exact State.startPull_does hw h
  · exact h)) (Does.ite ((by
  (try extract_lets); split
  · exact State.startPull_does hw h
  · exact h)) (Does.ite ((by
  (try extract_lets); split
  · exact State.startPull_does hw h
  · exact State.enterHold_does hw h)) ((by
  (try extract_lets); split
  · exact Does.ite (State.mntSuspect_does (sub hw) h) (Does.ite (State.startPull_does hw h) (Does.ite (State.enterHold_does hw h) (State.mntSuspect_does (sub hw) h)))
  · exact State.mntSuspect_does (sub hw) h)))))

theorem State.pullEnds_does {s : State} {t : Nat} (hw : [.free, .regs, .host, .rings, .mnt] ⊆ ps) (h : Does ps s0 s) :
    Does ps s0 (State.pullEnds s t) := by
  unfold State.pullEnds
  exact Does.ite (State.mntEvaluate_does hw (State.fire_does (sub hw) (State.mntGo_does (sub hw) (State.onMnt_does (sub hw) (State.onMnt_does (sub hw) h))))) (State.mntSuspect_does (sub hw) (State.mntGo_does (sub hw) (State.onMnt_does (sub hw) h)))

theorem State.qualify_does {s : State} {c : Nat} {edges : Bool} (hw : [.regs, .host, .rings, .mnt] ⊆ ps) (h : Does ps s0 s) :
    Does ps s0 (State.qualify s c edges) := by
  unfold State.qualify
  exact Does.ite (State.disqualify_does hw h) (Does.ite (State.setCand_does (sub hw) h) (Does.ite (State.setCand_does (sub hw) h) (Does.ite (State.bump_does (sub hw) (State.setCand_does (sub hw) h)) (Does.ite (State.setCand_does (sub hw) h) h))))

theorem mntCtrlWrite_does {s : State} {o : Origin} {v : Word} (hw : [.free, .regs, .host, .rings, .audit, .mgt, .wick, .pwr, .sta, .mnt] ⊆ ps) (h : Does ps s0 s) :
    Does ps s0 (mntCtrlWrite s o v) := by
  unfold mntCtrlWrite
  exact Does.ite (State.bump_does (sub hw) h) (State.mntEvaluate_does (sub hw) (Does.after (Does.ite (State.familyChanged_does (sub hw) Does.refl) Does.refl) (Does.after (Does.ite (State.onMgt_does (sub hw) Does.refl) Does.refl) (Does.ite (State.setFlag_does (sub hw) (State.auditNow_does (sub hw) (State.setReg_does (sub hw) h))) (State.auditNow_does (sub hw) (State.setReg_does (sub hw) h))))))

theorem execCandidateFault_does {dt : Nat} {c : Nat} {cause : Nat} {s : State} (hw : [.free, .clock, .regs, .host, .rings, .mnt] ⊆ ps) (h : Does ps s0 s) :
    DoesR ps s0 (execCandidateFault dt c cause s) := by
  unfold execCandidateFault
  exact DoesR.ite (DoesR.next (State.elapse_does (sub hw) h)) (DoesR.next (State.mntEvaluate_does (sub hw) (State.disqualify_does (sub hw) (State.elapse_does (sub hw) h))))

theorem execCandidateMeasurement_does {dt : Nat} {offs : List (Nat × Int)} {out : Int} {s : State} (hw : [.free, .clock, .regs, .host, .rings, .mnt] ⊆ ps) (h : Does ps s0 s) :
    DoesR ps s0 (execCandidateMeasurement dt offs out s) := by
  unfold execCandidateMeasurement
  exact DoesR.next (State.mntEvaluate_does (sub hw) (Does.after (Does.ite (State.onMnt_does (sub hw) Does.refl) Does.refl) (Does.foldl (Does.foldl (State.elapse_does (sub hw) h) fun _ _ h1 => State.setCand_does (sub hw) h1) fun _ _ h2 => State.qualify_does (sub hw) h2)))

theorem execFamily_does {v : Word} {origin : Origin} {s : State} (hw : [.free, .regs, .host, .rings, .audit, .mgt, .wick, .pwr, .sta, .mnt] ⊆ ps) (h : Does ps s0 s) :
    DoesR ps s0 (execFamily v origin s) := by
  unfold execFamily
  exact DoesR.next (mntCtrlWrite_does hw h)

theorem execForce_does {v : Word} {origin : Origin} {s : State} (hw : [.free, .regs, .host, .rings, .audit, .mgt, .wick, .pwr, .sta, .mnt] ⊆ ps) (h : Does ps s0 s) :
    DoesR ps s0 (execForce v origin s) := by
  unfold execForce
  exact DoesR.next (mntCtrlWrite_does hw h)

theorem execPullUpdate_does {dt : Nat} {s : State} (hw : [.free, .clock, .regs, .host, .rings, .mnt] ⊆ ps) (h : Does ps s0 s) :
    DoesR ps s0 (execPullUpdate dt s) := by
  unfold execPullUpdate
  exact (by
  (try extract_lets); split
  · exact DoesR.next (State.elapse_does (sub hw) h)
  · exact DoesR.ite (DoesR.next (State.pullEnds_does (sub hw) (State.onMnt_does (sub hw) (State.elapse_does (sub hw) h)))) ((by
   (try extract_lets); split
   · exact DoesR.ite (DoesR.next (State.pullEnds_does (sub hw) (State.onMnt_does (sub hw) (State.elapse_does (sub hw) h)))) (DoesR.next (State.onMnt_does (sub hw) (State.elapse_does (sub hw) h))))))

theorem execRate_does {v : Word} {origin : Origin} {s : State} (hw : [.free, .regs, .host, .rings, .audit, .mgt, .wick, .pwr, .sta, .mnt] ⊆ ps) (h : Does ps s0 s) :
    DoesR ps s0 (execRate v origin s) := by
  unfold execRate
  exact DoesR.next (mntCtrlWrite_does hw h)

theorem execReturnToNominal_does {dt : Nat} {s : State} (hw : [.free, .clock, .regs, .host, .rings, .mnt] ⊆ ps) (h : Does ps s0 s) :
    DoesR ps s0 (execReturnToNominal dt s) := by
  unfold execReturnToNominal
  exact DoesR.ite (DoesR.next (State.startNominal_does (sub hw) (State.elapse_does (sub hw) h))) (DoesR.next (State.elapse_does (sub hw) h))

theorem execRevertiveSwitch_does {dt : Nat} {s : State} (hw : [.free, .clock, .regs, .host, .rings, .mnt] ⊆ ps) (h : Does ps s0 s) :
    DoesR ps s0 (execRevertiveSwitch dt s) := by
  unfold execRevertiveSwitch
  exact (by
  (try extract_lets); split
  · exact DoesR.ite (DoesR.next (State.startPull_does (sub hw) (State.elapse_does (sub hw) h))) (DoesR.next (State.elapse_does (sub hw) h))
  · exact DoesR.next (State.elapse_does (sub hw) h))

end Sys2Proof.Machine
end

