-- ==== Sys2Proof/Laws/DoesLink.lean ====
section
/-!
SUPPORT. Laws/DoesLink.lean: what each operation of Machine/Ports.lean, Machine/Time.lean, Machine/Link.lean may write, and that it keeps what is sound.
The proofs put the lemmas of the operations called together in the mods in which the operation calls them.
-/
namespace Sys2Proof.Machine

-- One proof at a time: the proofs of this file in parallel ask for more threads than the memory bound holds.
set_option Elab.async false
variable {ps : List Part} {s0 : State}

/-! ### Machine/Ports.lean -/

theorem State.onPort_does {s : State} {p : Nat} {f : Port → Port} (hw : [.ports] ⊆ ps) (h : Does ps s0 s) :
    Does ps s0 (State.onPort s p f) := by
  unfold State.onPort
  exact Does.upd [.ports] hw h

theorem State.tapSwitch_does {s : State} {p : Nat} (hw : [.ports] ⊆ ps) (h : Does ps s0 s) :
    Does ps s0 (State.tapSwitch s p) := by
  unfold State.tapSwitch
  exact Does.ite h (State.onPort_does hw h)

theorem State.portTick_does {s : State} {p : Nat} (hw : [.ports] ⊆ ps) (h : Does ps s0 s) :
    Does ps s0 (State.portTick s p) := by
  unfold State.portTick
  exact Does.ite (Does.ite (State.onPort_does hw (State.tapSwitch_does hw h)) (State.tapSwitch_does hw h)) (Does.ite (State.onPort_does hw (State.tapSwitch_does hw h)) (State.tapSwitch_does hw h))

theorem State.cfgRefused_does {s : State} {p : Nat} (hw : [.regs] ⊆ ps) (h : Does ps s0 s) :
    Does ps s0 (State.cfgRefused s p) := by
  unfold State.cfgRefused
  exact State.setFlag_does hw h

theorem State.portItems_does {p : Nat} {l : List PortFrame} {s : State} (hw : [.regs, .host, .rings, .queues] ⊆ ps) (h : Does ps s0 s) :
    Does ps s0 (State.portItems p l s).2 := by
  induction l generalizing s with
  | nil => exact h
  | cons f l ih =>
    unfold State.portItems
    extract_lets
    split
    rename_i e
    have k := Does.of_snd e (Does.ite_snd (by
      split
      · exact State.popItem_does (sub hw) h
      · exact State.queueUnderrun_does (sub hw) h
      · exact h) h)
    exact ih k

theorem State.tapWrite_does {s : State} {p : Nat} {t : Tap} {frames : List (List Int)} (hw : [.regs, .host, .rings, .dram, .lan] ⊆ ps) (h : Does ps s0 s) :
    Does ps s0 (State.tapWrite s p t frames).1 := by
  unfold State.tapWrite
  extract_lets w n a s1
  have k : Does ps s0 s1 := State.dramWrite_does (sub hw) h
  clear_value s1
  exact Does.upd [.lan] (sub hw) k (hs := fun hs => ⟨hs.1, hs.2.1, hs.2.2.1, Memory.wf_store hs.2.2.2.1, hs.2.2.2.2⟩)

theorem State.tapOpt_does {s : State} {p : Nat} {o : Option Tap} {frames : List (List Int)} (hw : [.regs, .host, .rings, .dram, .lan] ⊆ ps)
    (h : Does ps s0 s) : Does ps s0 (match o with
      | some t => ((s.tapWrite p t frames).1, some (s.tapWrite p t frames).2)
      | none => (s, none)).1 := by
  split
  · exact State.tapWrite_does hw h
  · exact h

theorem State.portBlocks_does {s : State} {p flag : Nat} (hw : [.regs, .host, .rings, .queues, .dram, .lan, .ports] ⊆ ps) (h : Does ps s0 s) :
    Does ps s0 (State.portBlocks s p flag).1 := by
  have k : ∀ (c : Bool) (l : List PortFrame), Does ps s0 (if c then State.portItems p l s else ([], s)).2 := fun c l =>
    Does.ite_snd (State.portItems_does (sub hw) h) h
  unfold State.portBlocks
  extract_lets x f n hi live
  split
  rename_i e
  have k1 := Does.of_snd e (k _ _)
  extract_lets at_ val con flags blocks w rx
  clear_value blocks rx
  split
  rename_i s2 rt e2
  have k2 : Does ps s0 s2 := Does.of_fst e2 (State.tapOpt_does (sub hw) k1)
  split
  rename_i s3 tt e3
  have k3 : Does ps s0 s3 := Does.of_fst e3 (State.tapOpt_does (sub hw) k2)
  dsimp only
  exact State.onPort_does (sub hw) k3

theorem State.masksStart_does {s : State} {p : Nat} (hw : [.regs, .host, .rings, .ports] ⊆ ps) (h : Does ps s0 s) :
    Does ps s0 (State.masksStart s p) := by
  unfold State.masksStart
  exact (by
  (try extract_lets); split
  · exact (by
   (try extract_lets); split
   · exact Does.after (Does.ite (State.fire_does (sub hw) Does.refl) Does.refl) (Does.ite (State.fire_does (sub hw) (State.onPort_does (sub hw) h)) (State.onPort_does (sub hw) h))))

theorem State.portClass_does {s : State} {p : Nat} {cls : Nat} (hw : [.regs, .host, .rings, .ports] ⊆ ps) (h : Does ps s0 s) :
    Does ps s0 (State.portClass s p cls) := by
  unfold State.portClass
  exact Does.ite h (State.fire_does (sub hw) (State.onPort_does (sub hw) h))

theorem State.portEnabled_does {s : State} {p : Nat} (hw : [.regs, .host, .rings, .ports] ⊆ ps) (h : Does ps s0 s) :
    Does ps s0 (State.portEnabled s p) := by
  unfold State.portEnabled
  exact State.onPort_does (sub hw) (State.portClass_does hw h)

theorem State.portDisabled_does {s : State} {p : Nat} (hw : [.regs, .queues, .ports] ⊆ ps) (h : Does ps s0 s) :
    Does ps s0 (State.portDisabled s p) := by
  unfold State.portDisabled
  exact State.onPort_does (sub hw) (State.queueFlushDone_does (sub hw) (State.queueFlush_does (sub hw) (State.queueFlushDone_does (sub hw) (State.queueFlush_does (sub hw) h))))

theorem State.tdmApply_does {s : State} {p : Nat} {v : Word} {origin : Nat} {oid : Nat} {time : Nat} (hw : [.regs, .host, .rings, .audit, .queues, .wick, .pwr, .sta, .ports] ⊆ ps) (h : Does ps s0 s) :
    Does ps s0 (State.tdmApply s p v origin oid time) := by
  unfold State.tdmApply
  exact Does.after (Does.ite Does.refl (Does.ite (State.portEnabled_does (sub hw) Does.refl) (State.portDisabled_does (sub hw) Does.refl))) (State.chainEntry_does (sub hw) (State.setReg_does (sub hw) h))

theorem State.modeRequest_does {s : State} {o : Origin} {off : Nat} {v : Word} (hw : [.regs, .host, .rings, .audit, .mgt] ⊆ ps) (h : Does ps s0 s) :
    Does ps s0 (State.modeRequest s o off v) := by
  unfold State.modeRequest
  exact State.onMgt_does (sub hw) (State.auditReserve_does (sub hw) h)

theorem State.portFault_does {s : State} {p : Nat} {st : Nat} (hw : [.regs, .host, .rings, .queues, .ports] ⊆ ps) (h : Does ps s0 s) :
    Does ps s0 (State.portFault s p st) := by
  unfold State.portFault
  exact State.fire_does (sub hw) (State.queueFlushDone_does (sub hw) (State.queueFlush_does (sub hw) (State.onPort_does (sub hw) h)))

theorem State.portReceive_does {s : State} {p : Nat} {e : Nat} {sdi : List Nat} {glitch : Bool} {con : Bool} (hw : [.regs, .host, .rings, .queues, .ports] ⊆ ps) (h : Does ps s0 s) :
    Does ps s0 (State.portReceive s p e sdi glitch con) := by
  unfold State.portReceive
  exact State.onPort_does (sub hw) (Does.ite (State.setFlag_does (sub hw) (State.bump_does (sub hw) (State.pushItem_does (sub hw) h))) (State.pushItem_does (sub hw) h))

theorem State.portTransmit_does {s : State} {p : Nat} {e : Nat} (hw : [.regs, .host, .rings, .queues, .ports] ⊆ ps) (h : Does ps s0 s) :
    Does ps s0 (State.portTransmit s p e) := by
  unfold State.portTransmit
  exact State.onPort_does (sub hw) (Does.ite h (Does.ite (State.popItem_does (sub hw) (State.pushItem_does (sub hw) h)) ((by
  (try extract_lets); split
  · exact State.queueUnderrun_does (sub hw) h
  · exact h))))

theorem tdmCfgWrite_does {s : State} {o : Origin} {p : Nat} {v : Word} (hw : [.regs, .host, .rings, .audit, .mgt, .queues, .wick, .pwr, .sta, .ports] ⊆ ps) (h : Does ps s0 s) :
    Does ps s0 (tdmCfgWrite s o p v) := by
  unfold tdmCfgWrite
  exact Does.ite (State.cfgRefused_does (sub hw) h) (Does.ite (State.cfgRefused_does (sub hw) h) (Does.ite (State.bump_does (sub hw) h) (Does.ite (State.modeRequest_does (sub hw) h) (State.tdmApply_does (sub hw) (State.auditRelease_does (sub hw) (State.auditReserve_does (sub hw) h))))))

theorem portFieldWrite_does {s : State} {o : Origin} {p : Nat} {i : Nat} {v : Word} (hw : [.regs, .host, .rings, .audit, .wick, .pwr, .sta] ⊆ ps) (h : Does ps s0 s) :
    Does ps s0 (portFieldWrite s o p i v) := by
  unfold portFieldWrite
  exact Does.ite (State.cfgRefused_does (sub hw) h) (State.loggedWrite_does hw h)

theorem maskWrite_does {s : State} {o : Origin} {p : Nat} {tx : Bool} {v : Word} {last : Bool} (hw : [.regs, .host, .rings, .audit, .wick, .pwr, .sta, .ports] ⊆ ps) (h : Does ps s0 s) :
    Does ps s0 (maskWrite s o p tx v last) := by
  unfold maskWrite
  exact Does.ite (State.bump_does (sub hw) h) (State.onPort_does (sub hw) (State.loggedWrite_does (sub hw) h))

theorem tapCfgWrite_does {s : State} {o : Origin} {p : Nat} {v : Word} (hw : [.regs, .host, .rings, .audit, .wick, .pwr, .sta] ⊆ ps) (h : Does ps s0 s) :
    Does ps s0 (tapCfgWrite s o p v) := by
  unfold tapCfgWrite
  exact Does.ite (State.cfgRefused_does (sub hw) h) (State.loggedWrite_does hw h)

theorem execMaskWrite_does {port : Nat} {tx : Bool} {v : Word} {last : Bool} {origin : Origin} {s : State} (hw : [.regs, .host, .rings, .audit, .wick, .pwr, .sta, .ports] ⊆ ps) (h : Does ps s0 s) :
    DoesR ps s0 (execMaskWrite port tx v last origin s) := by
  unfold execMaskWrite
  exact DoesR.next (Does.ite (maskWrite_does hw h) h)

theorem execPortCfgWrite_does {port : Nat} {i : Nat} {v : Word} {origin : Origin} {s : State} (hw : [.regs, .host, .rings, .audit, .mgt, .queues, .wick, .pwr, .sta, .ports] ⊆ ps) (h : Does ps s0 s) :
    DoesR ps s0 (execPortCfgWrite port i v origin s) := by
  unfold execPortCfgWrite
  exact DoesR.next (Does.ite h (Does.ite (tdmCfgWrite_does hw h) (portFieldWrite_does (sub hw) h)))

theorem execPortDisable_does {port : Nat} {v : Word} {origin : Origin} {s : State} (hw : [.regs, .host, .rings, .audit, .mgt, .queues, .wick, .pwr, .sta, .ports] ⊆ ps) (h : Does ps s0 s) :
    DoesR ps s0 (execPortDisable port v origin s) := by
  unfold execPortDisable
  exact DoesR.next (Does.ite (tdmCfgWrite_does hw h) h)

theorem execPortEnable_does {port : Nat} {v : Word} {origin : Origin} {s : State} (hw : [.regs, .host, .rings, .audit, .mgt, .queues, .wick, .pwr, .sta, .ports] ⊆ ps) (h : Does ps s0 s) :
    DoesR ps s0 (execPortEnable port v origin s) := by
  unfold execPortEnable
  exact DoesR.next (Does.ite (tdmCfgWrite_does hw h) h)

theorem execPortLost_does {dt : Nat} {port : Nat} {s : State} (hw : [.clock, .regs, .host, .rings, .queues, .ports] ⊆ ps) (h : Does ps s0 s) :
    DoesR ps s0 (execPortLost dt port s) := by
  unfold execPortLost
  exact DoesR.ite (DoesR.next (State.elapse_does (sub hw) h)) (DoesR.next (State.portFault_does (sub hw) (State.bump_does (sub hw) (State.elapse_does (sub hw) h))))

theorem execRateWindow_does {dt : Nat} {port : Nat} {edges : Nat} {span : Nat} {s : State} (hw : [.clock, .regs, .host, .rings, .queues, .ports] ⊆ ps) (h : Does ps s0 s) :
    DoesR ps s0 (execRateWindow dt port edges span s) := by
  unfold execRateWindow
  exact DoesR.ite (DoesR.next (State.elapse_does (sub hw) h)) (DoesR.after (DoesR.ite (DoesR.next Does.refl) (DoesR.ite (DoesR.ite (DoesR.next (State.onPort_does (sub hw) (State.queueFlushDone_does (sub hw) (State.queueFlush_does (sub hw) Does.refl)))) (DoesR.next (State.portFault_does (sub hw) Does.refl))) (DoesR.ite (DoesR.next (State.portFault_does (sub hw) Does.refl)) (DoesR.next Does.refl)))) (Does.after (Does.ite (State.fire_does (sub hw) Does.refl) Does.refl) (State.portClass_does (sub hw) (State.onPort_does (sub hw) (State.elapse_does (sub hw) h)))))

theorem execTdmFrame_does {dt : Nat} {port : Nat} {sdi : List Nat} {len : Nat} {s : State} (hw : [.clock, .regs, .host, .rings, .queues, .ports] ⊆ ps) (h : Does ps s0 s) :
    DoesR ps s0 (execTdmFrame dt port sdi len s) := by
  unfold execTdmFrame
  exact DoesR.ite (DoesR.next (State.elapse_does (sub hw) h)) (DoesR.ite (DoesR.next (State.onPort_does (sub hw) (State.elapse_does (sub hw) h))) (DoesR.ite (DoesR.next (State.onPort_does (sub hw) (State.elapse_does (sub hw) h))) ((by
  (try extract_lets); split
  · exact DoesR.next (State.onPort_does (sub hw) (State.portTransmit_does (sub hw) (Does.after (Does.ite (State.onPort_does (sub hw) Does.refl) (State.portReceive_does (sub hw) Does.refl)) (State.onPort_does (sub hw) (Does.after (Does.ite (State.setFlag_does (sub hw) (State.bump_does (sub hw) Does.refl)) Does.refl) (State.masksStart_does (sub hw) (State.elapse_does (sub hw) h)))))))))))

/-! ### Machine/Time.lean -/

theorem State.onTim_does {s : State} {f : TimeBlock → TimeBlock} (hw : [.tim] ⊆ ps) (h : Does ps s0 s) :
    Does ps s0 (State.onTim s f) := by
  unfold State.onTim
  exact Does.upd [.tim] hw h

theorem State.applyStep_does {s : State} {o : Origin} {step : Int} (hw : [.free, .clock, .regs, .host, .rings, .audit, .mgt, .macs, .tim, .wick, .pwr, .sta, .mnt] ⊆ ps) (h : Does ps s0 s) :
    Does ps s0 (State.applyStep s o step) := by
  unfold State.applyStep
  exact State.ptpStepped_does (sub hw) (State.ring2Entry_does (sub hw) (State.chainEntry_does (sub hw) (State.bump_does (sub hw) (State.onTim_does (sub hw) (State.onMgt_does (sub hw) (Does.updOf [.macs] (sub hw) (Does.upd [.clock] (sub hw) h)))))))

theorem State.incrWrite_does {s : State} {v : Word} (hw : [.clock, .regs] ⊆ ps) (h : Does ps s0 s) :
    Does ps s0 (State.incrWrite s v) := by
  have k0 : Does ps s0 (s.setReg 0xD0018 v) := State.setReg_does (sub hw) h
  have k : ∀ t n, Does ps s0 t → Does ps s0 { t with clock := { t.clock with incr := n } } := fun _ _ =>
    Does.upd [.clock] (sub hw)
  have kk : ∀ n p, Does ps s0 (if n = p then { (s.setReg 0xD0018 v) with clock := { (s.setReg 0xD0018 v).clock with incr := n } }
      else { (s.setReg 0xD0018 v) with clock := { (s.setReg 0xD0018 v).clock with incr := n } }.setFlag regTimStatus 1 true) :=
    fun n _ => Does.ite (k _ n k0) (State.setFlag_does (sub hw) (k _ n k0))
  exact kk _ _

theorem State.ppsArm_does {s : State} (hw : [.tim] ⊆ ps) (h : Does ps s0 s) :
    Does ps s0 (State.ppsArm s) := by
  unfold State.ppsArm
  exact State.onTim_does hw h

theorem State.setGpio_does {s : State} {t : Nat} {b : Bool} (hw : [.tim] ⊆ ps) (h : Does ps s0 s) :
    Does ps s0 (State.setGpio s t b) := by
  unfold State.setGpio
  exact State.onTim_does hw h

theorem State.setTrig_does {s : State} {t : Nat} {x : Trigger} (hw : [.tim] ⊆ ps) (h : Does ps s0 s) :
    Does ps s0 (State.setTrig s t x) := by
  unfold State.setTrig
  exact State.onTim_does hw h

theorem stepWrite_does {s : State} {o : Origin} {v : Word} (hw : [.free, .clock, .regs, .host, .rings, .audit, .mgt, .macs, .tim, .wick, .pwr, .sta, .mnt] ⊆ ps) (h : Does ps s0 s) :
    Does ps s0 (stepWrite s o v) := by
  unfold stepWrite
  exact Does.ite h (Does.ite (State.bump_does (sub hw) h) (Does.ite (State.auditNow_does (sub hw) h) (Does.ite (State.ring2Entry_does (sub hw) (State.setFlag_does (sub hw) (State.bump_does (sub hw) (State.auditNow_does (sub hw) h)))) (State.applyStep_does hw (State.auditNow_does (sub hw) h)))))

theorem trigWrite_does {s : State} {o : Origin} {t : Nat} {v : Word} (hw : [.regs, .host, .rings, .audit, .tim, .wick, .pwr, .sta] ⊆ ps) (h : Does ps s0 s) :
    Does ps s0 (trigWrite s o t v) := by
  unfold trigWrite
  exact Does.ite (State.bump_does (sub hw) h) (Does.after (Does.ite (State.setTrig_does (sub hw) Does.refl) (State.setTrig_does (sub hw) Does.refl)) (Does.ite (State.loggedWrite_does (sub hw) h) (State.setGpio_does (sub hw) (State.loggedWrite_does (sub hw) h))))

theorem execGo_does {v : Word} {origin : Origin} {s : State} (hw : [.free, .clock, .regs, .host, .rings, .audit, .mgt, .macs, .tim, .wick, .pwr, .sta, .mnt] ⊆ ps) (h : Does ps s0 s) :
    DoesR ps s0 (execGo v origin s) := by
  unfold execGo
  exact DoesR.next (stepWrite_does hw h)

theorem execPpsIn_does {dt : Nat} {s : State} (hw : [.clock, .regs, .host, .rings, .tim] ⊆ ps) (h : Does ps s0 s) :
    DoesR ps s0 (execPpsIn dt s) := by
  unfold execPpsIn
  exact DoesR.ite (DoesR.next (State.bump_does (sub hw) (State.elapse_does (sub hw) h))) (DoesR.next (Does.after (Does.ite (State.fire_does (sub hw) Does.refl) Does.refl) (State.setReg64_does (sub hw) (State.onTim_does (sub hw) (State.elapse_does (sub hw) h)))))

theorem execPpsOut_does {dt : Nat} {s : State} (hw : [.clock, .tim] ⊆ ps) (h : Does ps s0 s) :
    DoesR ps s0 (execPpsOut dt s) := by
  unfold execPpsOut
  exact DoesR.ite (DoesR.next (State.onTim_does (sub hw) (State.elapse_does (sub hw) h))) ((by
  (try extract_lets); split
  · exact DoesR.next (State.elapse_does (sub hw) h)
  · exact DoesR.ite (DoesR.next (State.onTim_does (sub hw) (State.elapse_does (sub hw) h))) (DoesR.ite (DoesR.next (State.onTim_does (sub hw) (State.elapse_does (sub hw) h))) (DoesR.next (State.elapse_does (sub hw) h)))))

theorem execServoTick_does {dt : Nat} {s : State} (hw : [.clock, .regs, .host, .rings, .tim] ⊆ ps) (h : Does ps s0 s) :
    DoesR ps s0 (execServoTick dt s) := by
  unfold execServoTick
  exact (by
  (try extract_lets); split
  · exact DoesR.next (State.elapse_does (sub hw) h)
  · exact DoesR.ite (DoesR.next (State.fireAt_does (sub hw) (State.onTim_does (sub hw) (State.elapse_does (sub hw) h)))) (DoesR.next (State.elapse_does (sub hw) h)))

theorem execSyncReceiptTimeout_does {dt : Nat} {expired : Bool} {s : State} (hw : [.clock, .regs, .tim] ⊆ ps) (h : Does ps s0 s) :
    DoesR ps s0 (execSyncReceiptTimeout dt expired s) := by
  unfold execSyncReceiptTimeout
  exact DoesR.ite (DoesR.next (State.onTim_does (sub hw) (State.setFlag_does (sub hw) (State.elapse_does (sub hw) h)))) (DoesR.next (State.elapse_does (sub hw) h))

theorem execTimIncrFrac_does {v : Word} {origin : Origin} {s : State} (hw : [.clock, .regs] ⊆ ps) (h : Does ps s0 s) :
    DoesR ps s0 (execTimIncrFrac v origin s) := by
  unfold execTimIncrFrac
  exact DoesR.ite (DoesR.next h) (DoesR.next (Does.updOf [.clock] (sub hw) (State.setReg_does (sub hw) h)))

theorem execTimIncrNs_does {v : Word} {origin : Origin} {s : State} (hw : [.clock, .regs] ⊆ ps) (h : Does ps s0 s) :
    DoesR ps s0 (execTimIncrNs v origin s) := by
  unfold execTimIncrNs
  exact DoesR.ite (DoesR.next h) (DoesR.next (State.incrWrite_does hw h))

theorem execTimNowRead_does {s : State} (hw : [.regs, .host] ⊆ ps) (h : Does ps s0 s) :
    DoesR ps s0 (execTimNowRead s) := by
  unfold execTimNowRead
  exact DoesR.next (State.onHost_does (sub hw) (State.setReg_does (sub hw) (State.setReg_does (sub hw) h)))

theorem execTriggerEnable_does {t : Nat} {v : Word} {origin : Origin} {s : State} (hw : [.regs, .host, .rings, .audit, .tim, .wick, .pwr, .sta] ⊆ ps) (h : Does ps s0 s) :
    DoesR ps s0 (execTriggerEnable t v origin s) := by
  unfold execTriggerEnable
  exact DoesR.next (Does.ite (trigWrite_does hw h) h)

theorem execTriggerFire_does {dt : Nat} {t : Nat} {s : State} (hw : [.clock, .regs, .host, .rings, .tim] ⊆ ps) (h : Does ps s0 s) :
    DoesR ps s0 (execTriggerFire dt t s) := by
  unfold execTriggerFire
  exact DoesR.ite (DoesR.next (State.elapse_does (sub hw) h)) (DoesR.next (State.setTrig_does (sub hw) (Does.ite (State.setGpio_does (sub hw) (State.fireAt_does (sub hw) (State.elapse_does (sub hw) h))) (State.fireAt_does (sub hw) (State.elapse_does (sub hw) h)))))

theorem execTriggerPulseEnd_does {dt : Nat} {t : Nat} {s : State} (hw : [.clock, .tim] ⊆ ps) (h : Does ps s0 s) :
    DoesR ps s0 (execTriggerPulseEnd dt t s) := by
  unfold execTriggerPulseEnd
  exact DoesR.ite (DoesR.next (State.setGpio_does (sub hw) (State.elapse_does (sub hw) h))) (DoesR.next (State.elapse_does (sub hw) h))

/-! ### Machine/Link.lean -/

theorem State.onLink_does {s : State} {f : Link → Link} (hw : [.link] ⊆ ps) (h : Does ps s0 s) :
    Does ps s0 (State.onLink s f) := by
  unfold State.onLink
  exact Does.upd [.link] hw h

theorem State.takeAddr_does {s : State} {a : Nat} (hw : [.regs, .host, .rings, .link] ⊆ ps) (h : Does ps s0 s) :
    Does ps s0 (State.takeAddr s a) := by
  unfold State.takeAddr
  exact State.fire_does (sub hw) (State.onLink_does (sub hw) h)

theorem State.setConflict_does {s : State} {k : Nat} (hw : [.regs, .host, .rings, .link] ⊆ ps) (h : Does ps s0 s) :
    Does ps s0 (State.setConflict s k) := by
  unfold State.setConflict
  exact Does.ite h (State.fire_does (sub hw) (State.onLink_does (sub hw) h))

theorem State.acceptStrap_does {s : State} (hw : [.regs, .host, .rings, .link] ⊆ ps) (h : Does ps s0 s) :
    Does ps s0 (State.acceptStrap s) := by
  unfold State.acceptStrap
  exact Does.ite (State.takeAddr_does hw (State.setConflict_does hw h)) h

theorem State.aligned_does {s : State} {p : Nat} {m : List Byte} (hw : [.link] ⊆ ps) (h : Does ps s0 s) :
    Does ps s0 (State.aligned s p m) := by
  unfold State.aligned
  exact (by
  (try extract_lets); split
  · exact State.onLink_does hw h
  · exact h)

theorem State.onLport_does {s : State} {p : Nat} {f : LinkPort → LinkPort} (hw : [.link] ⊆ ps) (h : Does ps s0 s) :
    Does ps s0 (State.onLport s p f) := by
  unfold State.onLport
  exact State.onLink_does hw h

theorem State.sendMarker_does {s : State} {p : Nat} (hw : [.free, .link] ⊆ ps) (h : Does ps s0 s) :
    Does ps s0 (State.sendMarker s p) := by
  unfold State.sendMarker
  exact Does.ite h ((by
  (try extract_lets); split
  · rename_i e; have h1 := Does.of_snd e (State.fresh_does (sub hw) h); exact State.onLink_does (sub hw) (State.onLport_does (sub hw) h1)))

theorem State.linkSeq_does {s : State} {cls : Nat} (hw : [.link] ⊆ ps) (h : Does ps s0 s) :
    Does ps s0 (State.linkSeq s cls).2 := by
  unfold State.linkSeq
  (try dsimp only); exact State.onLink_does hw h

theorem State.linkPut_does {s : State} {p : Nat} {f : List Byte} (hw : [.link] ⊆ ps) (h : Does ps s0 s) :
    Does ps s0 (State.linkPut s p f) := by
  unfold State.linkPut
  exact Does.ite (State.onLink_does hw h) h

theorem State.linkSend_does {s : State} {ps' : List Nat} {cls : Nat} {dest : Nat} {part : Nat} {arg : Nat} {payload : List Byte} (hw : [.link] ⊆ ps) (h : Does ps s0 s) :
    Does ps s0 (State.linkSend s ps' cls dest part arg payload) := by
  unfold State.linkSend
  exact (by
  (try extract_lets); split
  · rename_i e; have h1 := Does.of_snd e (State.linkSeq_does hw h); exact Does.foldl h1 fun _ _ h2 => State.linkPut_does hw h2)

theorem State.linkSendAll_does {s : State} {ps' : List Nat} {cls : Nat} {dest : Nat} {part : Nat} {arg : Nat} {payload : List Byte} (hw : [.link] ⊆ ps) (h : Does ps s0 s) :
    Does ps s0 (State.linkSendAll s ps' cls dest part arg payload) := by
  unfold State.linkSendAll
  exact Does.foldl h fun _ _ h1 => State.linkSend_does hw h1

theorem State.breakNotice_does {s : State} (hw : [.link] ⊆ ps) (h : Does ps s0 s) :
    Does ps s0 (State.breakNotice s) := by
  unfold State.breakNotice
  exact State.linkSend_does hw h

theorem State.decideAddr_does {s : State} {hop : Nat} (hw : [.regs, .host, .rings, .link] ⊆ ps) (h : Does ps s0 s) :
    Does ps s0 (State.decideAddr s hop) := by
  unfold State.decideAddr
  exact Does.ite h (Does.ite (State.setConflict_does hw h) (Does.ite (State.setConflict_does hw h) (Does.ite ((by
  (try extract_lets); split
  · exact State.takeAddr_does hw h
  · exact h)) (Does.ite (State.setConflict_does hw h) (Does.ite (State.setConflict_does hw h) (State.takeAddr_does hw (State.setConflict_does hw h)))))))

theorem State.sliceLive_does {s : State} {q : Req} (hw : [.regs, .host, .rings, .audit, .mgt, .slice, .macs, .wick, .pwr, .sta, .link] ⊆ ps) (h : Does ps s0 s) :
    Does ps s0 (State.sliceLive s q) := by
  unfold State.sliceLive
  extract_lets old new s1 s2
  clear_value new old
  exact State.finishAt_does (sub hw) (State.auditWriteBy_does (sub hw) (Does.upd [.slice] (sub hw) h))

theorem State.sliceTick_does {s : State} (hw : [.regs, .host, .rings, .audit, .mgt, .slice, .macs, .wick, .pwr, .sta, .link] ⊆ ps) (h : Does ps s0 s) :
    Does ps s0 (State.sliceTick s) := by
  unfold State.sliceTick
  exact Does.foldl (State.onLink_does (sub hw) h) fun _ _ h2 => State.sliceLive_does hw h2

theorem State.pathLost_does {s : State} {p : Nat} (hw : [.link] ⊆ ps) (h : Does ps s0 s) :
    Does ps s0 (State.pathLost s p) := by
  unfold State.pathLost
  exact Does.ite (State.breakNotice_does hw (State.onLink_does hw h)) (State.onLink_does hw h)

theorem State.linkLeft_does {s : State} {p : Nat} (hw : [.regs, .host, .rings, .link] ⊆ ps) (h : Does ps s0 s) :
    Does ps s0 (State.linkLeft s p) := by
  unfold State.linkLeft
  exact Does.ite (Does.ite (State.fire_does (sub hw) (State.onLink_does (sub hw) (State.onLink_does (sub hw) h))) (State.onLink_does (sub hw) h)) (Does.ite (State.pathLost_does (sub hw) h) (Does.ite (State.onLink_does (sub hw) h) h))

theorem State.linkState_does {s : State} {p : Nat} {st : Nat} (hw : [.regs, .host, .rings, .link] ⊆ ps) (h : Does ps s0 s) :
    Does ps s0 (State.linkState s p st) := by
  unfold State.linkState
  exact Does.ite h (Does.after (Does.ite (State.onLink_does (sub hw) Does.refl) Does.refl) (Does.ite (State.linkLeft_does hw (State.fire_does (sub hw) (State.onLport_does (sub hw) h))) (State.fire_does (sub hw) (State.onLport_does (sub hw) h))))

theorem State.linkApply_does {s : State} {p : Nat} {v : Word} {origin : Nat} {oid : Nat} {time : Nat} (hw : [.regs, .host, .rings, .audit, .wick, .pwr, .sta, .link] ⊆ ps) (h : Does ps s0 s) :
    Does ps s0 (State.linkApply s p v origin oid time) := by
  unfold State.linkApply
  exact Does.after (Does.ite Does.refl (Does.ite (Does.ite (State.linkState_does (sub hw) Does.refl) Does.refl) (State.onLport_does (sub hw) (State.linkState_does (sub hw) Does.refl)))) (State.chainEntry_does (sub hw) (State.setReg_does (sub hw) h))

theorem State.readdress_does {s : State} (hw : [.regs, .host, .rings, .link] ⊆ ps) (h : Does ps s0 s) :
    Does ps s0 (State.readdress s) := by
  unfold State.readdress
  exact Does.ite (State.takeAddr_does hw h) (State.onLink_does (sub hw) h)

theorem execLnkSliceApply_does {s : State} (hw : [.regs, .host, .rings, .audit, .mgt, .macs, .pwr, .link] ⊆ ps) (h : Does ps s0 s) :
    DoesR ps s0 (execLnkSliceApply s) := by
  unfold execLnkSliceApply
  exact (by
  (try extract_lets); split
  · exact DoesR.next h
  · exact DoesR.ite (DoesR.next (State.finish_does (sub hw) h)) (DoesR.ite (DoesR.next (State.finish_does (sub hw) h)) (DoesR.ite (DoesR.next (State.finish_does (sub hw) h)) (DoesR.ite (DoesR.next (State.stall_does (sub hw) h)) (DoesR.next (State.onLink_does (sub hw) (State.auditReserve_does (sub hw) (State.setPhase_does (sub hw) h))))))))

theorem State.topoFrom_does {s : State} {p : Nat} (hw : [.regs, .host, .rings, .link] ⊆ ps) (h : Does ps s0 s) :
    Does ps s0 (State.topoFrom s p) := by
  unfold State.topoFrom
  exact Does.ite (Does.ite (Does.ite (State.onLink_does (sub hw) h) (State.setConflict_does hw h)) h) (Does.ite h (Does.ite (Does.ite (State.onLink_does (sub hw) h) h) (State.onLink_does (sub hw) (Does.ite (State.onLink_does (sub hw) h) h))))

theorem lnkCfgWrite_does {s : State} {o : Origin} {off : Nat} {v : Word} (hw : [.regs, .host, .rings, .audit, .wick, .pwr, .sta] ⊆ ps) (h : Does ps s0 s) :
    Does ps s0 (lnkCfgWrite s o off v) := by
  unfold lnkCfgWrite
  exact Does.ite (State.setFlag_does (sub hw) h) (State.loggedWrite_does hw h)

theorem lnkCtrlWrite_does {s : State} {o : Origin} {v : Word} (hw : [.regs, .host, .rings, .audit, .wick, .pwr, .sta, .link] ⊆ ps) (h : Does ps s0 s) :
    Does ps s0 (lnkCtrlWrite s o v) := by
  unfold lnkCtrlWrite
  exact State.pulseWrite_does (sub hw) h (fun _ h1 => Does.ite (State.acceptStrap_does (sub hw) (Does.ite (State.readdress_does (sub hw) h1) h1)) (Does.ite (State.readdress_does (sub hw) h1) h1))

theorem linkPortWrite_does {s : State} {o : Origin} {p : Nat} {v : Word} (hw : [.regs, .host, .rings, .audit, .mgt, .wick, .pwr, .sta, .link] ⊆ ps) (h : Does ps s0 s) :
    Does ps s0 (linkPortWrite s o p v) := by
  unfold linkPortWrite
  exact Does.ite (State.bump_does (sub hw) h) (Does.ite (State.modeRequest_does (sub hw) h) (State.linkApply_does (sub hw) (State.auditRelease_does (sub hw) (State.auditReserve_does (sub hw) h))))

theorem execAccept_does {v : Word} {s : State} (hw : [.regs, .host, .rings, .audit, .wick, .pwr, .sta, .link] ⊆ ps) (h : Does ps s0 s) :
    DoesR ps s0 (execAccept v s) := by
  unfold execAccept
  exact DoesR.next (lnkCtrlWrite_does hw h)

theorem execLaneLock_does {port : Nat} {lane : Nat} {s : State} (hw : [.regs, .host, .rings, .link] ⊆ ps) (h : Does ps s0 s) :
    DoesR ps s0 (execLaneLock port lane s) := by
  unfold execLaneLock
  exact DoesR.ite (DoesR.next h) (DoesR.next (Does.ite (State.linkState_does hw (State.onLport_does (sub hw) h)) (State.onLport_does (sub hw) h)))

theorem execLaneLockLoss_does {port : Nat} {lane : Nat} {s : State} (hw : [.regs, .host, .rings, .link] ⊆ ps) (h : Does ps s0 s) :
    DoesR ps s0 (execLaneLockLoss port lane s) := by
  unfold execLaneLockLoss
  exact DoesR.ite (DoesR.next h) (DoesR.next (Does.ite (State.linkState_does hw (State.onLport_does (sub hw) h)) (State.onLport_does (sub hw) h)))

theorem execLinkPortEnable_does {port : Nat} {v : Word} {origin : Origin} {s : State} (hw : [.regs, .host, .rings, .audit, .mgt, .wick, .pwr, .sta, .link] ⊆ ps) (h : Does ps s0 s) :
    DoesR ps s0 (execLinkPortEnable port v origin s) := by
  unfold execLinkPortEnable
  exact DoesR.next (Does.ite (linkPortWrite_does hw h) h)

theorem execLnkCfgWrite_does {i : Nat} {v : Word} {origin : Origin} {s : State} (hw : [.regs, .host, .rings, .audit, .wick, .pwr, .sta] ⊆ ps) (h : Does ps s0 s) :
    DoesR ps s0 (execLnkCfgWrite i v origin s) := by
  unfold execLnkCfgWrite
  exact DoesR.next (Does.ite (lnkCfgWrite_does hw h) h)

theorem execMarkerLoss_does {dt : Nat} {port : Nat} {s : State} (hw : [.clock, .regs, .host, .rings, .link] ⊆ ps) (h : Does ps s0 s) :
    DoesR ps s0 (execMarkerLoss dt port s) := by
  unfold execMarkerLoss
  exact DoesR.next (Does.ite (State.linkState_does (sub hw) (State.elapse_does (sub hw) h)) (State.elapse_does (sub hw) h))

theorem execMarkerReceive_does {dt : Nat} {port : Nat} {m : List Byte} {s : State} (hw : [.clock, .regs, .host, .rings, .link] ⊆ ps) (h : Does ps s0 s) :
    DoesR ps s0 (execMarkerReceive dt port m s) := by
  unfold execMarkerReceive
  exact DoesR.ite (DoesR.next (State.elapse_does (sub hw) h)) (DoesR.ite (DoesR.next (State.onLport_does (sub hw) (State.bump_does (sub hw) (State.elapse_does (sub hw) h)))) (DoesR.after (DoesR.ite (DoesR.next Does.refl) (DoesR.ite (DoesR.next (State.onLink_does (sub hw) Does.refl)) (DoesR.next (State.decideAddr_does (sub hw) Does.refl)))) (Does.after (Does.ite (State.onLink_does (sub hw) Does.refl) (Does.ite (State.onLink_does (sub hw) Does.refl) Does.refl)) (State.topoFrom_does (sub hw) (Does.after (Does.ite (State.linkState_does (sub hw) Does.refl) Does.refl) (State.onLport_does (sub hw) (Does.ite (State.aligned_does (sub hw) (State.elapse_does (sub hw) h)) (State.elapse_does (sub hw) h))))))))

theorem execReaddress_does {v : Word} {s : State} (hw : [.regs, .host, .rings, .audit, .wick, .pwr, .sta, .link] ⊆ ps) (h : Does ps s0 s) :
    DoesR ps s0 (execReaddress v s) := by
  unfold execReaddress
  exact DoesR.next (lnkCtrlWrite_does hw h)

end Sys2Proof.Machine
end

