-- ==== Sys2Proof/Laws/DoesPower.lean ====
section
/-!
SUPPORT. Laws/DoesPower.lean: what each operation of Machine/Chain.lean, Machine/Power.lean, Machine/OpSense.lean may write, and that it keeps what is sound.
The proofs put the lemmas of the operations called together in the mods in which the operation calls them.
-/
namespace Sys2Proof.Machine

-- One proof at a time: the proofs of this file in parallel ask for more threads than the memory bound holds.
set_option Elab.async false
variable {ps : List Part} {s0 : State}

/-! ### Machine/Chain.lean -/

theorem State.applyMetas_does {s : State} {es : Nat} {ee : Nat} {recs : List MetaRec} (hw : [.regs, .rnd] ⊆ ps) (h : Does ps s0 s) :
    Does ps s0 (State.applyMetas s es ee recs) := by
  unfold State.applyMetas
  exact Does.foldl h fun _ _ h1 => State.latchRec_does hw h1

theorem State.twinCompare_does {s : State} (hw : [.regs, .evs, .link] ⊆ ps) (h : Does ps s0 s) :
    Does ps s0 (State.twinCompare s) := by
  unfold State.twinCompare
  exact (by
  (try extract_lets); split
  · exact h
  · exact Does.ite (State.onLink_does (sub hw) h) (Does.foldl (State.onLink_does (sub hw) h) fun _ _ h2 => Does.ite (State.noteEvent_does (sub hw) (State.bump_does (sub hw) h2)) h2))

theorem State.tunFlood_does {s : State} {dest : Nat} {arg : Nat} {msg : List Byte} (hw : [.regs, .host, .rings, .queues, .link] ⊆ ps) (h : Does ps s0 s) :
    Does ps s0 (State.tunFlood s dest arg msg) := by
  unfold State.tunFlood
  exact (by
  (try extract_lets); split
  · rename_i e; have h1 := Does.of_snd e (State.linkSeq_does (sub hw) h); exact Does.foldl h1 fun _ _ h2 => Does.ite h2 (Does.foldl (State.popItem_does (sub hw) (State.pushItem_does (sub hw) h2)) fun _ _ h3 => State.linkPut_does (sub hw) h3))

theorem State.sendReplies_does {s : State} (hw : [.regs, .host, .rings, .queues, .link] ⊆ ps) (h : Does ps s0 s) :
    Does ps s0 (State.sendReplies s) := by
  unfold State.sendReplies
  exact Does.foldl (State.onLink_does (sub hw) h) fun _ _ h2 => State.tunFlood_does hw h2

theorem State.twinSend_does {s : State} {report : List Byte} (hw : [.link] ⊆ ps) (h : Does ps s0 s) :
    Does ps s0 (State.twinSend s report) := by
  unfold State.twinSend
  exact (by
  (try extract_lets); split
  · exact h
  · exact Does.ite h ((by
   (try extract_lets); split
   · exact Does.after (Does.ite (Does.foldl Does.refl fun _ _ h3 => Does.ite h3 (State.linkSend_does hw h3)) Does.refl) (State.linkSend_does hw (State.linkSendAll_does hw (State.onLink_does hw h)))
   · exact State.linkSend_does hw (State.linkSendAll_does hw (State.onLink_does hw h)))))

theorem State.breakHeard_does {s : State} {p : Nat} (hw : [.link] ⊆ ps) (h : Does ps s0 s) :
    Does ps s0 (State.breakHeard s p) := by
  unfold State.breakHeard
  exact Does.ite (State.onLink_does hw h) (Does.ite (State.onLink_does hw h) (State.onLink_does hw h))

theorem State.captureGroup_does {s : State} (hw : [.link] ⊆ ps) (h : Does ps s0 s) :
    Does ps s0 (State.captureGroup s) := by
  unfold State.captureGroup
  exact State.linkSendAll_does hw (State.onLink_does hw h)

theorem State.iter_does {f : State → State} {n : Nat} {s : State} (h : Does ps s0 s)
    (hf : ∀ t, Does ps s0 t → Does ps s0 (f t)) : Does ps s0 (iter n f s) :=
  Does.foldl h fun _ _ k => hf _ k

theorem State.captureRest_does {s : State} (hw : [.link] ⊆ ps) (h : Does ps s0 s) : Does ps s0 (State.captureRest s) :=
  State.iter_does h fun _ k => State.captureGroup_does hw k

theorem State.castApply_does {es : Nat} {ee : Nat} {s : State} {q : MetaDesc × Bool} (hw : [.regs, .host, .rings, .mgt, .rnd, .macs, .pwr, .link] ⊆ ps)
    (h : Does ps s0 s) : Does ps s0 (State.castApply es ee s q) := by
  unfold State.castApply
  have k : Does ps s0 (State.latchRecs es ee q.1.recs.length q.1.status q.1.recs s).2.2.2 := State.latchRecs_does (sub hw) h
  generalize State.latchRecs es ee q.1.recs.length q.1.status q.1.recs s = r at k ⊢
  obtain ⟨a, st, b, t⟩ := r
  exact Does.ite (State.finish_does (sub hw) k) (State.onRnd_does (sub hw) k)

theorem State.castDue_does {s : State} {es : Nat} {ee : Nat} (hw : [.regs, .host, .rings, .mgt, .rnd, .macs, .pwr, .link] ⊆ ps) (h : Does ps s0 s) :
    Does ps s0 (State.castDue s es ee) := by
  unfold State.castDue
  exact Does.foldl (State.onLink_does (sub hw) h) fun _ _ h2 => State.castApply_does hw h2

theorem State.castLatch_does {n : Nat} {l : List MetaDesc} {s : State} (hw : [.rings] ⊆ ps) (h : Does ps s0 s) :
    Does ps s0 (State.castLatch n l s).2.2 := by
  induction l generalizing n s with
  | nil => exact h
  | cons d l ih =>
    unfold State.castLatch
    split
    · exact ih h
    · exact ih (State.setPhase_does hw h)

theorem State.chainBlock_does {s : State} {c : Nat} (hw : [.regs, .link] ⊆ ps) (h : Does ps s0 s) :
    Does ps s0 (State.chainBlock s c).1 := by
  unfold State.chainBlock
  refine Does.ite_fst h ?_
  split <;> first
    | exact State.onLink_does (sub hw) h
    | exact State.bump_does (sub hw) (State.onLink_does (sub hw) h)
    | (dsimp only; exact State.onLink_does (sub hw) h)
    | (dsimp only; exact State.bump_does (sub hw) (State.onLink_does (sub hw) h))

theorem State.chainBlocks_does {s : State} (hw : [.regs, .link] ⊆ ps) (h : Does ps s0 s) :
    Does ps s0 (State.chainBlocks s).1 := by
  unfold State.chainBlocks
  refine Does.ite_fst h ?_
  split
  rename_i s1 l e
  have k : Does ps s0 s1 := Does.of_fst e (Does.foldl_fst h fun _ _ k => State.chainBlock_does (sub hw) k)
  dsimp only
  exact State.onLink_does (sub hw) k

theorem State.chainLatch_does {s : State} {es ee : Nat} (hw : [.regs, .rings, .rnd, .link] ⊆ ps) (h : Does ps s0 s) :
    Does ps s0 (State.chainLatch s es ee) := by
  unfold State.chainLatch
  refine Does.ite ?_ ?_
  · extract_lets ds
    have k1 : Does ps s0 (State.castLatch 2048 ds (s.onRnd (fun x => { x with waiting := [] }))).2.2 :=
      State.castLatch_does (sub hw) (State.onRnd_does (sub hw) h)
    generalize State.castLatch 2048 ds (s.onRnd (fun x => { x with waiting := [] })) = q at k1 ⊢
    obtain ⟨l, due, s2⟩ := q
    have k2 : ∀ f g ps' c d p a b, Does ps s0 (((s2.onRnd f).onLink g).linkSendAll ps' c d p a b) := fun _ _ _ _ _ _ _ _ =>
      State.linkSendAll_does (sub hw) (State.onLink_does (sub hw) (State.onRnd_does (sub hw) k1))
    exact Does.ite (State.linkSend_does (sub hw) (k2 _ _ _ _ _ _ _ _)) (k2 _ _ _ _ _ _ _ _)
  · refine State.onLink_does (sub hw) (Does.foldl (Does.ite (State.bump_does (sub hw) h) h) fun u n k => ?_)
    split
    · exact State.applyMetas_does (sub hw) k
    · exact k

theorem State.sealGroups_does {s : State} {blockOf : Nat → Block} (hw : [.link] ⊆ ps) (h : Does ps s0 s) :
    Does ps s0 (State.sealGroups s blockOf) := by
  unfold State.sealGroups
  exact State.onLink_does hw (State.linkSendAll_does hw h)

theorem State.linkForward_does {s : State} {p : Nat} {f : List Byte} (hw : [.link] ⊆ ps) (h : Does ps s0 s) :
    Does ps s0 (State.linkForward s p f) := by
  unfold State.linkForward
  exact State.linkPut_does hw h

theorem State.prbsErrors_does {s : State} {p : Nat} {errs : Nat} (hw : [.regs, .host, .rings, .link] ⊆ ps) (h : Does ps s0 s) :
    Does ps s0 (State.prbsErrors s p errs) := by
  unfold State.prbsErrors
  exact Does.ite (State.fire_does (sub hw) (State.onLport_does (sub hw) (State.bump_does (sub hw) (State.onLport_does (sub hw) (State.bump_does (sub hw) h))))) (State.onLport_does (sub hw) (State.bump_does (sub hw) h))

theorem State.takeRemote_does {s : State} {peer : Nat} {msg : List Byte} (hw : [.regs, .host, .rings, .mgt, .macs, .pwr, .link] ⊆ ps) (h : Does ps s0 s) :
    Does ps s0 (State.takeRemote s peer msg) := by
  unfold State.takeRemote
  exact State.retire_does hw (State.onRing_does (sub hw) (State.onLink_does (sub hw) h))

theorem State.tunnelPart_does {s : State} {p : Nat} {origin : Nat} {dest : Nat} {seq : Nat} {part : Nat} {arg : Nat} {b : List Byte} (hw : [.regs, .host, .rings, .queues, .link] ⊆ ps) (h : Does ps s0 s) :
    Does ps s0 (State.tunnelPart s p origin dest seq part arg b) := by
  unfold State.tunnelPart
  exact Does.ite (State.onLink_does (sub hw) h) (State.pushItem_does (sub hw) (State.onLink_does (sub hw) h))

theorem execGroupCapture_does {dt : Nat} {s : State} (hw : [.clock, .link] ⊆ ps) (h : Does ps s0 s) :
    DoesR ps s0 (execGroupCapture dt s) := by
  unfold execGroupCapture
  exact DoesR.next (Does.ite (State.captureGroup_does (sub hw) (State.elapse_does (sub hw) h)) (State.elapse_does (sub hw) h))

theorem execLinkFrameReceive_does {dt : Nat} {port : Nat} {f : List Byte} {errs : Nat} {s : State} (hw : [.clock, .regs, .host, .rings, .queues, .link] ⊆ ps) (h : Does ps s0 s) :
    DoesR ps s0 (execLinkFrameReceive dt port f errs s) := by
  unfold execLinkFrameReceive
  exact DoesR.ite (DoesR.next (State.elapse_does (sub hw) h)) (DoesR.ite (DoesR.next (State.prbsErrors_does (sub hw) (State.elapse_does (sub hw) h))) (DoesR.ite (DoesR.next (State.bump_does (sub hw) (State.elapse_does (sub hw) h))) (DoesR.after (DoesR.ite (DoesR.ite (DoesR.next Does.refl) (DoesR.next (State.breakHeard_does (sub hw) (Does.ite (State.linkForward_does (sub hw) Does.refl) Does.refl)))) (DoesR.ite (DoesR.next (Does.ite (State.onLink_does (sub hw) Does.refl) Does.refl)) (DoesR.ite (DoesR.ite (DoesR.next Does.refl) (DoesR.next (Does.after (Does.ite (State.onLink_does (sub hw) Does.refl) Does.refl) (Does.ite Does.refl (State.linkForward_does (sub hw) Does.refl))))) (DoesR.ite (DoesR.ite (DoesR.next (Does.ite Does.refl (State.linkForward_does (sub hw) Does.refl))) (DoesR.ite (DoesR.next Does.refl) (DoesR.next (State.onLink_does (sub hw) Does.refl)))) (DoesR.ite (DoesR.ite (DoesR.next Does.refl) (DoesR.next (Does.ite (State.onLink_does (sub hw) (State.linkForward_does (sub hw) Does.refl)) (State.linkForward_does (sub hw) Does.refl)))) (DoesR.ite (DoesR.ite (DoesR.next Does.refl) (DoesR.next (Does.after (Does.ite (State.tunnelPart_does (sub hw) Does.refl) Does.refl) (Does.ite (State.linkForward_does (sub hw) Does.refl) Does.refl)))) (DoesR.next Does.refl))))))) (Does.ite (State.elapse_does (sub hw) h) (State.onLink_does (sub hw) (State.elapse_does (sub hw) h))))))

theorem execTunSend_does {ring : Nat} {data : Option (List Byte)} {s : State} (hw : [.regs, .host, .rings, .mgt, .queues, .macs, .pwr, .link] ⊆ ps) (h : Does ps s0 s) :
    DoesR ps s0 (execTunSend ring data s) := by
  unfold execTunSend
  exact (by
  (try extract_lets); split
  · exact DoesR.next h
  · exact DoesR.ite (DoesR.next (State.finish_does (sub hw) h)) (DoesR.ite (DoesR.next (State.finish_does (sub hw) h)) (DoesR.ite (DoesR.next (State.finish_does (sub hw) h)) (DoesR.ite (DoesR.next (State.finish_does (sub hw) h)) ((by
   (try extract_lets); split
   · exact DoesR.next (State.finish_does (sub hw) h)
   · exact DoesR.next (State.finishAt_does (sub hw) (State.tunFlood_does (sub hw) h))))))))

theorem execTunnelReceive_does {dt : Nat} {port : Nat} {s : State} (hw : [.clock, .regs, .host, .rings, .mgt, .queues, .macs, .wick, .pwr, .sta, .link] ⊆ ps) (h : Does ps s0 s) :
    DoesR ps s0 (execTunnelReceive dt port s) := by
  unfold execTunnelReceive
  exact (by
  (try extract_lets); split
  · exact DoesR.next (State.elapse_does (sub hw) h)
  · exact DoesR.ite (DoesR.next (State.elapse_does (sub hw) h)) (DoesR.ite (DoesR.ite (DoesR.next (State.sendReplies_does (sub hw) (State.takeRemote_does (sub hw) (State.popItem_does (sub hw) (State.elapse_does (sub hw) h))))) (DoesR.next (State.bump_does (sub hw) (State.popItem_does (sub hw) (State.elapse_does (sub hw) h))))) (DoesR.next (State.enqueue_does (sub hw) (State.popItem_does (sub hw) (State.elapse_does (sub hw) h))))))

/-! ### Machine/Power.lean -/

theorem State.abortOthers_does {s : State} (hw : [.regs, .host, .rings, .audit, .mgt, .rnd, .cnv, .mix, .tiles, .macs, .streams, .vox, .wick, .pwr, .link] ⊆ ps) (h : Does ps s0 s) :
    Does ps s0 (State.abortOthers s) := by
  unfold State.abortOthers
  exact State.eachRing_does h (fun _ _ h1 => Does.ite h1 (State.retire_does (sub hw) (State.withdrawGo_does (sub hw) h1)))

theorem State.onPwr_does {s : State} {f : Pwr → Pwr} (hw : [.pwr] ⊆ ps) (h : Does ps s0 s) :
    Does ps s0 (State.onPwr s f) := by
  unfold State.onPwr
  exact Does.upd [.pwr] hw h

theorem State.setPwr_does {s : State} {n : Nat} {b : Bool} (hw : [.regs, .pwr] ⊆ ps) (h : Does ps s0 s) :
    Does ps s0 (State.setPwr s n b) := by
  unfold State.setPwr
  exact Does.ite h (Does.ite (State.onPwr_does (sub hw) (State.setFlag_does (sub hw) h)) (State.setFlag_does (sub hw) h))

theorem State.bootFailed_does {s : State} (hw : [.regs, .mgt, .pwr] ⊆ ps) (h : Does ps s0 s) :
    Does ps s0 (State.bootFailed s) := by
  unfold State.bootFailed
  exact State.setPwr_does (sub hw) (Does.upd [.mgt] (sub hw) h)

theorem State.bootReady_does {s : State} {slot svn : Nat} {img : List Byte} (hw : [.regs, .host, .rings, .audit, .mgt, .wick, .pwr, .sta] ⊆ ps) (h : Does ps s0 s) :
    Does ps s0 (State.bootReady s slot svn img) := by
  unfold State.bootReady
  extract_lets s1 s2 s3
  have k : Does ps s0 s1 := State.auditNow_does (sub hw) h
  clear_value s1
  exact State.setPwr_does (sub hw) (State.setPwr_does (sub hw) (State.onPwr_does (sub hw) (Does.upd [.mgt] (sub hw) k)))

theorem State.bootRom_does {s : State} {head : Bool} {sel : Nat} {addr : Nat} {dt : Nat} (hw : [.clock, .regs, .host, .rings, .audit, .straps, .wick, .pwr, .sta, .link] ⊆ ps) (h : Does ps s0 s) :
    Does ps s0 (State.bootRom s head sel addr dt) := by
  unfold State.bootRom
  exact Does.after (Does.ite (State.takeAddr_does (sub hw) Does.refl) Does.refl) (Does.after (Does.ite (State.auditNow_does (sub hw) Does.refl) Does.refl) (State.elapse_does (sub hw) (Does.upd [.clock, .audit, .straps] (sub hw) h)))

theorem State.bootSpi_does {s : State} {okA : Bool} {okB : Bool} (hw : [.regs, .host, .rings, .audit, .mgt, .wick, .pwr, .sta] ⊆ ps) (h : Does ps s0 s) :
    Does ps s0 (State.bootSpi s okA okB) := by
  unfold State.bootSpi
  exact (by
  (try extract_lets); split
  · exact State.bootReady_does hw (State.onPwr_does (sub hw) h)
  · exact State.bootFailed_does (sub hw) h)

theorem State.hotFire_does {s : State} (hw : [.free, .regs, .host, .rings] ⊆ ps) (h : Does ps s0 s) :
    Does ps s0 (State.hotFire s) := by
  unfold State.hotFire
  exact Does.ite h (State.fireOpen_does hw h)

theorem State.hotFlag_does {s : State} {t : Int} (hw : [.free, .regs, .host, .rings, .pwr] ⊆ ps) (h : Does ps s0 s) :
    Does ps s0 (State.hotFlag s t) := by
  unfold State.hotFlag
  exact Does.ite (State.onPwr_does (sub hw) h) (Does.ite h (State.hotFire_does (sub hw) (State.onPwr_does (sub hw) h)))

theorem State.pwrFire_does {s : State} {v : Nat} {w1 : Word} {w2 : Word} (hw : [.regs, .host, .rings] ⊆ ps) (h : Does ps s0 s) :
    Does ps s0 (State.pwrFire s v w1 w2) := by
  unfold State.pwrFire
  exact Does.ite h (State.fire_does hw h)

theorem State.railsOff_does {s : State} {aux : Bool} (hw : [.regs, .pwr, .link] ⊆ ps) (h : Does ps s0 s) :
    Does ps s0 (State.railsOff s aux) := by
  unfold State.railsOff
  exact State.onPwr_does (sub hw) (State.setPwr_does (sub hw) (Does.upd [.link] (sub hw) h))

theorem State.railsOn_does {s : State} (hw : [.regs, .pwr] ⊆ ps) (h : Does ps s0 s) :
    Does ps s0 (State.railsOn s) := by
  unfold State.railsOn
  exact State.onPwr_does (sub hw) (State.setPwr_does hw h)

theorem State.rebooted_does {s : State} (hw : [.clock, .regs, .host, .rings, .audit, .mgt, .ing, .rnd, .cnv, .mix, .slice, .evs, .ev53, .queues, .dram, .tiles, .parWords, .macs, .mdioEnd, .tim, .streams, .vox, .heldRegs, .imgs, .wick, .lan, .vig, .sec, .pwr, .sta, .mnt, .ports, .ops, .link] ⊆ ps) (h : Does ps s0 s) : Does ps s0 (State.rebooted s) :=
  State.setPwr_does (sub hw) (h.trans ⟨fun p hp => by cases p <;> first | rfl | exact absurd (hw (by decide)) hp,
    fun hs => ⟨Cells.wf_filter hs.1, rfl, rfl, rfl, Nat.zero_le 5, rfl, rfl, rfl, rfl, rfl, rfl⟩⟩)

theorem State.refuseRest_does {s : State} (hw : [.rings] ⊆ ps) (h : Does ps s0 s) :
    Does ps s0 (State.refuseRest s) := by
  unfold State.refuseRest
  exact State.onRing_does hw h

theorem State.resetAction_does {s : State} {cause : Nat} (hw : [.clock, .regs, .host, .rings, .audit, .mgt, .ing, .rnd, .cnv, .mix, .slice, .evs, .ev53, .queues, .dram, .tiles, .parWords, .macs, .mdioEnd, .tim, .streams, .vox, .heldRegs, .imgs, .wick, .lan, .vig, .sec, .pwr, .sta, .mnt, .ports, .ops, .link] ⊆ ps) (h : Does ps s0 s) :
    Does ps s0 (State.resetAction s cause) := by
  unfold State.resetAction
  exact Does.ite (State.setReg_does (sub hw) (State.railsOff_does (sub hw) (State.onPwr_does (sub hw) (State.rebooted_does hw h)))) (Does.ite (State.railsOff_does (sub hw) (State.onPwr_does (sub hw) (State.rebooted_does hw h))) (Does.ite (State.railsOff_does (sub hw) (State.onPwr_does (sub hw) (State.rebooted_does hw h))) (Does.ite (State.onPwr_does (sub hw) (State.rebooted_does hw h)) (State.rebooted_does hw h))))

theorem execModReset_does {s : State} (hw : [.regs, .host, .rings, .audit, .mgt, .macs, .pwr, .link] ⊆ ps) (h : Does ps s0 s) :
    DoesR ps s0 (execModReset s) := by
  unfold execModReset
  exact (by
  (try extract_lets); split
  · exact DoesR.next h
  · exact DoesR.ite (DoesR.next (State.finish_does (sub hw) h)) (DoesR.ite (DoesR.next (State.stall_does (sub hw) h)) (DoesR.next (State.finish_does (sub hw) (State.onPwr_does (sub hw) (State.auditReserve_does (sub hw) h))))))

theorem State.setVin_does {s : State} {mv : Nat} (hw : [.regs] ⊆ ps) (h : Does ps s0 s) :
    Does ps s0 (State.setVin s mv) := by
  unfold State.setVin
  exact State.setReg_does hw h

theorem State.smbAnswer_does {s : State} {b : List Byte} (hw : [.pwr] ⊆ ps) (h : Does ps s0 s) :
    Does ps s0 (State.smbAnswer s b) := by
  unfold State.smbAnswer
  exact State.onPwr_does hw h

theorem State.snuffSample_does {s : State} (hw : [.free] ⊆ ps) (h : Does ps s0 s) : Does ps s0 (State.snuffSample s).2 :=
  State.fresh_does (bound := 4) hw h

theorem State.snuffTrigger_does {s : State} {cause : Nat} (hw : [.free, .regs, .host, .rings, .audit, .mix, .wick, .pwr, .sta] ⊆ ps) (h : Does ps s0 s) :
    Does ps s0 (State.snuffTrigger s cause) := by
  have g0 : ∀ (t : State) p, Does ps s0 t → Does ps s0 { t with mix := p } := fun _ _ => Does.upd [.mix] (sub hw)
  unfold State.snuffTrigger
  refine Does.ite h ?_
  extract_lets s1 s2 s3 s4 s5
  have k3 : Does ps s0 s3 := Does.ite (State.setPwr_does (sub hw) (State.setPwr_does (sub hw) (State.setReg_does (sub hw) h)))
    (State.setPwr_does (sub hw) (State.setReg_does (sub hw) h))
  clear_value s3
  have k5 : Does ps s0 s5 := Does.ite (State.auditWrite_does (sub hw) (State.onPwr_does (sub hw) k3)) (State.onPwr_does (sub hw) k3)
  clear_value s5
  have k6 : Does ps s0 s5.snuffSample.2 := State.snuffSample_does (sub hw) k5
  generalize s5.snuffSample = q at k6 ⊢
  obtain ⟨i, s6⟩ := q
  exact State.auditSnuffer_does (sub hw) (g0 _ _ k6)

theorem State.thermFlag_does {s : State} {t : Int} (hw : [.regs, .host, .rings, .pwr] ⊆ ps) (h : Does ps s0 s) :
    Does ps s0 (State.thermFlag s t) := by
  unfold State.thermFlag
  exact Does.ite (State.pwrFire_does (sub hw) (State.setPwr_does (sub hw) h)) (Does.ite (State.pwrFire_does (sub hw) (State.setPwr_does (sub hw) h)) h)

theorem execAlertResponse_does {s : State} (hw : [.pwr] ⊆ ps) (h : Does ps s0 s) :
    DoesR ps s0 (execAlertResponse s) := by
  unfold execAlertResponse
  exact DoesR.ite (DoesR.next (State.onPwr_does hw (State.smbAnswer_does hw h))) (DoesR.next (State.onPwr_does hw h))

theorem execAuxFault_does {dt : Nat} {s : State} (hw : [.clock, .regs, .host, .rings, .pwr] ⊆ ps) (h : Does ps s0 s) :
    DoesR ps s0 (execAuxFault dt s) := by
  unfold execAuxFault
  exact DoesR.next (Does.ite (State.pwrFire_does (sub hw) (State.setPwr_does (sub hw) (State.elapse_does (sub hw) h))) (State.elapse_does (sub hw) h))

theorem execAuxFaultRecovery_does {dt : Nat} {s : State} (hw : [.clock, .regs, .pwr] ⊆ ps) (h : Does ps s0 s) :
    DoesR ps s0 (execAuxFaultRecovery dt s) := by
  unfold execAuxFaultRecovery
  exact DoesR.next (State.setPwr_does (sub hw) (State.elapse_does (sub hw) h))

theorem execBoot_does {dt : Nat} {head : Bool} {sel : Nat} {addr : Nat} {okA : Bool} {okB : Bool} {chain : Option (List Byte)} {chainOk : Bool} {s : State} (hw : [.clock, .regs, .host, .rings, .audit, .mgt, .straps, .wick, .pwr, .sta, .link] ⊆ ps) (h : Does ps s0 s) :
    DoesR ps s0 (execBoot dt head sel addr okA okB chain chainOk s) := by
  unfold execBoot
  exact DoesR.ite (DoesR.next h) (DoesR.ite (DoesR.ite (DoesR.next (State.elapse_does (sub hw) h)) (DoesR.ite (DoesR.next (State.bootSpi_does (sub hw) (State.bootRom_does (sub hw) h))) (DoesR.ite (DoesR.next (Does.updOf [.mgt] (sub hw) (State.bootRom_does (sub hw) h))) (DoesR.ite ((by
  (try extract_lets); split
  · exact DoesR.ite (DoesR.next (State.bootReady_does (sub hw) (State.bootRom_does (sub hw) h))) (DoesR.next (State.bootFailed_does (sub hw) (State.bootRom_does (sub hw) h)))
  · exact DoesR.next (State.bootRom_does (sub hw) h))) (DoesR.next (State.bootFailed_does (sub hw) (State.bootRom_does (sub hw) h))))))) (DoesR.ite ((by
  (try extract_lets); split
  · exact DoesR.next (State.bootReady_does (sub hw) (State.elapse_does (sub hw) h))
  · exact DoesR.next (State.elapse_does (sub hw) h))) (DoesR.next h)))

theorem execGlitch_does {dt : Nat} {cause : Nat} {s : State} (hw : [.clock, .regs, .host, .rings, .audit, .mgt, .ing, .rnd, .cnv, .mix, .slice, .evs, .ev53, .queues, .dram, .tiles, .parWords, .macs, .mdioEnd, .tim, .streams, .vox, .heldRegs, .imgs, .wick, .lan, .vig, .sec, .pwr, .sta, .mnt, .ports, .ops, .link] ⊆ ps) (h : Does ps s0 s) :
    DoesR ps s0 (execGlitch dt cause s) := by
  unfold execGlitch
  exact DoesR.ite (DoesR.next (State.elapse_does (sub hw) h)) (DoesR.next (Does.after (Does.ite (State.onPwr_does (sub hw) Does.refl) Does.refl) (State.rebooted_does hw (State.setPwr_does (sub hw) (State.setReg_does (sub hw) (State.setReg_does (sub hw) (State.elapse_does (sub hw) h)))))))

theorem execMantleFault_does {dt : Nat} {s : State} (hw : [.free, .clock, .regs, .host, .rings, .audit, .mix, .wick, .pwr, .sta, .mnt] ⊆ ps) (h : Does ps s0 s) :
    DoesR ps s0 (execMantleFault dt s) := by
  unfold execMantleFault
  exact DoesR.ite (DoesR.next (State.elapse_does (sub hw) h)) (DoesR.next (State.snuffTrigger_does (sub hw) (State.mntGo_does (sub hw) (State.elapse_does (sub hw) h))))

theorem execOvervoltage_does {dt : Nat} {mv : Nat} {s : State} (hw : [.free, .clock, .regs, .host, .rings, .audit, .mix, .wick, .pwr, .sta] ⊆ ps) (h : Does ps s0 s) :
    DoesR ps s0 (execOvervoltage dt mv s) := by
  unfold execOvervoltage
  exact DoesR.next (Does.ite (State.snuffTrigger_does (sub hw) (State.setVin_does (sub hw) (State.elapse_does (sub hw) h))) (State.setVin_does (sub hw) (State.elapse_does (sub hw) h)))

theorem execOvervoltageRecovery_does {dt : Nat} {mv : Nat} {strap : Nat} {s : State} (hw : [.clock, .regs, .pwr] ⊆ ps) (h : Does ps s0 s) :
    DoesR ps s0 (execOvervoltageRecovery dt mv strap s) := by
  unfold execOvervoltageRecovery
  exact DoesR.ite (DoesR.next (State.setVin_does (sub hw) (State.elapse_does (sub hw) h))) (DoesR.next (State.railsOn_does (sub hw) (State.onPwr_does (sub hw) (State.setVin_does (sub hw) (State.elapse_does (sub hw) h)))))

theorem execOvervoltageWarning_does {dt : Nat} {mv : Nat} {s : State} (hw : [.clock, .regs, .host, .rings] ⊆ ps) (h : Does ps s0 s) :
    DoesR ps s0 (execOvervoltageWarning dt mv s) := by
  unfold execOvervoltageWarning
  exact DoesR.next (Does.ite (State.pwrFire_does (sub hw) (State.setVin_does (sub hw) (State.elapse_does (sub hw) h))) (State.setVin_does (sub hw) (State.elapse_does (sub hw) h)))

theorem execPowerUpStart_does {dt : Nat} {mv : Nat} {strap : Nat} {s : State} (hw : [.clock, .regs, .pwr] ⊆ ps) (h : Does ps s0 s) :
    DoesR ps s0 (execPowerUpStart dt mv strap s) := by
  unfold execPowerUpStart
  exact DoesR.ite (DoesR.next (State.setVin_does (sub hw) (State.elapse_does (sub hw) h))) (DoesR.next (State.railsOn_does (sub hw) (State.onPwr_does (sub hw) (State.setVin_does (sub hw) (State.elapse_does (sub hw) h)))))

theorem execPwrStandby_does {s : State} (hw : [.regs, .host, .rings, .audit, .mgt, .rnd, .cnv, .mix, .tiles, .macs, .streams, .vox, .wick, .pwr, .link] ⊆ ps) (h : Does ps s0 s) :
    DoesR ps s0 (execPwrStandby s) := by
  unfold execPwrStandby
  exact (by
  (try extract_lets); split
  · exact DoesR.next h
  · exact DoesR.ite (DoesR.next (State.finish_does (sub hw) h)) (DoesR.ite (DoesR.next (State.finish_does (sub hw) h)) (DoesR.ite (DoesR.next h) (DoesR.next (State.retire_does (sub hw) (State.onPwr_does (sub hw) (State.refuseRest_does (sub hw) (State.abortOthers_does hw (State.setPhase_does (sub hw) h)))))))))

theorem execPwrWake_does {s : State} (hw : [.regs, .host, .rings, .mgt, .dram, .macs, .pwr, .link] ⊆ ps) (h : Does ps s0 s) :
    DoesR ps s0 (execPwrWake s) := by
  unfold execPwrWake
  exact (by
  (try extract_lets); split
  · exact DoesR.next h
  · exact DoesR.ite (DoesR.next (State.finish_does (sub hw) h)) (DoesR.ite (DoesR.next (State.finish_does (sub hw) h)) (DoesR.next (State.finish_does (sub hw) (Does.foldl (Does.updOf [.mgt] (sub hw) (Does.foldl h fun _ _ h1 => State.leaveSelfRefresh_does (sub hw) h1)) fun _ _ h2 => Does.ite (State.onMac_does (sub hw) h2) h2)))))

theorem execRailFault_does {dt : Nat} {s : State} (hw : [.free, .clock, .regs, .host, .rings, .audit, .mix, .wick, .pwr, .sta] ⊆ ps) (h : Does ps s0 s) :
    DoesR ps s0 (execRailFault dt s) := by
  unfold execRailFault
  exact DoesR.next (State.snuffTrigger_does (sub hw) (State.elapse_does (sub hw) h))

theorem execResetN_does {dt : Nat} {low : Bool} {s : State} (hw : [.free, .clock, .regs, .host, .rings, .audit, .mix, .wick, .pwr, .sta] ⊆ ps) (h : Does ps s0 s) :
    DoesR ps s0 (execResetN dt low s) := by
  unfold execResetN
  exact DoesR.ite (DoesR.next (Does.ite (State.onPwr_does (sub hw) (State.onPwr_does (sub hw) (State.elapse_does (sub hw) h))) (State.onPwr_does (sub hw) (State.elapse_does (sub hw) h)))) (DoesR.ite (DoesR.next (State.onPwr_does (sub hw) (State.onPwr_does (sub hw) (State.elapse_does (sub hw) h)))) (DoesR.ite (DoesR.next (State.onPwr_does (sub hw) (State.onPwr_does (sub hw) (State.elapse_does (sub hw) h)))) (DoesR.ite (DoesR.next (State.onPwr_does (sub hw) (State.elapse_does (sub hw) h))) (DoesR.next (State.snuffTrigger_does (sub hw) (State.onPwr_does (sub hw) (State.elapse_does (sub hw) h)))))))

theorem execSmbReadCause_does {s : State} (hw : [.pwr] ⊆ ps) (h : Does ps s0 s) :
    DoesR ps s0 (execSmbReadCause s) := by
  unfold execSmbReadCause
  exact DoesR.next (State.smbAnswer_does hw h)

theorem execSmbReadStatus_does {s : State} (hw : [.pwr] ⊆ ps) (h : Does ps s0 s) :
    DoesR ps s0 (execSmbReadStatus s) := by
  unfold execSmbReadStatus
  exact DoesR.next (State.smbAnswer_does hw h)

theorem execSmbReadTemp_does {s : State} (hw : [.pwr] ⊆ ps) (h : Does ps s0 s) :
    DoesR ps s0 (execSmbReadTemp s) := by
  unfold execSmbReadTemp
  exact DoesR.next (State.smbAnswer_does hw h)

theorem execSmbReadVin_does {s : State} (hw : [.pwr] ⊆ ps) (h : Does ps s0 s) :
    DoesR ps s0 (execSmbReadVin s) := by
  unfold execSmbReadVin
  exact DoesR.next (State.smbAnswer_does hw h)

theorem execSmbWrite_does {s : State} (hw : [.pwr] ⊆ ps) (h : Does ps s0 s) :
    DoesR ps s0 (execSmbWrite s) := by
  unfold execSmbWrite
  exact DoesR.next (State.onPwr_does hw h)

theorem execSnuffer_does {dt : Nat} {s : State} (hw : [.free, .clock, .regs, .host, .rings, .audit, .mix, .wick, .pwr, .sta] ⊆ ps) (h : Does ps s0 s) :
    DoesR ps s0 (execSnuffer dt s) := by
  unfold execSnuffer
  exact (by
  (try extract_lets); split
  · exact DoesR.ite (DoesR.next (State.elapse_does (sub hw) h)) (DoesR.next (State.onPwr_does (sub hw) (State.journalWrite_does (sub hw) (State.elapse_does (sub hw) h))))
  · exact DoesR.next (Does.ite (State.snuffTrigger_does (sub hw) (State.elapse_does (sub hw) h)) (State.elapse_does (sub hw) h)))

theorem execSnufferEnd_does {dt : Nat} {s : State} (hw : [.clock, .regs, .host, .rings, .audit, .mgt, .ing, .rnd, .cnv, .mix, .slice, .evs, .ev53, .queues, .dram, .tiles, .parWords, .macs, .mdioEnd, .tim, .streams, .vox, .heldRegs, .imgs, .wick, .lan, .vig, .sec, .pwr, .sta, .mnt, .ports, .ops, .link] ⊆ ps) (h : Does ps s0 s) :
    DoesR ps s0 (execSnufferEnd dt s) := by
  unfold execSnufferEnd
  exact (by
  (try extract_lets); split
  · exact DoesR.ite (DoesR.next (State.resetAction_does hw (State.elapse_does (sub hw) h))) (DoesR.next (State.elapse_does (sub hw) h))
  · exact DoesR.next (State.elapse_does (sub hw) h))

theorem execTemperatureEstimate_does {dt : Nat} {t : Int} {s : State} (hw : [.free, .clock, .regs, .host, .rings, .pwr] ⊆ ps) (h : Does ps s0 s) :
    DoesR ps s0 (execTemperatureEstimate dt t s) := by
  unfold execTemperatureEstimate
  exact DoesR.next (Does.after (Does.ite (State.railsOn_does (sub hw) Does.refl) Does.refl) (State.hotFlag_does (sub hw) (State.thermFlag_does (sub hw) (State.setReg_does (sub hw) (State.elapse_does (sub hw) h)))))

theorem execThermal_does {dt : Nat} {s : State} (hw : [.free, .clock, .regs, .host, .rings, .audit, .mix, .wick, .pwr, .sta] ⊆ ps) (h : Does ps s0 s) :
    DoesR ps s0 (execThermal dt s) := by
  unfold execThermal
  exact DoesR.next (Does.ite (State.snuffTrigger_does (sub hw) (State.elapse_does (sub hw) h)) (State.elapse_does (sub hw) h))

theorem execUndervoltage_does {dt : Nat} {mv : Nat} {s : State} (hw : [.free, .clock, .regs, .host, .rings, .audit, .mix, .wick, .pwr, .sta] ⊆ ps) (h : Does ps s0 s) :
    DoesR ps s0 (execUndervoltage dt mv s) := by
  unfold execUndervoltage
  exact DoesR.ite (DoesR.next (State.setVin_does (sub hw) (State.elapse_does (sub hw) h))) (DoesR.ite (DoesR.next (Does.ite (State.onPwr_does (sub hw) (State.setVin_does (sub hw) (State.elapse_does (sub hw) h))) (State.setVin_does (sub hw) (State.elapse_does (sub hw) h)))) (DoesR.next (State.snuffTrigger_does (sub hw) (State.setVin_does (sub hw) (State.elapse_does (sub hw) h)))))

theorem execVinLowWarning_does {dt : Nat} {mv : Nat} {s : State} (hw : [.clock, .regs, .host, .rings, .pwr] ⊆ ps) (h : Does ps s0 s) :
    DoesR ps s0 (execVinLowWarning dt mv s) := by
  unfold execVinLowWarning
  exact DoesR.ite (DoesR.next (State.setVin_does (sub hw) (State.elapse_does (sub hw) h))) (DoesR.next (State.pwrFire_does (sub hw) (State.setPwr_does (sub hw) (State.setVin_does (sub hw) (State.elapse_does (sub hw) h)))))

theorem execVinRecover_does {dt : Nat} {mv : Nat} {s : State} (hw : [.clock, .regs, .host, .rings, .pwr] ⊆ ps) (h : Does ps s0 s) :
    DoesR ps s0 (execVinRecover dt mv s) := by
  unfold execVinRecover
  exact DoesR.ite (DoesR.next (State.setVin_does (sub hw) (State.elapse_does (sub hw) h))) (DoesR.next (State.pwrFire_does (sub hw) (State.setPwr_does (sub hw) (State.setVin_does (sub hw) (State.elapse_does (sub hw) h)))))

theorem execWatchdog_does {dt : Nat} {s : State} (hw : [.free, .clock, .regs, .host, .rings, .audit, .mix, .wick, .pwr, .sta] ⊆ ps) (h : Does ps s0 s) :
    DoesR ps s0 (execWatchdog dt s) := by
  unfold execWatchdog
  exact DoesR.next (Does.ite (State.snuffTrigger_does (sub hw) (State.elapse_does (sub hw) h)) (State.elapse_does (sub hw) h))

theorem execWatchdogService_does {dt : Nat} {s : State} (hw : [.clock, .regs, .host, .rings, .pwr] ⊆ ps) (h : Does ps s0 s) :
    DoesR ps s0 (execWatchdogService dt s) := by
  unfold execWatchdogService
  exact DoesR.next (Does.ite (State.pwrFire_does (sub hw) (State.onPwr_does (sub hw) (State.elapse_does (sub hw) h))) (State.onPwr_does (sub hw) (State.elapse_does (sub hw) h)))

theorem execWatchdogWarning_does {dt : Nat} {s : State} (hw : [.clock, .regs, .host, .rings, .pwr] ⊆ ps) (h : Does ps s0 s) :
    DoesR ps s0 (execWatchdogWarning dt s) := by
  unfold execWatchdogWarning
  exact DoesR.ite (DoesR.next (State.pwrFire_does (sub hw) (State.onPwr_does (sub hw) (State.elapse_does (sub hw) h)))) (DoesR.next (State.elapse_does (sub hw) h))

/-! ### Machine/OpSense.lean -/

theorem State.onOps_does {s : State} {c : Nat} {f : OpsChan → OpsChan} (hw : [.ops] ⊆ ps) (h : Does ps s0 s) :
    Does ps s0 (State.onOps s c f) := by
  unfold State.onOps
  exact Does.upd [.ops] hw h

theorem State.opsEmit_does {s : State} {c : Nat} {kind : Nat} {long : Bool} (hw : [.regs, .host, .rings, .vox] ⊆ ps) (h : Does ps s0 s) :
    Does ps s0 (State.opsEmit s c kind long) := by
  unfold State.opsEmit
  exact Does.ite (State.opsIndicate_does (sub hw) (State.fire_does (sub hw) (State.bump_does (sub hw) h))) (Does.ite (State.opsIndicate_does (sub hw) (State.fire_does (sub hw) (State.bump_does (sub hw) h))) (Does.ite (State.opsIndicate_does (sub hw) (State.fire_does (sub hw) (State.bump_does (sub hw) h))) (State.fire_does (sub hw) (State.bump_does (sub hw) h))))

theorem State.button_does {s : State} {c : Nat} {x : Nat} (hw : [.regs, .host, .rings, .vox, .ops] ⊆ ps) (h : Does ps s0 s) :
    Does ps s0 (State.button s c x) := by
  unfold State.button
  exact Does.after (Does.ite (State.opsEmit_does (sub hw) (State.onOps_does (sub hw) Does.refl)) Does.refl) (Does.after (Does.ite (State.opsEmit_does (sub hw) (State.onOps_does (sub hw) Does.refl)) Does.refl) (Does.ite (State.opsEmit_does (sub hw) (State.onOps_does (sub hw) (State.onOps_does (sub hw) h))) (State.onOps_does (sub hw) h)))

theorem State.jackChange_does {s : State} {c : Nat} (hw : [.regs, .host, .rings, .vox, .ops] ⊆ ps) (h : Does ps s0 s) :
    Does ps s0 (State.jackChange s c) := by
  unfold State.jackChange
  exact Does.after (Does.ite Does.refl (State.opsIndicate_does (sub hw) Does.refl)) (State.fire_does (sub hw) (Does.ite (State.bump_does (sub hw) (State.onOps_does (sub hw) h)) (State.onOps_does (sub hw) h)))

theorem execAccessoryClassify_does {dt : Nat} {c : Nat} {s : State} (hw : [.free, .clock, .regs, .host, .rings, .ops] ⊆ ps) (h : Does ps s0 s) :
    DoesR ps s0 (execAccessoryClassify dt c s) := by
  unfold execAccessoryClassify
  exact DoesR.ite (DoesR.next (State.elapse_does (sub hw) h)) (DoesR.ite (DoesR.next (State.onOps_does (sub hw) (State.elapse_does (sub hw) h))) ((by
  (try extract_lets); split
  · rename_i e; have h2 := Does.of_snd e (State.fresh_does (sub hw) (State.elapse_does (sub hw) h)); exact DoesR.next (State.fire_does (sub hw) (State.onOps_does (sub hw) h2)))))

theorem execSarSample_does {dt : Nat} {c : Nat} {code : Nat} {jack : Bool} {s : State} (hw : [.clock, .regs, .host, .rings, .vox, .ops] ⊆ ps) (h : Does ps s0 s) :
    DoesR ps s0 (execSarSample dt c code jack s) := by
  unfold execSarSample
  exact DoesR.ite (DoesR.next (State.elapse_does (sub hw) h)) (DoesR.after (DoesR.ite (DoesR.next Does.refl) (DoesR.ite (DoesR.next (State.onOps_does (sub hw) Does.refl)) (DoesR.ite (DoesR.next (State.button_does (sub hw) Does.refl)) (DoesR.next Does.refl)))) (Does.ite (State.jackChange_does (sub hw) (State.onOps_does (sub hw) (State.elapse_does (sub hw) h))) (State.onOps_does (sub hw) (State.elapse_does (sub hw) h))))

end Sys2Proof.Machine
end

