-- ==== Sys2Proof/Laws/DoesLantern.lean ====
section
/-!
SUPPORT. Laws/DoesLantern.lean: what each operation of Machine/Lantern.lean, Machine/Cve.lean may write, and that it keeps what is sound.
The proofs put the lemmas of the operations called together in the mods in which the operation calls them.
-/
namespace Sys2Proof.Machine

-- One proof at a time: the proofs of this file in parallel ask for more threads than the memory bound holds.
set_option Elab.async false
variable {ps : List Part} {s0 : State}

/-! ### Machine/Lantern.lean -/

theorem State.abortSubmitter_does {s : State} {j : FftJob} (hw : [.free, .regs, .host, .rings, .wick, .lan, .sta] ⊆ ps) (h : Does ps s0 s) :
    Does ps s0 (State.abortSubmitter s j) := by
  unfold State.abortSubmitter
  exact Does.ite (State.abortTask_does hw h) h

theorem State.accessFreeze_does' {s : State} {remote : Bool} (hw : [.free, .regs] ⊆ ps) (h : Does ps s0 s) :
    Does ps s0 (s.accessFreeze remote) := State.bump_does (sub hw) (State.fresh_does (bound := 2 ^ 32) (sub hw) h)

theorem State.onVig_does {s : State} {f : VigilSt → VigilSt} (hw : [.vig] ⊆ ps) (h : Does ps s0 s) :
    Does ps s0 (State.onVig s f) := by
  unfold State.onVig
  exact Does.upd [.vig] hw h

theorem State.starvedAre_does {s : State} {mask : Nat} (hw : [.regs, .host, .rings, .wick, .vig] ⊆ ps) (h : Does ps s0 s) :
    Does ps s0 (State.starvedAre s mask) := by
  unfold State.starvedAre
  exact Does.ite h (State.fire_does (sub hw) (State.onWick_does (sub hw) (State.onVig_does (sub hw) h)))

theorem State.starveCheck_does {s : State} {cl : Nat} (hw : [.regs, .host, .rings, .wick, .vig] ⊆ ps) (h : Does ps s0 s) :
    Does ps s0 (State.starveCheck s cl) := by
  unfold State.starveCheck
  exact Does.ite (State.starvedAre_does hw h) h

theorem State.onLan_does {s : State} {f : Lantern → Lantern} (hw : [.lan] ⊆ ps) (h : Does ps s0 s)
    (hf : LanKept f := by
      intro l; refine ⟨fun a b => ⟨?_, ?_⟩, fun a => ?_, rfl⟩ <;> (repeat' first | assumption | apply Memory.wf_store | split)) :
    Does ps s0 (s.onLan f) :=
  .upd [.lan] hw h
    (hs := fun hs => ⟨hs.1, ((hf s.lan).1 hs.2.1 hs.2.2.2.1).1, (hf s.lan).2.1 hs.2.2.1, ((hf s.lan).1 hs.2.1 hs.2.2.2.1).2, hs.2.2.2.2.1,
      (hf s.lan).2.2.symm ▸ hs.2.2.2.2.2.1, hs.2.2.2.2.2.2⟩)

theorem State.askAction_does {s : State} {target : Nat} {act : Nat} {arg : Nat} {origin : Nat} {test : Nat} (hw : [.regs, .host, .rings, .audit, .mgt] ⊆ ps) (h : Does ps s0 s) :
    Does ps s0 (State.askAction s target act arg origin test) := by
  unfold State.askAction
  exact State.onMgt_does (sub hw) (Does.ite (State.auditReserve_does (sub hw) h) h)

theorem State.segmentEnds_does {s : State} {c : Nat} {pass : Bool} (hw : [.regs, .host, .rings, .audit, .mgt, .lan, .vig] ⊆ ps) (h : Does ps s0 s) :
    Does ps s0 (State.segmentEnds s c pass) := by
  unfold State.segmentEnds
  exact Does.ite (State.onVig_does (sub hw) (State.onLan_does (sub hw) (Does.ite (State.onCore_does (sub hw) (State.bump_does (sub hw) (State.bump_does (sub hw) h))) (State.onCore_does (sub hw) (State.bump_does (sub hw) h))))) (State.askAction_does (sub hw) h)

theorem State.endTask_does {s : State} {c : Nat} {pass : Bool} (hw : [.free, .regs, .host, .rings, .audit, .mgt, .wick, .lan, .vig, .sta] ⊆ ps) (h : Does ps s0 s) :
    Does ps s0 (State.endTask s c pass) := by
  unfold State.endTask
  exact (by
  (try extract_lets); split
  · exact State.onCore_does (sub hw) h
  · exact Does.ite (State.starveCheck_does (sub hw) (State.segmentEnds_does (sub hw) (State.taskEnds_does (sub hw) (State.onCore_does (sub hw) h)))) (State.taskEnds_does (sub hw) (State.onCore_does (sub hw) h)))

theorem State.doPost_does {s : State} {c : Nat} {d : Nat} {node : Nat} {key : Nat} {data : Nat} (hw : [.free, .regs, .host, .rings, .wick, .lan, .sta] ⊆ ps) (h : Does ps s0 s) :
    Does ps s0 (State.doPost s c d node key data) := by
  unfold State.doPost
  exact (by
  (try extract_lets); split
  · exact State.onCore_does (sub hw) h
  · exact Does.ite (State.postReturn_does (sub hw) (State.trace_does (sub hw) (State.bump_does (sub hw) h))) ((by
   (try extract_lets); split
   · rename_i e; have h2 := Does.of_snd e (State.tryPost_does (sub hw) h); exact State.postReturn_does (sub hw) h2
   · rename_i e; have h3 := Does.of_snd e (State.tryPost_does (sub hw) h); exact State.postReturn_does (sub hw) h3
   · rename_i e; have h4 := Does.of_snd e (State.tryPost_does (sub hw) h); exact State.onCore_does (sub hw) (State.blockPost_does (sub hw) h4))))

theorem State.dmaSubmit_does {s : State} {c : Nat} {j : DmaJob} (hw : [.lan] ⊆ ps) (h : Does ps s0 s) :
    Does ps s0 (State.dmaSubmit s c j) := by
  unfold State.dmaSubmit
  exact State.onCore_does hw h

theorem State.setFftQ_does {s : State} {c : Nat} {q : List FftJob} (hw : [.lan] ⊆ ps) (h : Does ps s0 s) :
    Does ps s0 (State.setFftQ s c q) := by
  unfold State.setFftQ
  exact State.onLan_does hw h

theorem State.fftSubmit_does {s : State} {c : Nat} {k : Nat} (hw : [.lan] ⊆ ps) (h : Does ps s0 s) :
    Does ps s0 (State.fftSubmit s c k) := by
  unfold State.fftSubmit
  exact Does.ite (State.onCore_does hw h) (State.onCore_does hw (State.setFftQ_does hw (State.onLan_does hw h)))

theorem State.afterBundle_does {s : State} {c : Nat} {ctl : Ctl} (hw : [.free, .regs, .host, .rings, .audit, .mgt, .wick, .lan, .vig, .sta] ⊆ ps) (h : Does ps s0 s) :
    Does ps s0 (State.afterBundle s c ctl) := by
  have f : ∀ g, Does ps s0 (s.onCore c g) := fun g => State.onCore_does (sub hw) h
  cases ctl with
  | waitTask p => exact Does.ite (f _) (State.endTask_does (sub hw) h)
  | post d node key data => exact Does.ite (f _) (State.doPost_does (sub hw) h)
  | dma j => exact State.dmaSubmit_does (sub hw) h
  | dmaWait n => exact Does.ite h (f _)
  | fftRun k => exact State.fftSubmit_does (sub hw) h
  | fftWait k => exact Does.ite h (f _)
  | plain => exact h
  | branch k t => exact h
  | ni n => exact h
  | loop k n e => exact h

theorem State.askOut_does {s : State} {target : Nat} {test : Nat} (hw : [.regs, .host, .rings, .audit, .mgt] ⊆ ps) (h : Does ps s0 s) :
    Does ps s0 (State.askOut s target test) := by
  unfold State.askOut
  exact Does.ite h (State.askAction_does hw h)

theorem State.unitsMoved_does {s : State} {ts : List Nat} (hw : [.rnd] ⊆ ps) (h : Does ps s0 s) :
    Does ps s0 (State.unitsMoved s ts) := by
  unfold State.unitsMoved
  exact Does.ite (State.capUpdate_does hw h) h

theorem State.nodeFault_does {s : State} {node : Nat} (hw : [.regs, .wick] ⊆ ps) (h : Does ps s0 s) :
    Does ps s0 (State.nodeFault s node) := by
  unfold State.nodeFault
  exact Does.ite (State.bump_does (sub hw) (State.setReg_does (sub hw) (State.onWick_does (sub hw) (State.onWick_does (sub hw) h)))) (State.onWick_does (sub hw) h)

theorem State.startTest_does {s : State} {v : VigilTest} (hw : [.vig] ⊆ ps) (h : Does ps s0 s) :
    Does ps s0 (State.startTest s v) := by
  unfold State.startTest
  exact State.onVig_does hw h

theorem State.putOut_does {s : State} {target : Nat} {origin : Nat} (hw : [.mgt, .rnd] ⊆ ps) (h : Does ps s0 s) :
    Does ps s0 (State.putOut s target origin) := by
  unfold State.putOut
  exact State.unitsMoved_does (sub hw) (State.onMgt_does (sub hw) h)

theorem State.faultOut_does {s : State} {target : Nat} {test : Nat} (hw : [.regs, .host, .rings, .audit, .mgt, .rnd, .wick, .vig, .pwr, .sta] ⊆ ps) (h : Does ps s0 s) :
    Does ps s0 (State.faultOut s target test) := by
  unfold State.faultOut
  exact Does.ite h (Does.ite (State.startTest_does (sub hw) (State.auditNow_does (sub hw) (State.putOut_does (sub hw) h))) (State.askAction_does (sub hw) h))

theorem State.coreFault_does {s : State} {c : Nat} {cause : Nat} {pc : Nat} (hw : [.free, .regs, .host, .rings, .audit, .mgt, .rnd, .evs, .vox, .wick, .lan, .vig, .pwr, .sta] ⊆ ps) (h : Does ps s0 s) :
    Does ps s0 (State.coreFault s c cause pc) := by
  unfold State.coreFault
  exact State.voxDegrade_does (sub hw) (Does.after (Does.ite Does.refl (State.onCore_does (sub hw) Does.refl)) (State.faultOut_does (sub hw) (State.abortTask_does (sub hw) (Does.after (Does.ite (State.noteEvent_does (sub hw) (State.bump_does (sub hw) Does.refl)) (State.nodeFault_does (sub hw) (State.fireOpen_does (sub hw) Does.refl))) (State.bump_does (sub hw) (State.setReg64_does (sub hw) (State.setReg_does (sub hw) (State.setReg_does (sub hw) h))))))))

theorem State.thawFft_does {s : State} (hw : [.lan] ⊆ ps) (h : Does ps s0 s) :
    Does ps s0 (State.thawFft s) := by
  unfold State.thawFft
  exact Does.foldl h fun _ _ h1 => (by
  (try extract_lets); split
  · exact Does.ite (State.onCore_does hw h1) h1
  · exact h1)

theorem State.overflowEvent_does {s : State} {c : Nat} (hw : [.regs, .evs, .lan] ⊆ ps) (h : Does ps s0 s) :
    Does ps s0 (State.overflowEvent s c) := by
  unfold State.overflowEvent
  exact Does.ite (State.bump_does (sub hw) h) (State.noteEvent_does (sub hw) (State.onCore_does (sub hw) (State.bump_does (sub hw) h)))

theorem Issue.putG_does {o : Issue} {x : LCore} {lat g : Nat} {v : Int} (h : Does ps s0 o.s) :
    Does ps s0 (o.putG x lat g v).s := Issue.ite_does h h

theorem Issue.putSat_does {o : Issue} {x : LCore} {lat reg : Nat} {b : Bool} {v : Int} (h : Does ps s0 o.s) :
    Does ps s0 (o.putSat x lat reg b v).s := Issue.ite_does h h

theorem Issue.putFree_does {o : Issue} {x : LCore} {lat reg : Nat} (hw : [.free] ⊆ ps) (h : Does ps s0 o.s) :
    Does ps s0 (o.putFree x lat reg).s :=
  State.fresh_does (bound := 2 ^ 32) hw h

theorem Issue.lanes_does {o : Issue} {f : Nat → Issue → Issue} (h : Does ps s0 o.s)
    (hf : ∀ l o, Does ps s0 o.s → Does ps s0 (f l o).s) : Does ps s0 (o.lanes f).s := by
  unfold Issue.lanes
  generalize List.range 4 = ls
  induction ls generalizing o with
  | nil => exact h
  | cons l ls ih => exact ih (hf l o h)

theorem Issue.srcG_does {o : Issue} {x : LCore} {g : Nat} (hw : [.free] ⊆ ps) (h : Does ps s0 o.s) :
    Does ps s0 (o.srcG x g).2.s := by
  unfold Issue.srcG
  split
  · exact h
  · exact State.fresh_does (bound := 2 ^ 32) hw h

theorem Issue.load_does {o o' : Issue} {c a n v : Nat} (hw : [.free, .regs] ⊆ ps) (h : Does ps s0 o.s)
    (e : o.load c a n = .ok (v, o')) : Does ps s0 o'.s := by
  unfold Issue.load at e
  split at e
  · cases e
  · cases e
    exact State.accessFreeze_does' hw h

theorem Issue.store_does {o : Issue} {c a : Nat} {v : Word} (hw : [.free, .regs, .lan] ⊆ ps) (h : Does ps s0 o.s) :
    IssuedDoes ps s0 (o.store c a v) := by
  unfold Issue.store
  split
  · exact .error
  · exact .ok (State.accessFreeze_does' (sub hw) (State.onLan_does (sub hw) h))

theorem Issue.loadLanes_does {o : Issue} {c : Nat} {x : LCore} {d : Nat} {addr : Nat → Nat} {ls : List Nat}
    (hw : [.free, .regs] ⊆ ps) (h : Does ps s0 o.s) : IssuedDoes ps s0 (o.loadLanes c x d addr ls) := by
  induction ls generalizing o with
  | nil => exact .ok h
  | cons l ls ih =>
    unfold Issue.loadLanes
    split
    · exact .error
    · rename_i e
      have k := Issue.load_does hw h e
      exact ih k

theorem Issue.storeLanes_does {o : Issue} {c : Nat} {x : LCore} {a : Nat} {k : Fin 8} {ls : List Nat}
    (hw : [.free, .regs, .lan] ⊆ ps) (h : Does ps s0 o.s) : IssuedDoes ps s0 (o.storeLanes c x a k ls) := by
  induction ls generalizing o with
  | nil => exact .ok h
  | cons l ls ih =>
    unfold Issue.storeLanes
    split
    · exact .error
    · rename_i e
      exact ih (Issue.store_does hw h _ e)

theorem Issue.ld_does {o : Issue} {c : Nat} {x : LCore} {kind : LdKind} {d : Nat} {k : Fin 8} {m : Option (Fin 8)}
    (hw : [.free, .regs] ⊆ ps) (h : Does ps s0 o.s) : IssuedDoes ps s0 (o.ld c x kind d k m) := by
  unfold Issue.ld
  extract_lets r
  have hr : IssuedDoes ps s0 r := by
    cases kind <;> dsimp only [r]
    case v => exact Issue.loadLanes_does hw h
    case vb => exact Issue.loadLanes_does hw h
    all_goals
      split
      · exact .error
      · rename_i e
        have k := Issue.load_does hw h e
        exact .ok k
  clear_value r
  split
  · exact .error
  · have k := hr _ rfl
    exact .ok k

theorem Issue.st_does {o : Issue} {c : Nat} {x : LCore} {vec : Bool} {a : Nat} {k : Fin 8} {m : Option (Fin 8)}
    (hw : [.free, .regs, .lan] ⊆ ps) (h : Does ps s0 o.s) : IssuedDoes ps s0 (o.st c x vec a k m) := by
  unfold Issue.st
  have hr : IssuedDoes ps s0 (if vec then o.storeLanes c x a k (List.range 4) else o.store c (x.ea k 0) (x.reg a)) :=
    .ite (Issue.storeLanes_does hw h) (Issue.store_does hw h)
  generalize (if vec then o.storeLanes c x a k (List.range 4) else o.store c (x.ea k 0) (x.reg a)) = r at hr ⊢
  cases r with
  | error _ => exact .error
  | ok _ =>
    have k := hr _ rfl
    exact .ok k

theorem Issue.vop_does {o : Issue} {x : LCore} {op : VOp} {b : Bool} {d a e : Nat} (h : Does ps s0 o.s) :
    Does ps s0 (o.vop x op b d a e).s :=
  Issue.lanes_does h fun l o h => by
    cases op <;> first | exact h | exact Issue.putSat_does h

theorem Issue.vop1_does {o : Issue} {x : LCore} {op : VOp1} {b : Bool} {d a : Nat} (hw : [.free] ⊆ ps) (h : Does ps s0 o.s) :
    Does ps s0 (o.vop1 x op b d a).s :=
  Issue.lanes_does h fun l o h => by
    cases op <;> first
      | exact Issue.putSat_does h
      | exact Issue.ite_does (Issue.putSat_does h) (Issue.putFree_does hw h)
      | exact Issue.ite_does h (Issue.putFree_does hw h)

theorem Issue.search_does {o : Issue} {x : LCore} {mx : Bool} {d a g : Nat} (hw : [.free] ⊆ ps) (h : Does ps s0 o.s) :
    Does ps s0 (o.search x mx d a g).s :=
  Issue.lanes_does h fun l o h => Issue.ite_does
    (Issue.ite_does (Issue.putFree_does hw h) (Issue.putFree_does hw (Issue.putFree_does hw h))) (by
    dsimp only
    exact Issue.ite_does h h)

theorem Issue.reduce_does {o : Issue} {x : LCore} {mx : Bool} {d a : Nat} (hw : [.free] ⊆ ps) (h : Does ps s0 o.s) :
    Does ps s0 (o.reduce x mx d a).s := by
  unfold Issue.reduce
  refine Issue.ite_does ?_ (Issue.putG_does h)
  dsimp only
  exact Issue.ite_does (Issue.putFree_does hw h) h

theorem Issue.accumulate_does {o : Issue} {c : Nat} {x : LCore} {b : Bool} {n : Nat} {t : Int} (hw : [.free, .regs, .host, .rings, .audit, .mgt, .evs, .vox, .wick, .lan, .vig, .pwr, .sta] ⊆ ps)
    (h : Does ps s0 o.s) : Does ps s0 (o.accumulate c x b n t).s := by
  unfold Issue.accumulate
  have k : Does ps s0 (o.s.overflowEvent c) := State.overflowEvent_does (sub hw) h
  exact Issue.ite_does (Issue.ite_does k k) h

theorem Issue.mac_does {o : Issue} {c : Nat} {x : LCore} {neg bcast b : Bool} {e a d : Nat} (hw : [.free, .regs, .host, .rings, .audit, .mgt, .evs, .vox, .wick, .lan, .vig, .pwr, .sta] ⊆ ps)
    (h : Does ps s0 o.s) : Does ps s0 (o.mac c x neg bcast b e a d).s :=
  Issue.lanes_does h fun l o h => by
    dsimp only
    split <;> exact Issue.ite_does h (Issue.accumulate_does hw h)

theorem Issue.asum_does {o : Issue} {c : Nat} {x : LCore} {b : Bool} {e : Nat} (hw : [.free, .regs, .host, .rings, .audit, .mgt, .evs, .vox, .wick, .lan, .vig, .pwr, .sta] ⊆ ps)
    (h : Does ps s0 o.s) : Does ps s0 (o.asum c x b e).s :=
  Issue.ite_does h (Issue.accumulate_does hw h)

theorem Issue.aext_does {o : Issue} {x : LCore} {b : Bool} {d e n : Nat} (hw : [.free] ⊆ ps) (h : Does ps s0 o.s) :
    Does ps s0 (o.aext x b d e n).s :=
  Issue.lanes_does h fun _ _ h => Issue.ite_does (Issue.putSat_does h) (Issue.putFree_does hw h)

theorem Issue.amov_does {o : Issue} {x : LCore} {e a n : Nat} (hw : [.free] ⊆ ps) (h : Does ps s0 o.s) :
    Does ps s0 (o.amov x e a n).s :=
  Issue.lanes_does h fun _ _ h => Does.ite_snd h (State.fresh_does (bound := 2 ^ 72) hw h)

theorem Issue.aclr_does {o : Issue} {x : LCore} {e : Nat} (h : Does ps s0 o.s) : Does ps s0 (o.aclr x e).s :=
  Issue.lanes_does h fun _ _ h => h

theorem Issue.sop_does {o : Issue} {x : LCore} {op : SOp} {b : Bool} {d a e : Nat} (h : Does ps s0 o.s) :
    Does ps s0 (o.sop x op b d a e).s := by
  cases op <;> first | exact h | exact Issue.putSat_does h

theorem Issue.shift_does {o : Issue} {x : LCore} {op : ShOp} {b : Bool} {d a n : Nat} (h : Does ps s0 o.s) :
    Does ps s0 (o.shift x op b d a n).s := by
  cases op <;> first | exact h | exact Issue.putSat_does h

theorem Issue.mov_does {o : Issue} {c : Nat} {x : LCore} {d r : CoreReg} (h : Does ps s0 o.s) :
    IssuedDoes ps s0 (o.mov c x d r) := by
  unfold Issue.mov
  cases d <;> first | exact .error | exact .ok h | (cases r <;> first | exact .error | exact .ok h)

theorem Issue.word_does {o : Issue} {c : Nat} {x : LCore} {w : CoreOp} (hw : [.free, .regs, .host, .rings, .audit, .mgt, .evs, .vox, .wick, .lan, .vig, .pwr, .sta] ⊆ ps)
    (h : Does ps s0 o.s) : IssuedDoes ps s0 (o.word c x w) := by
  cases w <;> unfold Issue.word
  case ld => exact Issue.ld_does (sub hw) h
  case st => exact Issue.st_does (sub hw) h
  case vop => exact .ok (Issue.vop_does h)
  case vop1 => exact .ok (Issue.vop1_does (sub hw) h)
  case search => exact .ok (Issue.search_does (sub hw) h)
  case reduce => exact .ok (Issue.reduce_does (sub hw) h)
  case mac => exact .ok (Issue.mac_does hw h)
  case aclr => exact .ok (Issue.aclr_does h)
  case amov => exact .ok (Issue.amov_does (sub hw) h)
  case aext => exact .ok (Issue.aext_does (sub hw) h)
  case asum => exact .ok (Issue.asum_does hw h)
  case sop => exact .ok (Issue.sop_does h)
  case shift => exact .ok (Issue.shift_does h)
  case mov => exact Issue.mov_does h
  case ni => exact .ite .error (.ite (.ok h) (.ok (State.fresh_does (bound := 17) (sub hw) h)))
  case rti => exact .ite (.ok h) .error
  case waitTask => exact .ite .error (.ok h)
  case post => exact .ite .error (.ok h)
  case dma => dsimp only; (split <;> first | exact .error | exact .ok h)
  case fftRun => refine .ite .error ?_; (split <;> first | exact .error | exact .ok h)
  case fftWait => refine .ite .error ?_; (split <;> first | exact .error | exact .ok h)
  case crcI => exact .ok (Issue.srcG_does (sub hw) h)
  case tcmp => exact .ok (Issue.srcG_does (sub hw) h)
  case time => exact .ok (Issue.putG_does h)
  all_goals exact .ok h

theorem Issue.run_does {c : Nat} {x : LCore} {ws : List CoreOp} {o : Issue} (hw : [.free, .regs, .host, .rings, .audit, .mgt, .evs, .vox, .wick, .lan, .vig, .pwr, .sta] ⊆ ps)
    (h : Does ps s0 o.s) : IssuedDoes ps s0 (Issue.run c x ws o) := by
  induction ws generalizing o with
  | nil => exact .ok h
  | cons w ws ih =>
    unfold Issue.run
    have k := Issue.word_does (c := c) (x := x) (w := w) hw h
    generalize o.word c x w = r at k ⊢
    cases r with
    | error _ => exact .error
    | ok o => exact ih (k o rfl)

theorem State.issue_does {s : State} {c : Nat} {b : List CoreOp} {closed : Bool} (hw : [.free, .regs, .host, .rings, .audit, .mgt, .rnd, .evs, .vox, .wick, .lan, .vig, .pwr, .sta] ⊆ ps) (h : Does ps s0 s) :
    Does ps s0 (State.issue s c b closed) := by
  unfold State.issue
  extract_lets x ordered
  clear_value x ordered
  split
  · exact State.coreFault_does (sub hw) h
  · have k := Issue.run_does (c := c) (x := x) (ws := ordered) (o := { s := s, fl := [], chain := [], ctl := .plain }) (sub hw) h
    generalize Issue.run c x ordered { s := s, fl := [], chain := [], ctl := .plain } = r at k ⊢
    cases r with
    | error e => exact State.coreFault_does (sub hw) h
    | ok o =>
      have ko := k o rfl
      dsimp only
      split
      · exact State.setCore_does (sub hw) ko
      · exact State.setCore_does (sub hw) ko
      · split
        · exact State.coreFault_does (sub hw) h
        · exact State.setCore_does (sub hw) ko
      · exact State.thawFft_does (sub hw) (State.afterBundle_does (sub hw) (State.setCore_does (sub hw) ko))

theorem State.coreWord_does {s : State} {c : Nat} {fin : Bool} {w : CoreOp} (hw : [.free, .regs, .host, .rings, .audit, .mgt, .rnd, .evs, .vox, .wick, .lan, .vig, .pwr, .sta] ⊆ ps) (h : Does ps s0 s) :
    Does ps s0 (State.coreWord s c fin w) := by
  unfold State.coreWord
  exact Does.ite h (Does.ite (State.issue_does hw h) (Does.ite (State.issue_does hw h) (State.onCore_does (sub hw) h)))

theorem State.dmaDram_does {s : State} {j : DmaJob} (hw : [.regs, .host, .rings, .dram] ⊆ ps) (h : Does ps s0 s) :
    Does ps s0 (State.dmaDram s j) := by
  unfold State.dmaDram
  exact Does.ite (State.dramRead_does hw h) (Does.ite (State.dramWrite_does hw h) h)

theorem State.fftResidue_does {s : State} {u : Nat} {j : FftJob} {rest : List FftJob} (hw : [.free, .regs, .host, .rings, .audit, .mgt, .evs, .wick, .lan, .sta] ⊆ ps) (h : Does ps s0 s) :
    Does ps s0 (State.fftResidue s u j rest) := by
  unfold State.fftResidue
  exact State.askOut_does (sub hw) (State.abortSubmitter_does (sub hw) (State.setFftQ_does (sub hw) (State.noteEvent_does (sub hw) (State.bump_does (sub hw) (State.onLan_does (sub hw) h)))))

theorem State.thawDma_does {s : State} {c : Nat} (hw : [.free, .regs, .host, .rings, .audit, .mgt, .wick, .lan, .vig, .sta] ⊆ ps) (h : Does ps s0 s) :
    Does ps s0 (State.thawDma s c) := by
  unfold State.thawDma
  exact (by
  (try extract_lets); split
  · exact Does.ite (State.dmaSubmit_does (sub hw) h) h
  · exact Does.ite (State.onCore_does (sub hw) h) h
  · exact Does.ite h (State.doPost_does (sub hw) (State.onCore_does (sub hw) h))
  · exact Does.ite h (State.endTask_does hw (State.onCore_does (sub hw) h))
  · exact h)

theorem State.thawFftRun_does {s : State} {u : Nat} (hw : [.lan] ⊆ ps) (h : Does ps s0 s) :
    Does ps s0 (State.thawFftRun s u) := by
  unfold State.thawFftRun
  exact (by
  (try extract_lets); split
  · exact (by
   (try extract_lets); split
   · exact State.fftSubmit_does hw h
   · exact h)
  · exact h)

theorem execDmaTransferDone_does {dt core : Nat} {s : State} (hw : [.free, .clock, .regs, .host, .rings, .audit, .mgt, .dram, .wick, .lan, .vig, .sta] ⊆ ps) (h : Does ps s0 s) :
    DoesR ps s0 (execDmaTransferDone dt core s) := by
  unfold execDmaTransferDone
  extract_lets s1
  have k : Does ps s0 s1 := State.elapse_does (sub hw) h
  clear_value s1
  split
  · exact DoesR.next k
  · refine DoesR.ite (DoesR.next k) (DoesR.next ?_)
    refine State.thawFft_does (sub hw) (State.thawDma_does (sub hw) (State.onCore_does (sub hw) (State.onLan_does (sub hw) (State.dmaDram_does (sub hw) k) ?_)))
    intro l
    unfold Lantern.move
    refine ⟨fun a b => ?_, fun a => ?_, ?_⟩ <;> split <;>
      first | rfl | exact a | (constructor <;> first | assumption | exact Memory.wf_store (by assumption))

theorem execFftJobDone_does {dt : Nat} {cluster : Nat} {residue : Bool} {s : State} (hw : [.free, .clock, .regs, .host, .rings, .audit, .mgt, .evs, .wick, .lan, .sta] ⊆ ps) (h : Does ps s0 s) :
    DoesR ps s0 (execFftJobDone dt cluster residue s) := by
  unfold execFftJobDone
  exact (by
  (try extract_lets); split
  · exact DoesR.next (State.elapse_does (sub hw) h)
  · exact DoesR.ite (DoesR.next (State.elapse_does (sub hw) h)) (DoesR.ite (DoesR.next (State.thawFft_does (sub hw) (State.fftResidue_does (sub hw) (State.elapse_does (sub hw) h)))) (DoesR.next (State.thawFft_does (sub hw) (State.thawFftRun_does (sub hw) ((by
   (try extract_lets); split
   · exact State.onLan_does (sub hw) (State.setFftQ_does (sub hw) (State.elapse_does (sub hw) h))
   · exact (by
    (try extract_lets); split
    · exact State.bump_does (sub hw) (State.onLan_does (sub hw) (State.setFftQ_does (sub hw) (State.elapse_does (sub hw) h)))))))))))

theorem execInterruptEntry_does {dt : Nat} {core : Nat} {src : Nat} {s : State} (hw : [.clock, .lan] ⊆ ps) (h : Does ps s0 s) :
    DoesR ps s0 (execInterruptEntry dt core src s) := by
  unfold execInterruptEntry
  exact DoesR.ite (DoesR.next (State.elapse_does (sub hw) h)) (DoesR.next (State.setCore_does (sub hw) (State.elapse_does (sub hw) h)))

theorem execTaskWatchdog_does {dt core cycles : Nat} {s : State} (hw : [.free, .clock, .regs, .host, .rings, .audit, .mgt, .rnd, .evs, .vox, .wick, .lan, .vig, .pwr, .sta] ⊆ ps) (h : Does ps s0 s) :
    DoesR ps s0 (execTaskWatchdog dt core cycles s) := by
  unfold execTaskWatchdog
  extract_lets s1 cost factor
  have k : Does ps s0 s1 := State.elapse_does (sub hw) h
  clear_value s1 cost
  cases cost with
  | none => exact DoesR.next k
  | some c => exact DoesR.next (Does.ite (State.coreFault_does (sub hw) k) k)

/-! ### Machine/Cve.lean -/

theorem State.engineRelease_does {s : State} {g : Nat} {num : Nat} {nodes : List Nat} {key : Nat} (hw : [.free, .regs, .host, .rings, .wick, .sta] ⊆ ps) (h : Does ps s0 s) :
    Does ps s0 (State.engineRelease s g num nodes key) := by
  unfold State.engineRelease
  exact Does.foldl h fun _ _ h1 => (by
  (try extract_lets); split
  · exact Does.ite (State.releaseItem_does hw h1) h1
  · exact h1)

theorem State.jobPieces_does {s : State} {img : Option Image} {copy : Bool} {r : List Byte} {src : List Byte} {k : Nat} {reg : Nat} {a7 : Nat} (hw : [.regs, .host, .rings, .dram, .lan] ⊆ ps) (h : Does ps s0 s) :
    Does ps s0 (State.jobPieces s img copy r src k reg a7).2 := by
  unfold State.jobPieces
  (try dsimp only); exact (by
  (try extract_lets); split
  · (try dsimp only); exact h
  · (try dsimp only); exact State.jobPieces_does hw (Does.ite (Does.ite h (State.dramRead_does (sub hw) h)) (Does.ite (State.emit_does (sub hw) (Does.ite h (State.dramRead_does (sub hw) h))) (State.onLan_does (sub hw) (State.dramWrite_does (sub hw) (Does.ite h (State.dramRead_does (sub hw) h)))))))

theorem State.runJob_does {s : State} {img : Option Image} {engine : Nat} {copy : Bool} {r src : List Byte} (hw : [.free, .regs, .host, .rings, .evs, .dram, .lan] ⊆ ps)
    (h : Does ps s0 s) : Does ps s0 (State.runJob s img engine copy r src).2 := by
  unfold State.runJob
  extract_lets p reg0 reg1
  split
  rename_i reg s1 e1
  have k1 : Does ps s0 s1 := Does.of_snd e1 (State.jobPieces_does (sub hw) h)
  split
  rename_i value result s2 e2
  have k2 : Does ps s0 s2 := by
    split at e2
    · cases e2; exact k1
    · cases e2; exact State.fresh_does (bound := 2 ^ 64) (sub hw) (State.fresh_does (bound := 2 ^ 64) (sub hw) k1)
  have k3 : ∀ a b c d, Does ps s0 ((s2.setReg64 a b).bump c d) := fun _ _ _ _ =>
    State.bump_does (sub hw) (State.setReg64_does (sub hw) k2)
  exact Does.ite (k3 _ _ _ _) (State.noteEvent_does (sub hw) (State.bump_does (sub hw) (k3 _ _ _ _)))

theorem State.wickJob_does {s : State} {t : WTask} (hw : [.free, .regs, .host, .rings, .evs, .dram, .lan] ⊆ ps) (h : Does ps s0 s) : Does ps s0 (State.wickJob s t) := by
  unfold State.wickJob
  split
  · exact h
  · extract_lets core
    split
    · exact h
    · rename_i img _ _ _ _ _
      extract_lets r
      refine Does.ite h ?_
      have k : Does ps s0 (s.runJob (some img) (t.item.key % 8) false r []).2 := State.runJob_does (sub hw) h
      generalize s.runJob (some img) (t.item.key % 8) false r [] = q at k ⊢
      obtain ⟨⟨a, b, c, d⟩, s1⟩ := q
      dsimp only at k ⊢
      exact State.onLan_does (sub hw) k (fun _ => ⟨fun a b => ⟨Memory.wf_store (Memory.wf_store a), b⟩, id, rfl⟩)

theorem ringJob_does {op ring : Nat} {rec_ src : Option (List Byte)} {parity : Bool} {s : State} (hw : [.free, .regs, .host, .rings, .mgt, .evs, .dram, .macs, .lan, .pwr, .link] ⊆ ps)
    (h : Does ps s0 s) : Does ps s0 (ringJob op ring rec_ src parity s) := by
  have f : ∀ r i st, Does ps s0 (s.finish r i st) := fun _ _ _ => State.finish_does (sub hw) h
  unfold ringJob
  split
  · exact h
  · refine Does.ite (f _ _ _) (Does.ite (f _ _ _) ?_)
    cases rec_ with
    | none => exact f _ _ _
    | some r =>
      refine Does.ite (f _ _ _) (Does.ite (f _ _ _) (Does.ite (f _ _ _) (Does.ite (f _ _ _) ?_)))
      exact State.finishAt_does (sub hw) (State.emit_does (sub hw) (State.emit_does (sub hw) (State.runJob_does (sub hw) h)))

theorem execCopy_does {ring : Nat} {record : Option (List Byte)} {src : Option (List Byte)} {parity : Bool} {s : State} (hw : [.free, .regs, .host, .rings, .mgt, .evs, .dram, .macs, .lan, .pwr, .link] ⊆ ps) (h : Does ps s0 s) :
    DoesR ps s0 (execCopy ring record src parity s) := by
  unfold execCopy
  exact DoesR.next (ringJob_does hw h)

theorem execCvRun_does {ring : Nat} {record : Option (List Byte)} {src : Option (List Byte)} {parity : Bool} {s : State} (hw : [.free, .regs, .host, .rings, .mgt, .evs, .dram, .macs, .lan, .pwr, .link] ⊆ ps) (h : Does ps s0 s) :
    DoesR ps s0 (execCvRun ring record src parity s) := by
  unfold execCvRun
  exact DoesR.next (ringJob_does hw h)

theorem execEngineCompletion_does {dt : Nat} {engine : Nat} {key : Nat} {s : State} (hw : [.free, .clock, .regs, .host, .rings, .evs, .dram, .wick, .lan, .sta] ⊆ ps) (h : Does ps s0 s) :
    DoesR ps s0 (execEngineCompletion dt engine key s) := by
  unfold execEngineCompletion
  exact DoesR.ite (DoesR.next (State.elapse_does (sub hw) h)) ((by
  (try extract_lets); split
  · exact DoesR.next (State.engineRelease_does (sub hw) (State.taskEnds_does (sub hw) (Does.ite (State.wickJob_does (sub hw) (State.elapse_does (sub hw) h)) (State.elapse_does (sub hw) h))))
  · exact DoesR.next (Does.foldl (State.elapse_does (sub hw) h) fun _ _ h1 => (by
   (try extract_lets); split
   · exact State.engineRelease_does (sub hw) h1
   · exact h1))))

theorem execScan_does {ring : Nat} {record : Option (List Byte)} {src : Option (List Byte)} {parity : Bool} {s : State} (hw : [.free, .regs, .host, .rings, .mgt, .evs, .dram, .macs, .lan, .pwr, .link] ⊆ ps) (h : Does ps s0 s) :
    DoesR ps s0 (execScan ring record src parity s) := by
  unfold execScan
  exact DoesR.next (ringJob_does hw h)

end Sys2Proof.Machine
end

