-- ==== Sys2Proof/Laws/DoesPlanes.lean ====
section
/-!
SUPPORT. Laws/DoesPlanes.lean: what each operation of Machine/Planes.lean, Machine/Stats.lean, Machine/RegWrite.lean, Machine/Vigil.lean may write, and that it keeps what is sound.
The proofs put the lemmas of the operations called together in the mods in which the operation calls them.
-/
namespace Sys2Proof.Machine

-- One proof at a time: the proofs of this file in parallel ask for more threads than the memory bound holds.
set_option Elab.async false
variable {ps : List Part} {s0 : State}

/-! ### Machine/Planes.lean -/

theorem State.unitOut_does {s : State} {t : Nat} (hw : [.free, .regs, .host, .rings, .mgt, .rnd, .vox, .wick, .lan, .sta] ⊆ ps) (h : Does ps s0 s) :
    Does ps s0 (State.unitOut s t) := by
  unfold State.unitOut
  exact Does.ite h (Does.ite (State.putOut_does (sub hw) (State.abortTask_does (sub hw) h)) (Does.ite (State.setFftQ_does (sub hw) (State.putOut_does (sub hw) (State.setFftQ_does (sub hw) ((by
  (try extract_lets); split
  · exact State.abortSubmitter_does (sub hw) h
  · exact h))))) (Does.ite (State.ecuSwitch_does (sub hw) (State.putOut_does (sub hw) h)) (State.putOut_does (sub hw) h))))

theorem State.takeOut_does {s : State} {t : Nat} (hw : [.free, .regs, .host, .rings, .mgt, .rnd, .vox, .wick, .lan, .sta] ⊆ ps) (h : Does ps s0 s) :
    Does ps s0 (State.takeOut s t) := by
  unfold State.takeOut
  exact State.voxDegrade_does (sub hw) (Does.foldl h fun _ _ h1 => State.unitOut_does hw h1)

theorem State.demandTest_does {s : State} {t : Nat} {i : Nat} (hw : [.rings, .vig] ⊆ ps) (h : Does ps s0 s) :
    Does ps s0 (State.demandTest s t i) := by
  unfold State.demandTest
  exact State.startTest_does (sub hw) (State.setPhase_does (sub hw) h)

theorem State.unitReset_does {s : State} {t : Nat} (hw : [.lan] ⊆ ps) (h : Does ps s0 s) :
    Does ps s0 (State.unitReset s t) := by
  unfold State.unitReset
  exact Does.ite (State.onCore_does hw h) (Does.ite (State.setFftQ_does hw h) h)

theorem State.ctlRun_does {s : State} {act : Nat} {t : Nat} {i : Nat} {time : Nat} (hw : [.free, .regs, .host, .rings, .audit, .mgt, .rnd, .macs, .vox, .wick, .lan, .vig, .pwr, .sta, .link] ⊆ ps) (h : Does ps s0 s) :
    Does ps s0 (State.ctlRun s act t i time) := by
  unfold State.ctlRun
  exact Does.ite (State.finishAt_does (sub hw) (State.ctlLog_does (sub hw) (State.takeOut_does (sub hw) h))) (Does.ite (Does.ite (State.finishAt_does (sub hw) (State.ctlLog_does (sub hw) h)) (State.demandTest_does (sub hw) h)) (State.demandTest_does (sub hw) (State.ctlLog_does (sub hw) (Does.foldl (State.takeOut_does (sub hw) h) fun _ _ h1 => State.unitReset_does (sub hw) h1))))

theorem State.ownRun_does {s : State} {c : CtlAct} {time : Nat} (hw : [.free, .regs, .host, .rings, .audit, .mgt, .rnd, .vox, .wick, .lan, .vig, .pwr, .sta] ⊆ ps) (h : Does ps s0 s) :
    Does ps s0 (State.ownRun s c time) := by
  unfold State.ownRun
  exact Does.ite (State.ownLog_does (sub hw) h) (Does.ite (State.auditRelease_does (sub hw) h) (State.voxDegrade_does (sub hw) (State.startTest_does (sub hw) (State.ownLog_does (sub hw) (State.putOut_does (sub hw) (State.unitOut_does (sub hw) h))))))

theorem State.ctlExecute_does {s : State} {c : CtlAct} (hw : [.free, .regs, .host, .rings, .audit, .mgt, .rnd, .macs, .vox, .wick, .lan, .vig, .pwr, .sta, .link] ⊆ ps) (h : Does ps s0 s) :
    Does ps s0 (State.ctlExecute s c) := by
  unfold State.ctlExecute
  exact Does.ite h (Does.ite (State.onMgt_does (sub hw) h) (Does.ite (State.ctlRun_does hw (State.onMgt_does (sub hw) h)) (State.ownRun_does (sub hw) (State.onMgt_does (sub hw) h))))

theorem State.ctlAccept_does {s : State} {d : Desc} (hw : [.free, .regs, .host, .rings, .audit, .mgt, .rnd, .macs, .vox, .wick, .lan, .vig, .pwr, .sta, .link] ⊆ ps) (h : Does ps s0 s) :
    Does ps s0 (State.ctlAccept s d) := by
  unfold State.ctlAccept
  exact Does.after (Does.ite Does.refl (State.ctlExecute_does hw Does.refl)) (State.onMgt_does (sub hw) (State.auditReserve_does (sub hw) (State.setPhase_does (sub hw) h)))

theorem State.onPlane_does {s : State} {p : Nat} {f : PlaneSt → PlaneSt} (hw : [.mgt] ⊆ ps) (h : Does ps s0 s) :
    Does ps s0 (State.onPlane s p f) := by
  unfold State.onPlane
  exact State.onMgt_does hw h

theorem State.stopPlanes_does {s : State} {index : Nat} (hw : [.regs, .host, .rings, .audit, .mgt, .mix, .wick, .pwr, .sta] ⊆ ps) (h : Does ps s0 s) :
    Does ps s0 (State.stopPlanes s index) := by
  unfold State.stopPlanes
  exact State.chainEntry_does (sub hw) (State.auditRelease_does (sub hw) (Does.updOf [.mix] (sub hw) (Does.foldl (State.setPhase_does (sub hw) h) fun _ _ h1 => State.onPlane_does (sub hw) h1)))

theorem State.planeCold_does {s : State} {p : Nat} (hw : [.mgt, .ing, .rnd, .cnv, .mix, .vox, .imgs, .wick, .lan] ⊆ ps) (h : Does ps s0 s) :
    Does ps s0 (State.planeCold s p) := by
  have g1 : ∀ (t : State) m, Does ps s0 t → Does ps s0 { t with mix := m } := fun _ _ => Does.upd [.mix] (sub hw)
  have g2 : ∀ (t : State) m i w, Does ps s0 t → Does ps s0 { t with mix := m, ing := i, wick := w } :=
    fun _ _ _ _ => Does.upd [.ing, .mix, .wick] (sub hw)
  have g3 : ∀ (t : State) v w, Does ps s0 t → Does ps s0 { t with vox := v, wick := w } :=
    fun _ _ _ => Does.upd [.vox, .wick] (sub hw)
  unfold State.planeCold
  extract_lets s1 s2 s3
  have k1 : Does ps s0 s1 := State.onPlane_does (sub hw) h
  clear_value s1
  have k2 : Does ps s0 s2 := g1 s1 _ k1
  clear_value s2
  refine State.graphStart_does (sub hw) (State.reserveDram_does (sub hw) (Does.ite ?_ (g3 s2 _ _ k2)))
  have k3 : Does ps s0 s3 := State.capUpdate_does (sub hw) (State.onCnv_does (sub hw) (State.onRnd_does (sub hw) k2))
  clear_value s3
  exact g2 s3 _ _ _ k3

theorem State.startPlanes_does {s : State} {index : Nat} (hw : [.regs, .host, .rings, .audit, .mgt, .ing, .rnd, .cnv, .mix, .macs, .vox, .imgs, .wick, .lan, .pwr, .sta, .link] ⊆ ps) (h : Does ps s0 s) :
    Does ps s0 (State.startPlanes s index) := by
  have g1 : ∀ (t : State) m, Does ps s0 t → Does ps s0 { t with mix := m } := fun _ _ => Does.upd [.mix] (sub hw)
  have g2 : ∀ (t : State) m i w, Does ps s0 t → Does ps s0 { t with mix := m, ing := i, wick := w } :=
    fun _ _ _ _ => Does.upd [.ing, .mix, .wick] (sub hw)
  unfold State.startPlanes
  extract_lets mine ps' mask t s1 s2 idle s3 a b s4
  have k1 : Does ps s0 s1 := Does.foldl h fun _ _ h1 => State.onPlane_does (sub hw) h1
  clear_value s1
  have k2 : Does ps s0 s2 := State.noteNeed_does (sub hw) k1
  clear_value s2
  split
  · exact State.finishAt_does (sub hw) (State.auditRelease_does (sub hw) k2)
  · have k3 : Does ps s0 s3 := State.onMgt_does (sub hw) k2
    clear_value a b s3
    have k4 : Does ps s0 s4 := Does.ite (g2 s3 _ _ _ k3) (Does.ite (g1 s3 _ k3) k3)
    clear_value s4
    exact State.finishAt_does (sub hw) (State.chainEntry_does (sub hw) (State.auditRelease_does (sub hw)
      (Does.foldl k4 fun _ _ h2 => State.planeCold_does (sub hw) h2)))

theorem State.modeExecute_does {s : State} {off : Nat} (hw : [.regs, .host, .rings, .audit, .mgt, .queues, .macs, .wick, .pwr, .sta, .ports, .link] ⊆ ps) (h : Does ps s0 s) :
    Does ps s0 (State.modeExecute s off) := by
  unfold State.modeExecute
  exact (by
  (try extract_lets); split
  · exact h
  · exact Does.ite h (Does.after (Does.ite (State.chainEntry_does (sub hw) (State.setReg_does (sub hw) Does.refl)) (Does.ite (State.macCtrlApply_does (sub hw) Does.refl) (Does.ite (State.tdmApply_does (sub hw) Does.refl) (State.linkApply_does (sub hw) Does.refl)))) (State.auditRelease_does (sub hw) (State.onMgt_does (sub hw) h))))

theorem State.planeHalts_does {s : State} {p : Nat} (hw : [.free, .regs, .host, .rings, .audit, .mgt, .mix, .macs, .vox, .wick, .lan, .vig, .pwr, .sta, .link] ⊆ ps) (h : Does ps s0 s) :
    Does ps s0 (State.planeHalts s p) := by
  unfold State.planeHalts
  exact Does.updOf [.mix] (sub hw) (State.onVig_does (sub hw) (State.onPlane_does (sub hw) (Does.foldl (Does.ite (State.voxStopAll_does (sub hw) h) h) fun _ _ h1 => State.abortTask_does (sub hw) h1)))

theorem State.planesStop_does {s : State} (hw : [.free, .regs, .host, .rings, .audit, .mgt, .mix, .macs, .vox, .wick, .lan, .vig, .pwr, .sta, .link] ⊆ ps) (h : Does ps s0 s) :
    Does ps s0 (State.planesStop s) := by
  unfold State.planesStop
  exact Does.foldl (Does.ite (State.onMgt_does (sub hw) (Does.updOf [.mix] (sub hw) (Does.foldl h fun _ _ h1 => State.planeHalts_does hw h1))) (Does.foldl h fun _ _ h1 => State.planeHalts_does hw h1)) fun _ _ h3 => State.finishAt_does (sub hw) h3

theorem State.tileAccept_does {s : State} {d : Desc} (hw : [.regs, .host, .rings, .audit, .mgt, .tiles, .macs, .wick, .pwr, .sta, .link] ⊆ ps) (h : Does ps s0 s) :
    Does ps s0 (State.tileAccept s d) := by
  unfold State.tileAccept
  exact Does.after (Does.ite (State.setTile_does (sub hw) Does.refl) (Does.ite (State.setTile_does (sub hw) Does.refl) (State.retireStart_does hw Does.refl))) (State.auditReserve_does (sub hw) (State.setPhase_does (sub hw) h))

theorem ctlCmd_does {mine : Nat → Bool} {again : Instr} {s : State} (hw : [.free, .regs, .host, .rings, .audit, .mgt, .rnd, .tiles, .macs, .vox, .wick, .lan, .vig, .pwr, .sta, .link] ⊆ ps) (h : Does ps s0 s) :
    Does ps s0 (ctlCmd mine again s) := by
  unfold ctlCmd
  exact (by
  (try extract_lets); split
  · exact h
  · exact Does.ite h ((by
   (try extract_lets); split
   · exact State.finish_does (sub hw) h
   · exact Does.ite (State.stall_does (sub hw) h) (Does.ite (State.tileAccept_does (sub hw) h) (State.ctlAccept_does (sub hw) h)))))

theorem execRemove_does {s : State} (hw : [.free, .regs, .host, .rings, .audit, .mgt, .rnd, .tiles, .macs, .vox, .wick, .lan, .vig, .pwr, .sta, .link] ⊆ ps) (h : Does ps s0 s) :
    DoesR ps s0 (execRemove s) := by
  unfold execRemove
  exact DoesR.next (ctlCmd_does hw h)

theorem execRestore_does {s : State} (hw : [.free, .regs, .host, .rings, .audit, .mgt, .rnd, .tiles, .macs, .vox, .wick, .lan, .vig, .pwr, .sta, .link] ⊆ ps) (h : Does ps s0 s) :
    DoesR ps s0 (execRestore s) := by
  unfold execRestore
  exact DoesR.next (ctlCmd_does hw h)

theorem execReset_does {s : State} (hw : [.free, .regs, .host, .rings, .audit, .mgt, .rnd, .tiles, .macs, .vox, .wick, .lan, .vig, .pwr, .sta, .link] ⊆ ps) (h : Does ps s0 s) :
    DoesR ps s0 (execReset s) := by
  unfold execReset
  exact DoesR.next (ctlCmd_does hw h)

theorem execRetireBank_does {s : State} (hw : [.free, .regs, .host, .rings, .audit, .mgt, .rnd, .tiles, .macs, .vox, .wick, .lan, .vig, .pwr, .sta, .link] ⊆ ps) (h : Does ps s0 s) :
    DoesR ps s0 (execRetireBank s) := by
  unfold execRetireBank
  exact DoesR.next (ctlCmd_does hw h)

theorem execRotate_does {s : State} (hw : [.free, .regs, .host, .rings, .audit, .mgt, .rnd, .tiles, .macs, .vox, .wick, .lan, .vig, .pwr, .sta, .link] ⊆ ps) (h : Does ps s0 s) :
    DoesR ps s0 (execRotate s) := by
  unfold execRotate
  exact DoesR.next (ctlCmd_does hw h)

theorem execPlaneStart_does {s : State} (hw : [.regs, .host, .rings, .audit, .mgt, .macs, .pwr, .link] ⊆ ps) (h : Does ps s0 s) :
    DoesR ps s0 (execPlaneStart s) := by
  unfold execPlaneStart
  exact (by
  (try extract_lets); split
  · exact DoesR.next h
  · exact DoesR.ite (DoesR.next (State.finish_does (sub hw) h)) (DoesR.ite (DoesR.next (State.finish_does (sub hw) h)) (DoesR.ite (DoesR.next (State.finish_does (sub hw) h)) ((by
   (try extract_lets); split
   · exact DoesR.next (State.finish_does (sub hw) (State.noteNeed_does (sub hw) h))
   · exact DoesR.ite (DoesR.next (State.stall_does (sub hw) (State.noteNeed_does (sub hw) h))) (DoesR.next (Does.foldl (State.auditReserve_does (sub hw) (State.setPhase_does (sub hw) (State.noteNeed_does (sub hw) h))) fun _ _ h1 => State.onPlane_does (sub hw) h1)))))))

theorem execPlaneStop_does {s : State} (hw : [.regs, .host, .rings, .audit, .mgt, .macs, .pwr, .link] ⊆ ps) (h : Does ps s0 s) :
    DoesR ps s0 (execPlaneStop s) := by
  unfold execPlaneStop
  exact (by
  (try extract_lets); split
  · exact DoesR.next h
  · exact DoesR.ite (DoesR.next (State.finish_does (sub hw) h)) (DoesR.ite (DoesR.next (State.finish_does (sub hw) h)) (DoesR.ite (DoesR.next (State.finish_does (sub hw) h)) (DoesR.ite (DoesR.next (State.stall_does (sub hw) h)) (DoesR.next (Does.foldl (State.auditReserve_does (sub hw) (State.setPhase_does (sub hw) h)) fun _ _ h1 => State.onPlane_does (sub hw) h1))))))

theorem execControlActionExecute_does {dt : Nat} {target : Nat} {s : State} (hw : [.free, .clock, .regs, .host, .rings, .audit, .mgt, .rnd, .queues, .tiles, .macs, .vox, .wick, .lan, .vig, .pwr, .sta, .ports, .link] ⊆ ps) (h : Does ps s0 s) :
    DoesR ps s0 (execControlActionExecute dt target s) := by
  unfold execControlActionExecute
  exact DoesR.ite (DoesR.next (State.modeExecute_does (sub hw) (State.elapse_does (sub hw) h))) (DoesR.ite (DoesR.ite (DoesR.next (State.elapse_does (sub hw) h)) (DoesR.ite (DoesR.next (State.waitAudit_does (sub hw) (State.elapse_does (sub hw) h))) (DoesR.next (State.tileExchange_does (sub hw) (State.elapse_does (sub hw) h))))) ((by
  (try extract_lets); split
  · exact DoesR.next (State.elapse_does (sub hw) h)
  · exact DoesR.next (State.ctlExecute_does (sub hw) (State.elapse_does (sub hw) h)))))

theorem splitWrite_does {s : State} {o : Origin} {v : Word} (hw : [.regs, .host, .rings, .audit, .wick, .pwr, .sta] ⊆ ps) (h : Does ps s0 s) :
    Does ps s0 (splitWrite s o v) := by
  unfold splitWrite
  exact Does.ite (State.loggedWrite_does hw (Does.ite (State.setFlag_does (sub hw) h) h)) (State.setFlag_does (sub hw) (Does.ite (State.setFlag_does (sub hw) h) h))

theorem execPlaneSplitWrite_does {v : Word} {origin : Origin} {s : State} (hw : [.regs, .host, .rings, .audit, .wick, .pwr, .sta] ⊆ ps) (h : Does ps s0 s) :
    DoesR ps s0 (execPlaneSplitWrite v origin s) := by
  unfold execPlaneSplitWrite
  exact DoesR.next (splitWrite_does hw h)

theorem execPlanesStopped_does {s : State} (hw : [.free, .regs, .host, .rings, .audit, .mgt, .mix, .macs, .vox, .wick, .lan, .vig, .pwr, .sta, .link] ⊆ ps) (h : Does ps s0 s) :
    DoesR ps s0 (execPlanesStopped s) := by
  unfold execPlanesStopped
  exact DoesR.next (State.planesStop_does hw h)

/-! ### Machine/Stats.lean -/

theorem State.vigilEpoch_does {s : State} (hw : [.regs, .host, .rings, .wick, .vig] ⊆ ps) (h : Does ps s0 s) :
    Does ps s0 (State.vigilEpoch s) := by
  unfold State.vigilEpoch
  extract_lets
  generalize List.foldl _ _ _ = q
  obtain ⟨g, mask⟩ := q
  exact State.starvedAre_does hw (State.onVig_does (sub hw) h)

theorem State.storeSnap_does {s : State} {b : Snap} (hw : [.regs, .sta] ⊆ ps) (h : Does ps s0 s) :
    Does ps s0 (State.storeSnap s b) := by
  unfold State.storeSnap
  exact (by
  (try extract_lets); split
  · exact State.bump_does (sub hw) (Does.upd [.sta] (sub hw) h)
  · exact Does.upd [.sta] (sub hw) h)

theorem State.restartCounters_does {s : State} (hw : [.regs, .parWords, .macs, .wick, .vig, .link] ⊆ ps) (h : Does ps s0 s) :
    Does ps s0 (State.restartCounters s) :=
  State.setFld_does (sub hw) (Does.upd [.regs, .parWords, .macs, .wick, .vig, .link] (sub hw) h
    (hs := fun hs => ⟨Cells.wf_filter hs.1, hs.2⟩))

theorem State.epochEnds_does {s : State} {t : Nat} {e : Nat} (hw : [.regs, .host, .rings, .parWords, .macs, .wick, .vig, .sta, .link] ⊆ ps) (h : Does ps s0 s) :
    Does ps s0 (State.epochEnds s t e) := by
  unfold State.epochEnds
  exact State.fireAt_does (sub hw) (State.drain_does (sub hw) (Does.updOf [.sta] (sub hw) (State.vigilEpoch_does (sub hw) (State.storeSnap_does (sub hw) (State.restartCounters_does (sub hw) h)))))

theorem State.staTick_does {s : State} {t : Nat} {m : Nat} {step : Bool} (hw : [.regs, .host, .rings, .parWords, .macs, .wick, .vig, .sta, .link] ⊆ ps) (h : Does ps s0 s) :
    Does ps s0 (State.staTick s t m step) := by
  unfold State.staTick
  exact Does.ite (Does.upd [.sta] (sub hw) h) (Does.ite (Does.upd [.sta] (sub hw) h) (State.epochEnds_does hw (Does.upd [.sta] (sub hw) h)))

theorem State.latchedRead_does {s : State} {off : Nat} {v : Nat} (hw : [.regs, .host] ⊆ ps) (h : Does ps s0 s) :
    Does ps s0 (State.latchedRead s off v) := by
  unfold State.latchedRead
  exact State.onHost_does (sub hw) (State.setReg_does (sub hw) h)

theorem staEpochSet_does {s : State} {o : Origin} {v : Word} (hw : [.regs, .host, .rings, .audit, .wick, .pwr, .sta] ⊆ ps) (h : Does ps s0 s) :
    Does ps s0 (staEpochSet s o v) := by
  unfold staEpochSet
  exact Does.ite (Does.updOf [.sta] (sub hw) (State.loggedWrite_does hw h)) (State.bump_does (sub hw) h)

theorem execMgtAudIndexRead_does {s : State} (hw : [.regs, .host] ⊆ ps) (h : Does ps s0 s) :
    DoesR ps s0 (execMgtAudIndexRead s) := by
  unfold execMgtAudIndexRead
  exact DoesR.next (State.latchedRead_does hw h)

theorem execStaCurEpochRead_does {s : State} (hw : [.regs, .host] ⊆ ps) (h : Does ps s0 s) :
    DoesR ps s0 (execStaCurEpochRead s) := by
  unfold execStaCurEpochRead
  exact DoesR.next (State.latchedRead_does hw h)

theorem execStaEpochWrite_does {v : Word} {origin : Origin} {s : State} (hw : [.regs, .host, .rings, .audit, .wick, .pwr, .sta] ⊆ ps) (h : Does ps s0 s) :
    DoesR ps s0 (execStaEpochWrite v origin s) := by
  unfold execStaEpochWrite
  exact DoesR.next (staEpochSet_does hw h)

/-! ### Machine/RegWrite.lean -/

theorem State.plainWrite_does {s : State} {o : Origin} {off : Nat} {r : RegRow} {v : Word} (hw : [.regs, .host, .rings, .audit, .wick, .pwr, .sta] ⊆ ps) (h : Does ps s0 s) :
    Does ps s0 (State.plainWrite s o off r v) := by
  unfold State.plainWrite
  exact Does.ite (State.loggedWrite_does hw h) (State.setReg_does (sub hw) h)

theorem State.heldWrite_does {s : State} {o : Origin} {off : Nat} {r : RegRow} {v : Word} (hw : [.regs, .host, .rings, .audit, .heldRegs, .wick, .pwr, .sta] ⊆ ps) (h : Does ps s0 s) :
    Does ps s0 (State.heldWrite s o off r v) := by
  unfold State.heldWrite
  exact Does.ite (Does.updOf [.heldRegs] (sub hw) (State.plainWrite_does (sub hw) h)) (State.plainWrite_does (sub hw) h)

theorem State.lockedWrite_does {s : State} {o : Origin} {off : Nat} {r : RegRow} {v : Word} (hw : [.regs, .host, .rings, .audit, .wick, .pwr, .sta] ⊆ ps) (h : Does ps s0 s) :
    Does ps s0 (State.lockedWrite s o off r v) := by
  unfold State.lockedWrite
  exact Does.ite (State.plainWrite_does hw h) (State.fire_does (sub hw) (State.bump_does (sub hw) h))

theorem State.setupWrite_does {s : State} {o : Origin} {off : Nat} {r : RegRow} {v : Word} {ok : Bool} (hw : [.regs, .host, .rings, .audit, .wick, .pwr, .sta] ⊆ ps) (h : Does ps s0 s) :
    Does ps s0 (State.setupWrite s o off r v ok) := by
  unfold State.setupWrite
  exact Does.ite (State.plainWrite_does hw h) (State.setupDiscard_does (sub hw) h)

theorem State.slWrite_does {s : State} {o : Origin} {off : Nat} {r : RegRow} {v : Word} (hw : [.regs, .host, .rings, .audit, .rnd, .wick, .pwr, .sta] ⊆ ps) (h : Does ps s0 s) :
    Does ps s0 (State.slWrite s o off r v) := by
  unfold State.slWrite
  exact Does.ite (State.setFlag_does (sub hw) (State.bump_does (sub hw) h)) (Does.ite (State.bump_does (sub hw) h) (State.auditNow_does (sub hw) (State.onRnd_does (sub hw) h)))

theorem State.writeHif_does {s : State} {o : Origin} {off : Nat} {r : RegRow} {v : Word} (hw : [.regs, .host, .rings, .audit, .mgt, .rnd, .cnv, .mix, .tiles, .macs, .streams, .vox, .wick, .pwr, .sta, .link] ⊆ ps) (h : Does ps s0 s) :
    Does ps s0 (State.writeHif s o off r v) := by
  unfold State.writeHif
  exact Does.ite (runWrite_does hw h) (Does.ite (State.setupWrite_does (sub hw) h) (Does.ite (Does.ite (ringCfgWrite_does (sub hw) h) (Does.ite h (State.setupWrite_does (sub hw) h))) (State.plainWrite_does (sub hw) h)))

theorem State.writeIcu_does {s : State} {o : Origin} {off : Nat} {r : RegRow} {v : Word} (hw : [.regs, .host, .rings, .audit, .wick, .pwr, .sta] ⊆ ps) (h : Does ps s0 s) :
    Does ps s0 (State.writeIcu s o off r v) := by
  unfold State.writeIcu
  exact Does.ite h (State.plainWrite_does hw h)

theorem State.writeLnk_does {s : State} {o : Origin} {off : Nat} {r : RegRow} {v : Word} (hw : [.regs, .host, .rings, .audit, .mgt, .queues, .wick, .pwr, .sta, .link] ⊆ ps) (h : Does ps s0 s) :
    Does ps s0 (State.writeLnk s o off r v) := by
  unfold State.writeLnk
  exact Does.ite (lnkCfgWrite_does (sub hw) h) (Does.ite (lnkCtrlWrite_does (sub hw) h) (Does.ite (linkPortWrite_does (sub hw) h) (Does.ite (linkPortWrite_does (sub hw) h) ((by
  (try extract_lets); split
  · exact State.flushWrite_does (sub hw) h
  · exact State.plainWrite_does (sub hw) h)))))

theorem State.writeMnt_does {s : State} {o : Origin} {off : Nat} {r : RegRow} {v : Word} (hw : [.free, .regs, .host, .rings, .audit, .mgt, .wick, .pwr, .sta, .mnt] ⊆ ps) (h : Does ps s0 s) :
    Does ps s0 (State.writeMnt s o off r v) := by
  unfold State.writeMnt
  exact Does.ite (mntCtrlWrite_does hw h) (Does.ite h (State.plainWrite_does (sub hw) h))

theorem State.writeNet_does {s : State} {o : Origin} {off : Nat} {r : RegRow} {v : Word} (hw : [.regs, .host, .rings, .audit, .mgt, .queues, .macs, .mdioEnd, .wick, .pwr, .sta, .link] ⊆ ps) (h : Does ps s0 s) :
    Does ps s0 (State.writeNet s o off r v) := by
  unfold State.writeNet
  exact Does.ite (macCtrlWrite_does (sub hw) h) (Does.ite (mdioCmdWrite_does (sub hw) h) (Does.ite (State.setFlag_does (sub hw) h) (Does.ite (daHiWrite_does (sub hw) h) (Does.ite (gateCtrlWrite_does (sub hw) h) (Does.ite (State.setFlag_does (sub hw) h) ((by
  (try extract_lets); split
  · exact State.flushWrite_does (sub hw) h
  · exact State.plainWrite_does (sub hw) h)))))))

theorem State.writeWck_does {s : State} {o : Origin} {off : Nat} {r : RegRow} {v : Word} (hw : [.free, .regs, .host, .rings, .audit, .heldRegs, .wick, .pwr, .sta] ⊆ ps) (h : Does ps s0 s) :
    Does ps s0 (State.writeWck s o off r v) := by
  unfold State.writeWck
  exact Does.ite (State.heldWrite_does (sub hw) h) (Does.ite (levelCapWrite_does (sub hw) h) (State.plainWrite_does (sub hw) h))

theorem State.writeRnd_does {s : State} {o : Origin} {off : Nat} {r : RegRow} {v : Word} (hw : [.regs, .host, .rings, .audit, .mgt, .rnd, .wick, .pwr, .sta] ⊆ ps) (h : Does ps s0 s) :
    Does ps s0 (State.writeRnd s o off r v) := by
  unfold State.writeRnd
  exact Does.ite (Does.ite (State.bump_does (sub hw) h) (Does.ite (State.modeRequest_does (sub hw) h) (State.loggedWrite_does (sub hw) h))) (Does.ite (State.slWrite_does (sub hw) h) (State.plainWrite_does (sub hw) h))

theorem State.writeTim_does {s : State} {o : Origin} {off : Nat} {r : RegRow} {v : Word} (hw : [.free, .clock, .regs, .host, .rings, .audit, .mgt, .macs, .tim, .wick, .pwr, .sta, .mnt] ⊆ ps) (h : Does ps s0 s) :
    Does ps s0 (State.writeTim s o off r v) := by
  unfold State.writeTim
  exact Does.ite (Does.ite h (Does.updOf [.clock] (sub hw) (State.setReg_does (sub hw) h))) (Does.ite (Does.ite h (State.incrWrite_does (sub hw) h)) (Does.ite (Does.ite h (State.plainWrite_does (sub hw) h)) (Does.ite (stepWrite_does hw h) (Does.ite (trigWrite_does (sub hw) h) (State.plainWrite_does (sub hw) h)))))

theorem State.writeTdm_does {s : State} {o : Origin} {off : Nat} {r : RegRow} {v : Word} (hw : [.regs, .host, .rings, .audit, .mgt, .queues, .wick, .pwr, .sta, .ports] ⊆ ps) (h : Does ps s0 s) :
    Does ps s0 (State.writeTdm s o off r v) := by
  unfold State.writeTdm
  exact Does.ite (tdmCfgWrite_does hw h) (Does.ite (portFieldWrite_does (sub hw) h) (Does.ite (maskWrite_does (sub hw) h) (Does.ite (tapCfgWrite_does (sub hw) h) ((by
  (try extract_lets); split
  · exact State.flushWrite_does (sub hw) h
  · exact State.plainWrite_does (sub hw) h)))))

theorem State.writeReg_does {s : State} {o : Origin} {off : Nat} {r : RegRow} {v : Word} (hw : [.free, .clock, .regs, .host, .rings, .audit, .mgt, .rnd, .cnv, .mix, .queues, .tiles, .macs, .mdioEnd, .tim, .streams, .vox, .heldRegs, .wick, .pwr, .sta, .mnt, .ports, .link] ⊆ ps) (h : Does ps s0 s) :
    Does ps s0 (State.writeReg s o off r v) := by
  unfold State.writeReg
  exact Does.ite (splitWrite_does (sub hw) h) (Does.ite (State.setupWrite_does (sub hw) h) (Does.ite (State.plainWrite_does (sub hw) h) (Does.ite (State.writeHif_does (sub hw) h) (Does.ite (State.plainWrite_does (sub hw) h) (Does.ite (State.writeWck_does (sub hw) h) (Does.ite (State.heldWrite_does (sub hw) h) (Does.ite (State.plainWrite_does (sub hw) h) (Does.ite (State.writeRnd_does (sub hw) h) (Does.ite (State.plainWrite_does (sub hw) h) (Does.ite (State.writeNet_does (sub hw) h) (Does.ite (State.writeTim_does (sub hw) h) (Does.ite (State.writeMnt_does (sub hw) h) (Does.ite (State.writeTdm_does (sub hw) h) (Does.ite (State.plainWrite_does (sub hw) h) (Does.ite (State.writeLnk_does (sub hw) h) (Does.ite (State.writeIcu_does (sub hw) h) (Does.ite (staEpochSet_does (sub hw) h) (Does.ite (State.setupWrite_does (sub hw) h) (Does.ite (State.lockedWrite_does (sub hw) h) (State.plainWrite_does (sub hw) h))))))))))))))))))))

theorem execRegisterWrite_does {off : Nat} {be : BitVec 4} {v : Word} {origin : Origin} {s : State} (hw : [.free, .clock, .regs, .host, .rings, .audit, .mgt, .rnd, .cnv, .mix, .queues, .tiles, .macs, .mdioEnd, .tim, .streams, .vox, .heldRegs, .wick, .pwr, .sta, .mnt, .ports, .link] ⊆ ps) (h : Does ps s0 s) :
    DoesR ps s0 (execRegisterWrite off be v origin s) := by
  unfold execRegisterWrite
  exact DoesR.ite (DoesR.next (Does.ite (State.msixWrite_does (sub hw) h) h)) (DoesR.ite (DoesR.next h) (DoesR.ite (DoesR.next (State.bump_does (sub hw) h)) ((by
  (try extract_lets); split
  · exact DoesR.next h
  · exact DoesR.next (State.writeReg_does hw h)))))

/-! ### Machine/Vigil.lean -/

theorem State.blockReturns_does {s : State} {v : VigilTest} (hw : [.regs, .host, .rings, .audit, .mgt, .rnd, .macs, .vox, .wick, .lan, .vig, .pwr, .sta, .link] ⊆ ps) (h : Does ps s0 s) :
    Does ps s0 (State.blockReturns s v) := by
  unfold State.blockReturns
  exact Does.ite h (State.voxDegrade_does (sub hw) ((by
  (try extract_lets); split
  · exact State.finishAt_does (sub hw) (Does.after (Does.ite (State.ctlLog_does (sub hw) Does.refl) Does.refl) (Does.after (Does.ite (State.ecuSwitch_does (sub hw) Does.refl) Does.refl) (Does.foldl (State.unitsMoved_does (sub hw) (State.onMgt_does (sub hw) (State.onVig_does (sub hw) h))) fun _ _ h3 => State.onCore_does (sub hw) h3)))
  · exact State.ownLog_does (sub hw) (State.auditReserve_does (sub hw) (Does.after (Does.ite (State.ecuSwitch_does (sub hw) Does.refl) Does.refl) (Does.foldl (State.unitsMoved_does (sub hw) (State.onMgt_does (sub hw) (State.onVig_does (sub hw) h))) fun _ _ h3 => State.onCore_does (sub hw) h3))))))

theorem State.fftTest_does {s : State} {c : Nat} {pass : Bool} (hw : [.regs, .host, .rings, .audit, .mgt, .lan] ⊆ ps) (h : Does ps s0 s) :
    Does ps s0 (State.fftTest s c pass) := by
  unfold State.fftTest
  exact Does.ite h (Does.ite (State.bump_does (sub hw) (State.onLan_does (sub hw) h)) (State.askAction_does (sub hw) (State.onLan_does (sub hw) h)))

theorem State.testReturns_does {s : State} (hw : [.regs, .host, .rings, .audit, .mgt, .rnd, .macs, .vox, .wick, .lan, .vig, .pwr, .sta, .link] ⊆ ps) (h : Does ps s0 s) :
    Does ps s0 (State.testReturns s) := by
  unfold State.testReturns
  exact Does.foldl h fun _ _ h1 => State.blockReturns_does hw h1

theorem State.scrubbed_does {s : State} {n : Nat} (hw : [.regs, .vig] ⊆ ps) (h : Does ps s0 s) :
    Does ps s0 (State.scrubbed s n) := by
  unfold State.scrubbed
  exact State.bump_does (sub hw) (State.onVig_does (sub hw) h)

theorem State.vigilReport_does {s : State} {test : Nat} {unit : Nat} {outcome : Nat} {detail : Nat} (hw : [.regs, .host, .rings] ⊆ ps) (h : Does ps s0 s) :
    Does ps s0 (State.vigilReport s test unit outcome detail) := by
  unfold State.vigilReport
  exact Does.ite (State.bump_does (sub hw) (State.fire_does hw (State.bump_does (sub hw) h))) (State.fire_does hw (State.bump_does (sub hw) h))

theorem State.patternPass_does {s : State} {pages : List Nat} (hw : [.regs, .host, .rings, .vig] ⊆ ps) (h : Does ps s0 s) :
    Does ps s0 (State.patternPass s pages) := by
  unfold State.patternPass
  exact State.bump_does (sub hw) (State.onVig_does (sub hw) (Does.foldl (State.scrubbed_does (sub hw) h) fun _ _ h1 => State.vigilReport_does (sub hw) h1))

theorem State.testDetail_does {s : State} {v : VigilTest} {seg : Nat} (hw : [.free] ⊆ ps) (h : Does ps s0 s) :
    Does ps s0 (State.testDetail s v seg).2 := by
  unfold State.testDetail
  (try dsimp only); exact (by
 refine Does.ite_snd ?_ ?_
 · (try dsimp only); exact h
 · (try dsimp only); exact (by
   refine Does.ite_snd ?_ ?_
   · (try dsimp only); exact h
   · (try dsimp only); exact State.fresh_does hw h))

theorem State.testFails_does {s : State} {v : VigilTest} {seg : Nat} (hw : [.free, .regs, .host, .rings, .audit, .mgt, .macs, .wick, .vig, .pwr, .sta, .link] ⊆ ps) (h : Does ps s0 s) :
    Does ps s0 (State.testFails s v seg) := by
  unfold State.testFails
  exact (by
  (try extract_lets); split
  · rename_i e; have h2 := Does.of_snd e (State.testDetail_does (sub hw) (State.onVig_does (sub hw) h)); exact (by
   (try extract_lets); split
   · exact State.vigilReport_does (sub hw) h2
   · exact State.finish_does (sub hw) (Does.ite (State.ctlLog_does (sub hw) (State.vigilReport_does (sub hw) h2)) (State.vigilReport_does (sub hw) h2))))

theorem State.testPasses_does {s : State} {v : VigilTest} (hw : [.free, .regs, .host, .rings, .vig] ⊆ ps) (h : Does ps s0 s) :
    Does ps s0 (State.testPasses s v) := by
  unfold State.testPasses
  exact Does.ite ((by
  (try extract_lets); split
  · rename_i e; have h2 := Does.of_snd e (State.testDetail_does (sub hw) (State.onVig_does (sub hw) h)); exact State.vigilReport_does (sub hw) h2)) (State.onVig_does (sub hw) h)

theorem execDramScrub_does {dt : Nat} {parity : Option Nat} {pages : List Nat} {s : State} (hw : [.clock, .regs, .host, .rings, .evs, .vig] ⊆ ps) (h : Does ps s0 s) :
    DoesR ps s0 (execDramScrub dt parity pages s) := by
  unfold execDramScrub
  exact DoesR.ite (DoesR.next (State.elapse_does (sub hw) h)) (DoesR.next (Does.after (Does.ite (State.patternPass_does (sub hw) Does.refl) Does.refl) ((by
  (try extract_lets); split
  · exact State.noteEvent_does (sub hw) (State.bump_does (sub hw) (State.scrubbed_does (sub hw) (State.setReg_does (sub hw) (State.elapse_does (sub hw) h))))
  · exact State.scrubbed_does (sub hw) (State.setReg_does (sub hw) (State.elapse_does (sub hw) h))))))

theorem execSelfTestDone_does {dt : Nat} {target : Nat} {fail : Option Nat} {s : State} (hw : [.free, .clock, .regs, .host, .rings, .audit, .mgt, .macs, .wick, .lan, .vig, .pwr, .sta, .link] ⊆ ps) (h : Does ps s0 s) :
    DoesR ps s0 (execSelfTestDone dt target fail s) := by
  unfold execSelfTestDone
  exact (by
  (try extract_lets); split
  · exact (by
   (try extract_lets); split
   · exact DoesR.next (State.testPasses_does (sub hw) (State.elapse_does (sub hw) h))
   · exact DoesR.next (State.testFails_does (sub hw) (State.elapse_does (sub hw) h)))
  · exact DoesR.ite (DoesR.next (State.fftTest_does (sub hw) (State.elapse_does (sub hw) h))) (DoesR.next (State.elapse_does (sub hw) h)))

end Sys2Proof.Machine
end

