-- ==== Sys2Proof/Laws/DoesFrame.lean ====
section
/-!
SUPPORT. Laws/DoesFrame.lean: what each operation of Machine/FrameTick.lean, Machine/Resume.lean, Machine/NetRx.lean may write, and that it keeps what is sound.
The proofs put the lemmas of the operations called together in the mods in which the operation calls them.
-/
namespace Sys2Proof.Machine

-- One proof at a time: the proofs of this file in parallel ask for more threads than the memory bound holds.
set_option Elab.async false
variable {ps : List Part} {s0 : State}

/-! ### Machine/FrameTick.lean -/

theorem State.blockFault_does {n : Nat} {s : State} {f : FrameFault} (hw : [.regs, .evs] ⊆ ps) (h : Does ps s0 s) :
    Does ps s0 (State.blockFault n s f) := by
  unfold State.blockFault
  exact (by
  (try extract_lets); split
  · exact State.sealFailure_does hw h
  · exact Does.foldl h fun _ _ h1 => State.badBlock_does (sub hw) h1
  · exact State.badBlock_does (sub hw) h
  · exact State.badBlock_does (sub hw) h
  · exact Does.foldl h fun _ _ h2 => State.badBlock_does (sub hw) h2
  · exact Does.foldl h fun _ _ h3 => State.badBlock_does (sub hw) h3
  · exact h)

theorem State.boundaryEnd_does {s : State} {faults : List FrameFault} {stepPct : Nat} (hw : [.free, .regs, .host, .rings, .cnv, .evs, .queues, .macs, .ports, .link] ⊆ ps) (h : Does ps s0 s) :
    Does ps s0 (State.boundaryEnd s faults stepPct) := by
  unfold State.boundaryEnd
  exact Does.after (Does.ite (State.convEnd_does (sub hw) Does.refl) Does.refl) (State.noteUpcoming_does (sub hw) (Does.foldl (State.sendReplies_does (sub hw) (State.twinSend_does (sub hw) (State.twinCompare_does (sub hw) (State.sendMarker_does (sub hw) (State.sendMarker_does (sub hw) h))))) fun _ _ h1 => State.portTick_does (sub hw) h1))

theorem State.captureTick_does {s : State} (hw : [.mgt, .mix] ⊆ ps) (h : Does ps s0 s) :
    Does ps s0 (State.captureTick s) := by
  unfold State.captureTick
  exact State.onMix_does (sub hw) (State.onMgt_does (sub hw) h)

theorem State.setLive_does {s : State} {b : Sets} (hw : [.rnd, .mix] ⊆ ps) (h : Does ps s0 s) :
    Does ps s0 (State.setLive s b) := by
  unfold State.setLive
  exact Does.upd [.rnd, .mix] hw h

theorem State.exchange_does {s : State} {mask : Nat} (hw : [.rnd, .mix] ⊆ ps) (h : Does ps s0 s) :
    Does ps s0 (State.exchange s mask) := by
  unfold State.exchange
  exact State.setIdle_does hw (State.setLive_does hw h)

theorem State.exchangeFilters_does {s : State} {outs : List Nat} (hw : [.cnv] ⊆ ps) (h : Does ps s0 s) :
    Does ps s0 (State.exchangeFilters s outs) := by
  unfold State.exchangeFilters
  exact Does.foldl h fun _ _ h1 => State.setConvOut_does hw h1

theorem State.feedOne_does {s : State} {w : Swap} (hw : [.rnd] ⊆ ps) (h : Does ps s0 s) :
    Does ps s0 (State.feedOne s w).1 := by
  unfold State.feedOne
  (try dsimp only); exact (by
  (try extract_lets); split
  · (try dsimp only); exact (by
  refine Does.ite_fst ?_ ?_
  · (try dsimp only); exact State.onRnd_does hw h
  · (try dsimp only); exact h)
  · (try dsimp only); exact h)

theorem State.feedSwapsGo_does {l : List Swap} {s : State} (hw : [.rnd] ⊆ ps) (h : Does ps s0 s) :
    Does ps s0 (State.feedSwapsGo l s).2 := by
  induction l generalizing s with
  | nil => exact h
  | cons w l ih => exact ih (State.feedOne_does hw h)

theorem State.feedSwaps_does {s : State} (hw : [.rnd, .mix] ⊆ ps) (h : Does ps s0 s) :
    Does ps s0 (State.feedSwaps s) := by
  unfold State.feedSwaps
  exact (by
  (try extract_lets); split
  · rename_i e; have h1 := Does.of_snd e (State.feedSwapsGo_does (sub hw) h); exact State.onMix_does (sub hw) h1)

theorem State.mediaTick_does {s : State} (hw : [.regs, .ing] ⊆ ps) (h : Does ps s0 s) :
    Does ps s0 (State.mediaTick s) := by
  unfold State.mediaTick
  exact Does.updOf [.ing] (sub hw) ((by
  (try extract_lets); split
  · exact Does.ite h (State.bump_does (sub hw) h)
  · exact h))

theorem State.mixUnitFault_does {s : State} {u : Nat} (hw : [.regs, .host, .rings, .audit, .mgt, .vig] ⊆ ps) (h : Does ps s0 s) :
    Does ps s0 (State.mixUnitFault s u) := by
  unfold State.mixUnitFault
  exact Does.ite (State.askOut_does (sub hw) (State.onVig_does (sub hw) h)) (State.onVig_does (sub hw) h)

theorem State.unitFault_does {s : State} {f : FrameFault} (hw : [.free, .regs, .host, .rings, .audit, .mgt, .rnd, .evs, .parWords, .vox, .wick, .lan, .vig, .pwr, .sta] ⊆ ps) (h : Does ps s0 s) :
    Does ps s0 (State.unitFault s f) := by
  unfold State.unitFault
  exact (by
  (try extract_lets); split
  · exact Does.ite (State.coreFault_does (sub hw) h) (Does.ite ((by
   (try extract_lets); split
   · exact State.fftResidue_does (sub hw) h
   · exact State.askOut_does (sub hw) (State.noteEvent_does (sub hw) (State.bump_does (sub hw) h)))) (Does.ite (State.askOut_does (sub hw) (State.noteEvent_does (sub hw) (State.bump_does (sub hw) h))) (Does.ite (State.mixUnitFault_does (sub hw) (State.noteEvent_does (sub hw) (State.bump_does (sub hw) h))) (Does.ite (Does.after (Does.ite Does.refl (State.ecuSwitch_does (sub hw) Does.refl)) (State.faultOut_does (sub hw) (State.noteEvent_does (sub hw) (State.bump_does (sub hw) h)))) h))))
  · exact Does.ite (State.sramFail_does (sub hw) h) (Does.ite (State.noteEvent_does (sub hw) (State.bump_does (sub hw) h)) h)
  · exact State.queueParity_does (sub hw) h
  · exact State.noteEvent_does (sub hw) (State.bump_does (sub hw) h)
  · exact Does.after (Does.ite (State.auditNow_does (sub hw) Does.refl) (State.askAction_does (sub hw) Does.refl)) (State.abortTask_does (sub hw) (State.noteEvent_does (sub hw) (State.bump_does (sub hw) h)))
  · exact h)

theorem State.portsIngress_does {s : State} {faults : List FrameFault} (hw : [.regs, .host, .rings, .queues, .dram, .lan, .ports] ⊆ ps) (h : Does ps s0 s) :
    Does ps s0 (State.portsIngress s faults).1 :=
  Does.foldl_fst h fun _ _ k => Does.foldl (State.portBlocks_does (sub hw) k) fun _ _ k => State.badBlock_does (sub hw) k

theorem State.ingress_does {s : State} {faults : List FrameFault} {m0 : Nat} {m1 : Nat} {casting : Bool} (hw : [.free, .regs, .host, .rings, .ing, .queues, .dram, .streams, .wick, .lan, .sta, .ports, .link] ⊆ ps) (h : Does ps s0 s) :
    Does ps s0 (State.ingress s faults m0 m1 casting) := by
  unfold State.ingress
  exact (by
  (try extract_lets); split
  · rename_i e; have h1 := Does.of_fst e (State.portsIngress_does (sub hw) h); exact Does.ite (Does.foldl (Does.upd [.ing] (sub hw) h1) fun _ _ h2 => State.setStream_does (sub hw) h2) ((by
   (try extract_lets); split
   · rename_i e; have h3 := Does.of_fst e (State.streamIngress_does (sub hw) h1); exact (by
    (try extract_lets); split
    · rename_i e; have h5 := Does.of_fst e (State.chainBlocks_does (sub hw) (Does.ite (State.sealGroups_does (sub hw) h3) h3)); exact Does.updOf [.ing] (sub hw) (Does.foldl (Does.upd [.ing] (sub hw) h5) fun _ _ h6 => State.wickIngress_does (sub hw) h6)))))

theorem State.outputIn_does {s : State} {faults : List FrameFault} {o : Nat} (hw : [.regs] ⊆ ps) (h : Does ps s0 s) :
    Does ps s0 (State.outputIn s faults o).1 := by
  unfold State.outputIn
  (try dsimp only); exact (by
 refine Does.ite_fst ?_ ?_
 · (try dsimp only); exact h
 · (try dsimp only); exact (by
    (try extract_lets); split
    · (try dsimp only); exact (by
    refine Does.ite_fst ?_ ?_
    · (try dsimp only); exact State.bump_does hw h
    · (try dsimp only); exact h)
    · (try dsimp only); exact h))

theorem State.outputBulk_does {s : State} {o : Nat} {b : Block} (hw : [.mix] ⊆ ps) (h : Does ps s0 s) :
    Does ps s0 (State.outputBulk s o b).1 := by
  unfold State.outputBulk
  (try dsimp only); exact (by
  (try extract_lets); split
  · (try dsimp only); exact State.onMix_does hw h
  · (try dsimp only); exact State.onMix_does hw (State.onMix_does hw h))

theorem State.outputOne_does {s : State} {faults : List FrameFault} {eqAt roomAt : Option Nat} {o : Nat} (hw : [.regs, .cnv, .mix] ⊆ ps)
    (h : Does ps s0 s) : Does ps s0 (State.outputOne s faults eqAt roomAt o).1 := by
  have k : Does ps s0 (s.outputIn faults o).1 := State.outputIn_does (sub hw) h
  unfold State.outputOne
  generalize s.outputIn faults o = q at k ⊢
  obtain ⟨s, b⟩ := q
  exact State.outputBulk_does (sub hw) (State.convOne_does (sub hw)
    (Does.ite (State.bump_does (sub hw) (State.onMix_does (sub hw) k)) (State.onMix_does (sub hw) k)))

theorem State.outputStage_does {s : State} {faults : List FrameFault} {blk : Nat} (hw : [.regs, .rnd, .cnv, .mix, .link] ⊆ ps) (h : Does ps s0 s) :
    Does ps s0 (State.outputStage s faults blk).1 :=
  State.exchange_does (sub hw) (State.onLink_does (sub hw) (Does.foldl_fst h fun _ _ k => State.outputOne_does (sub hw) k))

theorem State.mixCounts_does {s : State} {o : PartOut} (hw : [.regs, .evs] ⊆ ps) (h : Does ps s0 s) :
    Does ps s0 (State.mixCounts s o) := by
  unfold State.mixCounts
  exact State.bump_does (sub hw) (Does.foldl (State.bump_does (sub hw) (State.bump_does (sub hw) h)) fun _ _ h1 => State.noteEvent_does (sub hw) h1)

theorem State.presentOne_does {faults : List FrameFault} {out : Cells (List Int)} {con : List Nat} {lost : List Nat} {s : State} {k : Nat} (hw : [.regs, .mix] ⊆ ps) (h : Does ps s0 s) :
    Does ps s0 (State.presentOne faults out con lost s k) := by
  unfold State.presentOne
  exact Does.after (Does.ite (State.bump_does (sub hw) Does.refl) Does.refl) (Does.ite (Does.ite (State.bump_does (sub hw) (State.onMix_does (sub hw) h)) (State.onMix_does (sub hw) h)) (Does.ite (State.bump_does (sub hw) (State.onMix_does (sub hw) h)) (State.onMix_does (sub hw) h)))

theorem State.mixStage_does {s : State} {faults : List FrameFault} {blk : Nat} {outs : List (Nat × Block)} (hw : [.regs, .rnd, .mix, .evs, .vox] ⊆ ps) (h : Does ps s0 s) :
    Does ps s0 (State.mixStage s faults blk outs) := by
  unfold State.mixStage
  exact (by
  (try extract_lets); split
  · exact Does.after (Does.ite (State.voxAdvance_does (sub hw) Does.refl) Does.refl) (Does.foldl (State.exchange_does (sub hw) (State.onMix_does (sub hw) (State.mixCounts_does (sub hw) h))) fun _ _ h2 => State.presentOne_does (sub hw) h2))

theorem State.renderOrCold_does {s : State} {i : RenderIn} (hw : [.regs, .rnd, .cnv, .mix, .evs, .ev53] ⊆ ps) (h : Does ps s0 s) :
    Does ps s0 (State.renderOrCold s i) := by
  unfold State.renderOrCold
  exact Does.ite (State.onMix_does (sub hw) (State.onCnv_does (sub hw) (State.renderStage_does (sub hw) h))) (State.renderStage_does (sub hw) h)

theorem State.renderTick_does {s : State} {faults : List FrameFault} {blk : Nat} (hw : [.regs, .host, .rings, .mgt, .rnd, .cnv, .mix, .evs, .ev53, .macs, .pwr, .link] ⊆ ps) (h : Does ps s0 s) :
    Does ps s0 (State.renderTick s faults blk) := by
  unfold State.renderTick
  extract_lets first es ee s1 s2 s3 swaps early s4
  have k1 : Does ps s0 s1 := State.castDue_does (sub hw) h
  clear_value s1
  have k2 : Does ps s0 s2 := Does.ite (State.chainLatch_does (sub hw) k1) (State.latch_does (sub hw) k1)
  clear_value s2
  have k3 : Does ps s0 s3 := State.feedSwaps_does (sub hw) k2
  clear_value s3
  have ke : Does ps s0 early := by
    unfold early
    clear_value swaps
    split
    · exact State.onMix_does (sub hw) k3
    · exact k3
  clear_value early
  exact State.onRnd_does (sub hw) (Does.ite (State.renderOrCold_does (sub hw) ke) (State.exchange_does (sub hw) k3))

theorem State.frameWork_does {s : State} {faults : List FrameFault} {stepPct : Nat} {casting stepped : Bool}
    (hw : [.free, .regs, .host, .rings, .audit, .mgt, .ing, .rnd, .cnv, .mix, .slice, .evs, .ev53, .queues, .dram, .parWords, .macs, .streams, .vox, .heldRegs, .imgs, .wick, .lan, .vig, .pwr, .sta, .ports, .link] ⊆ ps) (h : Does ps s0 s) : Does ps s0 (State.frameWork s faults stepPct casting stepped) := by
  unfold State.frameWork
  extract_lets m0 s1 s2 s3 s4 n s5 s6 s7 s8 s9 s10 blk
  have k2 : Does ps s0 s2 := State.flushEvents_does (sub hw) (State.staTick_does (sub hw) (State.mediaTick_does (sub hw) h))
  clear_value s2 s1
  have k4 : Does ps s0 s4 := Does.foldl (Does.upd [.heldRegs] (sub hw) k2) fun _ _ k => State.onCore_does (sub hw) k
  clear_value s4 s3
  have k5 : Does ps s0 s5 := Does.ite (Does.foldl k4 fun _ _ k => State.blockFault_does (sub hw) k) k4
  clear_value s5
  have k6 : Does ps s0 s6 := Does.foldl k5 fun _ _ k => State.unitFault_does (sub hw) k
  clear_value s6
  have k7 : Does ps s0 s7 := State.testReturns_does (sub hw) (State.ingress_does (sub hw) k6)
  clear_value s7
  have k8 : Does ps s0 s8 := Does.foldl k7 fun _ _ k => State.stopPlanes_does (sub hw) k
  clear_value s8
  have k9 : Does ps s0 s9 := Does.foldl k8 fun _ _ k => State.startPlanes_does (sub hw) k
  clear_value s9
  have k10 : Does ps s0 s10 :=
    State.sliceTick_does (sub hw) (State.commitSwaps_does (sub hw) (State.copyAtTick_does (sub hw) (State.copyAtTick_does (sub hw) k9)))
  clear_value s10
  split
  rename_i s11 outs e
  have k11 : Does ps s0 s11 := Does.of_fst e (Does.ite_fst (State.outputStage_does (sub hw) k10)
    (State.exchangeFilters_does (sub hw) (State.exchange_does (sub hw) k10)))
  extract_lets s12 s13 s14 s15
  have k12 : Does ps s0 s12 :=
    Does.ite (State.mixStage_does (sub hw) k11) (State.onMix_does (sub hw) (State.exchange_does (sub hw) k11))
  clear_value s12
  have k13 : Does ps s0 s13 := State.renderTick_does (sub hw) k12
  clear_value s13
  have k14 : Does ps s0 s14 := Does.ite (State.vigilPost_does (sub hw) (State.wickTick_does (sub hw) k13)) k13
  exact State.boundaryEnd_does (sub hw) (State.onWick_does (sub hw) k14)

theorem execFrameTick_does {dt : Nat} {stepPct : Nat} {faults : List FrameFault} {s : State} (hw : [.free, .clock, .regs, .host, .rings, .audit, .mgt, .ing, .rnd, .cnv, .mix, .slice, .evs, .ev53, .queues, .dram, .parWords, .macs, .streams, .vox, .heldRegs, .imgs, .wick, .lan, .vig, .pwr, .sta, .ports, .link] ⊆ ps) (h : Does ps s0 s) :
    DoesR ps s0 (execFrameTick dt stepPct faults s) := by
  unfold execFrameTick
  exact DoesR.after (DoesR.ite (DoesR.next Does.refl) (DoesR.next (State.frameWork_does (sub hw) (State.captureTick_does (sub hw) (Does.ite (State.captureRest_does (sub hw) Does.refl) Does.refl))))) (State.elapse_does (sub hw) (State.voxFinishBy_does (sub hw) h))

theorem execVoiceTick_does {obs : List VoiceObs} {s : State} (hw : [.free, .regs, .host, .rings, .audit, .mgt, .queues, .macs, .vox, .wick, .pwr, .sta, .link] ⊆ ps) (h : Does ps s0 s) :
    DoesR ps s0 (execVoiceTick obs s) := by
  unfold execVoiceTick
  exact DoesR.ite (DoesR.next (State.voiceTick_does (sub hw) (State.wickTick_does (sub hw) h))) (DoesR.next h)

/-! ### Machine/Resume.lean -/

theorem State.acceptGo_does {l : List CtlAct} {s : State} (hw : [.regs, .host, .rings, .audit] ⊆ ps)
    (h : Does ps s0 s) : Does ps s0 (State.acceptGo l s).2 := by
  induction l generalizing s with
  | nil => exact h
  | cons c l ih => exact Does.ite_snd (ih (State.auditReserve_does hw h)) (ih h)

theorem State.acceptActions_does {s : State} (hw : [.regs, .host, .rings, .audit, .mgt] ⊆ ps) (h : Does ps s0 s) :
    Does ps s0 (State.acceptActions s) := by
  unfold State.acceptActions
  exact (by
  (try extract_lets); split
  · rename_i e; have h1 := Does.of_snd e (State.acceptGo_does (sub hw) h); exact State.onMgt_does (sub hw) h1)

theorem State.flushLate_does {l : List LateEntry} {s : State} (hw : [.regs, .host, .rings, .audit, .wick, .pwr, .sta] ⊆ ps) (h : Does ps s0 s) :
    Does ps s0 (State.flushLate l s) := by
  induction l generalizing s with
  | nil => exact State.onAudit_does (sub hw) h
  | cons e l ih =>
    exact Does.ite (ih (State.chainEntry_does (sub hw) (State.auditRelease_does (sub hw) (State.auditReserve_does (sub hw) h))))
      (State.onAudit_does (sub hw) h)

theorem State.resume_does {c : Instr} {s : State} (hw : [.free, .clock, .regs, .host, .rings, .audit, .mgt, .rnd, .cnv, .mix, .queues, .tiles, .macs, .streams, .vox, .imgs, .wick, .lan, .vig, .sec, .pwr, .sta, .ports, .link] ⊆ ps) (h : Does ps s0 s) :
    DoesR ps s0 (State.resume c s) := by
  unfold State.resume
  exact (by
  (try extract_lets); split
  · exact execRemove_does (sub hw) h
  · exact execRestore_does (sub hw) h
  · exact execReset_does (sub hw) h
  · exact execRetireBank_does (sub hw) h
  · exact execRotate_does (sub hw) h
  · exact execPlaneStart_does (sub hw) h
  · exact execPlaneStop_does (sub hw) h
  · exact execControlActionExecute_does (sub hw) h
  · exact execBankCopyDone_does (sub hw) h
  · exact execSpareRotation_does (sub hw) h
  · exact execRingSetup_does (sub hw) h
  · exact execSwap_does (sub hw) h
  · exact execVoxOpen_does (sub hw) h
  · exact execVoxModify_does (sub hw) h
  · exact execVoxClose_does (sub hw) h
  · exact execImgLoad_does (sub hw) h
  · exact execSecSetOwner_does (sub hw) h
  · exact execSecCommitSvn_does (sub hw) h
  · exact execStrStart_does (sub hw) h
  · exact execStrStop_does (sub hw) h
  · exact execLnkSliceApply_does (sub hw) h
  · exact execModReset_does (sub hw) h
  · exact DoesR.next h)

theorem State.resumeGo_does {l : List Instr} {s : State} (hw : [.free, .clock, .regs, .host, .rings, .audit, .mgt, .rnd, .cnv, .mix, .queues, .tiles, .macs, .streams, .vox, .imgs, .wick, .lan, .vig, .sec, .pwr, .sta, .ports, .link] ⊆ ps) (h : Does ps s0 s) :
    Does ps s0 (State.resumeGo l s) := by
  induction l generalizing s with
  | nil => exact h
  | cons c l ih =>
    unfold State.resumeGo
    obtain ⟨t, e, k⟩ := State.resume_does (c := c) hw h
    rw [e]
    exact ih k

theorem State.unstallRings_does {s : State} (hw : [.rings] ⊆ ps) (h : Does ps s0 s) :
    Does ps s0 (State.unstallRings s) := by
  unfold State.unstallRings
  exact State.eachRing_does h (fun _ _ h1 => Does.ite (State.onRing_does hw h1) h1)

theorem execAuditSpaceReturn_does {s : State} (hw : [.free, .clock, .regs, .host, .rings, .audit, .mgt, .rnd, .cnv, .mix, .queues, .tiles, .macs, .streams, .vox, .imgs, .wick, .lan, .vig, .sec, .pwr, .sta, .ports, .link] ⊆ ps) (h : Does ps s0 s) :
    DoesR ps s0 (execAuditSpaceReturn s) := by
  unfold execAuditSpaceReturn
  exact DoesR.next (State.unstallRings_does (sub hw) (State.resumeGo_does hw (State.onAudit_does (sub hw) (State.acceptActions_does (sub hw) (State.flushLate_does (sub hw) h)))))

theorem execCheckpoint_does {s : State} (hw : [.free, .regs, .host, .rings, .audit, .wick, .sta] ⊆ ps) (h : Does ps s0 s) :
    DoesR ps s0 (execCheckpoint s) := by
  unfold execCheckpoint
  exact (by
  (try extract_lets); split
  · exact DoesR.next h
  · exact DoesR.next (State.enqueue_does (sub hw) (Does.updOf [.free] (sub hw) (State.onAudit_does (sub hw) h))))

/-! ### Machine/NetRx.lean -/

theorem State.rxCount_does {s : State} {n : Nat} {len : Nat} (hw : [.regs, .macs] ⊆ ps) (h : Does ps s0 s) :
    Does ps s0 (State.rxCount s n len) := by
  unfold State.rxCount
  exact State.onMac_does (sub hw) (State.bump_does (sub hw) h)

theorem State.rxPush_does {s : State} {n : Nat} {q : Nat} {f : List Byte} {flags : Nat} {match_ : Nat} {stamp : Nat} {bad : Bool} (hw : [.regs, .host, .rings, .queues, .macs] ⊆ ps) (h : Does ps s0 s) :
    Does ps s0 (State.rxPush s n q f flags match_ stamp bad) := by
  unfold State.rxPush
  exact Does.ite (State.onMac_does (sub hw) (State.pushItem_does (sub hw) h)) (State.pushItem_does (sub hw) h)

theorem State.rxEngine_does {s : State} {n : Nat} {p : Parsed} {u : Option Udp} {f : List Byte} {parity : Bool} {ta : Nat} (hw : [.regs, .host, .rings, .evs, .queues, .macs, .streams, .vox] ⊆ ps) (h : Does ps s0 s) :
    Does ps s0 (State.rxEngine s n p u f parity ta) := by
  unfold State.rxEngine
  exact Does.ite (State.rxPush_does (sub hw) h) ((by
  (try extract_lets); split
  · exact State.streamRx_does (sub hw) (Does.after (Does.ite (State.queueParity_does (sub hw) Does.refl) Does.refl) (State.rxCount_does (sub hw) (State.popItem_does (sub hw) (State.rxPush_does (sub hw) h))))
  · exact Does.after (Does.ite Does.refl (State.voxRx_does (sub hw) Does.refl)) (Does.after (Does.ite (State.queueParity_does (sub hw) Does.refl) Does.refl) (State.rxCount_does (sub hw) (State.popItem_does (sub hw) (State.rxPush_does (sub hw) h))))
  · exact Does.after (Does.ite (State.queueParity_does (sub hw) Does.refl) Does.refl) (State.rxCount_does (sub hw) (State.popItem_does (sub hw) (State.rxPush_does (sub hw) h)))))

theorem State.rxNextHead_does {s : State} {n : Nat} {q : Nat} (hw : [.queues, .macs] ⊆ ps) (h : Does ps s0 s) :
    Does ps s0 (State.rxNextHead s n q) := by
  unfold State.rxNextHead
  exact State.onMac_does (sub hw) (State.popItem_does (sub hw) h)

theorem State.rxWrite_does {r flags match_ time : Nat} {first : Bool} {f : List Byte} {l : List Desc} {s : State}
    (hw : [.regs, .host, .rings, .mgt, .macs, .pwr, .link] ⊆ ps) (h : Does ps s0 s) : Does ps s0 (State.rxWrite r flags match_ time first f l s) := by
  induction l generalizing first f s with
  | nil => exact h
  | cons d l ih => exact ih (State.finishAt_does (sub hw) (State.emit_does (sub hw) h))

theorem State.servoPtp_does {s : State} {sync : Option Int} (hw : [.regs, .tim] ⊆ ps) (h : Does ps s0 s) :
    Does ps s0 (State.servoPtp s sync) := by
  unfold State.servoPtp
  exact (by
  (try extract_lets); split
  · exact State.onTim_does (sub hw) h
  · exact Does.ite (State.setFlag_does (sub hw) (State.onTim_does (sub hw) (State.onTim_does (sub hw) h))) (State.onTim_does (sub hw) (State.onTim_does (sub hw) h)))

theorem execFrameReceive_does {dt : Nat} {mac : Nat} {f : List Byte} {fcsOk : Bool} {align : Bool} {stamp : Nat} {parity : Bool} {sync : Option Int} {s : State} (hw : [.clock, .regs, .host, .rings, .evs, .queues, .macs, .tim, .streams, .vox] ⊆ ps) (h : Does ps s0 s) :
    DoesR ps s0 (execFrameReceive dt mac f fcsOk align stamp parity sync s) := by
  unfold execFrameReceive
  exact DoesR.ite (DoesR.next (State.elapse_does (sub hw) h)) (DoesR.ite (DoesR.next (State.bump_does (sub hw) (State.elapse_does (sub hw) h))) ((by
  (try extract_lets); split
  · exact DoesR.next (State.bump_does (sub hw) (State.elapse_does (sub hw) h))
  · exact DoesR.after (DoesR.ite (DoesR.ite (DoesR.next (State.rxPush_does (sub hw) Does.refl)) (DoesR.next (State.rxPush_does (sub hw) Does.refl))) (DoesR.ite (DoesR.next (State.rxEngine_does (sub hw) Does.refl)) (DoesR.ite (DoesR.next (State.rxCount_does (sub hw) (State.servoPtp_does (sub hw) Does.refl))) (DoesR.next (State.rxPush_does (sub hw) Does.refl))))) (Does.foldl (State.elapse_does (sub hw) h) fun _ _ h1 => State.bump_does (sub hw) h1))))

theorem execRxDmaDeliver_does {dt : Nat} {mac : Nat} {high : Bool} {parity : Bool} {s : State} (hw : [.clock, .regs, .host, .rings, .mgt, .evs, .queues, .macs, .pwr, .link] ⊆ ps) (h : Does ps s0 s) :
    DoesR ps s0 (execRxDmaDeliver dt mac high parity s) := by
  unfold execRxDmaDeliver
  exact DoesR.ite (DoesR.next (State.elapse_does (sub hw) h)) ((by
  (try extract_lets); split
  · exact DoesR.next (State.elapse_does (sub hw) h)
  · exact (by
   (try extract_lets); split
   · exact DoesR.next (State.elapse_does (sub hw) h)
   · exact DoesR.ite (DoesR.next (State.elapse_does (sub hw) h)) (DoesR.next (State.rxWrite_does (sub hw) (Does.after (Does.ite (State.rxCount_does (sub hw) Does.refl) Does.refl) (Does.after (Does.ite (State.queueParity_does (sub hw) Does.refl) Does.refl) (State.rxNextHead_does (sub hw) (State.elapse_does (sub hw) h)))))))))

theorem execRxHoldExpiry_does {dt : Nat} {mac : Nat} {high : Bool} {s : State} (hw : [.clock, .regs, .queues, .macs] ⊆ ps) (h : Does ps s0 s) :
    DoesR ps s0 (execRxHoldExpiry dt mac high s) := by
  unfold execRxHoldExpiry
  exact DoesR.ite (DoesR.next (State.elapse_does (sub hw) h)) ((by
  (try extract_lets); split
  · exact DoesR.next (State.elapse_does (sub hw) h)
  · exact DoesR.ite (DoesR.next (State.bump_does (sub hw) (State.rxNextHead_does (sub hw) (State.elapse_does (sub hw) h)))) (DoesR.next (State.elapse_does (sub hw) h))))

end Sys2Proof.Machine
end

