-- ==== Sys2Proof/Laws/DoesStep.lean ====
section
/-!
SUPPORT. Laws/DoesStep.lean: what each operation of Machine/CoreOps.lean, Machine/Step.lean may write, and that it keeps what is sound.
The proofs put the lemmas of the operations called together in the mods in which the operation calls them.
-/
namespace Sys2Proof.Machine

-- One proof at a time: the proofs of this file in parallel ask for more threads than the memory bound holds.
set_option Elab.async false
variable {ps : List Part} {s0 : State}

/-! ### Machine/CoreOps.lean -/

theorem execAclr_does {core : Nat} {fin : Bool} {e : Fin 2} {s : State} (hw : [.free, .regs, .host, .rings, .audit, .mgt, .rnd, .evs, .vox, .wick, .lan, .vig, .pwr, .sta] ⊆ ps) (h : Does ps s0 s) :
    DoesR ps s0 (execAclr core fin e s) := by
  unfold execAclr
  exact DoesR.next (State.coreWord_does hw h)

theorem execAdd_does {core : Nat} {fin : Bool} {sat : Bool} {d : Fin 32} {a : Fin 32} {b : Fin 32} {s : State} (hw : [.free, .regs, .host, .rings, .audit, .mgt, .rnd, .evs, .vox, .wick, .lan, .vig, .pwr, .sta] ⊆ ps) (h : Does ps s0 s) :
    DoesR ps s0 (execAdd core fin sat d a b s) := by
  unfold execAdd
  exact DoesR.next (State.coreWord_does hw h)

theorem execAext_does {core : Nat} {fin : Bool} {sat : Bool} {d : Fin 8} {e : Fin 2} {n : Fin 64} {s : State} (hw : [.free, .regs, .host, .rings, .audit, .mgt, .rnd, .evs, .vox, .wick, .lan, .vig, .pwr, .sta] ⊆ ps) (h : Does ps s0 s) :
    DoesR ps s0 (execAext core fin sat d e n s) := by
  unfold execAext
  exact DoesR.next (State.coreWord_does hw h)

theorem execAmov_does {core : Nat} {fin : Bool} {e : Fin 2} {a : Fin 8} {n : Fin 64} {s : State} (hw : [.free, .regs, .host, .rings, .audit, .mgt, .rnd, .evs, .vox, .wick, .lan, .vig, .pwr, .sta] ⊆ ps) (h : Does ps s0 s) :
    DoesR ps s0 (execAmov core fin e a n s) := by
  unfold execAmov
  exact DoesR.next (State.coreWord_does hw h)

theorem execAnd_does {core : Nat} {fin : Bool} {d : Fin 32} {a : Fin 32} {b : Fin 32} {s : State} (hw : [.free, .regs, .host, .rings, .audit, .mgt, .rnd, .evs, .vox, .wick, .lan, .vig, .pwr, .sta] ⊆ ps) (h : Does ps s0 s) :
    DoesR ps s0 (execAnd core fin d a b s) := by
  unfold execAnd
  exact DoesR.next (State.coreWord_does hw h)

theorem execAsr_does {core : Nat} {fin : Bool} {d : Fin 32} {a : Fin 32} {n : Fin 64} {s : State} (hw : [.free, .regs, .host, .rings, .audit, .mgt, .rnd, .evs, .vox, .wick, .lan, .vig, .pwr, .sta] ⊆ ps) (h : Does ps s0 s) :
    DoesR ps s0 (execAsr core fin d a n s) := by
  unfold execAsr
  exact DoesR.next (State.coreWord_does hw h)

theorem execAsum_does {core : Nat} {fin : Bool} {sat : Bool} {e : Fin 2} {s : State} (hw : [.free, .regs, .host, .rings, .audit, .mgt, .rnd, .evs, .vox, .wick, .lan, .vig, .pwr, .sta] ⊆ ps) (h : Does ps s0 s) :
    DoesR ps s0 (execAsum core fin sat e s) := by
  unfold execAsum
  exact DoesR.next (State.coreWord_does hw h)

theorem execBr_does {core : Nat} {fin : Bool} {cc : BCond} {off : Int} {ext : Bool} {s : State} (hw : [.free, .regs, .host, .rings, .audit, .mgt, .rnd, .evs, .vox, .wick, .lan, .vig, .pwr, .sta] ⊆ ps) (h : Does ps s0 s) :
    DoesR ps s0 (execBr core fin cc off ext s) := by
  unfold execBr
  exact DoesR.next (State.coreWord_does hw h)

theorem execCall_does {core : Nat} {fin : Bool} {off : Int} {ext : Bool} {s : State} (hw : [.free, .regs, .host, .rings, .audit, .mgt, .rnd, .evs, .vox, .wick, .lan, .vig, .pwr, .sta] ⊆ ps) (h : Does ps s0 s) :
    DoesR ps s0 (execCall core fin off ext s) := by
  unfold execCall
  exact DoesR.next (State.coreWord_does hw h)

theorem execCmp_does {core : Nat} {fin : Bool} {a : Fin 32} {b : Fin 32} {s : State} (hw : [.free, .regs, .host, .rings, .audit, .mgt, .rnd, .evs, .vox, .wick, .lan, .vig, .pwr, .sta] ⊆ ps) (h : Does ps s0 s) :
    DoesR ps s0 (execCmp core fin a b s) := by
  unfold execCmp
  exact DoesR.next (State.coreWord_does hw h)

theorem execCoreNop_does {core : Nat} {fin : Bool} {s : State} (hw : [.free, .regs, .host, .rings, .audit, .mgt, .rnd, .evs, .vox, .wick, .lan, .vig, .pwr, .sta] ⊆ ps) (h : Does ps s0 s) :
    DoesR ps s0 (execCoreNop core fin s) := by
  unfold execCoreNop
  exact DoesR.next (State.coreWord_does hw h)

theorem execCrcF_does {core : Nat} {fin : Bool} {d : Fin 32} {s : State} (hw : [.free, .regs, .host, .rings, .audit, .mgt, .rnd, .evs, .vox, .wick, .lan, .vig, .pwr, .sta] ⊆ ps) (h : Does ps s0 s) :
    DoesR ps s0 (execCrcF core fin d s) := by
  unfold execCrcF
  exact DoesR.next (State.coreWord_does hw h)

theorem execCrcI_does {core : Nat} {fin : Bool} {a : Fin 32} {s : State} (hw : [.free, .regs, .host, .rings, .audit, .mgt, .rnd, .evs, .vox, .wick, .lan, .vig, .pwr, .sta] ⊆ ps) (h : Does ps s0 s) :
    DoesR ps s0 (execCrcI core fin a s) := by
  unfold execCrcI
  exact DoesR.next (State.coreWord_does hw h)

theorem execCrcW_does {core : Nat} {fin : Bool} {a : Fin 8} {s : State} (hw : [.free, .regs, .host, .rings, .audit, .mgt, .rnd, .evs, .vox, .wick, .lan, .vig, .pwr, .sta] ⊆ ps) (h : Does ps s0 s) :
    DoesR ps s0 (execCrcW core fin a s) := by
  unfold execCrcW
  exact DoesR.next (State.coreWord_does hw h)

theorem execDmaRd_does {core : Nat} {fin : Bool} {k : Fin 8} {b : Fin 32} {n : Fin 32} {s : State} (hw : [.free, .regs, .host, .rings, .audit, .mgt, .rnd, .evs, .vox, .wick, .lan, .vig, .pwr, .sta] ⊆ ps) (h : Does ps s0 s) :
    DoesR ps s0 (execDmaRd core fin k b n s) := by
  unfold execDmaRd
  exact DoesR.next (State.coreWord_does hw h)

theorem execDmaTrd_does {core : Nat} {fin : Bool} {k : Fin 8} {b : Fin 32} {n : Fin 32} {s : State} (hw : [.free, .regs, .host, .rings, .audit, .mgt, .rnd, .evs, .vox, .wick, .lan, .vig, .pwr, .sta] ⊆ ps) (h : Does ps s0 s) :
    DoesR ps s0 (execDmaTrd core fin k b n s) := by
  unfold execDmaTrd
  exact DoesR.next (State.coreWord_does hw h)

theorem execDmaTwr_does {core : Nat} {fin : Bool} {k : Fin 8} {b : Fin 32} {n : Fin 32} {s : State} (hw : [.free, .regs, .host, .rings, .audit, .mgt, .rnd, .evs, .vox, .wick, .lan, .vig, .pwr, .sta] ⊆ ps) (h : Does ps s0 s) :
    DoesR ps s0 (execDmaTwr core fin k b n s) := by
  unfold execDmaTwr
  exact DoesR.next (State.coreWord_does hw h)

theorem execDmaWait_does {core : Nat} {fin : Bool} {n : Nat} {s : State} (hw : [.free, .regs, .host, .rings, .audit, .mgt, .rnd, .evs, .vox, .wick, .lan, .vig, .pwr, .sta] ⊆ ps) (h : Does ps s0 s) :
    DoesR ps s0 (execDmaWait core fin n s) := by
  unfold execDmaWait
  exact DoesR.next (State.coreWord_does hw h)

theorem execDmaWr_does {core : Nat} {fin : Bool} {k : Fin 8} {b : Fin 32} {n : Fin 32} {s : State} (hw : [.free, .regs, .host, .rings, .audit, .mgt, .rnd, .evs, .vox, .wick, .lan, .vig, .pwr, .sta] ⊆ ps) (h : Does ps s0 s) :
    DoesR ps s0 (execDmaWr core fin k b n s) := by
  unfold execDmaWr
  exact DoesR.next (State.coreWord_does hw h)

theorem execFftRun_does {core : Nat} {fin : Bool} {a : Fin 32} {s : State} (hw : [.free, .regs, .host, .rings, .audit, .mgt, .rnd, .evs, .vox, .wick, .lan, .vig, .pwr, .sta] ⊆ ps) (h : Does ps s0 s) :
    DoesR ps s0 (execFftRun core fin a s) := by
  unfold execFftRun
  exact DoesR.next (State.coreWord_does hw h)

theorem execFftWait_does {core : Nat} {fin : Bool} {a : Fin 32} {s : State} (hw : [.free, .regs, .host, .rings, .audit, .mgt, .rnd, .evs, .vox, .wick, .lan, .vig, .pwr, .sta] ⊆ ps) (h : Does ps s0 s) :
    DoesR ps s0 (execFftWait core fin a s) := by
  unfold execFftWait
  exact DoesR.next (State.coreWord_does hw h)

theorem execJmpR_does {core : Nat} {fin : Bool} {a : Fin 32} {s : State} (hw : [.free, .regs, .host, .rings, .audit, .mgt, .rnd, .evs, .vox, .wick, .lan, .vig, .pwr, .sta] ⊆ ps) (h : Does ps s0 s) :
    DoesR ps s0 (execJmpR core fin a s) := by
  unfold execJmpR
  exact DoesR.next (State.coreWord_does hw h)

theorem execLdH_does {core : Nat} {fin : Bool} {d : Fin 32} {k : Fin 8} {m : Option (Fin 8)} {s : State} (hw : [.free, .regs, .host, .rings, .audit, .mgt, .rnd, .evs, .vox, .wick, .lan, .vig, .pwr, .sta] ⊆ ps) (h : Does ps s0 s) :
    DoesR ps s0 (execLdH core fin d k m s) := by
  unfold execLdH
  exact DoesR.next (State.coreWord_does hw h)

theorem execLdV_does {core : Nat} {fin : Bool} {d : Fin 8} {k : Fin 8} {m : Option (Fin 8)} {s : State} (hw : [.free, .regs, .host, .rings, .audit, .mgt, .rnd, .evs, .vox, .wick, .lan, .vig, .pwr, .sta] ⊆ ps) (h : Does ps s0 s) :
    DoesR ps s0 (execLdV core fin d k m s) := by
  unfold execLdV
  exact DoesR.next (State.coreWord_does hw h)

theorem execLdVb_does {core : Nat} {fin : Bool} {d : Fin 8} {k : Fin 8} {m : Option (Fin 8)} {s : State} (hw : [.free, .regs, .host, .rings, .audit, .mgt, .rnd, .evs, .vox, .wick, .lan, .vig, .pwr, .sta] ⊆ ps) (h : Does ps s0 s) :
    DoesR ps s0 (execLdVb core fin d k m s) := by
  unfold execLdVb
  exact DoesR.next (State.coreWord_does hw h)

theorem execLdW_does {core : Nat} {fin : Bool} {d : Fin 32} {k : Fin 8} {m : Option (Fin 8)} {s : State} (hw : [.free, .regs, .host, .rings, .audit, .mgt, .rnd, .evs, .vox, .wick, .lan, .vig, .pwr, .sta] ⊆ ps) (h : Does ps s0 s) :
    DoesR ps s0 (execLdW core fin d k m s) := by
  unfold execLdW
  exact DoesR.next (State.coreWord_does hw h)

theorem execLoop_does {core : Nat} {fin : Bool} {k : Fin 2} {a : Fin 32} {stop : Int} {ext : Bool} {s : State} (hw : [.free, .regs, .host, .rings, .audit, .mgt, .rnd, .evs, .vox, .wick, .lan, .vig, .pwr, .sta] ⊆ ps) (h : Does ps s0 s) :
    DoesR ps s0 (execLoop core fin k a stop ext s) := by
  unfold execLoop
  exact DoesR.next (State.coreWord_does hw h)

theorem execMax_does {core : Nat} {fin : Bool} {d : Fin 32} {a : Fin 32} {b : Fin 32} {s : State} (hw : [.free, .regs, .host, .rings, .audit, .mgt, .rnd, .evs, .vox, .wick, .lan, .vig, .pwr, .sta] ⊆ ps) (h : Does ps s0 s) :
    DoesR ps s0 (execMax core fin d a b s) := by
  unfold execMax
  exact DoesR.next (State.coreWord_does hw h)

theorem execMin_does {core : Nat} {fin : Bool} {d : Fin 32} {a : Fin 32} {b : Fin 32} {s : State} (hw : [.free, .regs, .host, .rings, .audit, .mgt, .rnd, .evs, .vox, .wick, .lan, .vig, .pwr, .sta] ⊆ ps) (h : Does ps s0 s) :
    DoesR ps s0 (execMin core fin d a b s) := by
  unfold execMin
  exact DoesR.next (State.coreWord_does hw h)

theorem execMov_does {core : Nat} {fin : Bool} {d : CoreReg} {src : CoreReg} {s : State} (hw : [.free, .regs, .host, .rings, .audit, .mgt, .rnd, .evs, .vox, .wick, .lan, .vig, .pwr, .sta] ⊆ ps) (h : Does ps s0 s) :
    DoesR ps s0 (execMov core fin d src s) := by
  unfold execMov
  exact DoesR.next (State.coreWord_does hw h)

theorem execMovi_does {core : Nat} {fin : Bool} {d : Fin 32} {imm : BitVec 16} {ext : Option (BitVec 28)} {s : State} (hw : [.free, .regs, .host, .rings, .audit, .mgt, .rnd, .evs, .vox, .wick, .lan, .vig, .pwr, .sta] ⊆ ps) (h : Does ps s0 s) :
    DoesR ps s0 (execMovi core fin d imm ext s) := by
  unfold execMovi
  exact DoesR.next (State.coreWord_does hw h)

theorem execMovp_does {core : Nat} {fin : Bool} {k : Fin 8} {a : Fin 32} {s : State} (hw : [.free, .regs, .host, .rings, .audit, .mgt, .rnd, .evs, .vox, .wick, .lan, .vig, .pwr, .sta] ⊆ ps) (h : Does ps s0 s) :
    DoesR ps s0 (execMovp core fin k a s) := by
  unfold execMovp
  exact DoesR.next (State.coreWord_does hw h)

theorem execNi_does {core : Nat} {fin : Bool} {n : Fin 64} {s : State} (hw : [.free, .regs, .host, .rings, .audit, .mgt, .rnd, .evs, .vox, .wick, .lan, .vig, .pwr, .sta] ⊆ ps) (h : Does ps s0 s) :
    DoesR ps s0 (execNi core fin n s) := by
  unfold execNi
  exact DoesR.next (State.coreWord_does hw h)

theorem execOr_does {core : Nat} {fin : Bool} {d : Fin 32} {a : Fin 32} {b : Fin 32} {s : State} (hw : [.free, .regs, .host, .rings, .audit, .mgt, .rnd, .evs, .vox, .wick, .lan, .vig, .pwr, .sta] ⊆ ps) (h : Does ps s0 s) :
    DoesR ps s0 (execOr core fin d a b s) := by
  unfold execOr
  exact DoesR.next (State.coreWord_does hw h)

theorem execPadd_does {core : Nat} {fin : Bool} {k : Fin 8} {m : Option (Fin 8)} {s : State} (hw : [.free, .regs, .host, .rings, .audit, .mgt, .rnd, .evs, .vox, .wick, .lan, .vig, .pwr, .sta] ⊆ ps) (h : Does ps s0 s) :
    DoesR ps s0 (execPadd core fin k m s) := by
  unfold execPadd
  exact DoesR.next (State.coreWord_does hw h)

theorem execPost_does {core : Nat} {fin : Bool} {d : Fin 32} {a : Fin 32} {b : Fin 32} {s : State} (hw : [.free, .regs, .host, .rings, .audit, .mgt, .rnd, .evs, .vox, .wick, .lan, .vig, .pwr, .sta] ⊆ ps) (h : Does ps s0 s) :
    DoesR ps s0 (execPost core fin d a b s) := by
  unfold execPost
  exact DoesR.next (State.coreWord_does hw h)

theorem execRet_does {core : Nat} {fin : Bool} {s : State} (hw : [.free, .regs, .host, .rings, .audit, .mgt, .rnd, .evs, .vox, .wick, .lan, .vig, .pwr, .sta] ⊆ ps) (h : Does ps s0 s) :
    DoesR ps s0 (execRet core fin s) := by
  unfold execRet
  exact DoesR.next (State.coreWord_does hw h)

theorem execRmaxi_does {core : Nat} {fin : Bool} {d : Fin 32} {a : Fin 8} {s : State} (hw : [.free, .regs, .host, .rings, .audit, .mgt, .rnd, .evs, .vox, .wick, .lan, .vig, .pwr, .sta] ⊆ ps) (h : Does ps s0 s) :
    DoesR ps s0 (execRmaxi core fin d a s) := by
  unfold execRmaxi
  exact DoesR.next (State.coreWord_does hw h)

theorem execRmini_does {core : Nat} {fin : Bool} {d : Fin 32} {a : Fin 8} {s : State} (hw : [.free, .regs, .host, .rings, .audit, .mgt, .rnd, .evs, .vox, .wick, .lan, .vig, .pwr, .sta] ⊆ ps) (h : Does ps s0 s) :
    DoesR ps s0 (execRmini core fin d a s) := by
  unfold execRmini
  exact DoesR.next (State.coreWord_does hw h)

theorem execRti_does {core : Nat} {fin : Bool} {s : State} (hw : [.free, .regs, .host, .rings, .audit, .mgt, .rnd, .evs, .vox, .wick, .lan, .vig, .pwr, .sta] ⊆ ps) (h : Does ps s0 s) :
    DoesR ps s0 (execRti core fin s) := by
  unfold execRti
  exact DoesR.next (State.coreWord_does hw h)

theorem execShl_does {core : Nat} {fin : Bool} {sat : Bool} {d : Fin 32} {a : Fin 32} {n : Fin 64} {s : State} (hw : [.free, .regs, .host, .rings, .audit, .mgt, .rnd, .evs, .vox, .wick, .lan, .vig, .pwr, .sta] ⊆ ps) (h : Does ps s0 s) :
    DoesR ps s0 (execShl core fin sat d a n s) := by
  unfold execShl
  exact DoesR.next (State.coreWord_does hw h)

theorem execShr_does {core : Nat} {fin : Bool} {d : Fin 32} {a : Fin 32} {n : Fin 64} {s : State} (hw : [.free, .regs, .host, .rings, .audit, .mgt, .rnd, .evs, .vox, .wick, .lan, .vig, .pwr, .sta] ⊆ ps) (h : Does ps s0 s) :
    DoesR ps s0 (execShr core fin d a n s) := by
  unfold execShr
  exact DoesR.next (State.coreWord_does hw h)

theorem execStV_does {core : Nat} {fin : Bool} {a : Fin 8} {k : Fin 8} {m : Option (Fin 8)} {s : State} (hw : [.free, .regs, .host, .rings, .audit, .mgt, .rnd, .evs, .vox, .wick, .lan, .vig, .pwr, .sta] ⊆ ps) (h : Does ps s0 s) :
    DoesR ps s0 (execStV core fin a k m s) := by
  unfold execStV
  exact DoesR.next (State.coreWord_does hw h)

theorem execStW_does {core : Nat} {fin : Bool} {a : Fin 32} {k : Fin 8} {m : Option (Fin 8)} {s : State} (hw : [.free, .regs, .host, .rings, .audit, .mgt, .rnd, .evs, .vox, .wick, .lan, .vig, .pwr, .sta] ⊆ ps) (h : Does ps s0 s) :
    DoesR ps s0 (execStW core fin a k m s) := by
  unfold execStW
  exact DoesR.next (State.coreWord_does hw h)

theorem execSub_does {core : Nat} {fin : Bool} {sat : Bool} {d : Fin 32} {a : Fin 32} {b : Fin 32} {s : State} (hw : [.free, .regs, .host, .rings, .audit, .mgt, .rnd, .evs, .vox, .wick, .lan, .vig, .pwr, .sta] ⊆ ps) (h : Does ps s0 s) :
    DoesR ps s0 (execSub core fin sat d a b s) := by
  unfold execSub
  exact DoesR.next (State.coreWord_does hw h)

theorem execTcmp_does {core : Nat} {fin : Bool} {a : Fin 32} {s : State} (hw : [.free, .regs, .host, .rings, .audit, .mgt, .rnd, .evs, .vox, .wick, .lan, .vig, .pwr, .sta] ⊆ ps) (h : Does ps s0 s) :
    DoesR ps s0 (execTcmp core fin a s) := by
  unfold execTcmp
  exact DoesR.next (State.coreWord_does hw h)

theorem execTime_does {core : Nat} {fin : Bool} {d : Fin 32} {s : State} (hw : [.free, .regs, .host, .rings, .audit, .mgt, .rnd, .evs, .vox, .wick, .lan, .vig, .pwr, .sta] ⊆ ps) (h : Does ps s0 s) :
    DoesR ps s0 (execTime core fin d s) := by
  unfold execTime
  exact DoesR.next (State.coreWord_does hw h)

theorem execVabs_does {core : Nat} {fin : Bool} {sat : Bool} {d : Fin 8} {a : Fin 8} {s : State} (hw : [.free, .regs, .host, .rings, .audit, .mgt, .rnd, .evs, .vox, .wick, .lan, .vig, .pwr, .sta] ⊆ ps) (h : Does ps s0 s) :
    DoesR ps s0 (execVabs core fin sat d a s) := by
  unfold execVabs
  exact DoesR.next (State.coreWord_does hw h)

theorem execVadd_does {core : Nat} {fin : Bool} {sat : Bool} {d : Fin 8} {a : Fin 8} {b : Fin 8} {s : State} (hw : [.free, .regs, .host, .rings, .audit, .mgt, .rnd, .evs, .vox, .wick, .lan, .vig, .pwr, .sta] ⊆ ps) (h : Does ps s0 s) :
    DoesR ps s0 (execVadd core fin sat d a b s) := by
  unfold execVadd
  exact DoesR.next (State.coreWord_does hw h)

theorem execVand_does {core : Nat} {fin : Bool} {d : Fin 8} {a : Fin 8} {b : Fin 8} {s : State} (hw : [.free, .regs, .host, .rings, .audit, .mgt, .rnd, .evs, .vox, .wick, .lan, .vig, .pwr, .sta] ⊆ ps) (h : Does ps s0 s) :
    DoesR ps s0 (execVand core fin d a b s) := by
  unfold execVand
  exact DoesR.next (State.coreWord_does hw h)

theorem execVcmp_does {core : Nat} {fin : Bool} {cc : VCond} {a : Fin 8} {b : Fin 8} {s : State} (hw : [.free, .regs, .host, .rings, .audit, .mgt, .rnd, .evs, .vox, .wick, .lan, .vig, .pwr, .sta] ⊆ ps) (h : Does ps s0 s) :
    DoesR ps s0 (execVcmp core fin cc a b s) := by
  unfold execVcmp
  exact DoesR.next (State.coreWord_does hw h)

theorem execVmac_does {core : Nat} {fin : Bool} {sat : Bool} {e : Fin 2} {a : Fin 8} {b : Fin 8} {s : State} (hw : [.free, .regs, .host, .rings, .audit, .mgt, .rnd, .evs, .vox, .wick, .lan, .vig, .pwr, .sta] ⊆ ps) (h : Does ps s0 s) :
    DoesR ps s0 (execVmac core fin sat e a b s) := by
  unfold execVmac
  exact DoesR.next (State.coreWord_does hw h)

theorem execVmacb_does {core : Nat} {fin : Bool} {sat : Bool} {e : Fin 2} {a : Fin 8} {b : Fin 32} {s : State} (hw : [.free, .regs, .host, .rings, .audit, .mgt, .rnd, .evs, .vox, .wick, .lan, .vig, .pwr, .sta] ⊆ ps) (h : Does ps s0 s) :
    DoesR ps s0 (execVmacb core fin sat e a b s) := by
  unfold execVmacb
  exact DoesR.next (State.coreWord_does hw h)

theorem execVmax_does {core : Nat} {fin : Bool} {d : Fin 8} {a : Fin 8} {b : Fin 8} {s : State} (hw : [.free, .regs, .host, .rings, .audit, .mgt, .rnd, .evs, .vox, .wick, .lan, .vig, .pwr, .sta] ⊆ ps) (h : Does ps s0 s) :
    DoesR ps s0 (execVmax core fin d a b s) := by
  unfold execVmax
  exact DoesR.next (State.coreWord_does hw h)

theorem execVmaxi_does {core : Nat} {fin : Bool} {d : Fin 8} {a : Fin 8} {b : Fin 32} {s : State} (hw : [.free, .regs, .host, .rings, .audit, .mgt, .rnd, .evs, .vox, .wick, .lan, .vig, .pwr, .sta] ⊆ ps) (h : Does ps s0 s) :
    DoesR ps s0 (execVmaxi core fin d a b s) := by
  unfold execVmaxi
  exact DoesR.next (State.coreWord_does hw h)

theorem execVmin_does {core : Nat} {fin : Bool} {d : Fin 8} {a : Fin 8} {b : Fin 8} {s : State} (hw : [.free, .regs, .host, .rings, .audit, .mgt, .rnd, .evs, .vox, .wick, .lan, .vig, .pwr, .sta] ⊆ ps) (h : Does ps s0 s) :
    DoesR ps s0 (execVmin core fin d a b s) := by
  unfold execVmin
  exact DoesR.next (State.coreWord_does hw h)

theorem execVmini_does {core : Nat} {fin : Bool} {d : Fin 8} {a : Fin 8} {b : Fin 32} {s : State} (hw : [.free, .regs, .host, .rings, .audit, .mgt, .rnd, .evs, .vox, .wick, .lan, .vig, .pwr, .sta] ⊆ ps) (h : Does ps s0 s) :
    DoesR ps s0 (execVmini core fin d a b s) := by
  unfold execVmini
  exact DoesR.next (State.coreWord_does hw h)

theorem execVmsu_does {core : Nat} {fin : Bool} {sat : Bool} {e : Fin 2} {a : Fin 8} {b : Fin 8} {s : State} (hw : [.free, .regs, .host, .rings, .audit, .mgt, .rnd, .evs, .vox, .wick, .lan, .vig, .pwr, .sta] ⊆ ps) (h : Does ps s0 s) :
    DoesR ps s0 (execVmsu core fin sat e a b s) := by
  unfold execVmsu
  exact DoesR.next (State.coreWord_does hw h)

theorem execVmsub_does {core : Nat} {fin : Bool} {sat : Bool} {e : Fin 2} {a : Fin 8} {b : Fin 32} {s : State} (hw : [.free, .regs, .host, .rings, .audit, .mgt, .rnd, .evs, .vox, .wick, .lan, .vig, .pwr, .sta] ⊆ ps) (h : Does ps s0 s) :
    DoesR ps s0 (execVmsub core fin sat e a b s) := by
  unfold execVmsub
  exact DoesR.next (State.coreWord_does hw h)

theorem execVmul_does {core : Nat} {fin : Bool} {sat : Bool} {d : Fin 8} {a : Fin 8} {b : Fin 8} {s : State} (hw : [.free, .regs, .host, .rings, .audit, .mgt, .rnd, .evs, .vox, .wick, .lan, .vig, .pwr, .sta] ⊆ ps) (h : Does ps s0 s) :
    DoesR ps s0 (execVmul core fin sat d a b s) := by
  unfold execVmul
  exact DoesR.next (State.coreWord_does hw h)

theorem execVneg_does {core : Nat} {fin : Bool} {sat : Bool} {d : Fin 8} {a : Fin 8} {s : State} (hw : [.free, .regs, .host, .rings, .audit, .mgt, .rnd, .evs, .vox, .wick, .lan, .vig, .pwr, .sta] ⊆ ps) (h : Does ps s0 s) :
    DoesR ps s0 (execVneg core fin sat d a s) := by
  unfold execVneg
  exact DoesR.next (State.coreWord_does hw h)

theorem execVor_does {core : Nat} {fin : Bool} {d : Fin 8} {a : Fin 8} {b : Fin 8} {s : State} (hw : [.free, .regs, .host, .rings, .audit, .mgt, .rnd, .evs, .vox, .wick, .lan, .vig, .pwr, .sta] ⊆ ps) (h : Does ps s0 s) :
    DoesR ps s0 (execVor core fin d a b s) := by
  unfold execVor
  exact DoesR.next (State.coreWord_does hw h)

theorem execVsel_does {core : Nat} {fin : Bool} {d : Fin 8} {a : Fin 8} {b : Fin 8} {s : State} (hw : [.free, .regs, .host, .rings, .audit, .mgt, .rnd, .evs, .vox, .wick, .lan, .vig, .pwr, .sta] ⊆ ps) (h : Does ps s0 s) :
    DoesR ps s0 (execVsel core fin d a b s) := by
  unfold execVsel
  exact DoesR.next (State.coreWord_does hw h)

theorem execVshl_does {core : Nat} {fin : Bool} {sat : Bool} {d : Fin 8} {a : Fin 8} {n : Fin 64} {s : State} (hw : [.free, .regs, .host, .rings, .audit, .mgt, .rnd, .evs, .vox, .wick, .lan, .vig, .pwr, .sta] ⊆ ps) (h : Does ps s0 s) :
    DoesR ps s0 (execVshl core fin sat d a n s) := by
  unfold execVshl
  exact DoesR.next (State.coreWord_does hw h)

theorem execVsra_does {core : Nat} {fin : Bool} {d : Fin 8} {a : Fin 8} {n : Fin 64} {s : State} (hw : [.free, .regs, .host, .rings, .audit, .mgt, .rnd, .evs, .vox, .wick, .lan, .vig, .pwr, .sta] ⊆ ps) (h : Does ps s0 s) :
    DoesR ps s0 (execVsra core fin d a n s) := by
  unfold execVsra
  exact DoesR.next (State.coreWord_does hw h)

theorem execVsub_does {core : Nat} {fin : Bool} {sat : Bool} {d : Fin 8} {a : Fin 8} {b : Fin 8} {s : State} (hw : [.free, .regs, .host, .rings, .audit, .mgt, .rnd, .evs, .vox, .wick, .lan, .vig, .pwr, .sta] ⊆ ps) (h : Does ps s0 s) :
    DoesR ps s0 (execVsub core fin sat d a b s) := by
  unfold execVsub
  exact DoesR.next (State.coreWord_does hw h)

theorem execVxor_does {core : Nat} {fin : Bool} {d : Fin 8} {a : Fin 8} {b : Fin 8} {s : State} (hw : [.free, .regs, .host, .rings, .audit, .mgt, .rnd, .evs, .vox, .wick, .lan, .vig, .pwr, .sta] ⊆ ps) (h : Does ps s0 s) :
    DoesR ps s0 (execVxor core fin d a b s) := by
  unfold execVxor
  exact DoesR.next (State.coreWord_does hw h)

theorem execWaitTask_does {core : Nat} {fin : Bool} {pass : Bool} {s : State} (hw : [.free, .regs, .host, .rings, .audit, .mgt, .rnd, .evs, .vox, .wick, .lan, .vig, .pwr, .sta] ⊆ ps) (h : Does ps s0 s) :
    DoesR ps s0 (execWaitTask core fin pass s) := by
  unfold execWaitTask
  exact DoesR.next (State.coreWord_does hw h)

theorem execXor_does {core : Nat} {fin : Bool} {d : Fin 32} {a : Fin 32} {b : Fin 32} {s : State} (hw : [.free, .regs, .host, .rings, .audit, .mgt, .rnd, .evs, .vox, .wick, .lan, .vig, .pwr, .sta] ⊆ ps) (h : Does ps s0 s) :
    DoesR ps s0 (execXor core fin d a b s) := by
  unfold execXor
  exact DoesR.next (State.coreWord_does hw h)

/-! ### Machine/Step.lean -/

theorem State.withFetchWord_does {s : State} {nbits : Nat} {w : Nat} (hw : [.pending] ⊆ ps) (h : Does ps s0 s) :
    Does ps s0 (State.withFetchWord s nbits w) := by
  unfold State.withFetchWord
  exact (by
  (try extract_lets); split
  · exact Does.upd [.pending] hw h
  · exact h)

/-! ### Every command -/

/-- Every part of the state but the queue of waiting commands. -/
def notQueue : List Part :=
  [.free, .clock, .regs, .host, .rings, .audit, .mgt, .ing, .rnd, .cnv, .mix, .slice, .evs, .ev53, .straps, .queues, .dram, .tiles, .parWords, .macs, .mdioEnd, .tim, .streams, .vox, .heldRegs, .imgs, .wick, .lan, .vig, .sec, .pwr, .sta, .mnt, .ports, .ops, .link]

theorem sub_notQueue {a : List Part} (h : Part.pending ∉ a := by decide) : a ⊆ notQueue := by
  intro p hp
  cases p <;> first | exact absurd hp h | decide

theorem exec_does {i : Instr} {s : State} (h : Does notQueue s0 s) : DoesR notQueue s0 (exec i s) := by
  unfold exec
  split
  · exact execRegisterWrite_does sub_notQueue h
  · exact execPlaneSplitWrite_does sub_notQueue h
  · exact execPlaneStart_does sub_notQueue h
  · exact execPlaneStop_does sub_notQueue h
  · exact execPlanesStopped_does sub_notQueue h
  · exact execRemove_does sub_notQueue h
  · exact execRestore_does sub_notQueue h
  · exact execReset_does sub_notQueue h
  · exact execRetireBank_does sub_notQueue h
  · exact execRotate_does sub_notQueue h
  · exact execControlActionExecute_does sub_notQueue h
  · exact execFrameTick_does sub_notQueue h
  · exact execObjPos_does sub_notQueue h
  · exact execObjBatch_does sub_notQueue h
  · exact execSegmentRestore_does sub_notQueue h
  · exact execFltLoad_does sub_notQueue h
  · exact execFltUnity_does sub_notQueue h
  · exact execFltDisarm_does sub_notQueue h
  · exact execFilterLoadDone_does sub_notQueue h
  · exact execFilterCrossfadeEnd_does sub_notQueue h
  · exact execPsetLoad_does sub_notQueue h
  · exact execPsetLoadDone_does sub_notQueue h
  · exact execPsetCopy_does sub_notQueue h
  · exact execSwap_does sub_notQueue h
  · exact execSwapAct_does sub_notQueue h
  · exact execZcTimeout_does sub_notQueue h
  · exact execTaperRampEnd_does sub_notQueue h
  · exact execSnuffer_does sub_notQueue h
  · exact execSnufferEnd_does sub_notQueue h
  · exact execVoxOpen_does sub_notQueue h
  · exact execVoxModify_does sub_notQueue h
  · exact execVoxClose_does sub_notQueue h
  · exact execVoxKey_does sub_notQueue h
  · exact execVoxQuery_does sub_notQueue h
  · exact execVoiceTick_does sub_notQueue h
  · exact execChannelIdle_does sub_notQueue h
  · exact execRxTimeout_does sub_notQueue h
  · exact execConcealmentLimit_does sub_notQueue h
  · exact execTalkOff_does sub_notQueue h
  · exact execEcEnabled_does sub_notQueue h
  · exact execNlpForceEnd_does sub_notQueue h
  · exact execKeyChange_does sub_notQueue h
  · exact execCodecTaskMissed_does sub_notQueue h
  · exact execEngineCompletion_does sub_notQueue h
  · exact execDispatch_does sub_notQueue h
  · exact execExpire_does sub_notQueue h
  · exact execAgingScan_does sub_notQueue h
  · exact execPostAdmit_does sub_notQueue h
  · exact execPostTimeout_does sub_notQueue h
  · exact execLevelCapWrite_does sub_notQueue h
  · exact execTaskWatchdog_does sub_notQueue h
  · exact execSelfTestDone_does sub_notQueue h
  · exact execLdW_does sub_notQueue h
  · exact execLdH_does sub_notQueue h
  · exact execLdV_does sub_notQueue h
  · exact execLdVb_does sub_notQueue h
  · exact execStW_does sub_notQueue h
  · exact execStV_does sub_notQueue h
  · exact execPadd_does sub_notQueue h
  · exact execMovp_does sub_notQueue h
  · exact execVadd_does sub_notQueue h
  · exact execVsub_does sub_notQueue h
  · exact execVneg_does sub_notQueue h
  · exact execVabs_does sub_notQueue h
  · exact execVshl_does sub_notQueue h
  · exact execVsra_does sub_notQueue h
  · exact execVand_does sub_notQueue h
  · exact execVor_does sub_notQueue h
  · exact execVxor_does sub_notQueue h
  · exact execVmin_does sub_notQueue h
  · exact execVmax_does sub_notQueue h
  · exact execVcmp_does sub_notQueue h
  · exact execVsel_does sub_notQueue h
  · exact execVmaxi_does sub_notQueue h
  · exact execVmini_does sub_notQueue h
  · exact execRmaxi_does sub_notQueue h
  · exact execRmini_does sub_notQueue h
  · exact execVmul_does sub_notQueue h
  · exact execVmac_does sub_notQueue h
  · exact execVmsu_does sub_notQueue h
  · exact execVmacb_does sub_notQueue h
  · exact execVmsub_does sub_notQueue h
  · exact execAclr_does sub_notQueue h
  · exact execAmov_does sub_notQueue h
  · exact execAext_does sub_notQueue h
  · exact execAsum_does sub_notQueue h
  · exact execAdd_does sub_notQueue h
  · exact execSub_does sub_notQueue h
  · exact execAnd_does sub_notQueue h
  · exact execOr_does sub_notQueue h
  · exact execXor_does sub_notQueue h
  · exact execShl_does sub_notQueue h
  · exact execShr_does sub_notQueue h
  · exact execAsr_does sub_notQueue h
  · exact execMin_does sub_notQueue h
  · exact execMax_does sub_notQueue h
  · exact execCmp_does sub_notQueue h
  · exact execMovi_does sub_notQueue h
  · exact execMov_does sub_notQueue h
  · exact execBr_does sub_notQueue h
  · exact execCall_does sub_notQueue h
  · exact execJmpR_does sub_notQueue h
  · exact execRet_does sub_notQueue h
  · exact execLoop_does sub_notQueue h
  · exact execNi_does sub_notQueue h
  · exact execRti_does sub_notQueue h
  · exact execCoreNop_does sub_notQueue h
  · exact execWaitTask_does sub_notQueue h
  · exact execPost_does sub_notQueue h
  · exact execDmaRd_does sub_notQueue h
  · exact execDmaWr_does sub_notQueue h
  · exact execDmaTrd_does sub_notQueue h
  · exact execDmaTwr_does sub_notQueue h
  · exact execDmaWait_does sub_notQueue h
  · exact execDmaTransferDone_does sub_notQueue h
  · exact execFftRun_does sub_notQueue h
  · exact execFftWait_does sub_notQueue h
  · exact execFftJobDone_does sub_notQueue h
  · exact execCrcI_does sub_notQueue h
  · exact execCrcW_does sub_notQueue h
  · exact execCrcF_does sub_notQueue h
  · exact execTime_does sub_notQueue h
  · exact execTcmp_does sub_notQueue h
  · exact execInterruptEntry_does sub_notQueue h
  · exact execImgLoad_does sub_notQueue h
  · exact execMbxPost_does sub_notQueue h
  · exact execDoorbellPoll_does sub_notQueue h
  · exact execNop_does sub_notQueue h
  · exact execAbort_does sub_notQueue h
  · exact execRingSetup_does sub_notQueue h
  · exact execRingStop_does sub_notQueue h
  · exact execRingStopped_does sub_notQueue h
  · exact execRun_does sub_notQueue h
  · exact execEnable_does sub_notQueue h
  · exact execD2hRingDrain_does sub_notQueue h
  · exact execStatusPageWrite_does sub_notQueue h
  · exact execHoldoffEnd_does sub_notQueue h
  · exact execFunctionLevelReset_does sub_notQueue h
  · exact execPerstN_does sub_notQueue h
  · exact execLinkDown_does sub_notQueue h
  · exact execLockBroken_does sub_notQueue h
  · exact execRefresh_does sub_notQueue h
  · exact execForcedRefresh_does sub_notQueue h
  · exact execRefreshRateCheck_does sub_notQueue h
  · exact execPowerDownEntry_does sub_notQueue h
  · exact execSelfRefreshEntry_does sub_notQueue h
  · exact execSpareRotation_does sub_notQueue h
  · exact execBankCopyDone_does sub_notQueue h
  · exact execBankRetire_does sub_notQueue h
  · exact execScrubPass_does sub_notQueue h
  · exact execQueueWord_does sub_notQueue h
  · exact execQueueSwap_does sub_notQueue h
  · exact execQueueRead_does sub_notQueue h
  · exact execFlush_does sub_notQueue h
  · exact execFlushDone_does sub_notQueue h
  · exact execNetEnable_does sub_notQueue h
  · exact execNetSpeed_does sub_notQueue h
  · exact execBlockLock_does sub_notQueue h
  · exact execMacLockLoss_does sub_notQueue h
  · exact execMacFault_does sub_notQueue h
  · exact execMacFaultClear_does sub_notQueue h
  · exact execMdioStart_does sub_notQueue h
  · exact execMdioDone_does sub_notQueue h
  · exact execFrameReceive_does sub_notQueue h
  · exact execRxBuf_does sub_notQueue h
  · exact execRxDmaDeliver_does sub_notQueue h
  · exact execRxHoldExpiry_does sub_notQueue h
  · exact execDaLo_does sub_notQueue h
  · exact execDaHi_does sub_notQueue h
  · exact execTxFrame_does sub_notQueue h
  · exact execTxSso_does sub_notQueue h
  · exact execTransmitSelection_does sub_notQueue h
  · exact execFrameTransmitted_does sub_notQueue h
  · exact execGateChange_does sub_notQueue h
  · exact execGateListSwitch_does sub_notQueue h
  · exact execGateEntryAdvance_does sub_notQueue h
  · exact execLaunch_does sub_notQueue h
  · exact execLateDrop_does sub_notQueue h
  · exact execLpiEntry_does sub_notQueue h
  · exact execLpiWake_does sub_notQueue h
  · exact execTimIncrFrac_does sub_notQueue h
  · exact execTimIncrNs_does sub_notQueue h
  · exact execGo_does sub_notQueue h
  · exact execTimNowRead_does sub_notQueue h
  · exact execSyncReceiptTimeout_does sub_notQueue h
  · exact execTriggerEnable_does sub_notQueue h
  · exact execTriggerFire_does sub_notQueue h
  · exact execTriggerPulseEnd_does sub_notQueue h
  · exact execPpsOut_does sub_notQueue h
  · exact execPpsIn_does sub_notQueue h
  · exact execServoTick_does sub_notQueue h
  · exact execStrStart_does sub_notQueue h
  · exact execStrStop_does sub_notQueue h
  · exact execStreamStateChange_does sub_notQueue h
  · exact execStreamPacketLaunch_does sub_notQueue h
  · exact execCandidateMeasurement_does sub_notQueue h
  · exact execCandidateFault_does sub_notQueue h
  · exact execPullUpdate_does sub_notQueue h
  · exact execRevertiveSwitch_does sub_notQueue h
  · exact execForce_does sub_notQueue h
  · exact execReturnToNominal_does sub_notQueue h
  · exact execMantleFault_does sub_notQueue h
  · exact execFamily_does sub_notQueue h
  · exact execRate_does sub_notQueue h
  · exact execPortEnable_does sub_notQueue h
  · exact execPortDisable_does sub_notQueue h
  · exact execPortCfgWrite_does sub_notQueue h
  · exact execTdmFrame_does sub_notQueue h
  · exact execMaskWrite_does sub_notQueue h
  · exact execRateWindow_does sub_notQueue h
  · exact execPortLost_does sub_notQueue h
  · exact execSarSample_does sub_notQueue h
  · exact execAccessoryClassify_does sub_notQueue h
  · exact execLinkPortEnable_does sub_notQueue h
  · exact execLaneLock_does sub_notQueue h
  · exact execMarkerReceive_does sub_notQueue h
  · exact execMarkerLoss_does sub_notQueue h
  · exact execLinkFrameReceive_does sub_notQueue h
  · exact execGroupCapture_does sub_notQueue h
  · exact execReaddress_does sub_notQueue h
  · exact execAccept_does sub_notQueue h
  · exact execLnkCfgWrite_does sub_notQueue h
  · exact execLnkSliceApply_does sub_notQueue h
  · exact execTunSend_does sub_notQueue h
  · exact execTunnelReceive_does sub_notQueue h
  · exact execCvRun_does sub_notQueue h
  · exact execCopy_does sub_notQueue h
  · exact execScan_does sub_notQueue h
  · exact execSecSetOwner_does sub_notQueue h
  · exact execSecCommitSvn_does sub_notQueue h
  · exact execBypass_does sub_notQueue h
  · exact execIdcode_does sub_notQueue h
  · exact execSamplePreload_does sub_notQueue h
  · exact execExtest_does sub_notQueue h
  · exact execExtestPulse_does sub_notQueue h
  · exact execExtestTrain_does sub_notQueue h
  · exact execDbgChallenge_does sub_notQueue h
  · exact execDbgResponse_does sub_notQueue h
  · exact execGlitch_does sub_notQueue h
  · exact execCheckpoint_does sub_notQueue h
  · exact execAuditSpaceReturn_does sub_notQueue h
  · exact execStaEpochWrite_does sub_notQueue h
  · exact execStaCurEpochRead_does sub_notQueue h
  · exact execMgtAudIndexRead_does sub_notQueue h
  · exact execOctetCounterRead_does sub_notQueue h
  · exact execDramScrub_does sub_notQueue h
  · exact execPowerUpStart_does sub_notQueue h
  · exact execVinLowWarning_does sub_notQueue h
  · exact execVinRecover_does sub_notQueue h
  · exact execUndervoltage_does sub_notQueue h
  · exact execOvervoltageWarning_does sub_notQueue h
  · exact execOvervoltage_does sub_notQueue h
  · exact execRailFault_does sub_notQueue h
  · exact execAuxFault_does sub_notQueue h
  · exact execTemperatureEstimate_does sub_notQueue h
  · exact execThermal_does sub_notQueue h
  · exact execWatchdogWarning_does sub_notQueue h
  · exact execWatchdog_does sub_notQueue h
  · exact execResetN_does sub_notQueue h
  · exact execModReset_does sub_notQueue h
  · exact execBoot_does sub_notQueue h
  · exact execPwrStandby_does sub_notQueue h
  · exact execPwrWake_does sub_notQueue h
  · exact execSmbReadVin_does sub_notQueue h
  · exact execSmbReadTemp_does sub_notQueue h
  · exact execSmbReadCause_does sub_notQueue h
  · exact execSmbReadStatus_does sub_notQueue h
  · exact execAlertResponse_does sub_notQueue h
  · exact execLaneLockLoss_does sub_notQueue h
  · exact execAuxFaultRecovery_does sub_notQueue h
  · exact execOvervoltageRecovery_does sub_notQueue h
  · exact execWatchdogService_does sub_notQueue h
  · exact execLpiReceive_does sub_notQueue h
  · exact execPcieLinkRestored_does sub_notQueue h
  · exact execMsixVectorUnmask_does sub_notQueue h
  · exact execSmbWrite_does sub_notQueue h

end Sys2Proof.Machine
end

