-- ==== Sys2Proof/Laws/State.lean ====
section
/-!
SUPPORT. Laws/State.lean: what each elementary update of the state leaves as it was, one lemma for each field, and what the register
reads give after a write.
-/
namespace Sys2Proof.Machine

-- One proof at a time: the proofs of this file in parallel ask for more threads than the memory bound holds.
set_option Elab.async false

/-! ### The register file -/

theorem State.reg_setReg (s : State) (off : Nat) (v : Word) : (s.setReg off v).reg off = v :=
  Cells.get_put_self

theorem State.reg_setReg_ne (s : State) (off o : Nat) (v : Word) (h : o ≠ off) : (s.setReg off v).reg o = s.reg o :=
  Cells.get_put_ne h

theorem State.wf_setReg (s : State) (off : Nat) (v : Word) (h : Cells.wf regReset s.regs = true) :
    Cells.wf regReset (s.setReg off v).regs = true := Cells.wf_put h

theorem State.reg_bump (s : State) (off n : Nat) :
    (s.bump off n).reg off = BitVec.ofNat 32 (satU 32 ((s.reg off).toNat + n)) := State.reg_setReg _ _ _

theorem State.reg_bump_ne (s : State) (off n o : Nat) (h : o ≠ off) : (s.bump off n).reg o = s.reg o :=
  State.reg_setReg_ne _ _ _ _ h

/-! ### setReg -/

@[simp] theorem State.setReg_pending (s : State) (off : Nat) (v : Word) : (s.setReg off v).pending = s.pending := rfl
@[simp] theorem State.setReg_free (s : State) (off : Nat) (v : Word) : (s.setReg off v).free = s.free := rfl
@[simp] theorem State.setReg_clock (s : State) (off : Nat) (v : Word) : (s.setReg off v).clock = s.clock := rfl
@[simp] theorem State.setReg_host (s : State) (off : Nat) (v : Word) : (s.setReg off v).host = s.host := rfl
@[simp] theorem State.setReg_rings (s : State) (off : Nat) (v : Word) : (s.setReg off v).rings = s.rings := rfl
@[simp] theorem State.setReg_audit (s : State) (off : Nat) (v : Word) : (s.setReg off v).audit = s.audit := rfl
@[simp] theorem State.setReg_mgt (s : State) (off : Nat) (v : Word) : (s.setReg off v).mgt = s.mgt := rfl
@[simp] theorem State.setReg_ing (s : State) (off : Nat) (v : Word) : (s.setReg off v).ing = s.ing := rfl
@[simp] theorem State.setReg_rnd (s : State) (off : Nat) (v : Word) : (s.setReg off v).rnd = s.rnd := rfl
@[simp] theorem State.setReg_cnv (s : State) (off : Nat) (v : Word) : (s.setReg off v).cnv = s.cnv := rfl
@[simp] theorem State.setReg_mix (s : State) (off : Nat) (v : Word) : (s.setReg off v).mix = s.mix := rfl
@[simp] theorem State.setReg_slice (s : State) (off : Nat) (v : Word) : (s.setReg off v).slice = s.slice := rfl
@[simp] theorem State.setReg_evs (s : State) (off : Nat) (v : Word) : (s.setReg off v).evs = s.evs := rfl
@[simp] theorem State.setReg_ev53 (s : State) (off : Nat) (v : Word) : (s.setReg off v).ev53 = s.ev53 := rfl
@[simp] theorem State.setReg_straps (s : State) (off : Nat) (v : Word) : (s.setReg off v).straps = s.straps := rfl
@[simp] theorem State.setReg_queues (s : State) (off : Nat) (v : Word) : (s.setReg off v).queues = s.queues := rfl
@[simp] theorem State.setReg_dram (s : State) (off : Nat) (v : Word) : (s.setReg off v).dram = s.dram := rfl
@[simp] theorem State.setReg_tiles (s : State) (off : Nat) (v : Word) : (s.setReg off v).tiles = s.tiles := rfl
@[simp] theorem State.setReg_parWords (s : State) (off : Nat) (v : Word) : (s.setReg off v).parWords = s.parWords := rfl
@[simp] theorem State.setReg_macs (s : State) (off : Nat) (v : Word) : (s.setReg off v).macs = s.macs := rfl
@[simp] theorem State.setReg_mdioEnd (s : State) (off : Nat) (v : Word) : (s.setReg off v).mdioEnd = s.mdioEnd := rfl
@[simp] theorem State.setReg_tim (s : State) (off : Nat) (v : Word) : (s.setReg off v).tim = s.tim := rfl
@[simp] theorem State.setReg_streams (s : State) (off : Nat) (v : Word) : (s.setReg off v).streams = s.streams := rfl
@[simp] theorem State.setReg_vox (s : State) (off : Nat) (v : Word) : (s.setReg off v).vox = s.vox := rfl
@[simp] theorem State.setReg_heldRegs (s : State) (off : Nat) (v : Word) : (s.setReg off v).heldRegs = s.heldRegs := rfl
@[simp] theorem State.setReg_imgs (s : State) (off : Nat) (v : Word) : (s.setReg off v).imgs = s.imgs := rfl
@[simp] theorem State.setReg_wick (s : State) (off : Nat) (v : Word) : (s.setReg off v).wick = s.wick := rfl
@[simp] theorem State.setReg_lan (s : State) (off : Nat) (v : Word) : (s.setReg off v).lan = s.lan := rfl
@[simp] theorem State.setReg_vig (s : State) (off : Nat) (v : Word) : (s.setReg off v).vig = s.vig := rfl
@[simp] theorem State.setReg_sec (s : State) (off : Nat) (v : Word) : (s.setReg off v).sec = s.sec := rfl
@[simp] theorem State.setReg_pwr (s : State) (off : Nat) (v : Word) : (s.setReg off v).pwr = s.pwr := rfl
@[simp] theorem State.setReg_sta (s : State) (off : Nat) (v : Word) : (s.setReg off v).sta = s.sta := rfl
@[simp] theorem State.setReg_mnt (s : State) (off : Nat) (v : Word) : (s.setReg off v).mnt = s.mnt := rfl
@[simp] theorem State.setReg_ports (s : State) (off : Nat) (v : Word) : (s.setReg off v).ports = s.ports := rfl
@[simp] theorem State.setReg_ops (s : State) (off : Nat) (v : Word) : (s.setReg off v).ops = s.ops := rfl
@[simp] theorem State.setReg_link (s : State) (off : Nat) (v : Word) : (s.setReg off v).link = s.link := rfl
@[simp] theorem State.setReg_now (s : State) (off : Nat) (v : Word) : (s.setReg off v).now = s.now := rfl

/-! ### setFld -/

@[simp] theorem State.setFld_pending (s : State) (off hi lo v : Nat) : (s.setFld off hi lo v).pending = s.pending := rfl
@[simp] theorem State.setFld_free (s : State) (off hi lo v : Nat) : (s.setFld off hi lo v).free = s.free := rfl
@[simp] theorem State.setFld_clock (s : State) (off hi lo v : Nat) : (s.setFld off hi lo v).clock = s.clock := rfl
@[simp] theorem State.setFld_host (s : State) (off hi lo v : Nat) : (s.setFld off hi lo v).host = s.host := rfl
@[simp] theorem State.setFld_rings (s : State) (off hi lo v : Nat) : (s.setFld off hi lo v).rings = s.rings := rfl
@[simp] theorem State.setFld_audit (s : State) (off hi lo v : Nat) : (s.setFld off hi lo v).audit = s.audit := rfl
@[simp] theorem State.setFld_mgt (s : State) (off hi lo v : Nat) : (s.setFld off hi lo v).mgt = s.mgt := rfl
@[simp] theorem State.setFld_ing (s : State) (off hi lo v : Nat) : (s.setFld off hi lo v).ing = s.ing := rfl
@[simp] theorem State.setFld_rnd (s : State) (off hi lo v : Nat) : (s.setFld off hi lo v).rnd = s.rnd := rfl
@[simp] theorem State.setFld_cnv (s : State) (off hi lo v : Nat) : (s.setFld off hi lo v).cnv = s.cnv := rfl
@[simp] theorem State.setFld_mix (s : State) (off hi lo v : Nat) : (s.setFld off hi lo v).mix = s.mix := rfl
@[simp] theorem State.setFld_slice (s : State) (off hi lo v : Nat) : (s.setFld off hi lo v).slice = s.slice := rfl
@[simp] theorem State.setFld_evs (s : State) (off hi lo v : Nat) : (s.setFld off hi lo v).evs = s.evs := rfl
@[simp] theorem State.setFld_ev53 (s : State) (off hi lo v : Nat) : (s.setFld off hi lo v).ev53 = s.ev53 := rfl
@[simp] theorem State.setFld_straps (s : State) (off hi lo v : Nat) : (s.setFld off hi lo v).straps = s.straps := rfl
@[simp] theorem State.setFld_queues (s : State) (off hi lo v : Nat) : (s.setFld off hi lo v).queues = s.queues := rfl
@[simp] theorem State.setFld_dram (s : State) (off hi lo v : Nat) : (s.setFld off hi lo v).dram = s.dram := rfl
@[simp] theorem State.setFld_tiles (s : State) (off hi lo v : Nat) : (s.setFld off hi lo v).tiles = s.tiles := rfl
@[simp] theorem State.setFld_parWords (s : State) (off hi lo v : Nat) : (s.setFld off hi lo v).parWords = s.parWords := rfl
@[simp] theorem State.setFld_macs (s : State) (off hi lo v : Nat) : (s.setFld off hi lo v).macs = s.macs := rfl
@[simp] theorem State.setFld_mdioEnd (s : State) (off hi lo v : Nat) : (s.setFld off hi lo v).mdioEnd = s.mdioEnd := rfl
@[simp] theorem State.setFld_tim (s : State) (off hi lo v : Nat) : (s.setFld off hi lo v).tim = s.tim := rfl
@[simp] theorem State.setFld_streams (s : State) (off hi lo v : Nat) : (s.setFld off hi lo v).streams = s.streams := rfl
@[simp] theorem State.setFld_vox (s : State) (off hi lo v : Nat) : (s.setFld off hi lo v).vox = s.vox := rfl
@[simp] theorem State.setFld_heldRegs (s : State) (off hi lo v : Nat) : (s.setFld off hi lo v).heldRegs = s.heldRegs := rfl
@[simp] theorem State.setFld_imgs (s : State) (off hi lo v : Nat) : (s.setFld off hi lo v).imgs = s.imgs := rfl
@[simp] theorem State.setFld_wick (s : State) (off hi lo v : Nat) : (s.setFld off hi lo v).wick = s.wick := rfl
@[simp] theorem State.setFld_lan (s : State) (off hi lo v : Nat) : (s.setFld off hi lo v).lan = s.lan := rfl
@[simp] theorem State.setFld_vig (s : State) (off hi lo v : Nat) : (s.setFld off hi lo v).vig = s.vig := rfl
@[simp] theorem State.setFld_sec (s : State) (off hi lo v : Nat) : (s.setFld off hi lo v).sec = s.sec := rfl
@[simp] theorem State.setFld_pwr (s : State) (off hi lo v : Nat) : (s.setFld off hi lo v).pwr = s.pwr := rfl
@[simp] theorem State.setFld_sta (s : State) (off hi lo v : Nat) : (s.setFld off hi lo v).sta = s.sta := rfl
@[simp] theorem State.setFld_mnt (s : State) (off hi lo v : Nat) : (s.setFld off hi lo v).mnt = s.mnt := rfl
@[simp] theorem State.setFld_ports (s : State) (off hi lo v : Nat) : (s.setFld off hi lo v).ports = s.ports := rfl
@[simp] theorem State.setFld_ops (s : State) (off hi lo v : Nat) : (s.setFld off hi lo v).ops = s.ops := rfl
@[simp] theorem State.setFld_link (s : State) (off hi lo v : Nat) : (s.setFld off hi lo v).link = s.link := rfl
@[simp] theorem State.setFld_now (s : State) (off hi lo v : Nat) : (s.setFld off hi lo v).now = s.now := rfl

/-! ### setFlag -/

@[simp] theorem State.setFlag_pending (s : State) (off n : Nat) (b : Bool) : (s.setFlag off n b).pending = s.pending := rfl
@[simp] theorem State.setFlag_free (s : State) (off n : Nat) (b : Bool) : (s.setFlag off n b).free = s.free := rfl
@[simp] theorem State.setFlag_clock (s : State) (off n : Nat) (b : Bool) : (s.setFlag off n b).clock = s.clock := rfl
@[simp] theorem State.setFlag_host (s : State) (off n : Nat) (b : Bool) : (s.setFlag off n b).host = s.host := rfl
@[simp] theorem State.setFlag_rings (s : State) (off n : Nat) (b : Bool) : (s.setFlag off n b).rings = s.rings := rfl
@[simp] theorem State.setFlag_audit (s : State) (off n : Nat) (b : Bool) : (s.setFlag off n b).audit = s.audit := rfl
@[simp] theorem State.setFlag_mgt (s : State) (off n : Nat) (b : Bool) : (s.setFlag off n b).mgt = s.mgt := rfl
@[simp] theorem State.setFlag_ing (s : State) (off n : Nat) (b : Bool) : (s.setFlag off n b).ing = s.ing := rfl
@[simp] theorem State.setFlag_rnd (s : State) (off n : Nat) (b : Bool) : (s.setFlag off n b).rnd = s.rnd := rfl
@[simp] theorem State.setFlag_cnv (s : State) (off n : Nat) (b : Bool) : (s.setFlag off n b).cnv = s.cnv := rfl
@[simp] theorem State.setFlag_mix (s : State) (off n : Nat) (b : Bool) : (s.setFlag off n b).mix = s.mix := rfl
@[simp] theorem State.setFlag_slice (s : State) (off n : Nat) (b : Bool) : (s.setFlag off n b).slice = s.slice := rfl
@[simp] theorem State.setFlag_evs (s : State) (off n : Nat) (b : Bool) : (s.setFlag off n b).evs = s.evs := rfl
@[simp] theorem State.setFlag_ev53 (s : State) (off n : Nat) (b : Bool) : (s.setFlag off n b).ev53 = s.ev53 := rfl
@[simp] theorem State.setFlag_straps (s : State) (off n : Nat) (b : Bool) : (s.setFlag off n b).straps = s.straps := rfl
@[simp] theorem State.setFlag_queues (s : State) (off n : Nat) (b : Bool) : (s.setFlag off n b).queues = s.queues := rfl
@[simp] theorem State.setFlag_dram (s : State) (off n : Nat) (b : Bool) : (s.setFlag off n b).dram = s.dram := rfl
@[simp] theorem State.setFlag_tiles (s : State) (off n : Nat) (b : Bool) : (s.setFlag off n b).tiles = s.tiles := rfl
@[simp] theorem State.setFlag_parWords (s : State) (off n : Nat) (b : Bool) : (s.setFlag off n b).parWords = s.parWords := rfl
@[simp] theorem State.setFlag_macs (s : State) (off n : Nat) (b : Bool) : (s.setFlag off n b).macs = s.macs := rfl
@[simp] theorem State.setFlag_mdioEnd (s : State) (off n : Nat) (b : Bool) : (s.setFlag off n b).mdioEnd = s.mdioEnd := rfl
@[simp] theorem State.setFlag_tim (s : State) (off n : Nat) (b : Bool) : (s.setFlag off n b).tim = s.tim := rfl
@[simp] theorem State.setFlag_streams (s : State) (off n : Nat) (b : Bool) : (s.setFlag off n b).streams = s.streams := rfl
@[simp] theorem State.setFlag_vox (s : State) (off n : Nat) (b : Bool) : (s.setFlag off n b).vox = s.vox := rfl
@[simp] theorem State.setFlag_heldRegs (s : State) (off n : Nat) (b : Bool) : (s.setFlag off n b).heldRegs = s.heldRegs := rfl
@[simp] theorem State.setFlag_imgs (s : State) (off n : Nat) (b : Bool) : (s.setFlag off n b).imgs = s.imgs := rfl
@[simp] theorem State.setFlag_wick (s : State) (off n : Nat) (b : Bool) : (s.setFlag off n b).wick = s.wick := rfl
@[simp] theorem State.setFlag_lan (s : State) (off n : Nat) (b : Bool) : (s.setFlag off n b).lan = s.lan := rfl
@[simp] theorem State.setFlag_vig (s : State) (off n : Nat) (b : Bool) : (s.setFlag off n b).vig = s.vig := rfl
@[simp] theorem State.setFlag_sec (s : State) (off n : Nat) (b : Bool) : (s.setFlag off n b).sec = s.sec := rfl
@[simp] theorem State.setFlag_pwr (s : State) (off n : Nat) (b : Bool) : (s.setFlag off n b).pwr = s.pwr := rfl
@[simp] theorem State.setFlag_sta (s : State) (off n : Nat) (b : Bool) : (s.setFlag off n b).sta = s.sta := rfl
@[simp] theorem State.setFlag_mnt (s : State) (off n : Nat) (b : Bool) : (s.setFlag off n b).mnt = s.mnt := rfl
@[simp] theorem State.setFlag_ports (s : State) (off n : Nat) (b : Bool) : (s.setFlag off n b).ports = s.ports := rfl
@[simp] theorem State.setFlag_ops (s : State) (off n : Nat) (b : Bool) : (s.setFlag off n b).ops = s.ops := rfl
@[simp] theorem State.setFlag_link (s : State) (off n : Nat) (b : Bool) : (s.setFlag off n b).link = s.link := rfl
@[simp] theorem State.setFlag_now (s : State) (off n : Nat) (b : Bool) : (s.setFlag off n b).now = s.now := rfl

/-! ### setReg64 -/

@[simp] theorem State.setReg64_pending (s : State) (off v : Nat) : (s.setReg64 off v).pending = s.pending := rfl
@[simp] theorem State.setReg64_free (s : State) (off v : Nat) : (s.setReg64 off v).free = s.free := rfl
@[simp] theorem State.setReg64_clock (s : State) (off v : Nat) : (s.setReg64 off v).clock = s.clock := rfl
@[simp] theorem State.setReg64_host (s : State) (off v : Nat) : (s.setReg64 off v).host = s.host := rfl
@[simp] theorem State.setReg64_rings (s : State) (off v : Nat) : (s.setReg64 off v).rings = s.rings := rfl
@[simp] theorem State.setReg64_audit (s : State) (off v : Nat) : (s.setReg64 off v).audit = s.audit := rfl
@[simp] theorem State.setReg64_mgt (s : State) (off v : Nat) : (s.setReg64 off v).mgt = s.mgt := rfl
@[simp] theorem State.setReg64_ing (s : State) (off v : Nat) : (s.setReg64 off v).ing = s.ing := rfl
@[simp] theorem State.setReg64_rnd (s : State) (off v : Nat) : (s.setReg64 off v).rnd = s.rnd := rfl
@[simp] theorem State.setReg64_cnv (s : State) (off v : Nat) : (s.setReg64 off v).cnv = s.cnv := rfl
@[simp] theorem State.setReg64_mix (s : State) (off v : Nat) : (s.setReg64 off v).mix = s.mix := rfl
@[simp] theorem State.setReg64_slice (s : State) (off v : Nat) : (s.setReg64 off v).slice = s.slice := rfl
@[simp] theorem State.setReg64_evs (s : State) (off v : Nat) : (s.setReg64 off v).evs = s.evs := rfl
@[simp] theorem State.setReg64_ev53 (s : State) (off v : Nat) : (s.setReg64 off v).ev53 = s.ev53 := rfl
@[simp] theorem State.setReg64_straps (s : State) (off v : Nat) : (s.setReg64 off v).straps = s.straps := rfl
@[simp] theorem State.setReg64_queues (s : State) (off v : Nat) : (s.setReg64 off v).queues = s.queues := rfl
@[simp] theorem State.setReg64_dram (s : State) (off v : Nat) : (s.setReg64 off v).dram = s.dram := rfl
@[simp] theorem State.setReg64_tiles (s : State) (off v : Nat) : (s.setReg64 off v).tiles = s.tiles := rfl
@[simp] theorem State.setReg64_parWords (s : State) (off v : Nat) : (s.setReg64 off v).parWords = s.parWords := rfl
@[simp] theorem State.setReg64_macs (s : State) (off v : Nat) : (s.setReg64 off v).macs = s.macs := rfl
@[simp] theorem State.setReg64_mdioEnd (s : State) (off v : Nat) : (s.setReg64 off v).mdioEnd = s.mdioEnd := rfl
@[simp] theorem State.setReg64_tim (s : State) (off v : Nat) : (s.setReg64 off v).tim = s.tim := rfl
@[simp] theorem State.setReg64_streams (s : State) (off v : Nat) : (s.setReg64 off v).streams = s.streams := rfl
@[simp] theorem State.setReg64_vox (s : State) (off v : Nat) : (s.setReg64 off v).vox = s.vox := rfl
@[simp] theorem State.setReg64_heldRegs (s : State) (off v : Nat) : (s.setReg64 off v).heldRegs = s.heldRegs := rfl
@[simp] theorem State.setReg64_imgs (s : State) (off v : Nat) : (s.setReg64 off v).imgs = s.imgs := rfl
@[simp] theorem State.setReg64_wick (s : State) (off v : Nat) : (s.setReg64 off v).wick = s.wick := rfl
@[simp] theorem State.setReg64_lan (s : State) (off v : Nat) : (s.setReg64 off v).lan = s.lan := rfl
@[simp] theorem State.setReg64_vig (s : State) (off v : Nat) : (s.setReg64 off v).vig = s.vig := rfl
@[simp] theorem State.setReg64_sec (s : State) (off v : Nat) : (s.setReg64 off v).sec = s.sec := rfl
@[simp] theorem State.setReg64_pwr (s : State) (off v : Nat) : (s.setReg64 off v).pwr = s.pwr := rfl
@[simp] theorem State.setReg64_sta (s : State) (off v : Nat) : (s.setReg64 off v).sta = s.sta := rfl
@[simp] theorem State.setReg64_mnt (s : State) (off v : Nat) : (s.setReg64 off v).mnt = s.mnt := rfl
@[simp] theorem State.setReg64_ports (s : State) (off v : Nat) : (s.setReg64 off v).ports = s.ports := rfl
@[simp] theorem State.setReg64_ops (s : State) (off v : Nat) : (s.setReg64 off v).ops = s.ops := rfl
@[simp] theorem State.setReg64_link (s : State) (off v : Nat) : (s.setReg64 off v).link = s.link := rfl
@[simp] theorem State.setReg64_now (s : State) (off v : Nat) : (s.setReg64 off v).now = s.now := rfl

/-! ### bump -/

@[simp] theorem State.bump_pending (s : State) (off n : Nat) : (s.bump off n).pending = s.pending := rfl
@[simp] theorem State.bump_free (s : State) (off n : Nat) : (s.bump off n).free = s.free := rfl
@[simp] theorem State.bump_clock (s : State) (off n : Nat) : (s.bump off n).clock = s.clock := rfl
@[simp] theorem State.bump_host (s : State) (off n : Nat) : (s.bump off n).host = s.host := rfl
@[simp] theorem State.bump_rings (s : State) (off n : Nat) : (s.bump off n).rings = s.rings := rfl
@[simp] theorem State.bump_audit (s : State) (off n : Nat) : (s.bump off n).audit = s.audit := rfl
@[simp] theorem State.bump_mgt (s : State) (off n : Nat) : (s.bump off n).mgt = s.mgt := rfl
@[simp] theorem State.bump_ing (s : State) (off n : Nat) : (s.bump off n).ing = s.ing := rfl
@[simp] theorem State.bump_rnd (s : State) (off n : Nat) : (s.bump off n).rnd = s.rnd := rfl
@[simp] theorem State.bump_cnv (s : State) (off n : Nat) : (s.bump off n).cnv = s.cnv := rfl
@[simp] theorem State.bump_mix (s : State) (off n : Nat) : (s.bump off n).mix = s.mix := rfl
@[simp] theorem State.bump_slice (s : State) (off n : Nat) : (s.bump off n).slice = s.slice := rfl
@[simp] theorem State.bump_evs (s : State) (off n : Nat) : (s.bump off n).evs = s.evs := rfl
@[simp] theorem State.bump_ev53 (s : State) (off n : Nat) : (s.bump off n).ev53 = s.ev53 := rfl
@[simp] theorem State.bump_straps (s : State) (off n : Nat) : (s.bump off n).straps = s.straps := rfl
@[simp] theorem State.bump_queues (s : State) (off n : Nat) : (s.bump off n).queues = s.queues := rfl
@[simp] theorem State.bump_dram (s : State) (off n : Nat) : (s.bump off n).dram = s.dram := rfl
@[simp] theorem State.bump_tiles (s : State) (off n : Nat) : (s.bump off n).tiles = s.tiles := rfl
@[simp] theorem State.bump_parWords (s : State) (off n : Nat) : (s.bump off n).parWords = s.parWords := rfl
@[simp] theorem State.bump_macs (s : State) (off n : Nat) : (s.bump off n).macs = s.macs := rfl
@[simp] theorem State.bump_mdioEnd (s : State) (off n : Nat) : (s.bump off n).mdioEnd = s.mdioEnd := rfl
@[simp] theorem State.bump_tim (s : State) (off n : Nat) : (s.bump off n).tim = s.tim := rfl
@[simp] theorem State.bump_streams (s : State) (off n : Nat) : (s.bump off n).streams = s.streams := rfl
@[simp] theorem State.bump_vox (s : State) (off n : Nat) : (s.bump off n).vox = s.vox := rfl
@[simp] theorem State.bump_heldRegs (s : State) (off n : Nat) : (s.bump off n).heldRegs = s.heldRegs := rfl
@[simp] theorem State.bump_imgs (s : State) (off n : Nat) : (s.bump off n).imgs = s.imgs := rfl
@[simp] theorem State.bump_wick (s : State) (off n : Nat) : (s.bump off n).wick = s.wick := rfl
@[simp] theorem State.bump_lan (s : State) (off n : Nat) : (s.bump off n).lan = s.lan := rfl
@[simp] theorem State.bump_vig (s : State) (off n : Nat) : (s.bump off n).vig = s.vig := rfl
@[simp] theorem State.bump_sec (s : State) (off n : Nat) : (s.bump off n).sec = s.sec := rfl
@[simp] theorem State.bump_pwr (s : State) (off n : Nat) : (s.bump off n).pwr = s.pwr := rfl
@[simp] theorem State.bump_sta (s : State) (off n : Nat) : (s.bump off n).sta = s.sta := rfl
@[simp] theorem State.bump_mnt (s : State) (off n : Nat) : (s.bump off n).mnt = s.mnt := rfl
@[simp] theorem State.bump_ports (s : State) (off n : Nat) : (s.bump off n).ports = s.ports := rfl
@[simp] theorem State.bump_ops (s : State) (off n : Nat) : (s.bump off n).ops = s.ops := rfl
@[simp] theorem State.bump_link (s : State) (off n : Nat) : (s.bump off n).link = s.link := rfl
@[simp] theorem State.bump_now (s : State) (off n : Nat) : (s.bump off n).now = s.now := rfl

/-! ### elapse -/

@[simp] theorem State.elapse_pending (s : State) (dt : Nat) : (s.elapse dt).pending = s.pending := rfl
@[simp] theorem State.elapse_free (s : State) (dt : Nat) : (s.elapse dt).free = s.free := rfl
@[simp] theorem State.elapse_regs (s : State) (dt : Nat) : (s.elapse dt).regs = s.regs := rfl
@[simp] theorem State.elapse_host (s : State) (dt : Nat) : (s.elapse dt).host = s.host := rfl
@[simp] theorem State.elapse_rings (s : State) (dt : Nat) : (s.elapse dt).rings = s.rings := rfl
@[simp] theorem State.elapse_audit (s : State) (dt : Nat) : (s.elapse dt).audit = s.audit := rfl
@[simp] theorem State.elapse_mgt (s : State) (dt : Nat) : (s.elapse dt).mgt = s.mgt := rfl
@[simp] theorem State.elapse_ing (s : State) (dt : Nat) : (s.elapse dt).ing = s.ing := rfl
@[simp] theorem State.elapse_rnd (s : State) (dt : Nat) : (s.elapse dt).rnd = s.rnd := rfl
@[simp] theorem State.elapse_cnv (s : State) (dt : Nat) : (s.elapse dt).cnv = s.cnv := rfl
@[simp] theorem State.elapse_mix (s : State) (dt : Nat) : (s.elapse dt).mix = s.mix := rfl
@[simp] theorem State.elapse_slice (s : State) (dt : Nat) : (s.elapse dt).slice = s.slice := rfl
@[simp] theorem State.elapse_evs (s : State) (dt : Nat) : (s.elapse dt).evs = s.evs := rfl
@[simp] theorem State.elapse_ev53 (s : State) (dt : Nat) : (s.elapse dt).ev53 = s.ev53 := rfl
@[simp] theorem State.elapse_straps (s : State) (dt : Nat) : (s.elapse dt).straps = s.straps := rfl
@[simp] theorem State.elapse_queues (s : State) (dt : Nat) : (s.elapse dt).queues = s.queues := rfl
@[simp] theorem State.elapse_dram (s : State) (dt : Nat) : (s.elapse dt).dram = s.dram := rfl
@[simp] theorem State.elapse_tiles (s : State) (dt : Nat) : (s.elapse dt).tiles = s.tiles := rfl
@[simp] theorem State.elapse_parWords (s : State) (dt : Nat) : (s.elapse dt).parWords = s.parWords := rfl
@[simp] theorem State.elapse_macs (s : State) (dt : Nat) : (s.elapse dt).macs = s.macs := rfl
@[simp] theorem State.elapse_mdioEnd (s : State) (dt : Nat) : (s.elapse dt).mdioEnd = s.mdioEnd := rfl
@[simp] theorem State.elapse_tim (s : State) (dt : Nat) : (s.elapse dt).tim = s.tim := rfl
@[simp] theorem State.elapse_streams (s : State) (dt : Nat) : (s.elapse dt).streams = s.streams := rfl
@[simp] theorem State.elapse_vox (s : State) (dt : Nat) : (s.elapse dt).vox = s.vox := rfl
@[simp] theorem State.elapse_heldRegs (s : State) (dt : Nat) : (s.elapse dt).heldRegs = s.heldRegs := rfl
@[simp] theorem State.elapse_imgs (s : State) (dt : Nat) : (s.elapse dt).imgs = s.imgs := rfl
@[simp] theorem State.elapse_wick (s : State) (dt : Nat) : (s.elapse dt).wick = s.wick := rfl
@[simp] theorem State.elapse_lan (s : State) (dt : Nat) : (s.elapse dt).lan = s.lan := rfl
@[simp] theorem State.elapse_vig (s : State) (dt : Nat) : (s.elapse dt).vig = s.vig := rfl
@[simp] theorem State.elapse_sec (s : State) (dt : Nat) : (s.elapse dt).sec = s.sec := rfl
@[simp] theorem State.elapse_pwr (s : State) (dt : Nat) : (s.elapse dt).pwr = s.pwr := rfl
@[simp] theorem State.elapse_sta (s : State) (dt : Nat) : (s.elapse dt).sta = s.sta := rfl
@[simp] theorem State.elapse_mnt (s : State) (dt : Nat) : (s.elapse dt).mnt = s.mnt := rfl
@[simp] theorem State.elapse_ports (s : State) (dt : Nat) : (s.elapse dt).ports = s.ports := rfl
@[simp] theorem State.elapse_ops (s : State) (dt : Nat) : (s.elapse dt).ops = s.ops := rfl
@[simp] theorem State.elapse_link (s : State) (dt : Nat) : (s.elapse dt).link = s.link := rfl
@[simp] theorem State.elapse_reg (s : State) (dt : Nat) (a : Nat) : (s.elapse dt).reg a = s.reg a := rfl

/-! ### fresh -/

@[simp] theorem State.fresh_pending (s : State) (n : Nat) : ((s.fresh n).2).pending = s.pending := rfl
@[simp] theorem State.fresh_clock (s : State) (n : Nat) : ((s.fresh n).2).clock = s.clock := rfl
@[simp] theorem State.fresh_regs (s : State) (n : Nat) : ((s.fresh n).2).regs = s.regs := rfl
@[simp] theorem State.fresh_host (s : State) (n : Nat) : ((s.fresh n).2).host = s.host := rfl
@[simp] theorem State.fresh_rings (s : State) (n : Nat) : ((s.fresh n).2).rings = s.rings := rfl
@[simp] theorem State.fresh_audit (s : State) (n : Nat) : ((s.fresh n).2).audit = s.audit := rfl
@[simp] theorem State.fresh_mgt (s : State) (n : Nat) : ((s.fresh n).2).mgt = s.mgt := rfl
@[simp] theorem State.fresh_ing (s : State) (n : Nat) : ((s.fresh n).2).ing = s.ing := rfl
@[simp] theorem State.fresh_rnd (s : State) (n : Nat) : ((s.fresh n).2).rnd = s.rnd := rfl
@[simp] theorem State.fresh_cnv (s : State) (n : Nat) : ((s.fresh n).2).cnv = s.cnv := rfl
@[simp] theorem State.fresh_mix (s : State) (n : Nat) : ((s.fresh n).2).mix = s.mix := rfl
@[simp] theorem State.fresh_slice (s : State) (n : Nat) : ((s.fresh n).2).slice = s.slice := rfl
@[simp] theorem State.fresh_evs (s : State) (n : Nat) : ((s.fresh n).2).evs = s.evs := rfl
@[simp] theorem State.fresh_ev53 (s : State) (n : Nat) : ((s.fresh n).2).ev53 = s.ev53 := rfl
@[simp] theorem State.fresh_straps (s : State) (n : Nat) : ((s.fresh n).2).straps = s.straps := rfl
@[simp] theorem State.fresh_queues (s : State) (n : Nat) : ((s.fresh n).2).queues = s.queues := rfl
@[simp] theorem State.fresh_dram (s : State) (n : Nat) : ((s.fresh n).2).dram = s.dram := rfl
@[simp] theorem State.fresh_tiles (s : State) (n : Nat) : ((s.fresh n).2).tiles = s.tiles := rfl
@[simp] theorem State.fresh_parWords (s : State) (n : Nat) : ((s.fresh n).2).parWords = s.parWords := rfl
@[simp] theorem State.fresh_macs (s : State) (n : Nat) : ((s.fresh n).2).macs = s.macs := rfl
@[simp] theorem State.fresh_mdioEnd (s : State) (n : Nat) : ((s.fresh n).2).mdioEnd = s.mdioEnd := rfl
@[simp] theorem State.fresh_tim (s : State) (n : Nat) : ((s.fresh n).2).tim = s.tim := rfl
@[simp] theorem State.fresh_streams (s : State) (n : Nat) : ((s.fresh n).2).streams = s.streams := rfl
@[simp] theorem State.fresh_vox (s : State) (n : Nat) : ((s.fresh n).2).vox = s.vox := rfl
@[simp] theorem State.fresh_heldRegs (s : State) (n : Nat) : ((s.fresh n).2).heldRegs = s.heldRegs := rfl
@[simp] theorem State.fresh_imgs (s : State) (n : Nat) : ((s.fresh n).2).imgs = s.imgs := rfl
@[simp] theorem State.fresh_wick (s : State) (n : Nat) : ((s.fresh n).2).wick = s.wick := rfl
@[simp] theorem State.fresh_lan (s : State) (n : Nat) : ((s.fresh n).2).lan = s.lan := rfl
@[simp] theorem State.fresh_vig (s : State) (n : Nat) : ((s.fresh n).2).vig = s.vig := rfl
@[simp] theorem State.fresh_sec (s : State) (n : Nat) : ((s.fresh n).2).sec = s.sec := rfl
@[simp] theorem State.fresh_pwr (s : State) (n : Nat) : ((s.fresh n).2).pwr = s.pwr := rfl
@[simp] theorem State.fresh_sta (s : State) (n : Nat) : ((s.fresh n).2).sta = s.sta := rfl
@[simp] theorem State.fresh_mnt (s : State) (n : Nat) : ((s.fresh n).2).mnt = s.mnt := rfl
@[simp] theorem State.fresh_ports (s : State) (n : Nat) : ((s.fresh n).2).ports = s.ports := rfl
@[simp] theorem State.fresh_ops (s : State) (n : Nat) : ((s.fresh n).2).ops = s.ops := rfl
@[simp] theorem State.fresh_link (s : State) (n : Nat) : ((s.fresh n).2).link = s.link := rfl
@[simp] theorem State.fresh_reg (s : State) (n : Nat) (a : Nat) : ((s.fresh n).2).reg a = s.reg a := rfl
@[simp] theorem State.fresh_now (s : State) (n : Nat) : ((s.fresh n).2).now = s.now := rfl

/-! ### freshBytes -/

@[simp] theorem State.freshBytes_pending (s : State) (n : Nat) : ((s.freshBytes n).2).pending = s.pending := rfl
@[simp] theorem State.freshBytes_clock (s : State) (n : Nat) : ((s.freshBytes n).2).clock = s.clock := rfl
@[simp] theorem State.freshBytes_regs (s : State) (n : Nat) : ((s.freshBytes n).2).regs = s.regs := rfl
@[simp] theorem State.freshBytes_host (s : State) (n : Nat) : ((s.freshBytes n).2).host = s.host := rfl
@[simp] theorem State.freshBytes_rings (s : State) (n : Nat) : ((s.freshBytes n).2).rings = s.rings := rfl
@[simp] theorem State.freshBytes_audit (s : State) (n : Nat) : ((s.freshBytes n).2).audit = s.audit := rfl
@[simp] theorem State.freshBytes_mgt (s : State) (n : Nat) : ((s.freshBytes n).2).mgt = s.mgt := rfl
@[simp] theorem State.freshBytes_ing (s : State) (n : Nat) : ((s.freshBytes n).2).ing = s.ing := rfl
@[simp] theorem State.freshBytes_rnd (s : State) (n : Nat) : ((s.freshBytes n).2).rnd = s.rnd := rfl
@[simp] theorem State.freshBytes_cnv (s : State) (n : Nat) : ((s.freshBytes n).2).cnv = s.cnv := rfl
@[simp] theorem State.freshBytes_mix (s : State) (n : Nat) : ((s.freshBytes n).2).mix = s.mix := rfl
@[simp] theorem State.freshBytes_slice (s : State) (n : Nat) : ((s.freshBytes n).2).slice = s.slice := rfl
@[simp] theorem State.freshBytes_evs (s : State) (n : Nat) : ((s.freshBytes n).2).evs = s.evs := rfl
@[simp] theorem State.freshBytes_ev53 (s : State) (n : Nat) : ((s.freshBytes n).2).ev53 = s.ev53 := rfl
@[simp] theorem State.freshBytes_straps (s : State) (n : Nat) : ((s.freshBytes n).2).straps = s.straps := rfl
@[simp] theorem State.freshBytes_queues (s : State) (n : Nat) : ((s.freshBytes n).2).queues = s.queues := rfl
@[simp] theorem State.freshBytes_dram (s : State) (n : Nat) : ((s.freshBytes n).2).dram = s.dram := rfl
@[simp] theorem State.freshBytes_tiles (s : State) (n : Nat) : ((s.freshBytes n).2).tiles = s.tiles := rfl
@[simp] theorem State.freshBytes_parWords (s : State) (n : Nat) : ((s.freshBytes n).2).parWords = s.parWords := rfl
@[simp] theorem State.freshBytes_macs (s : State) (n : Nat) : ((s.freshBytes n).2).macs = s.macs := rfl
@[simp] theorem State.freshBytes_mdioEnd (s : State) (n : Nat) : ((s.freshBytes n).2).mdioEnd = s.mdioEnd := rfl
@[simp] theorem State.freshBytes_tim (s : State) (n : Nat) : ((s.freshBytes n).2).tim = s.tim := rfl
@[simp] theorem State.freshBytes_streams (s : State) (n : Nat) : ((s.freshBytes n).2).streams = s.streams := rfl
@[simp] theorem State.freshBytes_vox (s : State) (n : Nat) : ((s.freshBytes n).2).vox = s.vox := rfl
@[simp] theorem State.freshBytes_heldRegs (s : State) (n : Nat) : ((s.freshBytes n).2).heldRegs = s.heldRegs := rfl
@[simp] theorem State.freshBytes_imgs (s : State) (n : Nat) : ((s.freshBytes n).2).imgs = s.imgs := rfl
@[simp] theorem State.freshBytes_wick (s : State) (n : Nat) : ((s.freshBytes n).2).wick = s.wick := rfl
@[simp] theorem State.freshBytes_lan (s : State) (n : Nat) : ((s.freshBytes n).2).lan = s.lan := rfl
@[simp] theorem State.freshBytes_vig (s : State) (n : Nat) : ((s.freshBytes n).2).vig = s.vig := rfl
@[simp] theorem State.freshBytes_sec (s : State) (n : Nat) : ((s.freshBytes n).2).sec = s.sec := rfl
@[simp] theorem State.freshBytes_pwr (s : State) (n : Nat) : ((s.freshBytes n).2).pwr = s.pwr := rfl
@[simp] theorem State.freshBytes_sta (s : State) (n : Nat) : ((s.freshBytes n).2).sta = s.sta := rfl
@[simp] theorem State.freshBytes_mnt (s : State) (n : Nat) : ((s.freshBytes n).2).mnt = s.mnt := rfl
@[simp] theorem State.freshBytes_ports (s : State) (n : Nat) : ((s.freshBytes n).2).ports = s.ports := rfl
@[simp] theorem State.freshBytes_ops (s : State) (n : Nat) : ((s.freshBytes n).2).ops = s.ops := rfl
@[simp] theorem State.freshBytes_link (s : State) (n : Nat) : ((s.freshBytes n).2).link = s.link := rfl
@[simp] theorem State.freshBytes_reg (s : State) (n : Nat) (a : Nat) : ((s.freshBytes n).2).reg a = s.reg a := rfl
@[simp] theorem State.freshBytes_now (s : State) (n : Nat) : ((s.freshBytes n).2).now = s.now := rfl

/-! ### setRing -/

@[simp] theorem State.setRing_pending (s : State) (r : Nat) (x : Ring) : (s.setRing r x).pending = s.pending := rfl
@[simp] theorem State.setRing_free (s : State) (r : Nat) (x : Ring) : (s.setRing r x).free = s.free := rfl
@[simp] theorem State.setRing_clock (s : State) (r : Nat) (x : Ring) : (s.setRing r x).clock = s.clock := rfl
@[simp] theorem State.setRing_regs (s : State) (r : Nat) (x : Ring) : (s.setRing r x).regs = s.regs := rfl
@[simp] theorem State.setRing_host (s : State) (r : Nat) (x : Ring) : (s.setRing r x).host = s.host := rfl
@[simp] theorem State.setRing_audit (s : State) (r : Nat) (x : Ring) : (s.setRing r x).audit = s.audit := rfl
@[simp] theorem State.setRing_mgt (s : State) (r : Nat) (x : Ring) : (s.setRing r x).mgt = s.mgt := rfl
@[simp] theorem State.setRing_ing (s : State) (r : Nat) (x : Ring) : (s.setRing r x).ing = s.ing := rfl
@[simp] theorem State.setRing_rnd (s : State) (r : Nat) (x : Ring) : (s.setRing r x).rnd = s.rnd := rfl
@[simp] theorem State.setRing_cnv (s : State) (r : Nat) (x : Ring) : (s.setRing r x).cnv = s.cnv := rfl
@[simp] theorem State.setRing_mix (s : State) (r : Nat) (x : Ring) : (s.setRing r x).mix = s.mix := rfl
@[simp] theorem State.setRing_slice (s : State) (r : Nat) (x : Ring) : (s.setRing r x).slice = s.slice := rfl
@[simp] theorem State.setRing_evs (s : State) (r : Nat) (x : Ring) : (s.setRing r x).evs = s.evs := rfl
@[simp] theorem State.setRing_ev53 (s : State) (r : Nat) (x : Ring) : (s.setRing r x).ev53 = s.ev53 := rfl
@[simp] theorem State.setRing_straps (s : State) (r : Nat) (x : Ring) : (s.setRing r x).straps = s.straps := rfl
@[simp] theorem State.setRing_queues (s : State) (r : Nat) (x : Ring) : (s.setRing r x).queues = s.queues := rfl
@[simp] theorem State.setRing_dram (s : State) (r : Nat) (x : Ring) : (s.setRing r x).dram = s.dram := rfl
@[simp] theorem State.setRing_tiles (s : State) (r : Nat) (x : Ring) : (s.setRing r x).tiles = s.tiles := rfl
@[simp] theorem State.setRing_parWords (s : State) (r : Nat) (x : Ring) : (s.setRing r x).parWords = s.parWords := rfl
@[simp] theorem State.setRing_macs (s : State) (r : Nat) (x : Ring) : (s.setRing r x).macs = s.macs := rfl
@[simp] theorem State.setRing_mdioEnd (s : State) (r : Nat) (x : Ring) : (s.setRing r x).mdioEnd = s.mdioEnd := rfl
@[simp] theorem State.setRing_tim (s : State) (r : Nat) (x : Ring) : (s.setRing r x).tim = s.tim := rfl
@[simp] theorem State.setRing_streams (s : State) (r : Nat) (x : Ring) : (s.setRing r x).streams = s.streams := rfl
@[simp] theorem State.setRing_vox (s : State) (r : Nat) (x : Ring) : (s.setRing r x).vox = s.vox := rfl
@[simp] theorem State.setRing_heldRegs (s : State) (r : Nat) (x : Ring) : (s.setRing r x).heldRegs = s.heldRegs := rfl
@[simp] theorem State.setRing_imgs (s : State) (r : Nat) (x : Ring) : (s.setRing r x).imgs = s.imgs := rfl
@[simp] theorem State.setRing_wick (s : State) (r : Nat) (x : Ring) : (s.setRing r x).wick = s.wick := rfl
@[simp] theorem State.setRing_lan (s : State) (r : Nat) (x : Ring) : (s.setRing r x).lan = s.lan := rfl
@[simp] theorem State.setRing_vig (s : State) (r : Nat) (x : Ring) : (s.setRing r x).vig = s.vig := rfl
@[simp] theorem State.setRing_sec (s : State) (r : Nat) (x : Ring) : (s.setRing r x).sec = s.sec := rfl
@[simp] theorem State.setRing_pwr (s : State) (r : Nat) (x : Ring) : (s.setRing r x).pwr = s.pwr := rfl
@[simp] theorem State.setRing_sta (s : State) (r : Nat) (x : Ring) : (s.setRing r x).sta = s.sta := rfl
@[simp] theorem State.setRing_mnt (s : State) (r : Nat) (x : Ring) : (s.setRing r x).mnt = s.mnt := rfl
@[simp] theorem State.setRing_ports (s : State) (r : Nat) (x : Ring) : (s.setRing r x).ports = s.ports := rfl
@[simp] theorem State.setRing_ops (s : State) (r : Nat) (x : Ring) : (s.setRing r x).ops = s.ops := rfl
@[simp] theorem State.setRing_link (s : State) (r : Nat) (x : Ring) : (s.setRing r x).link = s.link := rfl
@[simp] theorem State.setRing_reg (s : State) (r : Nat) (x : Ring) (a : Nat) : (s.setRing r x).reg a = s.reg a := rfl
@[simp] theorem State.setRing_now (s : State) (r : Nat) (x : Ring) : (s.setRing r x).now = s.now := rfl

/-! ### onRing -/

@[simp] theorem State.onRing_pending (s : State) (r : Nat) (f : Ring → Ring) : (s.onRing r f).pending = s.pending := rfl
@[simp] theorem State.onRing_free (s : State) (r : Nat) (f : Ring → Ring) : (s.onRing r f).free = s.free := rfl
@[simp] theorem State.onRing_clock (s : State) (r : Nat) (f : Ring → Ring) : (s.onRing r f).clock = s.clock := rfl
@[simp] theorem State.onRing_regs (s : State) (r : Nat) (f : Ring → Ring) : (s.onRing r f).regs = s.regs := rfl
@[simp] theorem State.onRing_host (s : State) (r : Nat) (f : Ring → Ring) : (s.onRing r f).host = s.host := rfl
@[simp] theorem State.onRing_audit (s : State) (r : Nat) (f : Ring → Ring) : (s.onRing r f).audit = s.audit := rfl
@[simp] theorem State.onRing_mgt (s : State) (r : Nat) (f : Ring → Ring) : (s.onRing r f).mgt = s.mgt := rfl
@[simp] theorem State.onRing_ing (s : State) (r : Nat) (f : Ring → Ring) : (s.onRing r f).ing = s.ing := rfl
@[simp] theorem State.onRing_rnd (s : State) (r : Nat) (f : Ring → Ring) : (s.onRing r f).rnd = s.rnd := rfl
@[simp] theorem State.onRing_cnv (s : State) (r : Nat) (f : Ring → Ring) : (s.onRing r f).cnv = s.cnv := rfl
@[simp] theorem State.onRing_mix (s : State) (r : Nat) (f : Ring → Ring) : (s.onRing r f).mix = s.mix := rfl
@[simp] theorem State.onRing_slice (s : State) (r : Nat) (f : Ring → Ring) : (s.onRing r f).slice = s.slice := rfl
@[simp] theorem State.onRing_evs (s : State) (r : Nat) (f : Ring → Ring) : (s.onRing r f).evs = s.evs := rfl
@[simp] theorem State.onRing_ev53 (s : State) (r : Nat) (f : Ring → Ring) : (s.onRing r f).ev53 = s.ev53 := rfl
@[simp] theorem State.onRing_straps (s : State) (r : Nat) (f : Ring → Ring) : (s.onRing r f).straps = s.straps := rfl
@[simp] theorem State.onRing_queues (s : State) (r : Nat) (f : Ring → Ring) : (s.onRing r f).queues = s.queues := rfl
@[simp] theorem State.onRing_dram (s : State) (r : Nat) (f : Ring → Ring) : (s.onRing r f).dram = s.dram := rfl
@[simp] theorem State.onRing_tiles (s : State) (r : Nat) (f : Ring → Ring) : (s.onRing r f).tiles = s.tiles := rfl
@[simp] theorem State.onRing_parWords (s : State) (r : Nat) (f : Ring → Ring) : (s.onRing r f).parWords = s.parWords := rfl
@[simp] theorem State.onRing_macs (s : State) (r : Nat) (f : Ring → Ring) : (s.onRing r f).macs = s.macs := rfl
@[simp] theorem State.onRing_mdioEnd (s : State) (r : Nat) (f : Ring → Ring) : (s.onRing r f).mdioEnd = s.mdioEnd := rfl
@[simp] theorem State.onRing_tim (s : State) (r : Nat) (f : Ring → Ring) : (s.onRing r f).tim = s.tim := rfl
@[simp] theorem State.onRing_streams (s : State) (r : Nat) (f : Ring → Ring) : (s.onRing r f).streams = s.streams := rfl
@[simp] theorem State.onRing_vox (s : State) (r : Nat) (f : Ring → Ring) : (s.onRing r f).vox = s.vox := rfl
@[simp] theorem State.onRing_heldRegs (s : State) (r : Nat) (f : Ring → Ring) : (s.onRing r f).heldRegs = s.heldRegs := rfl
@[simp] theorem State.onRing_imgs (s : State) (r : Nat) (f : Ring → Ring) : (s.onRing r f).imgs = s.imgs := rfl
@[simp] theorem State.onRing_wick (s : State) (r : Nat) (f : Ring → Ring) : (s.onRing r f).wick = s.wick := rfl
@[simp] theorem State.onRing_lan (s : State) (r : Nat) (f : Ring → Ring) : (s.onRing r f).lan = s.lan := rfl
@[simp] theorem State.onRing_vig (s : State) (r : Nat) (f : Ring → Ring) : (s.onRing r f).vig = s.vig := rfl
@[simp] theorem State.onRing_sec (s : State) (r : Nat) (f : Ring → Ring) : (s.onRing r f).sec = s.sec := rfl
@[simp] theorem State.onRing_pwr (s : State) (r : Nat) (f : Ring → Ring) : (s.onRing r f).pwr = s.pwr := rfl
@[simp] theorem State.onRing_sta (s : State) (r : Nat) (f : Ring → Ring) : (s.onRing r f).sta = s.sta := rfl
@[simp] theorem State.onRing_mnt (s : State) (r : Nat) (f : Ring → Ring) : (s.onRing r f).mnt = s.mnt := rfl
@[simp] theorem State.onRing_ports (s : State) (r : Nat) (f : Ring → Ring) : (s.onRing r f).ports = s.ports := rfl
@[simp] theorem State.onRing_ops (s : State) (r : Nat) (f : Ring → Ring) : (s.onRing r f).ops = s.ops := rfl
@[simp] theorem State.onRing_link (s : State) (r : Nat) (f : Ring → Ring) : (s.onRing r f).link = s.link := rfl
@[simp] theorem State.onRing_reg (s : State) (r : Nat) (f : Ring → Ring) (a : Nat) : (s.onRing r f).reg a = s.reg a := rfl
@[simp] theorem State.onRing_now (s : State) (r : Nat) (f : Ring → Ring) : (s.onRing r f).now = s.now := rfl

/-! ### setPhase -/

@[simp] theorem State.setPhase_pending (s : State) (r i : Nat) (p : Phase) : (s.setPhase r i p).pending = s.pending := rfl
@[simp] theorem State.setPhase_free (s : State) (r i : Nat) (p : Phase) : (s.setPhase r i p).free = s.free := rfl
@[simp] theorem State.setPhase_clock (s : State) (r i : Nat) (p : Phase) : (s.setPhase r i p).clock = s.clock := rfl
@[simp] theorem State.setPhase_regs (s : State) (r i : Nat) (p : Phase) : (s.setPhase r i p).regs = s.regs := rfl
@[simp] theorem State.setPhase_host (s : State) (r i : Nat) (p : Phase) : (s.setPhase r i p).host = s.host := rfl
@[simp] theorem State.setPhase_audit (s : State) (r i : Nat) (p : Phase) : (s.setPhase r i p).audit = s.audit := rfl
@[simp] theorem State.setPhase_mgt (s : State) (r i : Nat) (p : Phase) : (s.setPhase r i p).mgt = s.mgt := rfl
@[simp] theorem State.setPhase_ing (s : State) (r i : Nat) (p : Phase) : (s.setPhase r i p).ing = s.ing := rfl
@[simp] theorem State.setPhase_rnd (s : State) (r i : Nat) (p : Phase) : (s.setPhase r i p).rnd = s.rnd := rfl
@[simp] theorem State.setPhase_cnv (s : State) (r i : Nat) (p : Phase) : (s.setPhase r i p).cnv = s.cnv := rfl
@[simp] theorem State.setPhase_mix (s : State) (r i : Nat) (p : Phase) : (s.setPhase r i p).mix = s.mix := rfl
@[simp] theorem State.setPhase_slice (s : State) (r i : Nat) (p : Phase) : (s.setPhase r i p).slice = s.slice := rfl
@[simp] theorem State.setPhase_evs (s : State) (r i : Nat) (p : Phase) : (s.setPhase r i p).evs = s.evs := rfl
@[simp] theorem State.setPhase_ev53 (s : State) (r i : Nat) (p : Phase) : (s.setPhase r i p).ev53 = s.ev53 := rfl
@[simp] theorem State.setPhase_straps (s : State) (r i : Nat) (p : Phase) : (s.setPhase r i p).straps = s.straps := rfl
@[simp] theorem State.setPhase_queues (s : State) (r i : Nat) (p : Phase) : (s.setPhase r i p).queues = s.queues := rfl
@[simp] theorem State.setPhase_dram (s : State) (r i : Nat) (p : Phase) : (s.setPhase r i p).dram = s.dram := rfl
@[simp] theorem State.setPhase_tiles (s : State) (r i : Nat) (p : Phase) : (s.setPhase r i p).tiles = s.tiles := rfl
@[simp] theorem State.setPhase_parWords (s : State) (r i : Nat) (p : Phase) : (s.setPhase r i p).parWords = s.parWords := rfl
@[simp] theorem State.setPhase_macs (s : State) (r i : Nat) (p : Phase) : (s.setPhase r i p).macs = s.macs := rfl
@[simp] theorem State.setPhase_mdioEnd (s : State) (r i : Nat) (p : Phase) : (s.setPhase r i p).mdioEnd = s.mdioEnd := rfl
@[simp] theorem State.setPhase_tim (s : State) (r i : Nat) (p : Phase) : (s.setPhase r i p).tim = s.tim := rfl
@[simp] theorem State.setPhase_streams (s : State) (r i : Nat) (p : Phase) : (s.setPhase r i p).streams = s.streams := rfl
@[simp] theorem State.setPhase_vox (s : State) (r i : Nat) (p : Phase) : (s.setPhase r i p).vox = s.vox := rfl
@[simp] theorem State.setPhase_heldRegs (s : State) (r i : Nat) (p : Phase) : (s.setPhase r i p).heldRegs = s.heldRegs := rfl
@[simp] theorem State.setPhase_imgs (s : State) (r i : Nat) (p : Phase) : (s.setPhase r i p).imgs = s.imgs := rfl
@[simp] theorem State.setPhase_wick (s : State) (r i : Nat) (p : Phase) : (s.setPhase r i p).wick = s.wick := rfl
@[simp] theorem State.setPhase_lan (s : State) (r i : Nat) (p : Phase) : (s.setPhase r i p).lan = s.lan := rfl
@[simp] theorem State.setPhase_vig (s : State) (r i : Nat) (p : Phase) : (s.setPhase r i p).vig = s.vig := rfl
@[simp] theorem State.setPhase_sec (s : State) (r i : Nat) (p : Phase) : (s.setPhase r i p).sec = s.sec := rfl
@[simp] theorem State.setPhase_pwr (s : State) (r i : Nat) (p : Phase) : (s.setPhase r i p).pwr = s.pwr := rfl
@[simp] theorem State.setPhase_sta (s : State) (r i : Nat) (p : Phase) : (s.setPhase r i p).sta = s.sta := rfl
@[simp] theorem State.setPhase_mnt (s : State) (r i : Nat) (p : Phase) : (s.setPhase r i p).mnt = s.mnt := rfl
@[simp] theorem State.setPhase_ports (s : State) (r i : Nat) (p : Phase) : (s.setPhase r i p).ports = s.ports := rfl
@[simp] theorem State.setPhase_ops (s : State) (r i : Nat) (p : Phase) : (s.setPhase r i p).ops = s.ops := rfl
@[simp] theorem State.setPhase_link (s : State) (r i : Nat) (p : Phase) : (s.setPhase r i p).link = s.link := rfl
@[simp] theorem State.setPhase_reg (s : State) (r i : Nat) (p : Phase) (a : Nat) : (s.setPhase r i p).reg a = s.reg a := rfl
@[simp] theorem State.setPhase_now (s : State) (r i : Nat) (p : Phase) : (s.setPhase r i p).now = s.now := rfl

/-! ### emit -/

@[simp] theorem State.emit_pending (s : State) (w : HostWrite) : (s.emit w).pending = s.pending := rfl
@[simp] theorem State.emit_free (s : State) (w : HostWrite) : (s.emit w).free = s.free := rfl
@[simp] theorem State.emit_clock (s : State) (w : HostWrite) : (s.emit w).clock = s.clock := rfl
@[simp] theorem State.emit_regs (s : State) (w : HostWrite) : (s.emit w).regs = s.regs := rfl
@[simp] theorem State.emit_rings (s : State) (w : HostWrite) : (s.emit w).rings = s.rings := rfl
@[simp] theorem State.emit_audit (s : State) (w : HostWrite) : (s.emit w).audit = s.audit := rfl
@[simp] theorem State.emit_mgt (s : State) (w : HostWrite) : (s.emit w).mgt = s.mgt := rfl
@[simp] theorem State.emit_ing (s : State) (w : HostWrite) : (s.emit w).ing = s.ing := rfl
@[simp] theorem State.emit_rnd (s : State) (w : HostWrite) : (s.emit w).rnd = s.rnd := rfl
@[simp] theorem State.emit_cnv (s : State) (w : HostWrite) : (s.emit w).cnv = s.cnv := rfl
@[simp] theorem State.emit_mix (s : State) (w : HostWrite) : (s.emit w).mix = s.mix := rfl
@[simp] theorem State.emit_slice (s : State) (w : HostWrite) : (s.emit w).slice = s.slice := rfl
@[simp] theorem State.emit_evs (s : State) (w : HostWrite) : (s.emit w).evs = s.evs := rfl
@[simp] theorem State.emit_ev53 (s : State) (w : HostWrite) : (s.emit w).ev53 = s.ev53 := rfl
@[simp] theorem State.emit_straps (s : State) (w : HostWrite) : (s.emit w).straps = s.straps := rfl
@[simp] theorem State.emit_queues (s : State) (w : HostWrite) : (s.emit w).queues = s.queues := rfl
@[simp] theorem State.emit_dram (s : State) (w : HostWrite) : (s.emit w).dram = s.dram := rfl
@[simp] theorem State.emit_tiles (s : State) (w : HostWrite) : (s.emit w).tiles = s.tiles := rfl
@[simp] theorem State.emit_parWords (s : State) (w : HostWrite) : (s.emit w).parWords = s.parWords := rfl
@[simp] theorem State.emit_macs (s : State) (w : HostWrite) : (s.emit w).macs = s.macs := rfl
@[simp] theorem State.emit_mdioEnd (s : State) (w : HostWrite) : (s.emit w).mdioEnd = s.mdioEnd := rfl
@[simp] theorem State.emit_tim (s : State) (w : HostWrite) : (s.emit w).tim = s.tim := rfl
@[simp] theorem State.emit_streams (s : State) (w : HostWrite) : (s.emit w).streams = s.streams := rfl
@[simp] theorem State.emit_vox (s : State) (w : HostWrite) : (s.emit w).vox = s.vox := rfl
@[simp] theorem State.emit_heldRegs (s : State) (w : HostWrite) : (s.emit w).heldRegs = s.heldRegs := rfl
@[simp] theorem State.emit_imgs (s : State) (w : HostWrite) : (s.emit w).imgs = s.imgs := rfl
@[simp] theorem State.emit_wick (s : State) (w : HostWrite) : (s.emit w).wick = s.wick := rfl
@[simp] theorem State.emit_lan (s : State) (w : HostWrite) : (s.emit w).lan = s.lan := rfl
@[simp] theorem State.emit_vig (s : State) (w : HostWrite) : (s.emit w).vig = s.vig := rfl
@[simp] theorem State.emit_sec (s : State) (w : HostWrite) : (s.emit w).sec = s.sec := rfl
@[simp] theorem State.emit_pwr (s : State) (w : HostWrite) : (s.emit w).pwr = s.pwr := rfl
@[simp] theorem State.emit_sta (s : State) (w : HostWrite) : (s.emit w).sta = s.sta := rfl
@[simp] theorem State.emit_mnt (s : State) (w : HostWrite) : (s.emit w).mnt = s.mnt := rfl
@[simp] theorem State.emit_ports (s : State) (w : HostWrite) : (s.emit w).ports = s.ports := rfl
@[simp] theorem State.emit_ops (s : State) (w : HostWrite) : (s.emit w).ops = s.ops := rfl
@[simp] theorem State.emit_link (s : State) (w : HostWrite) : (s.emit w).link = s.link := rfl
@[simp] theorem State.emit_reg (s : State) (w : HostWrite) (a : Nat) : (s.emit w).reg a = s.reg a := rfl
@[simp] theorem State.emit_now (s : State) (w : HostWrite) : (s.emit w).now = s.now := rfl

/-! ### auditRelease -/

@[simp] theorem State.auditRelease_pending (s : State) (n : Nat) : (s.auditRelease n).pending = s.pending := rfl
@[simp] theorem State.auditRelease_free (s : State) (n : Nat) : (s.auditRelease n).free = s.free := rfl
@[simp] theorem State.auditRelease_clock (s : State) (n : Nat) : (s.auditRelease n).clock = s.clock := rfl
@[simp] theorem State.auditRelease_regs (s : State) (n : Nat) : (s.auditRelease n).regs = s.regs := rfl
@[simp] theorem State.auditRelease_host (s : State) (n : Nat) : (s.auditRelease n).host = s.host := rfl
@[simp] theorem State.auditRelease_rings (s : State) (n : Nat) : (s.auditRelease n).rings = s.rings := rfl
@[simp] theorem State.auditRelease_mgt (s : State) (n : Nat) : (s.auditRelease n).mgt = s.mgt := rfl
@[simp] theorem State.auditRelease_ing (s : State) (n : Nat) : (s.auditRelease n).ing = s.ing := rfl
@[simp] theorem State.auditRelease_rnd (s : State) (n : Nat) : (s.auditRelease n).rnd = s.rnd := rfl
@[simp] theorem State.auditRelease_cnv (s : State) (n : Nat) : (s.auditRelease n).cnv = s.cnv := rfl
@[simp] theorem State.auditRelease_mix (s : State) (n : Nat) : (s.auditRelease n).mix = s.mix := rfl
@[simp] theorem State.auditRelease_slice (s : State) (n : Nat) : (s.auditRelease n).slice = s.slice := rfl
@[simp] theorem State.auditRelease_evs (s : State) (n : Nat) : (s.auditRelease n).evs = s.evs := rfl
@[simp] theorem State.auditRelease_ev53 (s : State) (n : Nat) : (s.auditRelease n).ev53 = s.ev53 := rfl
@[simp] theorem State.auditRelease_straps (s : State) (n : Nat) : (s.auditRelease n).straps = s.straps := rfl
@[simp] theorem State.auditRelease_queues (s : State) (n : Nat) : (s.auditRelease n).queues = s.queues := rfl
@[simp] theorem State.auditRelease_dram (s : State) (n : Nat) : (s.auditRelease n).dram = s.dram := rfl
@[simp] theorem State.auditRelease_tiles (s : State) (n : Nat) : (s.auditRelease n).tiles = s.tiles := rfl
@[simp] theorem State.auditRelease_parWords (s : State) (n : Nat) : (s.auditRelease n).parWords = s.parWords := rfl
@[simp] theorem State.auditRelease_macs (s : State) (n : Nat) : (s.auditRelease n).macs = s.macs := rfl
@[simp] theorem State.auditRelease_mdioEnd (s : State) (n : Nat) : (s.auditRelease n).mdioEnd = s.mdioEnd := rfl
@[simp] theorem State.auditRelease_tim (s : State) (n : Nat) : (s.auditRelease n).tim = s.tim := rfl
@[simp] theorem State.auditRelease_streams (s : State) (n : Nat) : (s.auditRelease n).streams = s.streams := rfl
@[simp] theorem State.auditRelease_vox (s : State) (n : Nat) : (s.auditRelease n).vox = s.vox := rfl
@[simp] theorem State.auditRelease_heldRegs (s : State) (n : Nat) : (s.auditRelease n).heldRegs = s.heldRegs := rfl
@[simp] theorem State.auditRelease_imgs (s : State) (n : Nat) : (s.auditRelease n).imgs = s.imgs := rfl
@[simp] theorem State.auditRelease_wick (s : State) (n : Nat) : (s.auditRelease n).wick = s.wick := rfl
@[simp] theorem State.auditRelease_lan (s : State) (n : Nat) : (s.auditRelease n).lan = s.lan := rfl
@[simp] theorem State.auditRelease_vig (s : State) (n : Nat) : (s.auditRelease n).vig = s.vig := rfl
@[simp] theorem State.auditRelease_sec (s : State) (n : Nat) : (s.auditRelease n).sec = s.sec := rfl
@[simp] theorem State.auditRelease_pwr (s : State) (n : Nat) : (s.auditRelease n).pwr = s.pwr := rfl
@[simp] theorem State.auditRelease_sta (s : State) (n : Nat) : (s.auditRelease n).sta = s.sta := rfl
@[simp] theorem State.auditRelease_mnt (s : State) (n : Nat) : (s.auditRelease n).mnt = s.mnt := rfl
@[simp] theorem State.auditRelease_ports (s : State) (n : Nat) : (s.auditRelease n).ports = s.ports := rfl
@[simp] theorem State.auditRelease_ops (s : State) (n : Nat) : (s.auditRelease n).ops = s.ops := rfl
@[simp] theorem State.auditRelease_link (s : State) (n : Nat) : (s.auditRelease n).link = s.link := rfl
@[simp] theorem State.auditRelease_reg (s : State) (n : Nat) (a : Nat) : (s.auditRelease n).reg a = s.reg a := rfl
@[simp] theorem State.auditRelease_now (s : State) (n : Nat) : (s.auditRelease n).now = s.now := rfl

/-! ### setConvOut -/

@[simp] theorem State.setConvOut_pending (s : State) (n : Nat) (x : ConvOut) : (s.setConvOut n x).pending = s.pending := rfl
@[simp] theorem State.setConvOut_free (s : State) (n : Nat) (x : ConvOut) : (s.setConvOut n x).free = s.free := rfl
@[simp] theorem State.setConvOut_clock (s : State) (n : Nat) (x : ConvOut) : (s.setConvOut n x).clock = s.clock := rfl
@[simp] theorem State.setConvOut_regs (s : State) (n : Nat) (x : ConvOut) : (s.setConvOut n x).regs = s.regs := rfl
@[simp] theorem State.setConvOut_host (s : State) (n : Nat) (x : ConvOut) : (s.setConvOut n x).host = s.host := rfl
@[simp] theorem State.setConvOut_rings (s : State) (n : Nat) (x : ConvOut) : (s.setConvOut n x).rings = s.rings := rfl
@[simp] theorem State.setConvOut_audit (s : State) (n : Nat) (x : ConvOut) : (s.setConvOut n x).audit = s.audit := rfl
@[simp] theorem State.setConvOut_mgt (s : State) (n : Nat) (x : ConvOut) : (s.setConvOut n x).mgt = s.mgt := rfl
@[simp] theorem State.setConvOut_ing (s : State) (n : Nat) (x : ConvOut) : (s.setConvOut n x).ing = s.ing := rfl
@[simp] theorem State.setConvOut_rnd (s : State) (n : Nat) (x : ConvOut) : (s.setConvOut n x).rnd = s.rnd := rfl
@[simp] theorem State.setConvOut_mix (s : State) (n : Nat) (x : ConvOut) : (s.setConvOut n x).mix = s.mix := rfl
@[simp] theorem State.setConvOut_slice (s : State) (n : Nat) (x : ConvOut) : (s.setConvOut n x).slice = s.slice := rfl
@[simp] theorem State.setConvOut_evs (s : State) (n : Nat) (x : ConvOut) : (s.setConvOut n x).evs = s.evs := rfl
@[simp] theorem State.setConvOut_ev53 (s : State) (n : Nat) (x : ConvOut) : (s.setConvOut n x).ev53 = s.ev53 := rfl
@[simp] theorem State.setConvOut_straps (s : State) (n : Nat) (x : ConvOut) : (s.setConvOut n x).straps = s.straps := rfl
@[simp] theorem State.setConvOut_queues (s : State) (n : Nat) (x : ConvOut) : (s.setConvOut n x).queues = s.queues := rfl
@[simp] theorem State.setConvOut_dram (s : State) (n : Nat) (x : ConvOut) : (s.setConvOut n x).dram = s.dram := rfl
@[simp] theorem State.setConvOut_tiles (s : State) (n : Nat) (x : ConvOut) : (s.setConvOut n x).tiles = s.tiles := rfl
@[simp] theorem State.setConvOut_parWords (s : State) (n : Nat) (x : ConvOut) : (s.setConvOut n x).parWords = s.parWords := rfl
@[simp] theorem State.setConvOut_macs (s : State) (n : Nat) (x : ConvOut) : (s.setConvOut n x).macs = s.macs := rfl
@[simp] theorem State.setConvOut_mdioEnd (s : State) (n : Nat) (x : ConvOut) : (s.setConvOut n x).mdioEnd = s.mdioEnd := rfl
@[simp] theorem State.setConvOut_tim (s : State) (n : Nat) (x : ConvOut) : (s.setConvOut n x).tim = s.tim := rfl
@[simp] theorem State.setConvOut_streams (s : State) (n : Nat) (x : ConvOut) : (s.setConvOut n x).streams = s.streams := rfl
@[simp] theorem State.setConvOut_vox (s : State) (n : Nat) (x : ConvOut) : (s.setConvOut n x).vox = s.vox := rfl
@[simp] theorem State.setConvOut_heldRegs (s : State) (n : Nat) (x : ConvOut) : (s.setConvOut n x).heldRegs = s.heldRegs := rfl
@[simp] theorem State.setConvOut_imgs (s : State) (n : Nat) (x : ConvOut) : (s.setConvOut n x).imgs = s.imgs := rfl
@[simp] theorem State.setConvOut_wick (s : State) (n : Nat) (x : ConvOut) : (s.setConvOut n x).wick = s.wick := rfl
@[simp] theorem State.setConvOut_lan (s : State) (n : Nat) (x : ConvOut) : (s.setConvOut n x).lan = s.lan := rfl
@[simp] theorem State.setConvOut_vig (s : State) (n : Nat) (x : ConvOut) : (s.setConvOut n x).vig = s.vig := rfl
@[simp] theorem State.setConvOut_sec (s : State) (n : Nat) (x : ConvOut) : (s.setConvOut n x).sec = s.sec := rfl
@[simp] theorem State.setConvOut_pwr (s : State) (n : Nat) (x : ConvOut) : (s.setConvOut n x).pwr = s.pwr := rfl
@[simp] theorem State.setConvOut_sta (s : State) (n : Nat) (x : ConvOut) : (s.setConvOut n x).sta = s.sta := rfl
@[simp] theorem State.setConvOut_mnt (s : State) (n : Nat) (x : ConvOut) : (s.setConvOut n x).mnt = s.mnt := rfl
@[simp] theorem State.setConvOut_ports (s : State) (n : Nat) (x : ConvOut) : (s.setConvOut n x).ports = s.ports := rfl
@[simp] theorem State.setConvOut_ops (s : State) (n : Nat) (x : ConvOut) : (s.setConvOut n x).ops = s.ops := rfl
@[simp] theorem State.setConvOut_link (s : State) (n : Nat) (x : ConvOut) : (s.setConvOut n x).link = s.link := rfl
@[simp] theorem State.setConvOut_reg (s : State) (n : Nat) (x : ConvOut) (a : Nat) : (s.setConvOut n x).reg a = s.reg a := rfl
@[simp] theorem State.setConvOut_now (s : State) (n : Nat) (x : ConvOut) : (s.setConvOut n x).now = s.now := rfl

/-! ### setCand -/

@[simp] theorem State.setCand_pending (s : State) (c : Nat) (x : MCand) : (s.setCand c x).pending = s.pending := rfl
@[simp] theorem State.setCand_free (s : State) (c : Nat) (x : MCand) : (s.setCand c x).free = s.free := rfl
@[simp] theorem State.setCand_clock (s : State) (c : Nat) (x : MCand) : (s.setCand c x).clock = s.clock := rfl
@[simp] theorem State.setCand_regs (s : State) (c : Nat) (x : MCand) : (s.setCand c x).regs = s.regs := rfl
@[simp] theorem State.setCand_host (s : State) (c : Nat) (x : MCand) : (s.setCand c x).host = s.host := rfl
@[simp] theorem State.setCand_rings (s : State) (c : Nat) (x : MCand) : (s.setCand c x).rings = s.rings := rfl
@[simp] theorem State.setCand_audit (s : State) (c : Nat) (x : MCand) : (s.setCand c x).audit = s.audit := rfl
@[simp] theorem State.setCand_mgt (s : State) (c : Nat) (x : MCand) : (s.setCand c x).mgt = s.mgt := rfl
@[simp] theorem State.setCand_ing (s : State) (c : Nat) (x : MCand) : (s.setCand c x).ing = s.ing := rfl
@[simp] theorem State.setCand_rnd (s : State) (c : Nat) (x : MCand) : (s.setCand c x).rnd = s.rnd := rfl
@[simp] theorem State.setCand_cnv (s : State) (c : Nat) (x : MCand) : (s.setCand c x).cnv = s.cnv := rfl
@[simp] theorem State.setCand_mix (s : State) (c : Nat) (x : MCand) : (s.setCand c x).mix = s.mix := rfl
@[simp] theorem State.setCand_slice (s : State) (c : Nat) (x : MCand) : (s.setCand c x).slice = s.slice := rfl
@[simp] theorem State.setCand_evs (s : State) (c : Nat) (x : MCand) : (s.setCand c x).evs = s.evs := rfl
@[simp] theorem State.setCand_ev53 (s : State) (c : Nat) (x : MCand) : (s.setCand c x).ev53 = s.ev53 := rfl
@[simp] theorem State.setCand_straps (s : State) (c : Nat) (x : MCand) : (s.setCand c x).straps = s.straps := rfl
@[simp] theorem State.setCand_queues (s : State) (c : Nat) (x : MCand) : (s.setCand c x).queues = s.queues := rfl
@[simp] theorem State.setCand_dram (s : State) (c : Nat) (x : MCand) : (s.setCand c x).dram = s.dram := rfl
@[simp] theorem State.setCand_tiles (s : State) (c : Nat) (x : MCand) : (s.setCand c x).tiles = s.tiles := rfl
@[simp] theorem State.setCand_parWords (s : State) (c : Nat) (x : MCand) : (s.setCand c x).parWords = s.parWords := rfl
@[simp] theorem State.setCand_macs (s : State) (c : Nat) (x : MCand) : (s.setCand c x).macs = s.macs := rfl
@[simp] theorem State.setCand_mdioEnd (s : State) (c : Nat) (x : MCand) : (s.setCand c x).mdioEnd = s.mdioEnd := rfl
@[simp] theorem State.setCand_tim (s : State) (c : Nat) (x : MCand) : (s.setCand c x).tim = s.tim := rfl
@[simp] theorem State.setCand_streams (s : State) (c : Nat) (x : MCand) : (s.setCand c x).streams = s.streams := rfl
@[simp] theorem State.setCand_vox (s : State) (c : Nat) (x : MCand) : (s.setCand c x).vox = s.vox := rfl
@[simp] theorem State.setCand_heldRegs (s : State) (c : Nat) (x : MCand) : (s.setCand c x).heldRegs = s.heldRegs := rfl
@[simp] theorem State.setCand_imgs (s : State) (c : Nat) (x : MCand) : (s.setCand c x).imgs = s.imgs := rfl
@[simp] theorem State.setCand_wick (s : State) (c : Nat) (x : MCand) : (s.setCand c x).wick = s.wick := rfl
@[simp] theorem State.setCand_lan (s : State) (c : Nat) (x : MCand) : (s.setCand c x).lan = s.lan := rfl
@[simp] theorem State.setCand_vig (s : State) (c : Nat) (x : MCand) : (s.setCand c x).vig = s.vig := rfl
@[simp] theorem State.setCand_sec (s : State) (c : Nat) (x : MCand) : (s.setCand c x).sec = s.sec := rfl
@[simp] theorem State.setCand_pwr (s : State) (c : Nat) (x : MCand) : (s.setCand c x).pwr = s.pwr := rfl
@[simp] theorem State.setCand_sta (s : State) (c : Nat) (x : MCand) : (s.setCand c x).sta = s.sta := rfl
@[simp] theorem State.setCand_ports (s : State) (c : Nat) (x : MCand) : (s.setCand c x).ports = s.ports := rfl
@[simp] theorem State.setCand_ops (s : State) (c : Nat) (x : MCand) : (s.setCand c x).ops = s.ops := rfl
@[simp] theorem State.setCand_link (s : State) (c : Nat) (x : MCand) : (s.setCand c x).link = s.link := rfl
@[simp] theorem State.setCand_reg (s : State) (c : Nat) (x : MCand) (a : Nat) : (s.setCand c x).reg a = s.reg a := rfl
@[simp] theorem State.setCand_now (s : State) (c : Nat) (x : MCand) : (s.setCand c x).now = s.now := rfl

/-! ### setTrig -/

@[simp] theorem State.setTrig_pending (s : State) (c : Nat) (x : Trigger) : (s.setTrig c x).pending = s.pending := rfl
@[simp] theorem State.setTrig_free (s : State) (c : Nat) (x : Trigger) : (s.setTrig c x).free = s.free := rfl
@[simp] theorem State.setTrig_clock (s : State) (c : Nat) (x : Trigger) : (s.setTrig c x).clock = s.clock := rfl
@[simp] theorem State.setTrig_regs (s : State) (c : Nat) (x : Trigger) : (s.setTrig c x).regs = s.regs := rfl
@[simp] theorem State.setTrig_host (s : State) (c : Nat) (x : Trigger) : (s.setTrig c x).host = s.host := rfl
@[simp] theorem State.setTrig_rings (s : State) (c : Nat) (x : Trigger) : (s.setTrig c x).rings = s.rings := rfl
@[simp] theorem State.setTrig_audit (s : State) (c : Nat) (x : Trigger) : (s.setTrig c x).audit = s.audit := rfl
@[simp] theorem State.setTrig_mgt (s : State) (c : Nat) (x : Trigger) : (s.setTrig c x).mgt = s.mgt := rfl
@[simp] theorem State.setTrig_ing (s : State) (c : Nat) (x : Trigger) : (s.setTrig c x).ing = s.ing := rfl
@[simp] theorem State.setTrig_rnd (s : State) (c : Nat) (x : Trigger) : (s.setTrig c x).rnd = s.rnd := rfl
@[simp] theorem State.setTrig_cnv (s : State) (c : Nat) (x : Trigger) : (s.setTrig c x).cnv = s.cnv := rfl
@[simp] theorem State.setTrig_mix (s : State) (c : Nat) (x : Trigger) : (s.setTrig c x).mix = s.mix := rfl
@[simp] theorem State.setTrig_slice (s : State) (c : Nat) (x : Trigger) : (s.setTrig c x).slice = s.slice := rfl
@[simp] theorem State.setTrig_evs (s : State) (c : Nat) (x : Trigger) : (s.setTrig c x).evs = s.evs := rfl
@[simp] theorem State.setTrig_ev53 (s : State) (c : Nat) (x : Trigger) : (s.setTrig c x).ev53 = s.ev53 := rfl
@[simp] theorem State.setTrig_straps (s : State) (c : Nat) (x : Trigger) : (s.setTrig c x).straps = s.straps := rfl
@[simp] theorem State.setTrig_queues (s : State) (c : Nat) (x : Trigger) : (s.setTrig c x).queues = s.queues := rfl
@[simp] theorem State.setTrig_dram (s : State) (c : Nat) (x : Trigger) : (s.setTrig c x).dram = s.dram := rfl
@[simp] theorem State.setTrig_tiles (s : State) (c : Nat) (x : Trigger) : (s.setTrig c x).tiles = s.tiles := rfl
@[simp] theorem State.setTrig_parWords (s : State) (c : Nat) (x : Trigger) : (s.setTrig c x).parWords = s.parWords := rfl
@[simp] theorem State.setTrig_macs (s : State) (c : Nat) (x : Trigger) : (s.setTrig c x).macs = s.macs := rfl
@[simp] theorem State.setTrig_mdioEnd (s : State) (c : Nat) (x : Trigger) : (s.setTrig c x).mdioEnd = s.mdioEnd := rfl
@[simp] theorem State.setTrig_streams (s : State) (c : Nat) (x : Trigger) : (s.setTrig c x).streams = s.streams := rfl
@[simp] theorem State.setTrig_vox (s : State) (c : Nat) (x : Trigger) : (s.setTrig c x).vox = s.vox := rfl
@[simp] theorem State.setTrig_heldRegs (s : State) (c : Nat) (x : Trigger) : (s.setTrig c x).heldRegs = s.heldRegs := rfl
@[simp] theorem State.setTrig_imgs (s : State) (c : Nat) (x : Trigger) : (s.setTrig c x).imgs = s.imgs := rfl
@[simp] theorem State.setTrig_wick (s : State) (c : Nat) (x : Trigger) : (s.setTrig c x).wick = s.wick := rfl
@[simp] theorem State.setTrig_lan (s : State) (c : Nat) (x : Trigger) : (s.setTrig c x).lan = s.lan := rfl
@[simp] theorem State.setTrig_vig (s : State) (c : Nat) (x : Trigger) : (s.setTrig c x).vig = s.vig := rfl
@[simp] theorem State.setTrig_sec (s : State) (c : Nat) (x : Trigger) : (s.setTrig c x).sec = s.sec := rfl
@[simp] theorem State.setTrig_pwr (s : State) (c : Nat) (x : Trigger) : (s.setTrig c x).pwr = s.pwr := rfl
@[simp] theorem State.setTrig_sta (s : State) (c : Nat) (x : Trigger) : (s.setTrig c x).sta = s.sta := rfl
@[simp] theorem State.setTrig_mnt (s : State) (c : Nat) (x : Trigger) : (s.setTrig c x).mnt = s.mnt := rfl
@[simp] theorem State.setTrig_ports (s : State) (c : Nat) (x : Trigger) : (s.setTrig c x).ports = s.ports := rfl
@[simp] theorem State.setTrig_ops (s : State) (c : Nat) (x : Trigger) : (s.setTrig c x).ops = s.ops := rfl
@[simp] theorem State.setTrig_link (s : State) (c : Nat) (x : Trigger) : (s.setTrig c x).link = s.link := rfl
@[simp] theorem State.setTrig_reg (s : State) (c : Nat) (x : Trigger) (a : Nat) : (s.setTrig c x).reg a = s.reg a := rfl
@[simp] theorem State.setTrig_now (s : State) (c : Nat) (x : Trigger) : (s.setTrig c x).now = s.now := rfl

/-! ### setFftQ -/

@[simp] theorem State.setFftQ_pending (s : State) (c : Nat) (q : List FftJob) : (s.setFftQ c q).pending = s.pending := rfl
@[simp] theorem State.setFftQ_free (s : State) (c : Nat) (q : List FftJob) : (s.setFftQ c q).free = s.free := rfl
@[simp] theorem State.setFftQ_clock (s : State) (c : Nat) (q : List FftJob) : (s.setFftQ c q).clock = s.clock := rfl
@[simp] theorem State.setFftQ_regs (s : State) (c : Nat) (q : List FftJob) : (s.setFftQ c q).regs = s.regs := rfl
@[simp] theorem State.setFftQ_host (s : State) (c : Nat) (q : List FftJob) : (s.setFftQ c q).host = s.host := rfl
@[simp] theorem State.setFftQ_rings (s : State) (c : Nat) (q : List FftJob) : (s.setFftQ c q).rings = s.rings := rfl
@[simp] theorem State.setFftQ_audit (s : State) (c : Nat) (q : List FftJob) : (s.setFftQ c q).audit = s.audit := rfl
@[simp] theorem State.setFftQ_mgt (s : State) (c : Nat) (q : List FftJob) : (s.setFftQ c q).mgt = s.mgt := rfl
@[simp] theorem State.setFftQ_ing (s : State) (c : Nat) (q : List FftJob) : (s.setFftQ c q).ing = s.ing := rfl
@[simp] theorem State.setFftQ_rnd (s : State) (c : Nat) (q : List FftJob) : (s.setFftQ c q).rnd = s.rnd := rfl
@[simp] theorem State.setFftQ_cnv (s : State) (c : Nat) (q : List FftJob) : (s.setFftQ c q).cnv = s.cnv := rfl
@[simp] theorem State.setFftQ_mix (s : State) (c : Nat) (q : List FftJob) : (s.setFftQ c q).mix = s.mix := rfl
@[simp] theorem State.setFftQ_slice (s : State) (c : Nat) (q : List FftJob) : (s.setFftQ c q).slice = s.slice := rfl
@[simp] theorem State.setFftQ_evs (s : State) (c : Nat) (q : List FftJob) : (s.setFftQ c q).evs = s.evs := rfl
@[simp] theorem State.setFftQ_ev53 (s : State) (c : Nat) (q : List FftJob) : (s.setFftQ c q).ev53 = s.ev53 := rfl
@[simp] theorem State.setFftQ_straps (s : State) (c : Nat) (q : List FftJob) : (s.setFftQ c q).straps = s.straps := rfl
@[simp] theorem State.setFftQ_queues (s : State) (c : Nat) (q : List FftJob) : (s.setFftQ c q).queues = s.queues := rfl
@[simp] theorem State.setFftQ_dram (s : State) (c : Nat) (q : List FftJob) : (s.setFftQ c q).dram = s.dram := rfl
@[simp] theorem State.setFftQ_tiles (s : State) (c : Nat) (q : List FftJob) : (s.setFftQ c q).tiles = s.tiles := rfl
@[simp] theorem State.setFftQ_parWords (s : State) (c : Nat) (q : List FftJob) : (s.setFftQ c q).parWords = s.parWords := rfl
@[simp] theorem State.setFftQ_macs (s : State) (c : Nat) (q : List FftJob) : (s.setFftQ c q).macs = s.macs := rfl
@[simp] theorem State.setFftQ_mdioEnd (s : State) (c : Nat) (q : List FftJob) : (s.setFftQ c q).mdioEnd = s.mdioEnd := rfl
@[simp] theorem State.setFftQ_tim (s : State) (c : Nat) (q : List FftJob) : (s.setFftQ c q).tim = s.tim := rfl
@[simp] theorem State.setFftQ_streams (s : State) (c : Nat) (q : List FftJob) : (s.setFftQ c q).streams = s.streams := rfl
@[simp] theorem State.setFftQ_vox (s : State) (c : Nat) (q : List FftJob) : (s.setFftQ c q).vox = s.vox := rfl
@[simp] theorem State.setFftQ_heldRegs (s : State) (c : Nat) (q : List FftJob) : (s.setFftQ c q).heldRegs = s.heldRegs := rfl
@[simp] theorem State.setFftQ_imgs (s : State) (c : Nat) (q : List FftJob) : (s.setFftQ c q).imgs = s.imgs := rfl
@[simp] theorem State.setFftQ_wick (s : State) (c : Nat) (q : List FftJob) : (s.setFftQ c q).wick = s.wick := rfl
@[simp] theorem State.setFftQ_vig (s : State) (c : Nat) (q : List FftJob) : (s.setFftQ c q).vig = s.vig := rfl
@[simp] theorem State.setFftQ_sec (s : State) (c : Nat) (q : List FftJob) : (s.setFftQ c q).sec = s.sec := rfl
@[simp] theorem State.setFftQ_pwr (s : State) (c : Nat) (q : List FftJob) : (s.setFftQ c q).pwr = s.pwr := rfl
@[simp] theorem State.setFftQ_sta (s : State) (c : Nat) (q : List FftJob) : (s.setFftQ c q).sta = s.sta := rfl
@[simp] theorem State.setFftQ_mnt (s : State) (c : Nat) (q : List FftJob) : (s.setFftQ c q).mnt = s.mnt := rfl
@[simp] theorem State.setFftQ_ports (s : State) (c : Nat) (q : List FftJob) : (s.setFftQ c q).ports = s.ports := rfl
@[simp] theorem State.setFftQ_ops (s : State) (c : Nat) (q : List FftJob) : (s.setFftQ c q).ops = s.ops := rfl
@[simp] theorem State.setFftQ_link (s : State) (c : Nat) (q : List FftJob) : (s.setFftQ c q).link = s.link := rfl
@[simp] theorem State.setFftQ_reg (s : State) (c : Nat) (q : List FftJob) (a : Nat) : (s.setFftQ c q).reg a = s.reg a := rfl
@[simp] theorem State.setFftQ_now (s : State) (c : Nat) (q : List FftJob) : (s.setFftQ c q).now = s.now := rfl

/-! ### setCore -/

@[simp] theorem State.setCore_pending (s : State) (c : Nat) (x : LCore) : (s.setCore c x).pending = s.pending := rfl
@[simp] theorem State.setCore_free (s : State) (c : Nat) (x : LCore) : (s.setCore c x).free = s.free := rfl
@[simp] theorem State.setCore_clock (s : State) (c : Nat) (x : LCore) : (s.setCore c x).clock = s.clock := rfl
@[simp] theorem State.setCore_regs (s : State) (c : Nat) (x : LCore) : (s.setCore c x).regs = s.regs := rfl
@[simp] theorem State.setCore_host (s : State) (c : Nat) (x : LCore) : (s.setCore c x).host = s.host := rfl
@[simp] theorem State.setCore_rings (s : State) (c : Nat) (x : LCore) : (s.setCore c x).rings = s.rings := rfl
@[simp] theorem State.setCore_audit (s : State) (c : Nat) (x : LCore) : (s.setCore c x).audit = s.audit := rfl
@[simp] theorem State.setCore_mgt (s : State) (c : Nat) (x : LCore) : (s.setCore c x).mgt = s.mgt := rfl
@[simp] theorem State.setCore_ing (s : State) (c : Nat) (x : LCore) : (s.setCore c x).ing = s.ing := rfl
@[simp] theorem State.setCore_rnd (s : State) (c : Nat) (x : LCore) : (s.setCore c x).rnd = s.rnd := rfl
@[simp] theorem State.setCore_cnv (s : State) (c : Nat) (x : LCore) : (s.setCore c x).cnv = s.cnv := rfl
@[simp] theorem State.setCore_mix (s : State) (c : Nat) (x : LCore) : (s.setCore c x).mix = s.mix := rfl
@[simp] theorem State.setCore_slice (s : State) (c : Nat) (x : LCore) : (s.setCore c x).slice = s.slice := rfl
@[simp] theorem State.setCore_evs (s : State) (c : Nat) (x : LCore) : (s.setCore c x).evs = s.evs := rfl
@[simp] theorem State.setCore_ev53 (s : State) (c : Nat) (x : LCore) : (s.setCore c x).ev53 = s.ev53 := rfl
@[simp] theorem State.setCore_straps (s : State) (c : Nat) (x : LCore) : (s.setCore c x).straps = s.straps := rfl
@[simp] theorem State.setCore_queues (s : State) (c : Nat) (x : LCore) : (s.setCore c x).queues = s.queues := rfl
@[simp] theorem State.setCore_dram (s : State) (c : Nat) (x : LCore) : (s.setCore c x).dram = s.dram := rfl
@[simp] theorem State.setCore_tiles (s : State) (c : Nat) (x : LCore) : (s.setCore c x).tiles = s.tiles := rfl
@[simp] theorem State.setCore_parWords (s : State) (c : Nat) (x : LCore) : (s.setCore c x).parWords = s.parWords := rfl
@[simp] theorem State.setCore_macs (s : State) (c : Nat) (x : LCore) : (s.setCore c x).macs = s.macs := rfl
@[simp] theorem State.setCore_mdioEnd (s : State) (c : Nat) (x : LCore) : (s.setCore c x).mdioEnd = s.mdioEnd := rfl
@[simp] theorem State.setCore_tim (s : State) (c : Nat) (x : LCore) : (s.setCore c x).tim = s.tim := rfl
@[simp] theorem State.setCore_streams (s : State) (c : Nat) (x : LCore) : (s.setCore c x).streams = s.streams := rfl
@[simp] theorem State.setCore_vox (s : State) (c : Nat) (x : LCore) : (s.setCore c x).vox = s.vox := rfl
@[simp] theorem State.setCore_heldRegs (s : State) (c : Nat) (x : LCore) : (s.setCore c x).heldRegs = s.heldRegs := rfl
@[simp] theorem State.setCore_imgs (s : State) (c : Nat) (x : LCore) : (s.setCore c x).imgs = s.imgs := rfl
@[simp] theorem State.setCore_wick (s : State) (c : Nat) (x : LCore) : (s.setCore c x).wick = s.wick := rfl
@[simp] theorem State.setCore_vig (s : State) (c : Nat) (x : LCore) : (s.setCore c x).vig = s.vig := rfl
@[simp] theorem State.setCore_sec (s : State) (c : Nat) (x : LCore) : (s.setCore c x).sec = s.sec := rfl
@[simp] theorem State.setCore_pwr (s : State) (c : Nat) (x : LCore) : (s.setCore c x).pwr = s.pwr := rfl
@[simp] theorem State.setCore_sta (s : State) (c : Nat) (x : LCore) : (s.setCore c x).sta = s.sta := rfl
@[simp] theorem State.setCore_mnt (s : State) (c : Nat) (x : LCore) : (s.setCore c x).mnt = s.mnt := rfl
@[simp] theorem State.setCore_ports (s : State) (c : Nat) (x : LCore) : (s.setCore c x).ports = s.ports := rfl
@[simp] theorem State.setCore_ops (s : State) (c : Nat) (x : LCore) : (s.setCore c x).ops = s.ops := rfl
@[simp] theorem State.setCore_link (s : State) (c : Nat) (x : LCore) : (s.setCore c x).link = s.link := rfl
@[simp] theorem State.setCore_reg (s : State) (c : Nat) (x : LCore) (a : Nat) : (s.setCore c x).reg a = s.reg a := rfl
@[simp] theorem State.setCore_now (s : State) (c : Nat) (x : LCore) : (s.setCore c x).now = s.now := rfl

/-! ### onHost -/

@[simp] theorem State.onHost_pending (s : State) (f : HostIf → HostIf) : (s.onHost f).pending = s.pending := rfl
@[simp] theorem State.onHost_free (s : State) (f : HostIf → HostIf) : (s.onHost f).free = s.free := rfl
@[simp] theorem State.onHost_clock (s : State) (f : HostIf → HostIf) : (s.onHost f).clock = s.clock := rfl
@[simp] theorem State.onHost_regs (s : State) (f : HostIf → HostIf) : (s.onHost f).regs = s.regs := rfl
@[simp] theorem State.onHost_rings (s : State) (f : HostIf → HostIf) : (s.onHost f).rings = s.rings := rfl
@[simp] theorem State.onHost_audit (s : State) (f : HostIf → HostIf) : (s.onHost f).audit = s.audit := rfl
@[simp] theorem State.onHost_mgt (s : State) (f : HostIf → HostIf) : (s.onHost f).mgt = s.mgt := rfl
@[simp] theorem State.onHost_ing (s : State) (f : HostIf → HostIf) : (s.onHost f).ing = s.ing := rfl
@[simp] theorem State.onHost_rnd (s : State) (f : HostIf → HostIf) : (s.onHost f).rnd = s.rnd := rfl
@[simp] theorem State.onHost_cnv (s : State) (f : HostIf → HostIf) : (s.onHost f).cnv = s.cnv := rfl
@[simp] theorem State.onHost_mix (s : State) (f : HostIf → HostIf) : (s.onHost f).mix = s.mix := rfl
@[simp] theorem State.onHost_slice (s : State) (f : HostIf → HostIf) : (s.onHost f).slice = s.slice := rfl
@[simp] theorem State.onHost_evs (s : State) (f : HostIf → HostIf) : (s.onHost f).evs = s.evs := rfl
@[simp] theorem State.onHost_ev53 (s : State) (f : HostIf → HostIf) : (s.onHost f).ev53 = s.ev53 := rfl
@[simp] theorem State.onHost_straps (s : State) (f : HostIf → HostIf) : (s.onHost f).straps = s.straps := rfl
@[simp] theorem State.onHost_queues (s : State) (f : HostIf → HostIf) : (s.onHost f).queues = s.queues := rfl
@[simp] theorem State.onHost_dram (s : State) (f : HostIf → HostIf) : (s.onHost f).dram = s.dram := rfl
@[simp] theorem State.onHost_tiles (s : State) (f : HostIf → HostIf) : (s.onHost f).tiles = s.tiles := rfl
@[simp] theorem State.onHost_parWords (s : State) (f : HostIf → HostIf) : (s.onHost f).parWords = s.parWords := rfl
@[simp] theorem State.onHost_macs (s : State) (f : HostIf → HostIf) : (s.onHost f).macs = s.macs := rfl
@[simp] theorem State.onHost_mdioEnd (s : State) (f : HostIf → HostIf) : (s.onHost f).mdioEnd = s.mdioEnd := rfl
@[simp] theorem State.onHost_tim (s : State) (f : HostIf → HostIf) : (s.onHost f).tim = s.tim := rfl
@[simp] theorem State.onHost_streams (s : State) (f : HostIf → HostIf) : (s.onHost f).streams = s.streams := rfl
@[simp] theorem State.onHost_vox (s : State) (f : HostIf → HostIf) : (s.onHost f).vox = s.vox := rfl
@[simp] theorem State.onHost_heldRegs (s : State) (f : HostIf → HostIf) : (s.onHost f).heldRegs = s.heldRegs := rfl
@[simp] theorem State.onHost_imgs (s : State) (f : HostIf → HostIf) : (s.onHost f).imgs = s.imgs := rfl
@[simp] theorem State.onHost_wick (s : State) (f : HostIf → HostIf) : (s.onHost f).wick = s.wick := rfl
@[simp] theorem State.onHost_lan (s : State) (f : HostIf → HostIf) : (s.onHost f).lan = s.lan := rfl
@[simp] theorem State.onHost_vig (s : State) (f : HostIf → HostIf) : (s.onHost f).vig = s.vig := rfl
@[simp] theorem State.onHost_sec (s : State) (f : HostIf → HostIf) : (s.onHost f).sec = s.sec := rfl
@[simp] theorem State.onHost_pwr (s : State) (f : HostIf → HostIf) : (s.onHost f).pwr = s.pwr := rfl
@[simp] theorem State.onHost_sta (s : State) (f : HostIf → HostIf) : (s.onHost f).sta = s.sta := rfl
@[simp] theorem State.onHost_mnt (s : State) (f : HostIf → HostIf) : (s.onHost f).mnt = s.mnt := rfl
@[simp] theorem State.onHost_ports (s : State) (f : HostIf → HostIf) : (s.onHost f).ports = s.ports := rfl
@[simp] theorem State.onHost_ops (s : State) (f : HostIf → HostIf) : (s.onHost f).ops = s.ops := rfl
@[simp] theorem State.onHost_link (s : State) (f : HostIf → HostIf) : (s.onHost f).link = s.link := rfl
@[simp] theorem State.onHost_reg (s : State) (f : HostIf → HostIf) (a : Nat) : (s.onHost f).reg a = s.reg a := rfl
@[simp] theorem State.onHost_now (s : State) (f : HostIf → HostIf) : (s.onHost f).now = s.now := rfl

/-! ### onAudit -/

@[simp] theorem State.onAudit_pending (s : State) (f : Audit → Audit) : (s.onAudit f).pending = s.pending := rfl
@[simp] theorem State.onAudit_free (s : State) (f : Audit → Audit) : (s.onAudit f).free = s.free := rfl
@[simp] theorem State.onAudit_clock (s : State) (f : Audit → Audit) : (s.onAudit f).clock = s.clock := rfl
@[simp] theorem State.onAudit_regs (s : State) (f : Audit → Audit) : (s.onAudit f).regs = s.regs := rfl
@[simp] theorem State.onAudit_host (s : State) (f : Audit → Audit) : (s.onAudit f).host = s.host := rfl
@[simp] theorem State.onAudit_rings (s : State) (f : Audit → Audit) : (s.onAudit f).rings = s.rings := rfl
@[simp] theorem State.onAudit_mgt (s : State) (f : Audit → Audit) : (s.onAudit f).mgt = s.mgt := rfl
@[simp] theorem State.onAudit_ing (s : State) (f : Audit → Audit) : (s.onAudit f).ing = s.ing := rfl
@[simp] theorem State.onAudit_rnd (s : State) (f : Audit → Audit) : (s.onAudit f).rnd = s.rnd := rfl
@[simp] theorem State.onAudit_cnv (s : State) (f : Audit → Audit) : (s.onAudit f).cnv = s.cnv := rfl
@[simp] theorem State.onAudit_mix (s : State) (f : Audit → Audit) : (s.onAudit f).mix = s.mix := rfl
@[simp] theorem State.onAudit_slice (s : State) (f : Audit → Audit) : (s.onAudit f).slice = s.slice := rfl
@[simp] theorem State.onAudit_evs (s : State) (f : Audit → Audit) : (s.onAudit f).evs = s.evs := rfl
@[simp] theorem State.onAudit_ev53 (s : State) (f : Audit → Audit) : (s.onAudit f).ev53 = s.ev53 := rfl
@[simp] theorem State.onAudit_straps (s : State) (f : Audit → Audit) : (s.onAudit f).straps = s.straps := rfl
@[simp] theorem State.onAudit_queues (s : State) (f : Audit → Audit) : (s.onAudit f).queues = s.queues := rfl
@[simp] theorem State.onAudit_dram (s : State) (f : Audit → Audit) : (s.onAudit f).dram = s.dram := rfl
@[simp] theorem State.onAudit_tiles (s : State) (f : Audit → Audit) : (s.onAudit f).tiles = s.tiles := rfl
@[simp] theorem State.onAudit_parWords (s : State) (f : Audit → Audit) : (s.onAudit f).parWords = s.parWords := rfl
@[simp] theorem State.onAudit_macs (s : State) (f : Audit → Audit) : (s.onAudit f).macs = s.macs := rfl
@[simp] theorem State.onAudit_mdioEnd (s : State) (f : Audit → Audit) : (s.onAudit f).mdioEnd = s.mdioEnd := rfl
@[simp] theorem State.onAudit_tim (s : State) (f : Audit → Audit) : (s.onAudit f).tim = s.tim := rfl
@[simp] theorem State.onAudit_streams (s : State) (f : Audit → Audit) : (s.onAudit f).streams = s.streams := rfl
@[simp] theorem State.onAudit_vox (s : State) (f : Audit → Audit) : (s.onAudit f).vox = s.vox := rfl
@[simp] theorem State.onAudit_heldRegs (s : State) (f : Audit → Audit) : (s.onAudit f).heldRegs = s.heldRegs := rfl
@[simp] theorem State.onAudit_imgs (s : State) (f : Audit → Audit) : (s.onAudit f).imgs = s.imgs := rfl
@[simp] theorem State.onAudit_wick (s : State) (f : Audit → Audit) : (s.onAudit f).wick = s.wick := rfl
@[simp] theorem State.onAudit_lan (s : State) (f : Audit → Audit) : (s.onAudit f).lan = s.lan := rfl
@[simp] theorem State.onAudit_vig (s : State) (f : Audit → Audit) : (s.onAudit f).vig = s.vig := rfl
@[simp] theorem State.onAudit_sec (s : State) (f : Audit → Audit) : (s.onAudit f).sec = s.sec := rfl
@[simp] theorem State.onAudit_pwr (s : State) (f : Audit → Audit) : (s.onAudit f).pwr = s.pwr := rfl
@[simp] theorem State.onAudit_sta (s : State) (f : Audit → Audit) : (s.onAudit f).sta = s.sta := rfl
@[simp] theorem State.onAudit_mnt (s : State) (f : Audit → Audit) : (s.onAudit f).mnt = s.mnt := rfl
@[simp] theorem State.onAudit_ports (s : State) (f : Audit → Audit) : (s.onAudit f).ports = s.ports := rfl
@[simp] theorem State.onAudit_ops (s : State) (f : Audit → Audit) : (s.onAudit f).ops = s.ops := rfl
@[simp] theorem State.onAudit_link (s : State) (f : Audit → Audit) : (s.onAudit f).link = s.link := rfl
@[simp] theorem State.onAudit_reg (s : State) (f : Audit → Audit) (a : Nat) : (s.onAudit f).reg a = s.reg a := rfl
@[simp] theorem State.onAudit_now (s : State) (f : Audit → Audit) : (s.onAudit f).now = s.now := rfl

/-! ### onMgt -/

@[simp] theorem State.onMgt_pending (s : State) (f : Mgt → Mgt) : (s.onMgt f).pending = s.pending := rfl
@[simp] theorem State.onMgt_free (s : State) (f : Mgt → Mgt) : (s.onMgt f).free = s.free := rfl
@[simp] theorem State.onMgt_clock (s : State) (f : Mgt → Mgt) : (s.onMgt f).clock = s.clock := rfl
@[simp] theorem State.onMgt_regs (s : State) (f : Mgt → Mgt) : (s.onMgt f).regs = s.regs := rfl
@[simp] theorem State.onMgt_host (s : State) (f : Mgt → Mgt) : (s.onMgt f).host = s.host := rfl
@[simp] theorem State.onMgt_rings (s : State) (f : Mgt → Mgt) : (s.onMgt f).rings = s.rings := rfl
@[simp] theorem State.onMgt_audit (s : State) (f : Mgt → Mgt) : (s.onMgt f).audit = s.audit := rfl
@[simp] theorem State.onMgt_ing (s : State) (f : Mgt → Mgt) : (s.onMgt f).ing = s.ing := rfl
@[simp] theorem State.onMgt_rnd (s : State) (f : Mgt → Mgt) : (s.onMgt f).rnd = s.rnd := rfl
@[simp] theorem State.onMgt_cnv (s : State) (f : Mgt → Mgt) : (s.onMgt f).cnv = s.cnv := rfl
@[simp] theorem State.onMgt_mix (s : State) (f : Mgt → Mgt) : (s.onMgt f).mix = s.mix := rfl
@[simp] theorem State.onMgt_slice (s : State) (f : Mgt → Mgt) : (s.onMgt f).slice = s.slice := rfl
@[simp] theorem State.onMgt_evs (s : State) (f : Mgt → Mgt) : (s.onMgt f).evs = s.evs := rfl
@[simp] theorem State.onMgt_ev53 (s : State) (f : Mgt → Mgt) : (s.onMgt f).ev53 = s.ev53 := rfl
@[simp] theorem State.onMgt_straps (s : State) (f : Mgt → Mgt) : (s.onMgt f).straps = s.straps := rfl
@[simp] theorem State.onMgt_queues (s : State) (f : Mgt → Mgt) : (s.onMgt f).queues = s.queues := rfl
@[simp] theorem State.onMgt_dram (s : State) (f : Mgt → Mgt) : (s.onMgt f).dram = s.dram := rfl
@[simp] theorem State.onMgt_tiles (s : State) (f : Mgt → Mgt) : (s.onMgt f).tiles = s.tiles := rfl
@[simp] theorem State.onMgt_parWords (s : State) (f : Mgt → Mgt) : (s.onMgt f).parWords = s.parWords := rfl
@[simp] theorem State.onMgt_macs (s : State) (f : Mgt → Mgt) : (s.onMgt f).macs = s.macs := rfl
@[simp] theorem State.onMgt_mdioEnd (s : State) (f : Mgt → Mgt) : (s.onMgt f).mdioEnd = s.mdioEnd := rfl
@[simp] theorem State.onMgt_tim (s : State) (f : Mgt → Mgt) : (s.onMgt f).tim = s.tim := rfl
@[simp] theorem State.onMgt_streams (s : State) (f : Mgt → Mgt) : (s.onMgt f).streams = s.streams := rfl
@[simp] theorem State.onMgt_vox (s : State) (f : Mgt → Mgt) : (s.onMgt f).vox = s.vox := rfl
@[simp] theorem State.onMgt_heldRegs (s : State) (f : Mgt → Mgt) : (s.onMgt f).heldRegs = s.heldRegs := rfl
@[simp] theorem State.onMgt_imgs (s : State) (f : Mgt → Mgt) : (s.onMgt f).imgs = s.imgs := rfl
@[simp] theorem State.onMgt_wick (s : State) (f : Mgt → Mgt) : (s.onMgt f).wick = s.wick := rfl
@[simp] theorem State.onMgt_lan (s : State) (f : Mgt → Mgt) : (s.onMgt f).lan = s.lan := rfl
@[simp] theorem State.onMgt_vig (s : State) (f : Mgt → Mgt) : (s.onMgt f).vig = s.vig := rfl
@[simp] theorem State.onMgt_sec (s : State) (f : Mgt → Mgt) : (s.onMgt f).sec = s.sec := rfl
@[simp] theorem State.onMgt_pwr (s : State) (f : Mgt → Mgt) : (s.onMgt f).pwr = s.pwr := rfl
@[simp] theorem State.onMgt_sta (s : State) (f : Mgt → Mgt) : (s.onMgt f).sta = s.sta := rfl
@[simp] theorem State.onMgt_mnt (s : State) (f : Mgt → Mgt) : (s.onMgt f).mnt = s.mnt := rfl
@[simp] theorem State.onMgt_ports (s : State) (f : Mgt → Mgt) : (s.onMgt f).ports = s.ports := rfl
@[simp] theorem State.onMgt_ops (s : State) (f : Mgt → Mgt) : (s.onMgt f).ops = s.ops := rfl
@[simp] theorem State.onMgt_link (s : State) (f : Mgt → Mgt) : (s.onMgt f).link = s.link := rfl
@[simp] theorem State.onMgt_reg (s : State) (f : Mgt → Mgt) (a : Nat) : (s.onMgt f).reg a = s.reg a := rfl
@[simp] theorem State.onMgt_now (s : State) (f : Mgt → Mgt) : (s.onMgt f).now = s.now := rfl

/-! ### onRnd -/

@[simp] theorem State.onRnd_pending (s : State) (f : Render → Render) : (s.onRnd f).pending = s.pending := rfl
@[simp] theorem State.onRnd_free (s : State) (f : Render → Render) : (s.onRnd f).free = s.free := rfl
@[simp] theorem State.onRnd_clock (s : State) (f : Render → Render) : (s.onRnd f).clock = s.clock := rfl
@[simp] theorem State.onRnd_regs (s : State) (f : Render → Render) : (s.onRnd f).regs = s.regs := rfl
@[simp] theorem State.onRnd_host (s : State) (f : Render → Render) : (s.onRnd f).host = s.host := rfl
@[simp] theorem State.onRnd_rings (s : State) (f : Render → Render) : (s.onRnd f).rings = s.rings := rfl
@[simp] theorem State.onRnd_audit (s : State) (f : Render → Render) : (s.onRnd f).audit = s.audit := rfl
@[simp] theorem State.onRnd_mgt (s : State) (f : Render → Render) : (s.onRnd f).mgt = s.mgt := rfl
@[simp] theorem State.onRnd_ing (s : State) (f : Render → Render) : (s.onRnd f).ing = s.ing := rfl
@[simp] theorem State.onRnd_cnv (s : State) (f : Render → Render) : (s.onRnd f).cnv = s.cnv := rfl
@[simp] theorem State.onRnd_mix (s : State) (f : Render → Render) : (s.onRnd f).mix = s.mix := rfl
@[simp] theorem State.onRnd_slice (s : State) (f : Render → Render) : (s.onRnd f).slice = s.slice := rfl
@[simp] theorem State.onRnd_evs (s : State) (f : Render → Render) : (s.onRnd f).evs = s.evs := rfl
@[simp] theorem State.onRnd_ev53 (s : State) (f : Render → Render) : (s.onRnd f).ev53 = s.ev53 := rfl
@[simp] theorem State.onRnd_straps (s : State) (f : Render → Render) : (s.onRnd f).straps = s.straps := rfl
@[simp] theorem State.onRnd_queues (s : State) (f : Render → Render) : (s.onRnd f).queues = s.queues := rfl
@[simp] theorem State.onRnd_dram (s : State) (f : Render → Render) : (s.onRnd f).dram = s.dram := rfl
@[simp] theorem State.onRnd_tiles (s : State) (f : Render → Render) : (s.onRnd f).tiles = s.tiles := rfl
@[simp] theorem State.onRnd_parWords (s : State) (f : Render → Render) : (s.onRnd f).parWords = s.parWords := rfl
@[simp] theorem State.onRnd_macs (s : State) (f : Render → Render) : (s.onRnd f).macs = s.macs := rfl
@[simp] theorem State.onRnd_mdioEnd (s : State) (f : Render → Render) : (s.onRnd f).mdioEnd = s.mdioEnd := rfl
@[simp] theorem State.onRnd_tim (s : State) (f : Render → Render) : (s.onRnd f).tim = s.tim := rfl
@[simp] theorem State.onRnd_streams (s : State) (f : Render → Render) : (s.onRnd f).streams = s.streams := rfl
@[simp] theorem State.onRnd_vox (s : State) (f : Render → Render) : (s.onRnd f).vox = s.vox := rfl
@[simp] theorem State.onRnd_heldRegs (s : State) (f : Render → Render) : (s.onRnd f).heldRegs = s.heldRegs := rfl
@[simp] theorem State.onRnd_imgs (s : State) (f : Render → Render) : (s.onRnd f).imgs = s.imgs := rfl
@[simp] theorem State.onRnd_wick (s : State) (f : Render → Render) : (s.onRnd f).wick = s.wick := rfl
@[simp] theorem State.onRnd_lan (s : State) (f : Render → Render) : (s.onRnd f).lan = s.lan := rfl
@[simp] theorem State.onRnd_vig (s : State) (f : Render → Render) : (s.onRnd f).vig = s.vig := rfl
@[simp] theorem State.onRnd_sec (s : State) (f : Render → Render) : (s.onRnd f).sec = s.sec := rfl
@[simp] theorem State.onRnd_pwr (s : State) (f : Render → Render) : (s.onRnd f).pwr = s.pwr := rfl
@[simp] theorem State.onRnd_sta (s : State) (f : Render → Render) : (s.onRnd f).sta = s.sta := rfl
@[simp] theorem State.onRnd_mnt (s : State) (f : Render → Render) : (s.onRnd f).mnt = s.mnt := rfl
@[simp] theorem State.onRnd_ports (s : State) (f : Render → Render) : (s.onRnd f).ports = s.ports := rfl
@[simp] theorem State.onRnd_ops (s : State) (f : Render → Render) : (s.onRnd f).ops = s.ops := rfl
@[simp] theorem State.onRnd_link (s : State) (f : Render → Render) : (s.onRnd f).link = s.link := rfl
@[simp] theorem State.onRnd_reg (s : State) (f : Render → Render) (a : Nat) : (s.onRnd f).reg a = s.reg a := rfl
@[simp] theorem State.onRnd_now (s : State) (f : Render → Render) : (s.onRnd f).now = s.now := rfl

/-! ### onCnv -/

@[simp] theorem State.onCnv_pending (s : State) (f : Conv → Conv) : (s.onCnv f).pending = s.pending := rfl
@[simp] theorem State.onCnv_free (s : State) (f : Conv → Conv) : (s.onCnv f).free = s.free := rfl
@[simp] theorem State.onCnv_clock (s : State) (f : Conv → Conv) : (s.onCnv f).clock = s.clock := rfl
@[simp] theorem State.onCnv_regs (s : State) (f : Conv → Conv) : (s.onCnv f).regs = s.regs := rfl
@[simp] theorem State.onCnv_host (s : State) (f : Conv → Conv) : (s.onCnv f).host = s.host := rfl
@[simp] theorem State.onCnv_rings (s : State) (f : Conv → Conv) : (s.onCnv f).rings = s.rings := rfl
@[simp] theorem State.onCnv_audit (s : State) (f : Conv → Conv) : (s.onCnv f).audit = s.audit := rfl
@[simp] theorem State.onCnv_mgt (s : State) (f : Conv → Conv) : (s.onCnv f).mgt = s.mgt := rfl
@[simp] theorem State.onCnv_ing (s : State) (f : Conv → Conv) : (s.onCnv f).ing = s.ing := rfl
@[simp] theorem State.onCnv_rnd (s : State) (f : Conv → Conv) : (s.onCnv f).rnd = s.rnd := rfl
@[simp] theorem State.onCnv_mix (s : State) (f : Conv → Conv) : (s.onCnv f).mix = s.mix := rfl
@[simp] theorem State.onCnv_slice (s : State) (f : Conv → Conv) : (s.onCnv f).slice = s.slice := rfl
@[simp] theorem State.onCnv_evs (s : State) (f : Conv → Conv) : (s.onCnv f).evs = s.evs := rfl
@[simp] theorem State.onCnv_ev53 (s : State) (f : Conv → Conv) : (s.onCnv f).ev53 = s.ev53 := rfl
@[simp] theorem State.onCnv_straps (s : State) (f : Conv → Conv) : (s.onCnv f).straps = s.straps := rfl
@[simp] theorem State.onCnv_queues (s : State) (f : Conv → Conv) : (s.onCnv f).queues = s.queues := rfl
@[simp] theorem State.onCnv_dram (s : State) (f : Conv → Conv) : (s.onCnv f).dram = s.dram := rfl
@[simp] theorem State.onCnv_tiles (s : State) (f : Conv → Conv) : (s.onCnv f).tiles = s.tiles := rfl
@[simp] theorem State.onCnv_parWords (s : State) (f : Conv → Conv) : (s.onCnv f).parWords = s.parWords := rfl
@[simp] theorem State.onCnv_macs (s : State) (f : Conv → Conv) : (s.onCnv f).macs = s.macs := rfl
@[simp] theorem State.onCnv_mdioEnd (s : State) (f : Conv → Conv) : (s.onCnv f).mdioEnd = s.mdioEnd := rfl
@[simp] theorem State.onCnv_tim (s : State) (f : Conv → Conv) : (s.onCnv f).tim = s.tim := rfl
@[simp] theorem State.onCnv_streams (s : State) (f : Conv → Conv) : (s.onCnv f).streams = s.streams := rfl
@[simp] theorem State.onCnv_vox (s : State) (f : Conv → Conv) : (s.onCnv f).vox = s.vox := rfl
@[simp] theorem State.onCnv_heldRegs (s : State) (f : Conv → Conv) : (s.onCnv f).heldRegs = s.heldRegs := rfl
@[simp] theorem State.onCnv_imgs (s : State) (f : Conv → Conv) : (s.onCnv f).imgs = s.imgs := rfl
@[simp] theorem State.onCnv_wick (s : State) (f : Conv → Conv) : (s.onCnv f).wick = s.wick := rfl
@[simp] theorem State.onCnv_lan (s : State) (f : Conv → Conv) : (s.onCnv f).lan = s.lan := rfl
@[simp] theorem State.onCnv_vig (s : State) (f : Conv → Conv) : (s.onCnv f).vig = s.vig := rfl
@[simp] theorem State.onCnv_sec (s : State) (f : Conv → Conv) : (s.onCnv f).sec = s.sec := rfl
@[simp] theorem State.onCnv_pwr (s : State) (f : Conv → Conv) : (s.onCnv f).pwr = s.pwr := rfl
@[simp] theorem State.onCnv_sta (s : State) (f : Conv → Conv) : (s.onCnv f).sta = s.sta := rfl
@[simp] theorem State.onCnv_mnt (s : State) (f : Conv → Conv) : (s.onCnv f).mnt = s.mnt := rfl
@[simp] theorem State.onCnv_ports (s : State) (f : Conv → Conv) : (s.onCnv f).ports = s.ports := rfl
@[simp] theorem State.onCnv_ops (s : State) (f : Conv → Conv) : (s.onCnv f).ops = s.ops := rfl
@[simp] theorem State.onCnv_link (s : State) (f : Conv → Conv) : (s.onCnv f).link = s.link := rfl
@[simp] theorem State.onCnv_reg (s : State) (f : Conv → Conv) (a : Nat) : (s.onCnv f).reg a = s.reg a := rfl
@[simp] theorem State.onCnv_now (s : State) (f : Conv → Conv) : (s.onCnv f).now = s.now := rfl

/-! ### onMix -/

@[simp] theorem State.onMix_pending (s : State) (f : Mix → Mix) : (s.onMix f).pending = s.pending := rfl
@[simp] theorem State.onMix_free (s : State) (f : Mix → Mix) : (s.onMix f).free = s.free := rfl
@[simp] theorem State.onMix_clock (s : State) (f : Mix → Mix) : (s.onMix f).clock = s.clock := rfl
@[simp] theorem State.onMix_regs (s : State) (f : Mix → Mix) : (s.onMix f).regs = s.regs := rfl
@[simp] theorem State.onMix_host (s : State) (f : Mix → Mix) : (s.onMix f).host = s.host := rfl
@[simp] theorem State.onMix_rings (s : State) (f : Mix → Mix) : (s.onMix f).rings = s.rings := rfl
@[simp] theorem State.onMix_audit (s : State) (f : Mix → Mix) : (s.onMix f).audit = s.audit := rfl
@[simp] theorem State.onMix_mgt (s : State) (f : Mix → Mix) : (s.onMix f).mgt = s.mgt := rfl
@[simp] theorem State.onMix_ing (s : State) (f : Mix → Mix) : (s.onMix f).ing = s.ing := rfl
@[simp] theorem State.onMix_rnd (s : State) (f : Mix → Mix) : (s.onMix f).rnd = s.rnd := rfl
@[simp] theorem State.onMix_cnv (s : State) (f : Mix → Mix) : (s.onMix f).cnv = s.cnv := rfl
@[simp] theorem State.onMix_slice (s : State) (f : Mix → Mix) : (s.onMix f).slice = s.slice := rfl
@[simp] theorem State.onMix_evs (s : State) (f : Mix → Mix) : (s.onMix f).evs = s.evs := rfl
@[simp] theorem State.onMix_ev53 (s : State) (f : Mix → Mix) : (s.onMix f).ev53 = s.ev53 := rfl
@[simp] theorem State.onMix_straps (s : State) (f : Mix → Mix) : (s.onMix f).straps = s.straps := rfl
@[simp] theorem State.onMix_queues (s : State) (f : Mix → Mix) : (s.onMix f).queues = s.queues := rfl
@[simp] theorem State.onMix_dram (s : State) (f : Mix → Mix) : (s.onMix f).dram = s.dram := rfl
@[simp] theorem State.onMix_tiles (s : State) (f : Mix → Mix) : (s.onMix f).tiles = s.tiles := rfl
@[simp] theorem State.onMix_parWords (s : State) (f : Mix → Mix) : (s.onMix f).parWords = s.parWords := rfl
@[simp] theorem State.onMix_macs (s : State) (f : Mix → Mix) : (s.onMix f).macs = s.macs := rfl
@[simp] theorem State.onMix_mdioEnd (s : State) (f : Mix → Mix) : (s.onMix f).mdioEnd = s.mdioEnd := rfl
@[simp] theorem State.onMix_tim (s : State) (f : Mix → Mix) : (s.onMix f).tim = s.tim := rfl
@[simp] theorem State.onMix_streams (s : State) (f : Mix → Mix) : (s.onMix f).streams = s.streams := rfl
@[simp] theorem State.onMix_vox (s : State) (f : Mix → Mix) : (s.onMix f).vox = s.vox := rfl
@[simp] theorem State.onMix_heldRegs (s : State) (f : Mix → Mix) : (s.onMix f).heldRegs = s.heldRegs := rfl
@[simp] theorem State.onMix_imgs (s : State) (f : Mix → Mix) : (s.onMix f).imgs = s.imgs := rfl
@[simp] theorem State.onMix_wick (s : State) (f : Mix → Mix) : (s.onMix f).wick = s.wick := rfl
@[simp] theorem State.onMix_lan (s : State) (f : Mix → Mix) : (s.onMix f).lan = s.lan := rfl
@[simp] theorem State.onMix_vig (s : State) (f : Mix → Mix) : (s.onMix f).vig = s.vig := rfl
@[simp] theorem State.onMix_sec (s : State) (f : Mix → Mix) : (s.onMix f).sec = s.sec := rfl
@[simp] theorem State.onMix_pwr (s : State) (f : Mix → Mix) : (s.onMix f).pwr = s.pwr := rfl
@[simp] theorem State.onMix_sta (s : State) (f : Mix → Mix) : (s.onMix f).sta = s.sta := rfl
@[simp] theorem State.onMix_mnt (s : State) (f : Mix → Mix) : (s.onMix f).mnt = s.mnt := rfl
@[simp] theorem State.onMix_ports (s : State) (f : Mix → Mix) : (s.onMix f).ports = s.ports := rfl
@[simp] theorem State.onMix_ops (s : State) (f : Mix → Mix) : (s.onMix f).ops = s.ops := rfl
@[simp] theorem State.onMix_link (s : State) (f : Mix → Mix) : (s.onMix f).link = s.link := rfl
@[simp] theorem State.onMix_reg (s : State) (f : Mix → Mix) (a : Nat) : (s.onMix f).reg a = s.reg a := rfl
@[simp] theorem State.onMix_now (s : State) (f : Mix → Mix) : (s.onMix f).now = s.now := rfl

/-! ### setQueue -/

@[simp] theorem State.setQueue_pending (s : State) (o n : Nat) (q : EQueue) : (s.setQueue o n q).pending = s.pending := rfl
@[simp] theorem State.setQueue_free (s : State) (o n : Nat) (q : EQueue) : (s.setQueue o n q).free = s.free := rfl
@[simp] theorem State.setQueue_clock (s : State) (o n : Nat) (q : EQueue) : (s.setQueue o n q).clock = s.clock := rfl
@[simp] theorem State.setQueue_regs (s : State) (o n : Nat) (q : EQueue) : (s.setQueue o n q).regs = s.regs := rfl
@[simp] theorem State.setQueue_host (s : State) (o n : Nat) (q : EQueue) : (s.setQueue o n q).host = s.host := rfl
@[simp] theorem State.setQueue_rings (s : State) (o n : Nat) (q : EQueue) : (s.setQueue o n q).rings = s.rings := rfl
@[simp] theorem State.setQueue_audit (s : State) (o n : Nat) (q : EQueue) : (s.setQueue o n q).audit = s.audit := rfl
@[simp] theorem State.setQueue_mgt (s : State) (o n : Nat) (q : EQueue) : (s.setQueue o n q).mgt = s.mgt := rfl
@[simp] theorem State.setQueue_ing (s : State) (o n : Nat) (q : EQueue) : (s.setQueue o n q).ing = s.ing := rfl
@[simp] theorem State.setQueue_rnd (s : State) (o n : Nat) (q : EQueue) : (s.setQueue o n q).rnd = s.rnd := rfl
@[simp] theorem State.setQueue_cnv (s : State) (o n : Nat) (q : EQueue) : (s.setQueue o n q).cnv = s.cnv := rfl
@[simp] theorem State.setQueue_mix (s : State) (o n : Nat) (q : EQueue) : (s.setQueue o n q).mix = s.mix := rfl
@[simp] theorem State.setQueue_slice (s : State) (o n : Nat) (q : EQueue) : (s.setQueue o n q).slice = s.slice := rfl
@[simp] theorem State.setQueue_evs (s : State) (o n : Nat) (q : EQueue) : (s.setQueue o n q).evs = s.evs := rfl
@[simp] theorem State.setQueue_ev53 (s : State) (o n : Nat) (q : EQueue) : (s.setQueue o n q).ev53 = s.ev53 := rfl
@[simp] theorem State.setQueue_straps (s : State) (o n : Nat) (q : EQueue) : (s.setQueue o n q).straps = s.straps := rfl
@[simp] theorem State.setQueue_dram (s : State) (o n : Nat) (q : EQueue) : (s.setQueue o n q).dram = s.dram := rfl
@[simp] theorem State.setQueue_tiles (s : State) (o n : Nat) (q : EQueue) : (s.setQueue o n q).tiles = s.tiles := rfl
@[simp] theorem State.setQueue_parWords (s : State) (o n : Nat) (q : EQueue) : (s.setQueue o n q).parWords = s.parWords := rfl
@[simp] theorem State.setQueue_macs (s : State) (o n : Nat) (q : EQueue) : (s.setQueue o n q).macs = s.macs := rfl
@[simp] theorem State.setQueue_mdioEnd (s : State) (o n : Nat) (q : EQueue) : (s.setQueue o n q).mdioEnd = s.mdioEnd := rfl
@[simp] theorem State.setQueue_tim (s : State) (o n : Nat) (q : EQueue) : (s.setQueue o n q).tim = s.tim := rfl
@[simp] theorem State.setQueue_streams (s : State) (o n : Nat) (q : EQueue) : (s.setQueue o n q).streams = s.streams := rfl
@[simp] theorem State.setQueue_vox (s : State) (o n : Nat) (q : EQueue) : (s.setQueue o n q).vox = s.vox := rfl
@[simp] theorem State.setQueue_heldRegs (s : State) (o n : Nat) (q : EQueue) : (s.setQueue o n q).heldRegs = s.heldRegs := rfl
@[simp] theorem State.setQueue_imgs (s : State) (o n : Nat) (q : EQueue) : (s.setQueue o n q).imgs = s.imgs := rfl
@[simp] theorem State.setQueue_wick (s : State) (o n : Nat) (q : EQueue) : (s.setQueue o n q).wick = s.wick := rfl
@[simp] theorem State.setQueue_lan (s : State) (o n : Nat) (q : EQueue) : (s.setQueue o n q).lan = s.lan := rfl
@[simp] theorem State.setQueue_vig (s : State) (o n : Nat) (q : EQueue) : (s.setQueue o n q).vig = s.vig := rfl
@[simp] theorem State.setQueue_sec (s : State) (o n : Nat) (q : EQueue) : (s.setQueue o n q).sec = s.sec := rfl
@[simp] theorem State.setQueue_pwr (s : State) (o n : Nat) (q : EQueue) : (s.setQueue o n q).pwr = s.pwr := rfl
@[simp] theorem State.setQueue_sta (s : State) (o n : Nat) (q : EQueue) : (s.setQueue o n q).sta = s.sta := rfl
@[simp] theorem State.setQueue_mnt (s : State) (o n : Nat) (q : EQueue) : (s.setQueue o n q).mnt = s.mnt := rfl
@[simp] theorem State.setQueue_ports (s : State) (o n : Nat) (q : EQueue) : (s.setQueue o n q).ports = s.ports := rfl
@[simp] theorem State.setQueue_ops (s : State) (o n : Nat) (q : EQueue) : (s.setQueue o n q).ops = s.ops := rfl
@[simp] theorem State.setQueue_link (s : State) (o n : Nat) (q : EQueue) : (s.setQueue o n q).link = s.link := rfl
@[simp] theorem State.setQueue_reg (s : State) (o n : Nat) (q : EQueue) (a : Nat) : (s.setQueue o n q).reg a = s.reg a := rfl
@[simp] theorem State.setQueue_now (s : State) (o n : Nat) (q : EQueue) : (s.setQueue o n q).now = s.now := rfl

/-! ### onChan -/

@[simp] theorem State.onChan_pending (s : State) (c : Nat) (f : DramChan → DramChan) : (s.onChan c f).pending = s.pending := rfl
@[simp] theorem State.onChan_free (s : State) (c : Nat) (f : DramChan → DramChan) : (s.onChan c f).free = s.free := rfl
@[simp] theorem State.onChan_clock (s : State) (c : Nat) (f : DramChan → DramChan) : (s.onChan c f).clock = s.clock := rfl
@[simp] theorem State.onChan_regs (s : State) (c : Nat) (f : DramChan → DramChan) : (s.onChan c f).regs = s.regs := rfl
@[simp] theorem State.onChan_host (s : State) (c : Nat) (f : DramChan → DramChan) : (s.onChan c f).host = s.host := rfl
@[simp] theorem State.onChan_rings (s : State) (c : Nat) (f : DramChan → DramChan) : (s.onChan c f).rings = s.rings := rfl
@[simp] theorem State.onChan_audit (s : State) (c : Nat) (f : DramChan → DramChan) : (s.onChan c f).audit = s.audit := rfl
@[simp] theorem State.onChan_mgt (s : State) (c : Nat) (f : DramChan → DramChan) : (s.onChan c f).mgt = s.mgt := rfl
@[simp] theorem State.onChan_ing (s : State) (c : Nat) (f : DramChan → DramChan) : (s.onChan c f).ing = s.ing := rfl
@[simp] theorem State.onChan_rnd (s : State) (c : Nat) (f : DramChan → DramChan) : (s.onChan c f).rnd = s.rnd := rfl
@[simp] theorem State.onChan_cnv (s : State) (c : Nat) (f : DramChan → DramChan) : (s.onChan c f).cnv = s.cnv := rfl
@[simp] theorem State.onChan_mix (s : State) (c : Nat) (f : DramChan → DramChan) : (s.onChan c f).mix = s.mix := rfl
@[simp] theorem State.onChan_slice (s : State) (c : Nat) (f : DramChan → DramChan) : (s.onChan c f).slice = s.slice := rfl
@[simp] theorem State.onChan_evs (s : State) (c : Nat) (f : DramChan → DramChan) : (s.onChan c f).evs = s.evs := rfl
@[simp] theorem State.onChan_ev53 (s : State) (c : Nat) (f : DramChan → DramChan) : (s.onChan c f).ev53 = s.ev53 := rfl
@[simp] theorem State.onChan_straps (s : State) (c : Nat) (f : DramChan → DramChan) : (s.onChan c f).straps = s.straps := rfl
@[simp] theorem State.onChan_queues (s : State) (c : Nat) (f : DramChan → DramChan) : (s.onChan c f).queues = s.queues := rfl
@[simp] theorem State.onChan_tiles (s : State) (c : Nat) (f : DramChan → DramChan) : (s.onChan c f).tiles = s.tiles := rfl
@[simp] theorem State.onChan_parWords (s : State) (c : Nat) (f : DramChan → DramChan) : (s.onChan c f).parWords = s.parWords := rfl
@[simp] theorem State.onChan_macs (s : State) (c : Nat) (f : DramChan → DramChan) : (s.onChan c f).macs = s.macs := rfl
@[simp] theorem State.onChan_mdioEnd (s : State) (c : Nat) (f : DramChan → DramChan) : (s.onChan c f).mdioEnd = s.mdioEnd := rfl
@[simp] theorem State.onChan_tim (s : State) (c : Nat) (f : DramChan → DramChan) : (s.onChan c f).tim = s.tim := rfl
@[simp] theorem State.onChan_streams (s : State) (c : Nat) (f : DramChan → DramChan) : (s.onChan c f).streams = s.streams := rfl
@[simp] theorem State.onChan_vox (s : State) (c : Nat) (f : DramChan → DramChan) : (s.onChan c f).vox = s.vox := rfl
@[simp] theorem State.onChan_heldRegs (s : State) (c : Nat) (f : DramChan → DramChan) : (s.onChan c f).heldRegs = s.heldRegs := rfl
@[simp] theorem State.onChan_imgs (s : State) (c : Nat) (f : DramChan → DramChan) : (s.onChan c f).imgs = s.imgs := rfl
@[simp] theorem State.onChan_wick (s : State) (c : Nat) (f : DramChan → DramChan) : (s.onChan c f).wick = s.wick := rfl
@[simp] theorem State.onChan_lan (s : State) (c : Nat) (f : DramChan → DramChan) : (s.onChan c f).lan = s.lan := rfl
@[simp] theorem State.onChan_vig (s : State) (c : Nat) (f : DramChan → DramChan) : (s.onChan c f).vig = s.vig := rfl
@[simp] theorem State.onChan_sec (s : State) (c : Nat) (f : DramChan → DramChan) : (s.onChan c f).sec = s.sec := rfl
@[simp] theorem State.onChan_pwr (s : State) (c : Nat) (f : DramChan → DramChan) : (s.onChan c f).pwr = s.pwr := rfl
@[simp] theorem State.onChan_sta (s : State) (c : Nat) (f : DramChan → DramChan) : (s.onChan c f).sta = s.sta := rfl
@[simp] theorem State.onChan_mnt (s : State) (c : Nat) (f : DramChan → DramChan) : (s.onChan c f).mnt = s.mnt := rfl
@[simp] theorem State.onChan_ports (s : State) (c : Nat) (f : DramChan → DramChan) : (s.onChan c f).ports = s.ports := rfl
@[simp] theorem State.onChan_ops (s : State) (c : Nat) (f : DramChan → DramChan) : (s.onChan c f).ops = s.ops := rfl
@[simp] theorem State.onChan_link (s : State) (c : Nat) (f : DramChan → DramChan) : (s.onChan c f).link = s.link := rfl
@[simp] theorem State.onChan_reg (s : State) (c : Nat) (f : DramChan → DramChan) (a : Nat) : (s.onChan c f).reg a = s.reg a := rfl
@[simp] theorem State.onChan_now (s : State) (c : Nat) (f : DramChan → DramChan) : (s.onChan c f).now = s.now := rfl

/-! ### setTile -/

@[simp] theorem State.setTile_pending (s : State) (c : Nat) (t : Tile) : (s.setTile c t).pending = s.pending := rfl
@[simp] theorem State.setTile_free (s : State) (c : Nat) (t : Tile) : (s.setTile c t).free = s.free := rfl
@[simp] theorem State.setTile_clock (s : State) (c : Nat) (t : Tile) : (s.setTile c t).clock = s.clock := rfl
@[simp] theorem State.setTile_regs (s : State) (c : Nat) (t : Tile) : (s.setTile c t).regs = s.regs := rfl
@[simp] theorem State.setTile_host (s : State) (c : Nat) (t : Tile) : (s.setTile c t).host = s.host := rfl
@[simp] theorem State.setTile_rings (s : State) (c : Nat) (t : Tile) : (s.setTile c t).rings = s.rings := rfl
@[simp] theorem State.setTile_audit (s : State) (c : Nat) (t : Tile) : (s.setTile c t).audit = s.audit := rfl
@[simp] theorem State.setTile_mgt (s : State) (c : Nat) (t : Tile) : (s.setTile c t).mgt = s.mgt := rfl
@[simp] theorem State.setTile_ing (s : State) (c : Nat) (t : Tile) : (s.setTile c t).ing = s.ing := rfl
@[simp] theorem State.setTile_rnd (s : State) (c : Nat) (t : Tile) : (s.setTile c t).rnd = s.rnd := rfl
@[simp] theorem State.setTile_cnv (s : State) (c : Nat) (t : Tile) : (s.setTile c t).cnv = s.cnv := rfl
@[simp] theorem State.setTile_mix (s : State) (c : Nat) (t : Tile) : (s.setTile c t).mix = s.mix := rfl
@[simp] theorem State.setTile_slice (s : State) (c : Nat) (t : Tile) : (s.setTile c t).slice = s.slice := rfl
@[simp] theorem State.setTile_evs (s : State) (c : Nat) (t : Tile) : (s.setTile c t).evs = s.evs := rfl
@[simp] theorem State.setTile_ev53 (s : State) (c : Nat) (t : Tile) : (s.setTile c t).ev53 = s.ev53 := rfl
@[simp] theorem State.setTile_straps (s : State) (c : Nat) (t : Tile) : (s.setTile c t).straps = s.straps := rfl
@[simp] theorem State.setTile_queues (s : State) (c : Nat) (t : Tile) : (s.setTile c t).queues = s.queues := rfl
@[simp] theorem State.setTile_dram (s : State) (c : Nat) (t : Tile) : (s.setTile c t).dram = s.dram := rfl
@[simp] theorem State.setTile_parWords (s : State) (c : Nat) (t : Tile) : (s.setTile c t).parWords = s.parWords := rfl
@[simp] theorem State.setTile_macs (s : State) (c : Nat) (t : Tile) : (s.setTile c t).macs = s.macs := rfl
@[simp] theorem State.setTile_mdioEnd (s : State) (c : Nat) (t : Tile) : (s.setTile c t).mdioEnd = s.mdioEnd := rfl
@[simp] theorem State.setTile_tim (s : State) (c : Nat) (t : Tile) : (s.setTile c t).tim = s.tim := rfl
@[simp] theorem State.setTile_streams (s : State) (c : Nat) (t : Tile) : (s.setTile c t).streams = s.streams := rfl
@[simp] theorem State.setTile_vox (s : State) (c : Nat) (t : Tile) : (s.setTile c t).vox = s.vox := rfl
@[simp] theorem State.setTile_heldRegs (s : State) (c : Nat) (t : Tile) : (s.setTile c t).heldRegs = s.heldRegs := rfl
@[simp] theorem State.setTile_imgs (s : State) (c : Nat) (t : Tile) : (s.setTile c t).imgs = s.imgs := rfl
@[simp] theorem State.setTile_wick (s : State) (c : Nat) (t : Tile) : (s.setTile c t).wick = s.wick := rfl
@[simp] theorem State.setTile_lan (s : State) (c : Nat) (t : Tile) : (s.setTile c t).lan = s.lan := rfl
@[simp] theorem State.setTile_vig (s : State) (c : Nat) (t : Tile) : (s.setTile c t).vig = s.vig := rfl
@[simp] theorem State.setTile_sec (s : State) (c : Nat) (t : Tile) : (s.setTile c t).sec = s.sec := rfl
@[simp] theorem State.setTile_pwr (s : State) (c : Nat) (t : Tile) : (s.setTile c t).pwr = s.pwr := rfl
@[simp] theorem State.setTile_sta (s : State) (c : Nat) (t : Tile) : (s.setTile c t).sta = s.sta := rfl
@[simp] theorem State.setTile_mnt (s : State) (c : Nat) (t : Tile) : (s.setTile c t).mnt = s.mnt := rfl
@[simp] theorem State.setTile_ports (s : State) (c : Nat) (t : Tile) : (s.setTile c t).ports = s.ports := rfl
@[simp] theorem State.setTile_ops (s : State) (c : Nat) (t : Tile) : (s.setTile c t).ops = s.ops := rfl
@[simp] theorem State.setTile_link (s : State) (c : Nat) (t : Tile) : (s.setTile c t).link = s.link := rfl
@[simp] theorem State.setTile_reg (s : State) (c : Nat) (t : Tile) (a : Nat) : (s.setTile c t).reg a = s.reg a := rfl
@[simp] theorem State.setTile_now (s : State) (c : Nat) (t : Tile) : (s.setTile c t).now = s.now := rfl

/-! ### onMac -/

@[simp] theorem State.onMac_pending (s : State) (n : Nat) (f : Mac → Mac) : (s.onMac n f).pending = s.pending := rfl
@[simp] theorem State.onMac_free (s : State) (n : Nat) (f : Mac → Mac) : (s.onMac n f).free = s.free := rfl
@[simp] theorem State.onMac_clock (s : State) (n : Nat) (f : Mac → Mac) : (s.onMac n f).clock = s.clock := rfl
@[simp] theorem State.onMac_regs (s : State) (n : Nat) (f : Mac → Mac) : (s.onMac n f).regs = s.regs := rfl
@[simp] theorem State.onMac_host (s : State) (n : Nat) (f : Mac → Mac) : (s.onMac n f).host = s.host := rfl
@[simp] theorem State.onMac_rings (s : State) (n : Nat) (f : Mac → Mac) : (s.onMac n f).rings = s.rings := rfl
@[simp] theorem State.onMac_audit (s : State) (n : Nat) (f : Mac → Mac) : (s.onMac n f).audit = s.audit := rfl
@[simp] theorem State.onMac_mgt (s : State) (n : Nat) (f : Mac → Mac) : (s.onMac n f).mgt = s.mgt := rfl
@[simp] theorem State.onMac_ing (s : State) (n : Nat) (f : Mac → Mac) : (s.onMac n f).ing = s.ing := rfl
@[simp] theorem State.onMac_rnd (s : State) (n : Nat) (f : Mac → Mac) : (s.onMac n f).rnd = s.rnd := rfl
@[simp] theorem State.onMac_cnv (s : State) (n : Nat) (f : Mac → Mac) : (s.onMac n f).cnv = s.cnv := rfl
@[simp] theorem State.onMac_mix (s : State) (n : Nat) (f : Mac → Mac) : (s.onMac n f).mix = s.mix := rfl
@[simp] theorem State.onMac_slice (s : State) (n : Nat) (f : Mac → Mac) : (s.onMac n f).slice = s.slice := rfl
@[simp] theorem State.onMac_evs (s : State) (n : Nat) (f : Mac → Mac) : (s.onMac n f).evs = s.evs := rfl
@[simp] theorem State.onMac_ev53 (s : State) (n : Nat) (f : Mac → Mac) : (s.onMac n f).ev53 = s.ev53 := rfl
@[simp] theorem State.onMac_straps (s : State) (n : Nat) (f : Mac → Mac) : (s.onMac n f).straps = s.straps := rfl
@[simp] theorem State.onMac_queues (s : State) (n : Nat) (f : Mac → Mac) : (s.onMac n f).queues = s.queues := rfl
@[simp] theorem State.onMac_dram (s : State) (n : Nat) (f : Mac → Mac) : (s.onMac n f).dram = s.dram := rfl
@[simp] theorem State.onMac_tiles (s : State) (n : Nat) (f : Mac → Mac) : (s.onMac n f).tiles = s.tiles := rfl
@[simp] theorem State.onMac_parWords (s : State) (n : Nat) (f : Mac → Mac) : (s.onMac n f).parWords = s.parWords := rfl
@[simp] theorem State.onMac_mdioEnd (s : State) (n : Nat) (f : Mac → Mac) : (s.onMac n f).mdioEnd = s.mdioEnd := rfl
@[simp] theorem State.onMac_tim (s : State) (n : Nat) (f : Mac → Mac) : (s.onMac n f).tim = s.tim := rfl
@[simp] theorem State.onMac_streams (s : State) (n : Nat) (f : Mac → Mac) : (s.onMac n f).streams = s.streams := rfl
@[simp] theorem State.onMac_vox (s : State) (n : Nat) (f : Mac → Mac) : (s.onMac n f).vox = s.vox := rfl
@[simp] theorem State.onMac_heldRegs (s : State) (n : Nat) (f : Mac → Mac) : (s.onMac n f).heldRegs = s.heldRegs := rfl
@[simp] theorem State.onMac_imgs (s : State) (n : Nat) (f : Mac → Mac) : (s.onMac n f).imgs = s.imgs := rfl
@[simp] theorem State.onMac_wick (s : State) (n : Nat) (f : Mac → Mac) : (s.onMac n f).wick = s.wick := rfl
@[simp] theorem State.onMac_lan (s : State) (n : Nat) (f : Mac → Mac) : (s.onMac n f).lan = s.lan := rfl
@[simp] theorem State.onMac_vig (s : State) (n : Nat) (f : Mac → Mac) : (s.onMac n f).vig = s.vig := rfl
@[simp] theorem State.onMac_sec (s : State) (n : Nat) (f : Mac → Mac) : (s.onMac n f).sec = s.sec := rfl
@[simp] theorem State.onMac_pwr (s : State) (n : Nat) (f : Mac → Mac) : (s.onMac n f).pwr = s.pwr := rfl
@[simp] theorem State.onMac_sta (s : State) (n : Nat) (f : Mac → Mac) : (s.onMac n f).sta = s.sta := rfl
@[simp] theorem State.onMac_mnt (s : State) (n : Nat) (f : Mac → Mac) : (s.onMac n f).mnt = s.mnt := rfl
@[simp] theorem State.onMac_ports (s : State) (n : Nat) (f : Mac → Mac) : (s.onMac n f).ports = s.ports := rfl
@[simp] theorem State.onMac_ops (s : State) (n : Nat) (f : Mac → Mac) : (s.onMac n f).ops = s.ops := rfl
@[simp] theorem State.onMac_link (s : State) (n : Nat) (f : Mac → Mac) : (s.onMac n f).link = s.link := rfl
@[simp] theorem State.onMac_reg (s : State) (n : Nat) (f : Mac → Mac) (a : Nat) : (s.onMac n f).reg a = s.reg a := rfl
@[simp] theorem State.onMac_now (s : State) (n : Nat) (f : Mac → Mac) : (s.onMac n f).now = s.now := rfl

/-! ### onTim -/

@[simp] theorem State.onTim_pending (s : State) (f : TimeBlock → TimeBlock) : (s.onTim f).pending = s.pending := rfl
@[simp] theorem State.onTim_free (s : State) (f : TimeBlock → TimeBlock) : (s.onTim f).free = s.free := rfl
@[simp] theorem State.onTim_clock (s : State) (f : TimeBlock → TimeBlock) : (s.onTim f).clock = s.clock := rfl
@[simp] theorem State.onTim_regs (s : State) (f : TimeBlock → TimeBlock) : (s.onTim f).regs = s.regs := rfl
@[simp] theorem State.onTim_host (s : State) (f : TimeBlock → TimeBlock) : (s.onTim f).host = s.host := rfl
@[simp] theorem State.onTim_rings (s : State) (f : TimeBlock → TimeBlock) : (s.onTim f).rings = s.rings := rfl
@[simp] theorem State.onTim_audit (s : State) (f : TimeBlock → TimeBlock) : (s.onTim f).audit = s.audit := rfl
@[simp] theorem State.onTim_mgt (s : State) (f : TimeBlock → TimeBlock) : (s.onTim f).mgt = s.mgt := rfl
@[simp] theorem State.onTim_ing (s : State) (f : TimeBlock → TimeBlock) : (s.onTim f).ing = s.ing := rfl
@[simp] theorem State.onTim_rnd (s : State) (f : TimeBlock → TimeBlock) : (s.onTim f).rnd = s.rnd := rfl
@[simp] theorem State.onTim_cnv (s : State) (f : TimeBlock → TimeBlock) : (s.onTim f).cnv = s.cnv := rfl
@[simp] theorem State.onTim_mix (s : State) (f : TimeBlock → TimeBlock) : (s.onTim f).mix = s.mix := rfl
@[simp] theorem State.onTim_slice (s : State) (f : TimeBlock → TimeBlock) : (s.onTim f).slice = s.slice := rfl
@[simp] theorem State.onTim_evs (s : State) (f : TimeBlock → TimeBlock) : (s.onTim f).evs = s.evs := rfl
@[simp] theorem State.onTim_ev53 (s : State) (f : TimeBlock → TimeBlock) : (s.onTim f).ev53 = s.ev53 := rfl
@[simp] theorem State.onTim_straps (s : State) (f : TimeBlock → TimeBlock) : (s.onTim f).straps = s.straps := rfl
@[simp] theorem State.onTim_queues (s : State) (f : TimeBlock → TimeBlock) : (s.onTim f).queues = s.queues := rfl
@[simp] theorem State.onTim_dram (s : State) (f : TimeBlock → TimeBlock) : (s.onTim f).dram = s.dram := rfl
@[simp] theorem State.onTim_tiles (s : State) (f : TimeBlock → TimeBlock) : (s.onTim f).tiles = s.tiles := rfl
@[simp] theorem State.onTim_parWords (s : State) (f : TimeBlock → TimeBlock) : (s.onTim f).parWords = s.parWords := rfl
@[simp] theorem State.onTim_macs (s : State) (f : TimeBlock → TimeBlock) : (s.onTim f).macs = s.macs := rfl
@[simp] theorem State.onTim_mdioEnd (s : State) (f : TimeBlock → TimeBlock) : (s.onTim f).mdioEnd = s.mdioEnd := rfl
@[simp] theorem State.onTim_streams (s : State) (f : TimeBlock → TimeBlock) : (s.onTim f).streams = s.streams := rfl
@[simp] theorem State.onTim_vox (s : State) (f : TimeBlock → TimeBlock) : (s.onTim f).vox = s.vox := rfl
@[simp] theorem State.onTim_heldRegs (s : State) (f : TimeBlock → TimeBlock) : (s.onTim f).heldRegs = s.heldRegs := rfl
@[simp] theorem State.onTim_imgs (s : State) (f : TimeBlock → TimeBlock) : (s.onTim f).imgs = s.imgs := rfl
@[simp] theorem State.onTim_wick (s : State) (f : TimeBlock → TimeBlock) : (s.onTim f).wick = s.wick := rfl
@[simp] theorem State.onTim_lan (s : State) (f : TimeBlock → TimeBlock) : (s.onTim f).lan = s.lan := rfl
@[simp] theorem State.onTim_vig (s : State) (f : TimeBlock → TimeBlock) : (s.onTim f).vig = s.vig := rfl
@[simp] theorem State.onTim_sec (s : State) (f : TimeBlock → TimeBlock) : (s.onTim f).sec = s.sec := rfl
@[simp] theorem State.onTim_pwr (s : State) (f : TimeBlock → TimeBlock) : (s.onTim f).pwr = s.pwr := rfl
@[simp] theorem State.onTim_sta (s : State) (f : TimeBlock → TimeBlock) : (s.onTim f).sta = s.sta := rfl
@[simp] theorem State.onTim_mnt (s : State) (f : TimeBlock → TimeBlock) : (s.onTim f).mnt = s.mnt := rfl
@[simp] theorem State.onTim_ports (s : State) (f : TimeBlock → TimeBlock) : (s.onTim f).ports = s.ports := rfl
@[simp] theorem State.onTim_ops (s : State) (f : TimeBlock → TimeBlock) : (s.onTim f).ops = s.ops := rfl
@[simp] theorem State.onTim_link (s : State) (f : TimeBlock → TimeBlock) : (s.onTim f).link = s.link := rfl
@[simp] theorem State.onTim_reg (s : State) (f : TimeBlock → TimeBlock) (a : Nat) : (s.onTim f).reg a = s.reg a := rfl
@[simp] theorem State.onTim_now (s : State) (f : TimeBlock → TimeBlock) : (s.onTim f).now = s.now := rfl

/-! ### setStream -/

@[simp] theorem State.setStream_pending (s : State) (n : Nat) (x : Stream) : (s.setStream n x).pending = s.pending := rfl
@[simp] theorem State.setStream_free (s : State) (n : Nat) (x : Stream) : (s.setStream n x).free = s.free := rfl
@[simp] theorem State.setStream_clock (s : State) (n : Nat) (x : Stream) : (s.setStream n x).clock = s.clock := rfl
@[simp] theorem State.setStream_regs (s : State) (n : Nat) (x : Stream) : (s.setStream n x).regs = s.regs := rfl
@[simp] theorem State.setStream_host (s : State) (n : Nat) (x : Stream) : (s.setStream n x).host = s.host := rfl
@[simp] theorem State.setStream_rings (s : State) (n : Nat) (x : Stream) : (s.setStream n x).rings = s.rings := rfl
@[simp] theorem State.setStream_audit (s : State) (n : Nat) (x : Stream) : (s.setStream n x).audit = s.audit := rfl
@[simp] theorem State.setStream_mgt (s : State) (n : Nat) (x : Stream) : (s.setStream n x).mgt = s.mgt := rfl
@[simp] theorem State.setStream_ing (s : State) (n : Nat) (x : Stream) : (s.setStream n x).ing = s.ing := rfl
@[simp] theorem State.setStream_rnd (s : State) (n : Nat) (x : Stream) : (s.setStream n x).rnd = s.rnd := rfl
@[simp] theorem State.setStream_cnv (s : State) (n : Nat) (x : Stream) : (s.setStream n x).cnv = s.cnv := rfl
@[simp] theorem State.setStream_mix (s : State) (n : Nat) (x : Stream) : (s.setStream n x).mix = s.mix := rfl
@[simp] theorem State.setStream_slice (s : State) (n : Nat) (x : Stream) : (s.setStream n x).slice = s.slice := rfl
@[simp] theorem State.setStream_evs (s : State) (n : Nat) (x : Stream) : (s.setStream n x).evs = s.evs := rfl
@[simp] theorem State.setStream_ev53 (s : State) (n : Nat) (x : Stream) : (s.setStream n x).ev53 = s.ev53 := rfl
@[simp] theorem State.setStream_straps (s : State) (n : Nat) (x : Stream) : (s.setStream n x).straps = s.straps := rfl
@[simp] theorem State.setStream_queues (s : State) (n : Nat) (x : Stream) : (s.setStream n x).queues = s.queues := rfl
@[simp] theorem State.setStream_dram (s : State) (n : Nat) (x : Stream) : (s.setStream n x).dram = s.dram := rfl
@[simp] theorem State.setStream_tiles (s : State) (n : Nat) (x : Stream) : (s.setStream n x).tiles = s.tiles := rfl
@[simp] theorem State.setStream_parWords (s : State) (n : Nat) (x : Stream) : (s.setStream n x).parWords = s.parWords := rfl
@[simp] theorem State.setStream_macs (s : State) (n : Nat) (x : Stream) : (s.setStream n x).macs = s.macs := rfl
@[simp] theorem State.setStream_mdioEnd (s : State) (n : Nat) (x : Stream) : (s.setStream n x).mdioEnd = s.mdioEnd := rfl
@[simp] theorem State.setStream_tim (s : State) (n : Nat) (x : Stream) : (s.setStream n x).tim = s.tim := rfl
@[simp] theorem State.setStream_vox (s : State) (n : Nat) (x : Stream) : (s.setStream n x).vox = s.vox := rfl
@[simp] theorem State.setStream_heldRegs (s : State) (n : Nat) (x : Stream) : (s.setStream n x).heldRegs = s.heldRegs := rfl
@[simp] theorem State.setStream_imgs (s : State) (n : Nat) (x : Stream) : (s.setStream n x).imgs = s.imgs := rfl
@[simp] theorem State.setStream_wick (s : State) (n : Nat) (x : Stream) : (s.setStream n x).wick = s.wick := rfl
@[simp] theorem State.setStream_lan (s : State) (n : Nat) (x : Stream) : (s.setStream n x).lan = s.lan := rfl
@[simp] theorem State.setStream_vig (s : State) (n : Nat) (x : Stream) : (s.setStream n x).vig = s.vig := rfl
@[simp] theorem State.setStream_sec (s : State) (n : Nat) (x : Stream) : (s.setStream n x).sec = s.sec := rfl
@[simp] theorem State.setStream_pwr (s : State) (n : Nat) (x : Stream) : (s.setStream n x).pwr = s.pwr := rfl
@[simp] theorem State.setStream_sta (s : State) (n : Nat) (x : Stream) : (s.setStream n x).sta = s.sta := rfl
@[simp] theorem State.setStream_mnt (s : State) (n : Nat) (x : Stream) : (s.setStream n x).mnt = s.mnt := rfl
@[simp] theorem State.setStream_ports (s : State) (n : Nat) (x : Stream) : (s.setStream n x).ports = s.ports := rfl
@[simp] theorem State.setStream_ops (s : State) (n : Nat) (x : Stream) : (s.setStream n x).ops = s.ops := rfl
@[simp] theorem State.setStream_link (s : State) (n : Nat) (x : Stream) : (s.setStream n x).link = s.link := rfl
@[simp] theorem State.setStream_reg (s : State) (n : Nat) (x : Stream) (a : Nat) : (s.setStream n x).reg a = s.reg a := rfl
@[simp] theorem State.setStream_now (s : State) (n : Nat) (x : Stream) : (s.setStream n x).now = s.now := rfl

/-! ### setVox -/

@[simp] theorem State.setVox_pending (s : State) (v : Nat) (x : VoxChan) : (s.setVox v x).pending = s.pending := rfl
@[simp] theorem State.setVox_free (s : State) (v : Nat) (x : VoxChan) : (s.setVox v x).free = s.free := rfl
@[simp] theorem State.setVox_clock (s : State) (v : Nat) (x : VoxChan) : (s.setVox v x).clock = s.clock := rfl
@[simp] theorem State.setVox_regs (s : State) (v : Nat) (x : VoxChan) : (s.setVox v x).regs = s.regs := rfl
@[simp] theorem State.setVox_host (s : State) (v : Nat) (x : VoxChan) : (s.setVox v x).host = s.host := rfl
@[simp] theorem State.setVox_rings (s : State) (v : Nat) (x : VoxChan) : (s.setVox v x).rings = s.rings := rfl
@[simp] theorem State.setVox_audit (s : State) (v : Nat) (x : VoxChan) : (s.setVox v x).audit = s.audit := rfl
@[simp] theorem State.setVox_mgt (s : State) (v : Nat) (x : VoxChan) : (s.setVox v x).mgt = s.mgt := rfl
@[simp] theorem State.setVox_ing (s : State) (v : Nat) (x : VoxChan) : (s.setVox v x).ing = s.ing := rfl
@[simp] theorem State.setVox_rnd (s : State) (v : Nat) (x : VoxChan) : (s.setVox v x).rnd = s.rnd := rfl
@[simp] theorem State.setVox_cnv (s : State) (v : Nat) (x : VoxChan) : (s.setVox v x).cnv = s.cnv := rfl
@[simp] theorem State.setVox_mix (s : State) (v : Nat) (x : VoxChan) : (s.setVox v x).mix = s.mix := rfl
@[simp] theorem State.setVox_slice (s : State) (v : Nat) (x : VoxChan) : (s.setVox v x).slice = s.slice := rfl
@[simp] theorem State.setVox_evs (s : State) (v : Nat) (x : VoxChan) : (s.setVox v x).evs = s.evs := rfl
@[simp] theorem State.setVox_ev53 (s : State) (v : Nat) (x : VoxChan) : (s.setVox v x).ev53 = s.ev53 := rfl
@[simp] theorem State.setVox_straps (s : State) (v : Nat) (x : VoxChan) : (s.setVox v x).straps = s.straps := rfl
@[simp] theorem State.setVox_queues (s : State) (v : Nat) (x : VoxChan) : (s.setVox v x).queues = s.queues := rfl
@[simp] theorem State.setVox_dram (s : State) (v : Nat) (x : VoxChan) : (s.setVox v x).dram = s.dram := rfl
@[simp] theorem State.setVox_tiles (s : State) (v : Nat) (x : VoxChan) : (s.setVox v x).tiles = s.tiles := rfl
@[simp] theorem State.setVox_parWords (s : State) (v : Nat) (x : VoxChan) : (s.setVox v x).parWords = s.parWords := rfl
@[simp] theorem State.setVox_macs (s : State) (v : Nat) (x : VoxChan) : (s.setVox v x).macs = s.macs := rfl
@[simp] theorem State.setVox_mdioEnd (s : State) (v : Nat) (x : VoxChan) : (s.setVox v x).mdioEnd = s.mdioEnd := rfl
@[simp] theorem State.setVox_tim (s : State) (v : Nat) (x : VoxChan) : (s.setVox v x).tim = s.tim := rfl
@[simp] theorem State.setVox_streams (s : State) (v : Nat) (x : VoxChan) : (s.setVox v x).streams = s.streams := rfl
@[simp] theorem State.setVox_heldRegs (s : State) (v : Nat) (x : VoxChan) : (s.setVox v x).heldRegs = s.heldRegs := rfl
@[simp] theorem State.setVox_imgs (s : State) (v : Nat) (x : VoxChan) : (s.setVox v x).imgs = s.imgs := rfl
@[simp] theorem State.setVox_wick (s : State) (v : Nat) (x : VoxChan) : (s.setVox v x).wick = s.wick := rfl
@[simp] theorem State.setVox_lan (s : State) (v : Nat) (x : VoxChan) : (s.setVox v x).lan = s.lan := rfl
@[simp] theorem State.setVox_vig (s : State) (v : Nat) (x : VoxChan) : (s.setVox v x).vig = s.vig := rfl
@[simp] theorem State.setVox_sec (s : State) (v : Nat) (x : VoxChan) : (s.setVox v x).sec = s.sec := rfl
@[simp] theorem State.setVox_pwr (s : State) (v : Nat) (x : VoxChan) : (s.setVox v x).pwr = s.pwr := rfl
@[simp] theorem State.setVox_sta (s : State) (v : Nat) (x : VoxChan) : (s.setVox v x).sta = s.sta := rfl
@[simp] theorem State.setVox_mnt (s : State) (v : Nat) (x : VoxChan) : (s.setVox v x).mnt = s.mnt := rfl
@[simp] theorem State.setVox_ports (s : State) (v : Nat) (x : VoxChan) : (s.setVox v x).ports = s.ports := rfl
@[simp] theorem State.setVox_ops (s : State) (v : Nat) (x : VoxChan) : (s.setVox v x).ops = s.ops := rfl
@[simp] theorem State.setVox_link (s : State) (v : Nat) (x : VoxChan) : (s.setVox v x).link = s.link := rfl
@[simp] theorem State.setVox_reg (s : State) (v : Nat) (x : VoxChan) (a : Nat) : (s.setVox v x).reg a = s.reg a := rfl
@[simp] theorem State.setVox_now (s : State) (v : Nat) (x : VoxChan) : (s.setVox v x).now = s.now := rfl

/-! ### onVox -/

@[simp] theorem State.onVox_pending (s : State) (v : Nat) (f : VoxChan → VoxChan) : (s.onVox v f).pending = s.pending := rfl
@[simp] theorem State.onVox_free (s : State) (v : Nat) (f : VoxChan → VoxChan) : (s.onVox v f).free = s.free := rfl
@[simp] theorem State.onVox_clock (s : State) (v : Nat) (f : VoxChan → VoxChan) : (s.onVox v f).clock = s.clock := rfl
@[simp] theorem State.onVox_regs (s : State) (v : Nat) (f : VoxChan → VoxChan) : (s.onVox v f).regs = s.regs := rfl
@[simp] theorem State.onVox_host (s : State) (v : Nat) (f : VoxChan → VoxChan) : (s.onVox v f).host = s.host := rfl
@[simp] theorem State.onVox_rings (s : State) (v : Nat) (f : VoxChan → VoxChan) : (s.onVox v f).rings = s.rings := rfl
@[simp] theorem State.onVox_audit (s : State) (v : Nat) (f : VoxChan → VoxChan) : (s.onVox v f).audit = s.audit := rfl
@[simp] theorem State.onVox_mgt (s : State) (v : Nat) (f : VoxChan → VoxChan) : (s.onVox v f).mgt = s.mgt := rfl
@[simp] theorem State.onVox_ing (s : State) (v : Nat) (f : VoxChan → VoxChan) : (s.onVox v f).ing = s.ing := rfl
@[simp] theorem State.onVox_rnd (s : State) (v : Nat) (f : VoxChan → VoxChan) : (s.onVox v f).rnd = s.rnd := rfl
@[simp] theorem State.onVox_cnv (s : State) (v : Nat) (f : VoxChan → VoxChan) : (s.onVox v f).cnv = s.cnv := rfl
@[simp] theorem State.onVox_mix (s : State) (v : Nat) (f : VoxChan → VoxChan) : (s.onVox v f).mix = s.mix := rfl
@[simp] theorem State.onVox_slice (s : State) (v : Nat) (f : VoxChan → VoxChan) : (s.onVox v f).slice = s.slice := rfl
@[simp] theorem State.onVox_evs (s : State) (v : Nat) (f : VoxChan → VoxChan) : (s.onVox v f).evs = s.evs := rfl
@[simp] theorem State.onVox_ev53 (s : State) (v : Nat) (f : VoxChan → VoxChan) : (s.onVox v f).ev53 = s.ev53 := rfl
@[simp] theorem State.onVox_straps (s : State) (v : Nat) (f : VoxChan → VoxChan) : (s.onVox v f).straps = s.straps := rfl
@[simp] theorem State.onVox_queues (s : State) (v : Nat) (f : VoxChan → VoxChan) : (s.onVox v f).queues = s.queues := rfl
@[simp] theorem State.onVox_dram (s : State) (v : Nat) (f : VoxChan → VoxChan) : (s.onVox v f).dram = s.dram := rfl
@[simp] theorem State.onVox_tiles (s : State) (v : Nat) (f : VoxChan → VoxChan) : (s.onVox v f).tiles = s.tiles := rfl
@[simp] theorem State.onVox_parWords (s : State) (v : Nat) (f : VoxChan → VoxChan) : (s.onVox v f).parWords = s.parWords := rfl
@[simp] theorem State.onVox_macs (s : State) (v : Nat) (f : VoxChan → VoxChan) : (s.onVox v f).macs = s.macs := rfl
@[simp] theorem State.onVox_mdioEnd (s : State) (v : Nat) (f : VoxChan → VoxChan) : (s.onVox v f).mdioEnd = s.mdioEnd := rfl
@[simp] theorem State.onVox_tim (s : State) (v : Nat) (f : VoxChan → VoxChan) : (s.onVox v f).tim = s.tim := rfl
@[simp] theorem State.onVox_streams (s : State) (v : Nat) (f : VoxChan → VoxChan) : (s.onVox v f).streams = s.streams := rfl
@[simp] theorem State.onVox_heldRegs (s : State) (v : Nat) (f : VoxChan → VoxChan) : (s.onVox v f).heldRegs = s.heldRegs := rfl
@[simp] theorem State.onVox_imgs (s : State) (v : Nat) (f : VoxChan → VoxChan) : (s.onVox v f).imgs = s.imgs := rfl
@[simp] theorem State.onVox_wick (s : State) (v : Nat) (f : VoxChan → VoxChan) : (s.onVox v f).wick = s.wick := rfl
@[simp] theorem State.onVox_lan (s : State) (v : Nat) (f : VoxChan → VoxChan) : (s.onVox v f).lan = s.lan := rfl
@[simp] theorem State.onVox_vig (s : State) (v : Nat) (f : VoxChan → VoxChan) : (s.onVox v f).vig = s.vig := rfl
@[simp] theorem State.onVox_sec (s : State) (v : Nat) (f : VoxChan → VoxChan) : (s.onVox v f).sec = s.sec := rfl
@[simp] theorem State.onVox_pwr (s : State) (v : Nat) (f : VoxChan → VoxChan) : (s.onVox v f).pwr = s.pwr := rfl
@[simp] theorem State.onVox_sta (s : State) (v : Nat) (f : VoxChan → VoxChan) : (s.onVox v f).sta = s.sta := rfl
@[simp] theorem State.onVox_mnt (s : State) (v : Nat) (f : VoxChan → VoxChan) : (s.onVox v f).mnt = s.mnt := rfl
@[simp] theorem State.onVox_ports (s : State) (v : Nat) (f : VoxChan → VoxChan) : (s.onVox v f).ports = s.ports := rfl
@[simp] theorem State.onVox_ops (s : State) (v : Nat) (f : VoxChan → VoxChan) : (s.onVox v f).ops = s.ops := rfl
@[simp] theorem State.onVox_link (s : State) (v : Nat) (f : VoxChan → VoxChan) : (s.onVox v f).link = s.link := rfl
@[simp] theorem State.onVox_reg (s : State) (v : Nat) (f : VoxChan → VoxChan) (a : Nat) : (s.onVox v f).reg a = s.reg a := rfl
@[simp] theorem State.onVox_now (s : State) (v : Nat) (f : VoxChan → VoxChan) : (s.onVox v f).now = s.now := rfl

/-! ### onWick -/

@[simp] theorem State.onWick_pending (s : State) (f : Wick → Wick) : (s.onWick f).pending = s.pending := rfl
@[simp] theorem State.onWick_free (s : State) (f : Wick → Wick) : (s.onWick f).free = s.free := rfl
@[simp] theorem State.onWick_clock (s : State) (f : Wick → Wick) : (s.onWick f).clock = s.clock := rfl
@[simp] theorem State.onWick_regs (s : State) (f : Wick → Wick) : (s.onWick f).regs = s.regs := rfl
@[simp] theorem State.onWick_host (s : State) (f : Wick → Wick) : (s.onWick f).host = s.host := rfl
@[simp] theorem State.onWick_rings (s : State) (f : Wick → Wick) : (s.onWick f).rings = s.rings := rfl
@[simp] theorem State.onWick_audit (s : State) (f : Wick → Wick) : (s.onWick f).audit = s.audit := rfl
@[simp] theorem State.onWick_mgt (s : State) (f : Wick → Wick) : (s.onWick f).mgt = s.mgt := rfl
@[simp] theorem State.onWick_ing (s : State) (f : Wick → Wick) : (s.onWick f).ing = s.ing := rfl
@[simp] theorem State.onWick_rnd (s : State) (f : Wick → Wick) : (s.onWick f).rnd = s.rnd := rfl
@[simp] theorem State.onWick_cnv (s : State) (f : Wick → Wick) : (s.onWick f).cnv = s.cnv := rfl
@[simp] theorem State.onWick_mix (s : State) (f : Wick → Wick) : (s.onWick f).mix = s.mix := rfl
@[simp] theorem State.onWick_slice (s : State) (f : Wick → Wick) : (s.onWick f).slice = s.slice := rfl
@[simp] theorem State.onWick_evs (s : State) (f : Wick → Wick) : (s.onWick f).evs = s.evs := rfl
@[simp] theorem State.onWick_ev53 (s : State) (f : Wick → Wick) : (s.onWick f).ev53 = s.ev53 := rfl
@[simp] theorem State.onWick_straps (s : State) (f : Wick → Wick) : (s.onWick f).straps = s.straps := rfl
@[simp] theorem State.onWick_queues (s : State) (f : Wick → Wick) : (s.onWick f).queues = s.queues := rfl
@[simp] theorem State.onWick_dram (s : State) (f : Wick → Wick) : (s.onWick f).dram = s.dram := rfl
@[simp] theorem State.onWick_tiles (s : State) (f : Wick → Wick) : (s.onWick f).tiles = s.tiles := rfl
@[simp] theorem State.onWick_parWords (s : State) (f : Wick → Wick) : (s.onWick f).parWords = s.parWords := rfl
@[simp] theorem State.onWick_macs (s : State) (f : Wick → Wick) : (s.onWick f).macs = s.macs := rfl
@[simp] theorem State.onWick_mdioEnd (s : State) (f : Wick → Wick) : (s.onWick f).mdioEnd = s.mdioEnd := rfl
@[simp] theorem State.onWick_tim (s : State) (f : Wick → Wick) : (s.onWick f).tim = s.tim := rfl
@[simp] theorem State.onWick_streams (s : State) (f : Wick → Wick) : (s.onWick f).streams = s.streams := rfl
@[simp] theorem State.onWick_vox (s : State) (f : Wick → Wick) : (s.onWick f).vox = s.vox := rfl
@[simp] theorem State.onWick_heldRegs (s : State) (f : Wick → Wick) : (s.onWick f).heldRegs = s.heldRegs := rfl
@[simp] theorem State.onWick_imgs (s : State) (f : Wick → Wick) : (s.onWick f).imgs = s.imgs := rfl
@[simp] theorem State.onWick_lan (s : State) (f : Wick → Wick) : (s.onWick f).lan = s.lan := rfl
@[simp] theorem State.onWick_vig (s : State) (f : Wick → Wick) : (s.onWick f).vig = s.vig := rfl
@[simp] theorem State.onWick_sec (s : State) (f : Wick → Wick) : (s.onWick f).sec = s.sec := rfl
@[simp] theorem State.onWick_pwr (s : State) (f : Wick → Wick) : (s.onWick f).pwr = s.pwr := rfl
@[simp] theorem State.onWick_sta (s : State) (f : Wick → Wick) : (s.onWick f).sta = s.sta := rfl
@[simp] theorem State.onWick_mnt (s : State) (f : Wick → Wick) : (s.onWick f).mnt = s.mnt := rfl
@[simp] theorem State.onWick_ports (s : State) (f : Wick → Wick) : (s.onWick f).ports = s.ports := rfl
@[simp] theorem State.onWick_ops (s : State) (f : Wick → Wick) : (s.onWick f).ops = s.ops := rfl
@[simp] theorem State.onWick_link (s : State) (f : Wick → Wick) : (s.onWick f).link = s.link := rfl
@[simp] theorem State.onWick_reg (s : State) (f : Wick → Wick) (a : Nat) : (s.onWick f).reg a = s.reg a := rfl
@[simp] theorem State.onWick_now (s : State) (f : Wick → Wick) : (s.onWick f).now = s.now := rfl

/-! ### onLan -/

@[simp] theorem State.onLan_pending (s : State) (f : Lantern → Lantern) : (s.onLan f).pending = s.pending := rfl
@[simp] theorem State.onLan_free (s : State) (f : Lantern → Lantern) : (s.onLan f).free = s.free := rfl
@[simp] theorem State.onLan_clock (s : State) (f : Lantern → Lantern) : (s.onLan f).clock = s.clock := rfl
@[simp] theorem State.onLan_regs (s : State) (f : Lantern → Lantern) : (s.onLan f).regs = s.regs := rfl
@[simp] theorem State.onLan_host (s : State) (f : Lantern → Lantern) : (s.onLan f).host = s.host := rfl
@[simp] theorem State.onLan_rings (s : State) (f : Lantern → Lantern) : (s.onLan f).rings = s.rings := rfl
@[simp] theorem State.onLan_audit (s : State) (f : Lantern → Lantern) : (s.onLan f).audit = s.audit := rfl
@[simp] theorem State.onLan_mgt (s : State) (f : Lantern → Lantern) : (s.onLan f).mgt = s.mgt := rfl
@[simp] theorem State.onLan_ing (s : State) (f : Lantern → Lantern) : (s.onLan f).ing = s.ing := rfl
@[simp] theorem State.onLan_rnd (s : State) (f : Lantern → Lantern) : (s.onLan f).rnd = s.rnd := rfl
@[simp] theorem State.onLan_cnv (s : State) (f : Lantern → Lantern) : (s.onLan f).cnv = s.cnv := rfl
@[simp] theorem State.onLan_mix (s : State) (f : Lantern → Lantern) : (s.onLan f).mix = s.mix := rfl
@[simp] theorem State.onLan_slice (s : State) (f : Lantern → Lantern) : (s.onLan f).slice = s.slice := rfl
@[simp] theorem State.onLan_evs (s : State) (f : Lantern → Lantern) : (s.onLan f).evs = s.evs := rfl
@[simp] theorem State.onLan_ev53 (s : State) (f : Lantern → Lantern) : (s.onLan f).ev53 = s.ev53 := rfl
@[simp] theorem State.onLan_straps (s : State) (f : Lantern → Lantern) : (s.onLan f).straps = s.straps := rfl
@[simp] theorem State.onLan_queues (s : State) (f : Lantern → Lantern) : (s.onLan f).queues = s.queues := rfl
@[simp] theorem State.onLan_dram (s : State) (f : Lantern → Lantern) : (s.onLan f).dram = s.dram := rfl
@[simp] theorem State.onLan_tiles (s : State) (f : Lantern → Lantern) : (s.onLan f).tiles = s.tiles := rfl
@[simp] theorem State.onLan_parWords (s : State) (f : Lantern → Lantern) : (s.onLan f).parWords = s.parWords := rfl
@[simp] theorem State.onLan_macs (s : State) (f : Lantern → Lantern) : (s.onLan f).macs = s.macs := rfl
@[simp] theorem State.onLan_mdioEnd (s : State) (f : Lantern → Lantern) : (s.onLan f).mdioEnd = s.mdioEnd := rfl
@[simp] theorem State.onLan_tim (s : State) (f : Lantern → Lantern) : (s.onLan f).tim = s.tim := rfl
@[simp] theorem State.onLan_streams (s : State) (f : Lantern → Lantern) : (s.onLan f).streams = s.streams := rfl
@[simp] theorem State.onLan_vox (s : State) (f : Lantern → Lantern) : (s.onLan f).vox = s.vox := rfl
@[simp] theorem State.onLan_heldRegs (s : State) (f : Lantern → Lantern) : (s.onLan f).heldRegs = s.heldRegs := rfl
@[simp] theorem State.onLan_imgs (s : State) (f : Lantern → Lantern) : (s.onLan f).imgs = s.imgs := rfl
@[simp] theorem State.onLan_wick (s : State) (f : Lantern → Lantern) : (s.onLan f).wick = s.wick := rfl
@[simp] theorem State.onLan_vig (s : State) (f : Lantern → Lantern) : (s.onLan f).vig = s.vig := rfl
@[simp] theorem State.onLan_sec (s : State) (f : Lantern → Lantern) : (s.onLan f).sec = s.sec := rfl
@[simp] theorem State.onLan_pwr (s : State) (f : Lantern → Lantern) : (s.onLan f).pwr = s.pwr := rfl
@[simp] theorem State.onLan_sta (s : State) (f : Lantern → Lantern) : (s.onLan f).sta = s.sta := rfl
@[simp] theorem State.onLan_mnt (s : State) (f : Lantern → Lantern) : (s.onLan f).mnt = s.mnt := rfl
@[simp] theorem State.onLan_ports (s : State) (f : Lantern → Lantern) : (s.onLan f).ports = s.ports := rfl
@[simp] theorem State.onLan_ops (s : State) (f : Lantern → Lantern) : (s.onLan f).ops = s.ops := rfl
@[simp] theorem State.onLan_link (s : State) (f : Lantern → Lantern) : (s.onLan f).link = s.link := rfl
@[simp] theorem State.onLan_reg (s : State) (f : Lantern → Lantern) (a : Nat) : (s.onLan f).reg a = s.reg a := rfl
@[simp] theorem State.onLan_now (s : State) (f : Lantern → Lantern) : (s.onLan f).now = s.now := rfl

/-! ### onVig -/

@[simp] theorem State.onVig_pending (s : State) (f : VigilSt → VigilSt) : (s.onVig f).pending = s.pending := rfl
@[simp] theorem State.onVig_free (s : State) (f : VigilSt → VigilSt) : (s.onVig f).free = s.free := rfl
@[simp] theorem State.onVig_clock (s : State) (f : VigilSt → VigilSt) : (s.onVig f).clock = s.clock := rfl
@[simp] theorem State.onVig_regs (s : State) (f : VigilSt → VigilSt) : (s.onVig f).regs = s.regs := rfl
@[simp] theorem State.onVig_host (s : State) (f : VigilSt → VigilSt) : (s.onVig f).host = s.host := rfl
@[simp] theorem State.onVig_rings (s : State) (f : VigilSt → VigilSt) : (s.onVig f).rings = s.rings := rfl
@[simp] theorem State.onVig_audit (s : State) (f : VigilSt → VigilSt) : (s.onVig f).audit = s.audit := rfl
@[simp] theorem State.onVig_mgt (s : State) (f : VigilSt → VigilSt) : (s.onVig f).mgt = s.mgt := rfl
@[simp] theorem State.onVig_ing (s : State) (f : VigilSt → VigilSt) : (s.onVig f).ing = s.ing := rfl
@[simp] theorem State.onVig_rnd (s : State) (f : VigilSt → VigilSt) : (s.onVig f).rnd = s.rnd := rfl
@[simp] theorem State.onVig_cnv (s : State) (f : VigilSt → VigilSt) : (s.onVig f).cnv = s.cnv := rfl
@[simp] theorem State.onVig_mix (s : State) (f : VigilSt → VigilSt) : (s.onVig f).mix = s.mix := rfl
@[simp] theorem State.onVig_slice (s : State) (f : VigilSt → VigilSt) : (s.onVig f).slice = s.slice := rfl
@[simp] theorem State.onVig_evs (s : State) (f : VigilSt → VigilSt) : (s.onVig f).evs = s.evs := rfl
@[simp] theorem State.onVig_ev53 (s : State) (f : VigilSt → VigilSt) : (s.onVig f).ev53 = s.ev53 := rfl
@[simp] theorem State.onVig_straps (s : State) (f : VigilSt → VigilSt) : (s.onVig f).straps = s.straps := rfl
@[simp] theorem State.onVig_queues (s : State) (f : VigilSt → VigilSt) : (s.onVig f).queues = s.queues := rfl
@[simp] theorem State.onVig_dram (s : State) (f : VigilSt → VigilSt) : (s.onVig f).dram = s.dram := rfl
@[simp] theorem State.onVig_tiles (s : State) (f : VigilSt → VigilSt) : (s.onVig f).tiles = s.tiles := rfl
@[simp] theorem State.onVig_parWords (s : State) (f : VigilSt → VigilSt) : (s.onVig f).parWords = s.parWords := rfl
@[simp] theorem State.onVig_macs (s : State) (f : VigilSt → VigilSt) : (s.onVig f).macs = s.macs := rfl
@[simp] theorem State.onVig_mdioEnd (s : State) (f : VigilSt → VigilSt) : (s.onVig f).mdioEnd = s.mdioEnd := rfl
@[simp] theorem State.onVig_tim (s : State) (f : VigilSt → VigilSt) : (s.onVig f).tim = s.tim := rfl
@[simp] theorem State.onVig_streams (s : State) (f : VigilSt → VigilSt) : (s.onVig f).streams = s.streams := rfl
@[simp] theorem State.onVig_vox (s : State) (f : VigilSt → VigilSt) : (s.onVig f).vox = s.vox := rfl
@[simp] theorem State.onVig_heldRegs (s : State) (f : VigilSt → VigilSt) : (s.onVig f).heldRegs = s.heldRegs := rfl
@[simp] theorem State.onVig_imgs (s : State) (f : VigilSt → VigilSt) : (s.onVig f).imgs = s.imgs := rfl
@[simp] theorem State.onVig_wick (s : State) (f : VigilSt → VigilSt) : (s.onVig f).wick = s.wick := rfl
@[simp] theorem State.onVig_lan (s : State) (f : VigilSt → VigilSt) : (s.onVig f).lan = s.lan := rfl
@[simp] theorem State.onVig_sec (s : State) (f : VigilSt → VigilSt) : (s.onVig f).sec = s.sec := rfl
@[simp] theorem State.onVig_pwr (s : State) (f : VigilSt → VigilSt) : (s.onVig f).pwr = s.pwr := rfl
@[simp] theorem State.onVig_sta (s : State) (f : VigilSt → VigilSt) : (s.onVig f).sta = s.sta := rfl
@[simp] theorem State.onVig_mnt (s : State) (f : VigilSt → VigilSt) : (s.onVig f).mnt = s.mnt := rfl
@[simp] theorem State.onVig_ports (s : State) (f : VigilSt → VigilSt) : (s.onVig f).ports = s.ports := rfl
@[simp] theorem State.onVig_ops (s : State) (f : VigilSt → VigilSt) : (s.onVig f).ops = s.ops := rfl
@[simp] theorem State.onVig_link (s : State) (f : VigilSt → VigilSt) : (s.onVig f).link = s.link := rfl
@[simp] theorem State.onVig_reg (s : State) (f : VigilSt → VigilSt) (a : Nat) : (s.onVig f).reg a = s.reg a := rfl
@[simp] theorem State.onVig_now (s : State) (f : VigilSt → VigilSt) : (s.onVig f).now = s.now := rfl

/-! ### onCore -/

@[simp] theorem State.onCore_pending (s : State) (c : Nat) (f : LCore → LCore) : (s.onCore c f).pending = s.pending := rfl
@[simp] theorem State.onCore_free (s : State) (c : Nat) (f : LCore → LCore) : (s.onCore c f).free = s.free := rfl
@[simp] theorem State.onCore_clock (s : State) (c : Nat) (f : LCore → LCore) : (s.onCore c f).clock = s.clock := rfl
@[simp] theorem State.onCore_regs (s : State) (c : Nat) (f : LCore → LCore) : (s.onCore c f).regs = s.regs := rfl
@[simp] theorem State.onCore_host (s : State) (c : Nat) (f : LCore → LCore) : (s.onCore c f).host = s.host := rfl
@[simp] theorem State.onCore_rings (s : State) (c : Nat) (f : LCore → LCore) : (s.onCore c f).rings = s.rings := rfl
@[simp] theorem State.onCore_audit (s : State) (c : Nat) (f : LCore → LCore) : (s.onCore c f).audit = s.audit := rfl
@[simp] theorem State.onCore_mgt (s : State) (c : Nat) (f : LCore → LCore) : (s.onCore c f).mgt = s.mgt := rfl
@[simp] theorem State.onCore_ing (s : State) (c : Nat) (f : LCore → LCore) : (s.onCore c f).ing = s.ing := rfl
@[simp] theorem State.onCore_rnd (s : State) (c : Nat) (f : LCore → LCore) : (s.onCore c f).rnd = s.rnd := rfl
@[simp] theorem State.onCore_cnv (s : State) (c : Nat) (f : LCore → LCore) : (s.onCore c f).cnv = s.cnv := rfl
@[simp] theorem State.onCore_mix (s : State) (c : Nat) (f : LCore → LCore) : (s.onCore c f).mix = s.mix := rfl
@[simp] theorem State.onCore_slice (s : State) (c : Nat) (f : LCore → LCore) : (s.onCore c f).slice = s.slice := rfl
@[simp] theorem State.onCore_evs (s : State) (c : Nat) (f : LCore → LCore) : (s.onCore c f).evs = s.evs := rfl
@[simp] theorem State.onCore_ev53 (s : State) (c : Nat) (f : LCore → LCore) : (s.onCore c f).ev53 = s.ev53 := rfl
@[simp] theorem State.onCore_straps (s : State) (c : Nat) (f : LCore → LCore) : (s.onCore c f).straps = s.straps := rfl
@[simp] theorem State.onCore_queues (s : State) (c : Nat) (f : LCore → LCore) : (s.onCore c f).queues = s.queues := rfl
@[simp] theorem State.onCore_dram (s : State) (c : Nat) (f : LCore → LCore) : (s.onCore c f).dram = s.dram := rfl
@[simp] theorem State.onCore_tiles (s : State) (c : Nat) (f : LCore → LCore) : (s.onCore c f).tiles = s.tiles := rfl
@[simp] theorem State.onCore_parWords (s : State) (c : Nat) (f : LCore → LCore) : (s.onCore c f).parWords = s.parWords := rfl
@[simp] theorem State.onCore_macs (s : State) (c : Nat) (f : LCore → LCore) : (s.onCore c f).macs = s.macs := rfl
@[simp] theorem State.onCore_mdioEnd (s : State) (c : Nat) (f : LCore → LCore) : (s.onCore c f).mdioEnd = s.mdioEnd := rfl
@[simp] theorem State.onCore_tim (s : State) (c : Nat) (f : LCore → LCore) : (s.onCore c f).tim = s.tim := rfl
@[simp] theorem State.onCore_streams (s : State) (c : Nat) (f : LCore → LCore) : (s.onCore c f).streams = s.streams := rfl
@[simp] theorem State.onCore_vox (s : State) (c : Nat) (f : LCore → LCore) : (s.onCore c f).vox = s.vox := rfl
@[simp] theorem State.onCore_heldRegs (s : State) (c : Nat) (f : LCore → LCore) : (s.onCore c f).heldRegs = s.heldRegs := rfl
@[simp] theorem State.onCore_imgs (s : State) (c : Nat) (f : LCore → LCore) : (s.onCore c f).imgs = s.imgs := rfl
@[simp] theorem State.onCore_wick (s : State) (c : Nat) (f : LCore → LCore) : (s.onCore c f).wick = s.wick := rfl
@[simp] theorem State.onCore_vig (s : State) (c : Nat) (f : LCore → LCore) : (s.onCore c f).vig = s.vig := rfl
@[simp] theorem State.onCore_sec (s : State) (c : Nat) (f : LCore → LCore) : (s.onCore c f).sec = s.sec := rfl
@[simp] theorem State.onCore_pwr (s : State) (c : Nat) (f : LCore → LCore) : (s.onCore c f).pwr = s.pwr := rfl
@[simp] theorem State.onCore_sta (s : State) (c : Nat) (f : LCore → LCore) : (s.onCore c f).sta = s.sta := rfl
@[simp] theorem State.onCore_mnt (s : State) (c : Nat) (f : LCore → LCore) : (s.onCore c f).mnt = s.mnt := rfl
@[simp] theorem State.onCore_ports (s : State) (c : Nat) (f : LCore → LCore) : (s.onCore c f).ports = s.ports := rfl
@[simp] theorem State.onCore_ops (s : State) (c : Nat) (f : LCore → LCore) : (s.onCore c f).ops = s.ops := rfl
@[simp] theorem State.onCore_link (s : State) (c : Nat) (f : LCore → LCore) : (s.onCore c f).link = s.link := rfl
@[simp] theorem State.onCore_reg (s : State) (c : Nat) (f : LCore → LCore) (a : Nat) : (s.onCore c f).reg a = s.reg a := rfl
@[simp] theorem State.onCore_now (s : State) (c : Nat) (f : LCore → LCore) : (s.onCore c f).now = s.now := rfl

/-! ### onSec -/

@[simp] theorem State.onSec_pending (s : State) (f : Sec → Sec) : (s.onSec f).pending = s.pending := rfl
@[simp] theorem State.onSec_free (s : State) (f : Sec → Sec) : (s.onSec f).free = s.free := rfl
@[simp] theorem State.onSec_clock (s : State) (f : Sec → Sec) : (s.onSec f).clock = s.clock := rfl
@[simp] theorem State.onSec_regs (s : State) (f : Sec → Sec) : (s.onSec f).regs = s.regs := rfl
@[simp] theorem State.onSec_host (s : State) (f : Sec → Sec) : (s.onSec f).host = s.host := rfl
@[simp] theorem State.onSec_rings (s : State) (f : Sec → Sec) : (s.onSec f).rings = s.rings := rfl
@[simp] theorem State.onSec_audit (s : State) (f : Sec → Sec) : (s.onSec f).audit = s.audit := rfl
@[simp] theorem State.onSec_mgt (s : State) (f : Sec → Sec) : (s.onSec f).mgt = s.mgt := rfl
@[simp] theorem State.onSec_ing (s : State) (f : Sec → Sec) : (s.onSec f).ing = s.ing := rfl
@[simp] theorem State.onSec_rnd (s : State) (f : Sec → Sec) : (s.onSec f).rnd = s.rnd := rfl
@[simp] theorem State.onSec_cnv (s : State) (f : Sec → Sec) : (s.onSec f).cnv = s.cnv := rfl
@[simp] theorem State.onSec_mix (s : State) (f : Sec → Sec) : (s.onSec f).mix = s.mix := rfl
@[simp] theorem State.onSec_slice (s : State) (f : Sec → Sec) : (s.onSec f).slice = s.slice := rfl
@[simp] theorem State.onSec_evs (s : State) (f : Sec → Sec) : (s.onSec f).evs = s.evs := rfl
@[simp] theorem State.onSec_ev53 (s : State) (f : Sec → Sec) : (s.onSec f).ev53 = s.ev53 := rfl
@[simp] theorem State.onSec_straps (s : State) (f : Sec → Sec) : (s.onSec f).straps = s.straps := rfl
@[simp] theorem State.onSec_queues (s : State) (f : Sec → Sec) : (s.onSec f).queues = s.queues := rfl
@[simp] theorem State.onSec_dram (s : State) (f : Sec → Sec) : (s.onSec f).dram = s.dram := rfl
@[simp] theorem State.onSec_tiles (s : State) (f : Sec → Sec) : (s.onSec f).tiles = s.tiles := rfl
@[simp] theorem State.onSec_parWords (s : State) (f : Sec → Sec) : (s.onSec f).parWords = s.parWords := rfl
@[simp] theorem State.onSec_macs (s : State) (f : Sec → Sec) : (s.onSec f).macs = s.macs := rfl
@[simp] theorem State.onSec_mdioEnd (s : State) (f : Sec → Sec) : (s.onSec f).mdioEnd = s.mdioEnd := rfl
@[simp] theorem State.onSec_tim (s : State) (f : Sec → Sec) : (s.onSec f).tim = s.tim := rfl
@[simp] theorem State.onSec_streams (s : State) (f : Sec → Sec) : (s.onSec f).streams = s.streams := rfl
@[simp] theorem State.onSec_vox (s : State) (f : Sec → Sec) : (s.onSec f).vox = s.vox := rfl
@[simp] theorem State.onSec_heldRegs (s : State) (f : Sec → Sec) : (s.onSec f).heldRegs = s.heldRegs := rfl
@[simp] theorem State.onSec_imgs (s : State) (f : Sec → Sec) : (s.onSec f).imgs = s.imgs := rfl
@[simp] theorem State.onSec_wick (s : State) (f : Sec → Sec) : (s.onSec f).wick = s.wick := rfl
@[simp] theorem State.onSec_lan (s : State) (f : Sec → Sec) : (s.onSec f).lan = s.lan := rfl
@[simp] theorem State.onSec_vig (s : State) (f : Sec → Sec) : (s.onSec f).vig = s.vig := rfl
@[simp] theorem State.onSec_pwr (s : State) (f : Sec → Sec) : (s.onSec f).pwr = s.pwr := rfl
@[simp] theorem State.onSec_sta (s : State) (f : Sec → Sec) : (s.onSec f).sta = s.sta := rfl
@[simp] theorem State.onSec_mnt (s : State) (f : Sec → Sec) : (s.onSec f).mnt = s.mnt := rfl
@[simp] theorem State.onSec_ports (s : State) (f : Sec → Sec) : (s.onSec f).ports = s.ports := rfl
@[simp] theorem State.onSec_ops (s : State) (f : Sec → Sec) : (s.onSec f).ops = s.ops := rfl
@[simp] theorem State.onSec_link (s : State) (f : Sec → Sec) : (s.onSec f).link = s.link := rfl
@[simp] theorem State.onSec_reg (s : State) (f : Sec → Sec) (a : Nat) : (s.onSec f).reg a = s.reg a := rfl
@[simp] theorem State.onSec_now (s : State) (f : Sec → Sec) : (s.onSec f).now = s.now := rfl

/-! ### onPwr -/

@[simp] theorem State.onPwr_pending (s : State) (f : Pwr → Pwr) : (s.onPwr f).pending = s.pending := rfl
@[simp] theorem State.onPwr_free (s : State) (f : Pwr → Pwr) : (s.onPwr f).free = s.free := rfl
@[simp] theorem State.onPwr_clock (s : State) (f : Pwr → Pwr) : (s.onPwr f).clock = s.clock := rfl
@[simp] theorem State.onPwr_regs (s : State) (f : Pwr → Pwr) : (s.onPwr f).regs = s.regs := rfl
@[simp] theorem State.onPwr_host (s : State) (f : Pwr → Pwr) : (s.onPwr f).host = s.host := rfl
@[simp] theorem State.onPwr_rings (s : State) (f : Pwr → Pwr) : (s.onPwr f).rings = s.rings := rfl
@[simp] theorem State.onPwr_audit (s : State) (f : Pwr → Pwr) : (s.onPwr f).audit = s.audit := rfl
@[simp] theorem State.onPwr_mgt (s : State) (f : Pwr → Pwr) : (s.onPwr f).mgt = s.mgt := rfl
@[simp] theorem State.onPwr_ing (s : State) (f : Pwr → Pwr) : (s.onPwr f).ing = s.ing := rfl
@[simp] theorem State.onPwr_rnd (s : State) (f : Pwr → Pwr) : (s.onPwr f).rnd = s.rnd := rfl
@[simp] theorem State.onPwr_cnv (s : State) (f : Pwr → Pwr) : (s.onPwr f).cnv = s.cnv := rfl
@[simp] theorem State.onPwr_mix (s : State) (f : Pwr → Pwr) : (s.onPwr f).mix = s.mix := rfl
@[simp] theorem State.onPwr_slice (s : State) (f : Pwr → Pwr) : (s.onPwr f).slice = s.slice := rfl
@[simp] theorem State.onPwr_evs (s : State) (f : Pwr → Pwr) : (s.onPwr f).evs = s.evs := rfl
@[simp] theorem State.onPwr_ev53 (s : State) (f : Pwr → Pwr) : (s.onPwr f).ev53 = s.ev53 := rfl
@[simp] theorem State.onPwr_straps (s : State) (f : Pwr → Pwr) : (s.onPwr f).straps = s.straps := rfl
@[simp] theorem State.onPwr_queues (s : State) (f : Pwr → Pwr) : (s.onPwr f).queues = s.queues := rfl
@[simp] theorem State.onPwr_dram (s : State) (f : Pwr → Pwr) : (s.onPwr f).dram = s.dram := rfl
@[simp] theorem State.onPwr_tiles (s : State) (f : Pwr → Pwr) : (s.onPwr f).tiles = s.tiles := rfl
@[simp] theorem State.onPwr_parWords (s : State) (f : Pwr → Pwr) : (s.onPwr f).parWords = s.parWords := rfl
@[simp] theorem State.onPwr_macs (s : State) (f : Pwr → Pwr) : (s.onPwr f).macs = s.macs := rfl
@[simp] theorem State.onPwr_mdioEnd (s : State) (f : Pwr → Pwr) : (s.onPwr f).mdioEnd = s.mdioEnd := rfl
@[simp] theorem State.onPwr_tim (s : State) (f : Pwr → Pwr) : (s.onPwr f).tim = s.tim := rfl
@[simp] theorem State.onPwr_streams (s : State) (f : Pwr → Pwr) : (s.onPwr f).streams = s.streams := rfl
@[simp] theorem State.onPwr_vox (s : State) (f : Pwr → Pwr) : (s.onPwr f).vox = s.vox := rfl
@[simp] theorem State.onPwr_heldRegs (s : State) (f : Pwr → Pwr) : (s.onPwr f).heldRegs = s.heldRegs := rfl
@[simp] theorem State.onPwr_imgs (s : State) (f : Pwr → Pwr) : (s.onPwr f).imgs = s.imgs := rfl
@[simp] theorem State.onPwr_wick (s : State) (f : Pwr → Pwr) : (s.onPwr f).wick = s.wick := rfl
@[simp] theorem State.onPwr_lan (s : State) (f : Pwr → Pwr) : (s.onPwr f).lan = s.lan := rfl
@[simp] theorem State.onPwr_vig (s : State) (f : Pwr → Pwr) : (s.onPwr f).vig = s.vig := rfl
@[simp] theorem State.onPwr_sec (s : State) (f : Pwr → Pwr) : (s.onPwr f).sec = s.sec := rfl
@[simp] theorem State.onPwr_sta (s : State) (f : Pwr → Pwr) : (s.onPwr f).sta = s.sta := rfl
@[simp] theorem State.onPwr_mnt (s : State) (f : Pwr → Pwr) : (s.onPwr f).mnt = s.mnt := rfl
@[simp] theorem State.onPwr_ports (s : State) (f : Pwr → Pwr) : (s.onPwr f).ports = s.ports := rfl
@[simp] theorem State.onPwr_ops (s : State) (f : Pwr → Pwr) : (s.onPwr f).ops = s.ops := rfl
@[simp] theorem State.onPwr_link (s : State) (f : Pwr → Pwr) : (s.onPwr f).link = s.link := rfl
@[simp] theorem State.onPwr_reg (s : State) (f : Pwr → Pwr) (a : Nat) : (s.onPwr f).reg a = s.reg a := rfl
@[simp] theorem State.onPwr_now (s : State) (f : Pwr → Pwr) : (s.onPwr f).now = s.now := rfl

/-! ### onMnt -/

@[simp] theorem State.onMnt_pending (s : State) (f : Mantle → Mantle) : (s.onMnt f).pending = s.pending := rfl
@[simp] theorem State.onMnt_free (s : State) (f : Mantle → Mantle) : (s.onMnt f).free = s.free := rfl
@[simp] theorem State.onMnt_clock (s : State) (f : Mantle → Mantle) : (s.onMnt f).clock = s.clock := rfl
@[simp] theorem State.onMnt_regs (s : State) (f : Mantle → Mantle) : (s.onMnt f).regs = s.regs := rfl
@[simp] theorem State.onMnt_host (s : State) (f : Mantle → Mantle) : (s.onMnt f).host = s.host := rfl
@[simp] theorem State.onMnt_rings (s : State) (f : Mantle → Mantle) : (s.onMnt f).rings = s.rings := rfl
@[simp] theorem State.onMnt_audit (s : State) (f : Mantle → Mantle) : (s.onMnt f).audit = s.audit := rfl
@[simp] theorem State.onMnt_mgt (s : State) (f : Mantle → Mantle) : (s.onMnt f).mgt = s.mgt := rfl
@[simp] theorem State.onMnt_ing (s : State) (f : Mantle → Mantle) : (s.onMnt f).ing = s.ing := rfl
@[simp] theorem State.onMnt_rnd (s : State) (f : Mantle → Mantle) : (s.onMnt f).rnd = s.rnd := rfl
@[simp] theorem State.onMnt_cnv (s : State) (f : Mantle → Mantle) : (s.onMnt f).cnv = s.cnv := rfl
@[simp] theorem State.onMnt_mix (s : State) (f : Mantle → Mantle) : (s.onMnt f).mix = s.mix := rfl
@[simp] theorem State.onMnt_slice (s : State) (f : Mantle → Mantle) : (s.onMnt f).slice = s.slice := rfl
@[simp] theorem State.onMnt_evs (s : State) (f : Mantle → Mantle) : (s.onMnt f).evs = s.evs := rfl
@[simp] theorem State.onMnt_ev53 (s : State) (f : Mantle → Mantle) : (s.onMnt f).ev53 = s.ev53 := rfl
@[simp] theorem State.onMnt_straps (s : State) (f : Mantle → Mantle) : (s.onMnt f).straps = s.straps := rfl
@[simp] theorem State.onMnt_queues (s : State) (f : Mantle → Mantle) : (s.onMnt f).queues = s.queues := rfl
@[simp] theorem State.onMnt_dram (s : State) (f : Mantle → Mantle) : (s.onMnt f).dram = s.dram := rfl
@[simp] theorem State.onMnt_tiles (s : State) (f : Mantle → Mantle) : (s.onMnt f).tiles = s.tiles := rfl
@[simp] theorem State.onMnt_parWords (s : State) (f : Mantle → Mantle) : (s.onMnt f).parWords = s.parWords := rfl
@[simp] theorem State.onMnt_macs (s : State) (f : Mantle → Mantle) : (s.onMnt f).macs = s.macs := rfl
@[simp] theorem State.onMnt_mdioEnd (s : State) (f : Mantle → Mantle) : (s.onMnt f).mdioEnd = s.mdioEnd := rfl
@[simp] theorem State.onMnt_tim (s : State) (f : Mantle → Mantle) : (s.onMnt f).tim = s.tim := rfl
@[simp] theorem State.onMnt_streams (s : State) (f : Mantle → Mantle) : (s.onMnt f).streams = s.streams := rfl
@[simp] theorem State.onMnt_vox (s : State) (f : Mantle → Mantle) : (s.onMnt f).vox = s.vox := rfl
@[simp] theorem State.onMnt_heldRegs (s : State) (f : Mantle → Mantle) : (s.onMnt f).heldRegs = s.heldRegs := rfl
@[simp] theorem State.onMnt_imgs (s : State) (f : Mantle → Mantle) : (s.onMnt f).imgs = s.imgs := rfl
@[simp] theorem State.onMnt_wick (s : State) (f : Mantle → Mantle) : (s.onMnt f).wick = s.wick := rfl
@[simp] theorem State.onMnt_lan (s : State) (f : Mantle → Mantle) : (s.onMnt f).lan = s.lan := rfl
@[simp] theorem State.onMnt_vig (s : State) (f : Mantle → Mantle) : (s.onMnt f).vig = s.vig := rfl
@[simp] theorem State.onMnt_sec (s : State) (f : Mantle → Mantle) : (s.onMnt f).sec = s.sec := rfl
@[simp] theorem State.onMnt_pwr (s : State) (f : Mantle → Mantle) : (s.onMnt f).pwr = s.pwr := rfl
@[simp] theorem State.onMnt_sta (s : State) (f : Mantle → Mantle) : (s.onMnt f).sta = s.sta := rfl
@[simp] theorem State.onMnt_ports (s : State) (f : Mantle → Mantle) : (s.onMnt f).ports = s.ports := rfl
@[simp] theorem State.onMnt_ops (s : State) (f : Mantle → Mantle) : (s.onMnt f).ops = s.ops := rfl
@[simp] theorem State.onMnt_link (s : State) (f : Mantle → Mantle) : (s.onMnt f).link = s.link := rfl
@[simp] theorem State.onMnt_reg (s : State) (f : Mantle → Mantle) (a : Nat) : (s.onMnt f).reg a = s.reg a := rfl
@[simp] theorem State.onMnt_now (s : State) (f : Mantle → Mantle) : (s.onMnt f).now = s.now := rfl

/-! ### onPort -/

@[simp] theorem State.onPort_pending (s : State) (p : Nat) (f : Port → Port) : (s.onPort p f).pending = s.pending := rfl
@[simp] theorem State.onPort_free (s : State) (p : Nat) (f : Port → Port) : (s.onPort p f).free = s.free := rfl
@[simp] theorem State.onPort_clock (s : State) (p : Nat) (f : Port → Port) : (s.onPort p f).clock = s.clock := rfl
@[simp] theorem State.onPort_regs (s : State) (p : Nat) (f : Port → Port) : (s.onPort p f).regs = s.regs := rfl
@[simp] theorem State.onPort_host (s : State) (p : Nat) (f : Port → Port) : (s.onPort p f).host = s.host := rfl
@[simp] theorem State.onPort_rings (s : State) (p : Nat) (f : Port → Port) : (s.onPort p f).rings = s.rings := rfl
@[simp] theorem State.onPort_audit (s : State) (p : Nat) (f : Port → Port) : (s.onPort p f).audit = s.audit := rfl
@[simp] theorem State.onPort_mgt (s : State) (p : Nat) (f : Port → Port) : (s.onPort p f).mgt = s.mgt := rfl
@[simp] theorem State.onPort_ing (s : State) (p : Nat) (f : Port → Port) : (s.onPort p f).ing = s.ing := rfl
@[simp] theorem State.onPort_rnd (s : State) (p : Nat) (f : Port → Port) : (s.onPort p f).rnd = s.rnd := rfl
@[simp] theorem State.onPort_cnv (s : State) (p : Nat) (f : Port → Port) : (s.onPort p f).cnv = s.cnv := rfl
@[simp] theorem State.onPort_mix (s : State) (p : Nat) (f : Port → Port) : (s.onPort p f).mix = s.mix := rfl
@[simp] theorem State.onPort_slice (s : State) (p : Nat) (f : Port → Port) : (s.onPort p f).slice = s.slice := rfl
@[simp] theorem State.onPort_evs (s : State) (p : Nat) (f : Port → Port) : (s.onPort p f).evs = s.evs := rfl
@[simp] theorem State.onPort_ev53 (s : State) (p : Nat) (f : Port → Port) : (s.onPort p f).ev53 = s.ev53 := rfl
@[simp] theorem State.onPort_straps (s : State) (p : Nat) (f : Port → Port) : (s.onPort p f).straps = s.straps := rfl
@[simp] theorem State.onPort_queues (s : State) (p : Nat) (f : Port → Port) : (s.onPort p f).queues = s.queues := rfl
@[simp] theorem State.onPort_dram (s : State) (p : Nat) (f : Port → Port) : (s.onPort p f).dram = s.dram := rfl
@[simp] theorem State.onPort_tiles (s : State) (p : Nat) (f : Port → Port) : (s.onPort p f).tiles = s.tiles := rfl
@[simp] theorem State.onPort_parWords (s : State) (p : Nat) (f : Port → Port) : (s.onPort p f).parWords = s.parWords := rfl
@[simp] theorem State.onPort_macs (s : State) (p : Nat) (f : Port → Port) : (s.onPort p f).macs = s.macs := rfl
@[simp] theorem State.onPort_mdioEnd (s : State) (p : Nat) (f : Port → Port) : (s.onPort p f).mdioEnd = s.mdioEnd := rfl
@[simp] theorem State.onPort_tim (s : State) (p : Nat) (f : Port → Port) : (s.onPort p f).tim = s.tim := rfl
@[simp] theorem State.onPort_streams (s : State) (p : Nat) (f : Port → Port) : (s.onPort p f).streams = s.streams := rfl
@[simp] theorem State.onPort_vox (s : State) (p : Nat) (f : Port → Port) : (s.onPort p f).vox = s.vox := rfl
@[simp] theorem State.onPort_heldRegs (s : State) (p : Nat) (f : Port → Port) : (s.onPort p f).heldRegs = s.heldRegs := rfl
@[simp] theorem State.onPort_imgs (s : State) (p : Nat) (f : Port → Port) : (s.onPort p f).imgs = s.imgs := rfl
@[simp] theorem State.onPort_wick (s : State) (p : Nat) (f : Port → Port) : (s.onPort p f).wick = s.wick := rfl
@[simp] theorem State.onPort_lan (s : State) (p : Nat) (f : Port → Port) : (s.onPort p f).lan = s.lan := rfl
@[simp] theorem State.onPort_vig (s : State) (p : Nat) (f : Port → Port) : (s.onPort p f).vig = s.vig := rfl
@[simp] theorem State.onPort_sec (s : State) (p : Nat) (f : Port → Port) : (s.onPort p f).sec = s.sec := rfl
@[simp] theorem State.onPort_pwr (s : State) (p : Nat) (f : Port → Port) : (s.onPort p f).pwr = s.pwr := rfl
@[simp] theorem State.onPort_sta (s : State) (p : Nat) (f : Port → Port) : (s.onPort p f).sta = s.sta := rfl
@[simp] theorem State.onPort_mnt (s : State) (p : Nat) (f : Port → Port) : (s.onPort p f).mnt = s.mnt := rfl
@[simp] theorem State.onPort_ops (s : State) (p : Nat) (f : Port → Port) : (s.onPort p f).ops = s.ops := rfl
@[simp] theorem State.onPort_link (s : State) (p : Nat) (f : Port → Port) : (s.onPort p f).link = s.link := rfl
@[simp] theorem State.onPort_reg (s : State) (p : Nat) (f : Port → Port) (a : Nat) : (s.onPort p f).reg a = s.reg a := rfl
@[simp] theorem State.onPort_now (s : State) (p : Nat) (f : Port → Port) : (s.onPort p f).now = s.now := rfl

/-! ### onOps -/

@[simp] theorem State.onOps_pending (s : State) (c : Nat) (f : OpsChan → OpsChan) : (s.onOps c f).pending = s.pending := rfl
@[simp] theorem State.onOps_free (s : State) (c : Nat) (f : OpsChan → OpsChan) : (s.onOps c f).free = s.free := rfl
@[simp] theorem State.onOps_clock (s : State) (c : Nat) (f : OpsChan → OpsChan) : (s.onOps c f).clock = s.clock := rfl
@[simp] theorem State.onOps_regs (s : State) (c : Nat) (f : OpsChan → OpsChan) : (s.onOps c f).regs = s.regs := rfl
@[simp] theorem State.onOps_host (s : State) (c : Nat) (f : OpsChan → OpsChan) : (s.onOps c f).host = s.host := rfl
@[simp] theorem State.onOps_rings (s : State) (c : Nat) (f : OpsChan → OpsChan) : (s.onOps c f).rings = s.rings := rfl
@[simp] theorem State.onOps_audit (s : State) (c : Nat) (f : OpsChan → OpsChan) : (s.onOps c f).audit = s.audit := rfl
@[simp] theorem State.onOps_mgt (s : State) (c : Nat) (f : OpsChan → OpsChan) : (s.onOps c f).mgt = s.mgt := rfl
@[simp] theorem State.onOps_ing (s : State) (c : Nat) (f : OpsChan → OpsChan) : (s.onOps c f).ing = s.ing := rfl
@[simp] theorem State.onOps_rnd (s : State) (c : Nat) (f : OpsChan → OpsChan) : (s.onOps c f).rnd = s.rnd := rfl
@[simp] theorem State.onOps_cnv (s : State) (c : Nat) (f : OpsChan → OpsChan) : (s.onOps c f).cnv = s.cnv := rfl
@[simp] theorem State.onOps_mix (s : State) (c : Nat) (f : OpsChan → OpsChan) : (s.onOps c f).mix = s.mix := rfl
@[simp] theorem State.onOps_slice (s : State) (c : Nat) (f : OpsChan → OpsChan) : (s.onOps c f).slice = s.slice := rfl
@[simp] theorem State.onOps_evs (s : State) (c : Nat) (f : OpsChan → OpsChan) : (s.onOps c f).evs = s.evs := rfl
@[simp] theorem State.onOps_ev53 (s : State) (c : Nat) (f : OpsChan → OpsChan) : (s.onOps c f).ev53 = s.ev53 := rfl
@[simp] theorem State.onOps_straps (s : State) (c : Nat) (f : OpsChan → OpsChan) : (s.onOps c f).straps = s.straps := rfl
@[simp] theorem State.onOps_queues (s : State) (c : Nat) (f : OpsChan → OpsChan) : (s.onOps c f).queues = s.queues := rfl
@[simp] theorem State.onOps_dram (s : State) (c : Nat) (f : OpsChan → OpsChan) : (s.onOps c f).dram = s.dram := rfl
@[simp] theorem State.onOps_tiles (s : State) (c : Nat) (f : OpsChan → OpsChan) : (s.onOps c f).tiles = s.tiles := rfl
@[simp] theorem State.onOps_parWords (s : State) (c : Nat) (f : OpsChan → OpsChan) : (s.onOps c f).parWords = s.parWords := rfl
@[simp] theorem State.onOps_macs (s : State) (c : Nat) (f : OpsChan → OpsChan) : (s.onOps c f).macs = s.macs := rfl
@[simp] theorem State.onOps_mdioEnd (s : State) (c : Nat) (f : OpsChan → OpsChan) : (s.onOps c f).mdioEnd = s.mdioEnd := rfl
@[simp] theorem State.onOps_tim (s : State) (c : Nat) (f : OpsChan → OpsChan) : (s.onOps c f).tim = s.tim := rfl
@[simp] theorem State.onOps_streams (s : State) (c : Nat) (f : OpsChan → OpsChan) : (s.onOps c f).streams = s.streams := rfl
@[simp] theorem State.onOps_vox (s : State) (c : Nat) (f : OpsChan → OpsChan) : (s.onOps c f).vox = s.vox := rfl
@[simp] theorem State.onOps_heldRegs (s : State) (c : Nat) (f : OpsChan → OpsChan) : (s.onOps c f).heldRegs = s.heldRegs := rfl
@[simp] theorem State.onOps_imgs (s : State) (c : Nat) (f : OpsChan → OpsChan) : (s.onOps c f).imgs = s.imgs := rfl
@[simp] theorem State.onOps_wick (s : State) (c : Nat) (f : OpsChan → OpsChan) : (s.onOps c f).wick = s.wick := rfl
@[simp] theorem State.onOps_lan (s : State) (c : Nat) (f : OpsChan → OpsChan) : (s.onOps c f).lan = s.lan := rfl
@[simp] theorem State.onOps_vig (s : State) (c : Nat) (f : OpsChan → OpsChan) : (s.onOps c f).vig = s.vig := rfl
@[simp] theorem State.onOps_sec (s : State) (c : Nat) (f : OpsChan → OpsChan) : (s.onOps c f).sec = s.sec := rfl
@[simp] theorem State.onOps_pwr (s : State) (c : Nat) (f : OpsChan → OpsChan) : (s.onOps c f).pwr = s.pwr := rfl
@[simp] theorem State.onOps_sta (s : State) (c : Nat) (f : OpsChan → OpsChan) : (s.onOps c f).sta = s.sta := rfl
@[simp] theorem State.onOps_mnt (s : State) (c : Nat) (f : OpsChan → OpsChan) : (s.onOps c f).mnt = s.mnt := rfl
@[simp] theorem State.onOps_ports (s : State) (c : Nat) (f : OpsChan → OpsChan) : (s.onOps c f).ports = s.ports := rfl
@[simp] theorem State.onOps_link (s : State) (c : Nat) (f : OpsChan → OpsChan) : (s.onOps c f).link = s.link := rfl
@[simp] theorem State.onOps_reg (s : State) (c : Nat) (f : OpsChan → OpsChan) (a : Nat) : (s.onOps c f).reg a = s.reg a := rfl
@[simp] theorem State.onOps_now (s : State) (c : Nat) (f : OpsChan → OpsChan) : (s.onOps c f).now = s.now := rfl

/-! ### onLink -/

@[simp] theorem State.onLink_pending (s : State) (f : Link → Link) : (s.onLink f).pending = s.pending := rfl
@[simp] theorem State.onLink_free (s : State) (f : Link → Link) : (s.onLink f).free = s.free := rfl
@[simp] theorem State.onLink_clock (s : State) (f : Link → Link) : (s.onLink f).clock = s.clock := rfl
@[simp] theorem State.onLink_regs (s : State) (f : Link → Link) : (s.onLink f).regs = s.regs := rfl
@[simp] theorem State.onLink_host (s : State) (f : Link → Link) : (s.onLink f).host = s.host := rfl
@[simp] theorem State.onLink_rings (s : State) (f : Link → Link) : (s.onLink f).rings = s.rings := rfl
@[simp] theorem State.onLink_audit (s : State) (f : Link → Link) : (s.onLink f).audit = s.audit := rfl
@[simp] theorem State.onLink_mgt (s : State) (f : Link → Link) : (s.onLink f).mgt = s.mgt := rfl
@[simp] theorem State.onLink_ing (s : State) (f : Link → Link) : (s.onLink f).ing = s.ing := rfl
@[simp] theorem State.onLink_rnd (s : State) (f : Link → Link) : (s.onLink f).rnd = s.rnd := rfl
@[simp] theorem State.onLink_cnv (s : State) (f : Link → Link) : (s.onLink f).cnv = s.cnv := rfl
@[simp] theorem State.onLink_mix (s : State) (f : Link → Link) : (s.onLink f).mix = s.mix := rfl
@[simp] theorem State.onLink_slice (s : State) (f : Link → Link) : (s.onLink f).slice = s.slice := rfl
@[simp] theorem State.onLink_evs (s : State) (f : Link → Link) : (s.onLink f).evs = s.evs := rfl
@[simp] theorem State.onLink_ev53 (s : State) (f : Link → Link) : (s.onLink f).ev53 = s.ev53 := rfl
@[simp] theorem State.onLink_straps (s : State) (f : Link → Link) : (s.onLink f).straps = s.straps := rfl
@[simp] theorem State.onLink_queues (s : State) (f : Link → Link) : (s.onLink f).queues = s.queues := rfl
@[simp] theorem State.onLink_dram (s : State) (f : Link → Link) : (s.onLink f).dram = s.dram := rfl
@[simp] theorem State.onLink_tiles (s : State) (f : Link → Link) : (s.onLink f).tiles = s.tiles := rfl
@[simp] theorem State.onLink_parWords (s : State) (f : Link → Link) : (s.onLink f).parWords = s.parWords := rfl
@[simp] theorem State.onLink_macs (s : State) (f : Link → Link) : (s.onLink f).macs = s.macs := rfl
@[simp] theorem State.onLink_mdioEnd (s : State) (f : Link → Link) : (s.onLink f).mdioEnd = s.mdioEnd := rfl
@[simp] theorem State.onLink_tim (s : State) (f : Link → Link) : (s.onLink f).tim = s.tim := rfl
@[simp] theorem State.onLink_streams (s : State) (f : Link → Link) : (s.onLink f).streams = s.streams := rfl
@[simp] theorem State.onLink_vox (s : State) (f : Link → Link) : (s.onLink f).vox = s.vox := rfl
@[simp] theorem State.onLink_heldRegs (s : State) (f : Link → Link) : (s.onLink f).heldRegs = s.heldRegs := rfl
@[simp] theorem State.onLink_imgs (s : State) (f : Link → Link) : (s.onLink f).imgs = s.imgs := rfl
@[simp] theorem State.onLink_wick (s : State) (f : Link → Link) : (s.onLink f).wick = s.wick := rfl
@[simp] theorem State.onLink_lan (s : State) (f : Link → Link) : (s.onLink f).lan = s.lan := rfl
@[simp] theorem State.onLink_vig (s : State) (f : Link → Link) : (s.onLink f).vig = s.vig := rfl
@[simp] theorem State.onLink_sec (s : State) (f : Link → Link) : (s.onLink f).sec = s.sec := rfl
@[simp] theorem State.onLink_pwr (s : State) (f : Link → Link) : (s.onLink f).pwr = s.pwr := rfl
@[simp] theorem State.onLink_sta (s : State) (f : Link → Link) : (s.onLink f).sta = s.sta := rfl
@[simp] theorem State.onLink_mnt (s : State) (f : Link → Link) : (s.onLink f).mnt = s.mnt := rfl
@[simp] theorem State.onLink_ports (s : State) (f : Link → Link) : (s.onLink f).ports = s.ports := rfl
@[simp] theorem State.onLink_ops (s : State) (f : Link → Link) : (s.onLink f).ops = s.ops := rfl
@[simp] theorem State.onLink_reg (s : State) (f : Link → Link) (a : Nat) : (s.onLink f).reg a = s.reg a := rfl
@[simp] theorem State.onLink_now (s : State) (f : Link → Link) : (s.onLink f).now = s.now := rfl

/-! ### onLport -/

@[simp] theorem State.onLport_pending (s : State) (p : Nat) (f : LinkPort → LinkPort) : (s.onLport p f).pending = s.pending := rfl
@[simp] theorem State.onLport_free (s : State) (p : Nat) (f : LinkPort → LinkPort) : (s.onLport p f).free = s.free := rfl
@[simp] theorem State.onLport_clock (s : State) (p : Nat) (f : LinkPort → LinkPort) : (s.onLport p f).clock = s.clock := rfl
@[simp] theorem State.onLport_regs (s : State) (p : Nat) (f : LinkPort → LinkPort) : (s.onLport p f).regs = s.regs := rfl
@[simp] theorem State.onLport_host (s : State) (p : Nat) (f : LinkPort → LinkPort) : (s.onLport p f).host = s.host := rfl
@[simp] theorem State.onLport_rings (s : State) (p : Nat) (f : LinkPort → LinkPort) : (s.onLport p f).rings = s.rings := rfl
@[simp] theorem State.onLport_audit (s : State) (p : Nat) (f : LinkPort → LinkPort) : (s.onLport p f).audit = s.audit := rfl
@[simp] theorem State.onLport_mgt (s : State) (p : Nat) (f : LinkPort → LinkPort) : (s.onLport p f).mgt = s.mgt := rfl
@[simp] theorem State.onLport_ing (s : State) (p : Nat) (f : LinkPort → LinkPort) : (s.onLport p f).ing = s.ing := rfl
@[simp] theorem State.onLport_rnd (s : State) (p : Nat) (f : LinkPort → LinkPort) : (s.onLport p f).rnd = s.rnd := rfl
@[simp] theorem State.onLport_cnv (s : State) (p : Nat) (f : LinkPort → LinkPort) : (s.onLport p f).cnv = s.cnv := rfl
@[simp] theorem State.onLport_mix (s : State) (p : Nat) (f : LinkPort → LinkPort) : (s.onLport p f).mix = s.mix := rfl
@[simp] theorem State.onLport_slice (s : State) (p : Nat) (f : LinkPort → LinkPort) : (s.onLport p f).slice = s.slice := rfl
@[simp] theorem State.onLport_evs (s : State) (p : Nat) (f : LinkPort → LinkPort) : (s.onLport p f).evs = s.evs := rfl
@[simp] theorem State.onLport_ev53 (s : State) (p : Nat) (f : LinkPort → LinkPort) : (s.onLport p f).ev53 = s.ev53 := rfl
@[simp] theorem State.onLport_straps (s : State) (p : Nat) (f : LinkPort → LinkPort) : (s.onLport p f).straps = s.straps := rfl
@[simp] theorem State.onLport_queues (s : State) (p : Nat) (f : LinkPort → LinkPort) : (s.onLport p f).queues = s.queues := rfl
@[simp] theorem State.onLport_dram (s : State) (p : Nat) (f : LinkPort → LinkPort) : (s.onLport p f).dram = s.dram := rfl
@[simp] theorem State.onLport_tiles (s : State) (p : Nat) (f : LinkPort → LinkPort) : (s.onLport p f).tiles = s.tiles := rfl
@[simp] theorem State.onLport_parWords (s : State) (p : Nat) (f : LinkPort → LinkPort) : (s.onLport p f).parWords = s.parWords := rfl
@[simp] theorem State.onLport_macs (s : State) (p : Nat) (f : LinkPort → LinkPort) : (s.onLport p f).macs = s.macs := rfl
@[simp] theorem State.onLport_mdioEnd (s : State) (p : Nat) (f : LinkPort → LinkPort) : (s.onLport p f).mdioEnd = s.mdioEnd := rfl
@[simp] theorem State.onLport_tim (s : State) (p : Nat) (f : LinkPort → LinkPort) : (s.onLport p f).tim = s.tim := rfl
@[simp] theorem State.onLport_streams (s : State) (p : Nat) (f : LinkPort → LinkPort) : (s.onLport p f).streams = s.streams := rfl
@[simp] theorem State.onLport_vox (s : State) (p : Nat) (f : LinkPort → LinkPort) : (s.onLport p f).vox = s.vox := rfl
@[simp] theorem State.onLport_heldRegs (s : State) (p : Nat) (f : LinkPort → LinkPort) : (s.onLport p f).heldRegs = s.heldRegs := rfl
@[simp] theorem State.onLport_imgs (s : State) (p : Nat) (f : LinkPort → LinkPort) : (s.onLport p f).imgs = s.imgs := rfl
@[simp] theorem State.onLport_wick (s : State) (p : Nat) (f : LinkPort → LinkPort) : (s.onLport p f).wick = s.wick := rfl
@[simp] theorem State.onLport_lan (s : State) (p : Nat) (f : LinkPort → LinkPort) : (s.onLport p f).lan = s.lan := rfl
@[simp] theorem State.onLport_vig (s : State) (p : Nat) (f : LinkPort → LinkPort) : (s.onLport p f).vig = s.vig := rfl
@[simp] theorem State.onLport_sec (s : State) (p : Nat) (f : LinkPort → LinkPort) : (s.onLport p f).sec = s.sec := rfl
@[simp] theorem State.onLport_pwr (s : State) (p : Nat) (f : LinkPort → LinkPort) : (s.onLport p f).pwr = s.pwr := rfl
@[simp] theorem State.onLport_sta (s : State) (p : Nat) (f : LinkPort → LinkPort) : (s.onLport p f).sta = s.sta := rfl
@[simp] theorem State.onLport_mnt (s : State) (p : Nat) (f : LinkPort → LinkPort) : (s.onLport p f).mnt = s.mnt := rfl
@[simp] theorem State.onLport_ports (s : State) (p : Nat) (f : LinkPort → LinkPort) : (s.onLport p f).ports = s.ports := rfl
@[simp] theorem State.onLport_ops (s : State) (p : Nat) (f : LinkPort → LinkPort) : (s.onLport p f).ops = s.ops := rfl
@[simp] theorem State.onLport_reg (s : State) (p : Nat) (f : LinkPort → LinkPort) (a : Nat) : (s.onLport p f).reg a = s.reg a := rfl
@[simp] theorem State.onLport_now (s : State) (p : Nat) (f : LinkPort → LinkPort) : (s.onLport p f).now = s.now := rfl

/-! ### The tables -/

theorem State.ring_setRing (s : State) (k : Nat) (x : Ring) : (s.setRing k x).ring k = x := Cells.get_put_self
theorem State.ring_setRing_ne (s : State) (k j : Nat) (x : Ring) (h : j ≠ k) : (s.setRing k x).ring j = s.ring j := Cells.get_put_ne h
theorem State.ring_onRing (s : State) (k : Nat) (f : Ring → Ring) : (s.onRing k f).ring k = f (s.ring k) := Cells.get_put_self
theorem State.ring_onRing_ne (s : State) (k j : Nat) (f : Ring → Ring) (h : j ≠ k) : (s.onRing k f).ring j = s.ring j := Cells.get_put_ne h
@[simp] theorem State.setReg_ring (s : State) (off : Nat) (v : Word) (k : Nat) : (s.setReg off v).ring k = s.ring k := rfl
@[simp] theorem State.setFld_ring (s : State) (off hi lo v : Nat) (k : Nat) : (s.setFld off hi lo v).ring k = s.ring k := rfl
@[simp] theorem State.setFlag_ring (s : State) (off n : Nat) (b : Bool) (k : Nat) : (s.setFlag off n b).ring k = s.ring k := rfl
@[simp] theorem State.setReg64_ring (s : State) (off v : Nat) (k : Nat) : (s.setReg64 off v).ring k = s.ring k := rfl
@[simp] theorem State.bump_ring (s : State) (off n : Nat) (k : Nat) : (s.bump off n).ring k = s.ring k := rfl
@[simp] theorem State.elapse_ring (s : State) (dt : Nat) (k : Nat) : (s.elapse dt).ring k = s.ring k := rfl
@[simp] theorem State.fresh_ring (s : State) (n : Nat) (k : Nat) : ((s.fresh n).2).ring k = s.ring k := rfl
@[simp] theorem State.freshBytes_ring (s : State) (n : Nat) (k : Nat) : ((s.freshBytes n).2).ring k = s.ring k := rfl
@[simp] theorem State.emit_ring (s : State) (w : HostWrite) (k : Nat) : (s.emit w).ring k = s.ring k := rfl
@[simp] theorem State.auditRelease_ring (s : State) (n : Nat) (k : Nat) : (s.auditRelease n).ring k = s.ring k := rfl
@[simp] theorem State.setConvOut_ring (s : State) (n : Nat) (x : ConvOut) (k : Nat) : (s.setConvOut n x).ring k = s.ring k := rfl
@[simp] theorem State.setCand_ring (s : State) (c : Nat) (x : MCand) (k : Nat) : (s.setCand c x).ring k = s.ring k := rfl
@[simp] theorem State.setTrig_ring (s : State) (c : Nat) (x : Trigger) (k : Nat) : (s.setTrig c x).ring k = s.ring k := rfl
@[simp] theorem State.setFftQ_ring (s : State) (c : Nat) (q : List FftJob) (k : Nat) : (s.setFftQ c q).ring k = s.ring k := rfl
@[simp] theorem State.setCore_ring (s : State) (c : Nat) (x : LCore) (k : Nat) : (s.setCore c x).ring k = s.ring k := rfl
@[simp] theorem State.onHost_ring (s : State) (f : HostIf → HostIf) (k : Nat) : (s.onHost f).ring k = s.ring k := rfl
@[simp] theorem State.onAudit_ring (s : State) (f : Audit → Audit) (k : Nat) : (s.onAudit f).ring k = s.ring k := rfl
@[simp] theorem State.onMgt_ring (s : State) (f : Mgt → Mgt) (k : Nat) : (s.onMgt f).ring k = s.ring k := rfl
@[simp] theorem State.onRnd_ring (s : State) (f : Render → Render) (k : Nat) : (s.onRnd f).ring k = s.ring k := rfl
@[simp] theorem State.onCnv_ring (s : State) (f : Conv → Conv) (k : Nat) : (s.onCnv f).ring k = s.ring k := rfl
@[simp] theorem State.onMix_ring (s : State) (f : Mix → Mix) (k : Nat) : (s.onMix f).ring k = s.ring k := rfl
@[simp] theorem State.setQueue_ring (s : State) (o n : Nat) (q : EQueue) (k : Nat) : (s.setQueue o n q).ring k = s.ring k := rfl
@[simp] theorem State.onChan_ring (s : State) (c : Nat) (f : DramChan → DramChan) (k : Nat) : (s.onChan c f).ring k = s.ring k := rfl
@[simp] theorem State.setTile_ring (s : State) (c : Nat) (t : Tile) (k : Nat) : (s.setTile c t).ring k = s.ring k := rfl
@[simp] theorem State.onMac_ring (s : State) (n : Nat) (f : Mac → Mac) (k : Nat) : (s.onMac n f).ring k = s.ring k := rfl
@[simp] theorem State.onTim_ring (s : State) (f : TimeBlock → TimeBlock) (k : Nat) : (s.onTim f).ring k = s.ring k := rfl
@[simp] theorem State.setStream_ring (s : State) (n : Nat) (x : Stream) (k : Nat) : (s.setStream n x).ring k = s.ring k := rfl
@[simp] theorem State.setVox_ring (s : State) (v : Nat) (x : VoxChan) (k : Nat) : (s.setVox v x).ring k = s.ring k := rfl
@[simp] theorem State.onVox_ring (s : State) (v : Nat) (f : VoxChan → VoxChan) (k : Nat) : (s.onVox v f).ring k = s.ring k := rfl
@[simp] theorem State.onWick_ring (s : State) (f : Wick → Wick) (k : Nat) : (s.onWick f).ring k = s.ring k := rfl
@[simp] theorem State.onLan_ring (s : State) (f : Lantern → Lantern) (k : Nat) : (s.onLan f).ring k = s.ring k := rfl
@[simp] theorem State.onVig_ring (s : State) (f : VigilSt → VigilSt) (k : Nat) : (s.onVig f).ring k = s.ring k := rfl
@[simp] theorem State.onCore_ring (s : State) (c : Nat) (f : LCore → LCore) (k : Nat) : (s.onCore c f).ring k = s.ring k := rfl
@[simp] theorem State.onSec_ring (s : State) (f : Sec → Sec) (k : Nat) : (s.onSec f).ring k = s.ring k := rfl
@[simp] theorem State.onPwr_ring (s : State) (f : Pwr → Pwr) (k : Nat) : (s.onPwr f).ring k = s.ring k := rfl
@[simp] theorem State.onMnt_ring (s : State) (f : Mantle → Mantle) (k : Nat) : (s.onMnt f).ring k = s.ring k := rfl
@[simp] theorem State.onPort_ring (s : State) (p : Nat) (f : Port → Port) (k : Nat) : (s.onPort p f).ring k = s.ring k := rfl
@[simp] theorem State.onOps_ring (s : State) (c : Nat) (f : OpsChan → OpsChan) (k : Nat) : (s.onOps c f).ring k = s.ring k := rfl
@[simp] theorem State.onLink_ring (s : State) (f : Link → Link) (k : Nat) : (s.onLink f).ring k = s.ring k := rfl
@[simp] theorem State.onLport_ring (s : State) (p : Nat) (f : LinkPort → LinkPort) (k : Nat) : (s.onLport p f).ring k = s.ring k := rfl
theorem State.tile_setTile (s : State) (k : Nat) (x : Tile) : (s.setTile k x).tile k = x := Cells.get_put_self
theorem State.tile_setTile_ne (s : State) (k j : Nat) (x : Tile) (h : j ≠ k) : (s.setTile k x).tile j = s.tile j := Cells.get_put_ne h
@[simp] theorem State.setReg_tile (s : State) (off : Nat) (v : Word) (k : Nat) : (s.setReg off v).tile k = s.tile k := rfl
@[simp] theorem State.setFld_tile (s : State) (off hi lo v : Nat) (k : Nat) : (s.setFld off hi lo v).tile k = s.tile k := rfl
@[simp] theorem State.setFlag_tile (s : State) (off n : Nat) (b : Bool) (k : Nat) : (s.setFlag off n b).tile k = s.tile k := rfl
@[simp] theorem State.setReg64_tile (s : State) (off v : Nat) (k : Nat) : (s.setReg64 off v).tile k = s.tile k := rfl
@[simp] theorem State.bump_tile (s : State) (off n : Nat) (k : Nat) : (s.bump off n).tile k = s.tile k := rfl
@[simp] theorem State.elapse_tile (s : State) (dt : Nat) (k : Nat) : (s.elapse dt).tile k = s.tile k := rfl
@[simp] theorem State.fresh_tile (s : State) (n : Nat) (k : Nat) : ((s.fresh n).2).tile k = s.tile k := rfl
@[simp] theorem State.freshBytes_tile (s : State) (n : Nat) (k : Nat) : ((s.freshBytes n).2).tile k = s.tile k := rfl
@[simp] theorem State.setRing_tile (s : State) (r : Nat) (x : Ring) (k : Nat) : (s.setRing r x).tile k = s.tile k := rfl
@[simp] theorem State.onRing_tile (s : State) (r : Nat) (f : Ring → Ring) (k : Nat) : (s.onRing r f).tile k = s.tile k := rfl
@[simp] theorem State.setPhase_tile (s : State) (r i : Nat) (p : Phase) (k : Nat) : (s.setPhase r i p).tile k = s.tile k := rfl
@[simp] theorem State.emit_tile (s : State) (w : HostWrite) (k : Nat) : (s.emit w).tile k = s.tile k := rfl
@[simp] theorem State.auditRelease_tile (s : State) (n : Nat) (k : Nat) : (s.auditRelease n).tile k = s.tile k := rfl
@[simp] theorem State.setConvOut_tile (s : State) (n : Nat) (x : ConvOut) (k : Nat) : (s.setConvOut n x).tile k = s.tile k := rfl
@[simp] theorem State.setCand_tile (s : State) (c : Nat) (x : MCand) (k : Nat) : (s.setCand c x).tile k = s.tile k := rfl
@[simp] theorem State.setTrig_tile (s : State) (c : Nat) (x : Trigger) (k : Nat) : (s.setTrig c x).tile k = s.tile k := rfl
@[simp] theorem State.setFftQ_tile (s : State) (c : Nat) (q : List FftJob) (k : Nat) : (s.setFftQ c q).tile k = s.tile k := rfl
@[simp] theorem State.setCore_tile (s : State) (c : Nat) (x : LCore) (k : Nat) : (s.setCore c x).tile k = s.tile k := rfl
@[simp] theorem State.onHost_tile (s : State) (f : HostIf → HostIf) (k : Nat) : (s.onHost f).tile k = s.tile k := rfl
@[simp] theorem State.onAudit_tile (s : State) (f : Audit → Audit) (k : Nat) : (s.onAudit f).tile k = s.tile k := rfl
@[simp] theorem State.onMgt_tile (s : State) (f : Mgt → Mgt) (k : Nat) : (s.onMgt f).tile k = s.tile k := rfl
@[simp] theorem State.onRnd_tile (s : State) (f : Render → Render) (k : Nat) : (s.onRnd f).tile k = s.tile k := rfl
@[simp] theorem State.onCnv_tile (s : State) (f : Conv → Conv) (k : Nat) : (s.onCnv f).tile k = s.tile k := rfl
@[simp] theorem State.onMix_tile (s : State) (f : Mix → Mix) (k : Nat) : (s.onMix f).tile k = s.tile k := rfl
@[simp] theorem State.setQueue_tile (s : State) (o n : Nat) (q : EQueue) (k : Nat) : (s.setQueue o n q).tile k = s.tile k := rfl
@[simp] theorem State.onChan_tile (s : State) (c : Nat) (f : DramChan → DramChan) (k : Nat) : (s.onChan c f).tile k = s.tile k := rfl
@[simp] theorem State.onMac_tile (s : State) (n : Nat) (f : Mac → Mac) (k : Nat) : (s.onMac n f).tile k = s.tile k := rfl
@[simp] theorem State.onTim_tile (s : State) (f : TimeBlock → TimeBlock) (k : Nat) : (s.onTim f).tile k = s.tile k := rfl
@[simp] theorem State.setStream_tile (s : State) (n : Nat) (x : Stream) (k : Nat) : (s.setStream n x).tile k = s.tile k := rfl
@[simp] theorem State.setVox_tile (s : State) (v : Nat) (x : VoxChan) (k : Nat) : (s.setVox v x).tile k = s.tile k := rfl
@[simp] theorem State.onVox_tile (s : State) (v : Nat) (f : VoxChan → VoxChan) (k : Nat) : (s.onVox v f).tile k = s.tile k := rfl
@[simp] theorem State.onWick_tile (s : State) (f : Wick → Wick) (k : Nat) : (s.onWick f).tile k = s.tile k := rfl
@[simp] theorem State.onLan_tile (s : State) (f : Lantern → Lantern) (k : Nat) : (s.onLan f).tile k = s.tile k := rfl
@[simp] theorem State.onVig_tile (s : State) (f : VigilSt → VigilSt) (k : Nat) : (s.onVig f).tile k = s.tile k := rfl
@[simp] theorem State.onCore_tile (s : State) (c : Nat) (f : LCore → LCore) (k : Nat) : (s.onCore c f).tile k = s.tile k := rfl
@[simp] theorem State.onSec_tile (s : State) (f : Sec → Sec) (k : Nat) : (s.onSec f).tile k = s.tile k := rfl
@[simp] theorem State.onPwr_tile (s : State) (f : Pwr → Pwr) (k : Nat) : (s.onPwr f).tile k = s.tile k := rfl
@[simp] theorem State.onMnt_tile (s : State) (f : Mantle → Mantle) (k : Nat) : (s.onMnt f).tile k = s.tile k := rfl
@[simp] theorem State.onPort_tile (s : State) (p : Nat) (f : Port → Port) (k : Nat) : (s.onPort p f).tile k = s.tile k := rfl
@[simp] theorem State.onOps_tile (s : State) (c : Nat) (f : OpsChan → OpsChan) (k : Nat) : (s.onOps c f).tile k = s.tile k := rfl
@[simp] theorem State.onLink_tile (s : State) (f : Link → Link) (k : Nat) : (s.onLink f).tile k = s.tile k := rfl
@[simp] theorem State.onLport_tile (s : State) (p : Nat) (f : LinkPort → LinkPort) (k : Nat) : (s.onLport p f).tile k = s.tile k := rfl
theorem State.mac_onMac (s : State) (k : Nat) (f : Mac → Mac) : (s.onMac k f).mac k = f (s.mac k) := Cells.get_put_self
theorem State.mac_onMac_ne (s : State) (k j : Nat) (f : Mac → Mac) (h : j ≠ k) : (s.onMac k f).mac j = s.mac j := Cells.get_put_ne h
@[simp] theorem State.setReg_mac (s : State) (off : Nat) (v : Word) (k : Nat) : (s.setReg off v).mac k = s.mac k := rfl
@[simp] theorem State.setFld_mac (s : State) (off hi lo v : Nat) (k : Nat) : (s.setFld off hi lo v).mac k = s.mac k := rfl
@[simp] theorem State.setFlag_mac (s : State) (off n : Nat) (b : Bool) (k : Nat) : (s.setFlag off n b).mac k = s.mac k := rfl
@[simp] theorem State.setReg64_mac (s : State) (off v : Nat) (k : Nat) : (s.setReg64 off v).mac k = s.mac k := rfl
@[simp] theorem State.bump_mac (s : State) (off n : Nat) (k : Nat) : (s.bump off n).mac k = s.mac k := rfl
@[simp] theorem State.elapse_mac (s : State) (dt : Nat) (k : Nat) : (s.elapse dt).mac k = s.mac k := rfl
@[simp] theorem State.fresh_mac (s : State) (n : Nat) (k : Nat) : ((s.fresh n).2).mac k = s.mac k := rfl
@[simp] theorem State.freshBytes_mac (s : State) (n : Nat) (k : Nat) : ((s.freshBytes n).2).mac k = s.mac k := rfl
@[simp] theorem State.setRing_mac (s : State) (r : Nat) (x : Ring) (k : Nat) : (s.setRing r x).mac k = s.mac k := rfl
@[simp] theorem State.onRing_mac (s : State) (r : Nat) (f : Ring → Ring) (k : Nat) : (s.onRing r f).mac k = s.mac k := rfl
@[simp] theorem State.setPhase_mac (s : State) (r i : Nat) (p : Phase) (k : Nat) : (s.setPhase r i p).mac k = s.mac k := rfl
@[simp] theorem State.emit_mac (s : State) (w : HostWrite) (k : Nat) : (s.emit w).mac k = s.mac k := rfl
@[simp] theorem State.auditRelease_mac (s : State) (n : Nat) (k : Nat) : (s.auditRelease n).mac k = s.mac k := rfl
@[simp] theorem State.setConvOut_mac (s : State) (n : Nat) (x : ConvOut) (k : Nat) : (s.setConvOut n x).mac k = s.mac k := rfl
@[simp] theorem State.setCand_mac (s : State) (c : Nat) (x : MCand) (k : Nat) : (s.setCand c x).mac k = s.mac k := rfl
@[simp] theorem State.setTrig_mac (s : State) (c : Nat) (x : Trigger) (k : Nat) : (s.setTrig c x).mac k = s.mac k := rfl
@[simp] theorem State.setFftQ_mac (s : State) (c : Nat) (q : List FftJob) (k : Nat) : (s.setFftQ c q).mac k = s.mac k := rfl
@[simp] theorem State.setCore_mac (s : State) (c : Nat) (x : LCore) (k : Nat) : (s.setCore c x).mac k = s.mac k := rfl
@[simp] theorem State.onHost_mac (s : State) (f : HostIf → HostIf) (k : Nat) : (s.onHost f).mac k = s.mac k := rfl
@[simp] theorem State.onAudit_mac (s : State) (f : Audit → Audit) (k : Nat) : (s.onAudit f).mac k = s.mac k := rfl
@[simp] theorem State.onMgt_mac (s : State) (f : Mgt → Mgt) (k : Nat) : (s.onMgt f).mac k = s.mac k := rfl
@[simp] theorem State.onRnd_mac (s : State) (f : Render → Render) (k : Nat) : (s.onRnd f).mac k = s.mac k := rfl
@[simp] theorem State.onCnv_mac (s : State) (f : Conv → Conv) (k : Nat) : (s.onCnv f).mac k = s.mac k := rfl
@[simp] theorem State.onMix_mac (s : State) (f : Mix → Mix) (k : Nat) : (s.onMix f).mac k = s.mac k := rfl
@[simp] theorem State.setQueue_mac (s : State) (o n : Nat) (q : EQueue) (k : Nat) : (s.setQueue o n q).mac k = s.mac k := rfl
@[simp] theorem State.onChan_mac (s : State) (c : Nat) (f : DramChan → DramChan) (k : Nat) : (s.onChan c f).mac k = s.mac k := rfl
@[simp] theorem State.setTile_mac (s : State) (c : Nat) (t : Tile) (k : Nat) : (s.setTile c t).mac k = s.mac k := rfl
@[simp] theorem State.onTim_mac (s : State) (f : TimeBlock → TimeBlock) (k : Nat) : (s.onTim f).mac k = s.mac k := rfl
@[simp] theorem State.setStream_mac (s : State) (n : Nat) (x : Stream) (k : Nat) : (s.setStream n x).mac k = s.mac k := rfl
@[simp] theorem State.setVox_mac (s : State) (v : Nat) (x : VoxChan) (k : Nat) : (s.setVox v x).mac k = s.mac k := rfl
@[simp] theorem State.onVox_mac (s : State) (v : Nat) (f : VoxChan → VoxChan) (k : Nat) : (s.onVox v f).mac k = s.mac k := rfl
@[simp] theorem State.onWick_mac (s : State) (f : Wick → Wick) (k : Nat) : (s.onWick f).mac k = s.mac k := rfl
@[simp] theorem State.onLan_mac (s : State) (f : Lantern → Lantern) (k : Nat) : (s.onLan f).mac k = s.mac k := rfl
@[simp] theorem State.onVig_mac (s : State) (f : VigilSt → VigilSt) (k : Nat) : (s.onVig f).mac k = s.mac k := rfl
@[simp] theorem State.onCore_mac (s : State) (c : Nat) (f : LCore → LCore) (k : Nat) : (s.onCore c f).mac k = s.mac k := rfl
@[simp] theorem State.onSec_mac (s : State) (f : Sec → Sec) (k : Nat) : (s.onSec f).mac k = s.mac k := rfl
@[simp] theorem State.onPwr_mac (s : State) (f : Pwr → Pwr) (k : Nat) : (s.onPwr f).mac k = s.mac k := rfl
@[simp] theorem State.onMnt_mac (s : State) (f : Mantle → Mantle) (k : Nat) : (s.onMnt f).mac k = s.mac k := rfl
@[simp] theorem State.onPort_mac (s : State) (p : Nat) (f : Port → Port) (k : Nat) : (s.onPort p f).mac k = s.mac k := rfl
@[simp] theorem State.onOps_mac (s : State) (c : Nat) (f : OpsChan → OpsChan) (k : Nat) : (s.onOps c f).mac k = s.mac k := rfl
@[simp] theorem State.onLink_mac (s : State) (f : Link → Link) (k : Nat) : (s.onLink f).mac k = s.mac k := rfl
@[simp] theorem State.onLport_mac (s : State) (p : Nat) (f : LinkPort → LinkPort) (k : Nat) : (s.onLport p f).mac k = s.mac k := rfl
theorem State.port_onPort (s : State) (k : Nat) (f : Port → Port) : (s.onPort k f).port k = f (s.port k) := Cells.get_put_self
theorem State.port_onPort_ne (s : State) (k j : Nat) (f : Port → Port) (h : j ≠ k) : (s.onPort k f).port j = s.port j := Cells.get_put_ne h
@[simp] theorem State.setReg_port (s : State) (off : Nat) (v : Word) (k : Nat) : (s.setReg off v).port k = s.port k := rfl
@[simp] theorem State.setFld_port (s : State) (off hi lo v : Nat) (k : Nat) : (s.setFld off hi lo v).port k = s.port k := rfl
@[simp] theorem State.setFlag_port (s : State) (off n : Nat) (b : Bool) (k : Nat) : (s.setFlag off n b).port k = s.port k := rfl
@[simp] theorem State.setReg64_port (s : State) (off v : Nat) (k : Nat) : (s.setReg64 off v).port k = s.port k := rfl
@[simp] theorem State.bump_port (s : State) (off n : Nat) (k : Nat) : (s.bump off n).port k = s.port k := rfl
@[simp] theorem State.elapse_port (s : State) (dt : Nat) (k : Nat) : (s.elapse dt).port k = s.port k := rfl
@[simp] theorem State.fresh_port (s : State) (n : Nat) (k : Nat) : ((s.fresh n).2).port k = s.port k := rfl
@[simp] theorem State.freshBytes_port (s : State) (n : Nat) (k : Nat) : ((s.freshBytes n).2).port k = s.port k := rfl
@[simp] theorem State.setRing_port (s : State) (r : Nat) (x : Ring) (k : Nat) : (s.setRing r x).port k = s.port k := rfl
@[simp] theorem State.onRing_port (s : State) (r : Nat) (f : Ring → Ring) (k : Nat) : (s.onRing r f).port k = s.port k := rfl
@[simp] theorem State.setPhase_port (s : State) (r i : Nat) (p : Phase) (k : Nat) : (s.setPhase r i p).port k = s.port k := rfl
@[simp] theorem State.emit_port (s : State) (w : HostWrite) (k : Nat) : (s.emit w).port k = s.port k := rfl
@[simp] theorem State.auditRelease_port (s : State) (n : Nat) (k : Nat) : (s.auditRelease n).port k = s.port k := rfl
@[simp] theorem State.setConvOut_port (s : State) (n : Nat) (x : ConvOut) (k : Nat) : (s.setConvOut n x).port k = s.port k := rfl
@[simp] theorem State.setCand_port (s : State) (c : Nat) (x : MCand) (k : Nat) : (s.setCand c x).port k = s.port k := rfl
@[simp] theorem State.setTrig_port (s : State) (c : Nat) (x : Trigger) (k : Nat) : (s.setTrig c x).port k = s.port k := rfl
@[simp] theorem State.setFftQ_port (s : State) (c : Nat) (q : List FftJob) (k : Nat) : (s.setFftQ c q).port k = s.port k := rfl
@[simp] theorem State.setCore_port (s : State) (c : Nat) (x : LCore) (k : Nat) : (s.setCore c x).port k = s.port k := rfl
@[simp] theorem State.onHost_port (s : State) (f : HostIf → HostIf) (k : Nat) : (s.onHost f).port k = s.port k := rfl
@[simp] theorem State.onAudit_port (s : State) (f : Audit → Audit) (k : Nat) : (s.onAudit f).port k = s.port k := rfl
@[simp] theorem State.onMgt_port (s : State) (f : Mgt → Mgt) (k : Nat) : (s.onMgt f).port k = s.port k := rfl
@[simp] theorem State.onRnd_port (s : State) (f : Render → Render) (k : Nat) : (s.onRnd f).port k = s.port k := rfl
@[simp] theorem State.onCnv_port (s : State) (f : Conv → Conv) (k : Nat) : (s.onCnv f).port k = s.port k := rfl
@[simp] theorem State.onMix_port (s : State) (f : Mix → Mix) (k : Nat) : (s.onMix f).port k = s.port k := rfl
@[simp] theorem State.setQueue_port (s : State) (o n : Nat) (q : EQueue) (k : Nat) : (s.setQueue o n q).port k = s.port k := rfl
@[simp] theorem State.onChan_port (s : State) (c : Nat) (f : DramChan → DramChan) (k : Nat) : (s.onChan c f).port k = s.port k := rfl
@[simp] theorem State.setTile_port (s : State) (c : Nat) (t : Tile) (k : Nat) : (s.setTile c t).port k = s.port k := rfl
@[simp] theorem State.onMac_port (s : State) (n : Nat) (f : Mac → Mac) (k : Nat) : (s.onMac n f).port k = s.port k := rfl
@[simp] theorem State.onTim_port (s : State) (f : TimeBlock → TimeBlock) (k : Nat) : (s.onTim f).port k = s.port k := rfl
@[simp] theorem State.setStream_port (s : State) (n : Nat) (x : Stream) (k : Nat) : (s.setStream n x).port k = s.port k := rfl
@[simp] theorem State.setVox_port (s : State) (v : Nat) (x : VoxChan) (k : Nat) : (s.setVox v x).port k = s.port k := rfl
@[simp] theorem State.onVox_port (s : State) (v : Nat) (f : VoxChan → VoxChan) (k : Nat) : (s.onVox v f).port k = s.port k := rfl
@[simp] theorem State.onWick_port (s : State) (f : Wick → Wick) (k : Nat) : (s.onWick f).port k = s.port k := rfl
@[simp] theorem State.onLan_port (s : State) (f : Lantern → Lantern) (k : Nat) : (s.onLan f).port k = s.port k := rfl
@[simp] theorem State.onVig_port (s : State) (f : VigilSt → VigilSt) (k : Nat) : (s.onVig f).port k = s.port k := rfl
@[simp] theorem State.onCore_port (s : State) (c : Nat) (f : LCore → LCore) (k : Nat) : (s.onCore c f).port k = s.port k := rfl
@[simp] theorem State.onSec_port (s : State) (f : Sec → Sec) (k : Nat) : (s.onSec f).port k = s.port k := rfl
@[simp] theorem State.onPwr_port (s : State) (f : Pwr → Pwr) (k : Nat) : (s.onPwr f).port k = s.port k := rfl
@[simp] theorem State.onMnt_port (s : State) (f : Mantle → Mantle) (k : Nat) : (s.onMnt f).port k = s.port k := rfl
@[simp] theorem State.onOps_port (s : State) (c : Nat) (f : OpsChan → OpsChan) (k : Nat) : (s.onOps c f).port k = s.port k := rfl
@[simp] theorem State.onLink_port (s : State) (f : Link → Link) (k : Nat) : (s.onLink f).port k = s.port k := rfl
@[simp] theorem State.onLport_port (s : State) (p : Nat) (f : LinkPort → LinkPort) (k : Nat) : (s.onLport p f).port k = s.port k := rfl
theorem State.lport_onLport (s : State) (k : Nat) (f : LinkPort → LinkPort) : (s.onLport k f).lport k = f (s.lport k) := Cells.get_put_self
theorem State.lport_onLport_ne (s : State) (k j : Nat) (f : LinkPort → LinkPort) (h : j ≠ k) : (s.onLport k f).lport j = s.lport j := Cells.get_put_ne h
@[simp] theorem State.setReg_lport (s : State) (off : Nat) (v : Word) (k : Nat) : (s.setReg off v).lport k = s.lport k := rfl
@[simp] theorem State.setFld_lport (s : State) (off hi lo v : Nat) (k : Nat) : (s.setFld off hi lo v).lport k = s.lport k := rfl
@[simp] theorem State.setFlag_lport (s : State) (off n : Nat) (b : Bool) (k : Nat) : (s.setFlag off n b).lport k = s.lport k := rfl
@[simp] theorem State.setReg64_lport (s : State) (off v : Nat) (k : Nat) : (s.setReg64 off v).lport k = s.lport k := rfl
@[simp] theorem State.bump_lport (s : State) (off n : Nat) (k : Nat) : (s.bump off n).lport k = s.lport k := rfl
@[simp] theorem State.elapse_lport (s : State) (dt : Nat) (k : Nat) : (s.elapse dt).lport k = s.lport k := rfl
@[simp] theorem State.fresh_lport (s : State) (n : Nat) (k : Nat) : ((s.fresh n).2).lport k = s.lport k := rfl
@[simp] theorem State.freshBytes_lport (s : State) (n : Nat) (k : Nat) : ((s.freshBytes n).2).lport k = s.lport k := rfl
@[simp] theorem State.setRing_lport (s : State) (r : Nat) (x : Ring) (k : Nat) : (s.setRing r x).lport k = s.lport k := rfl
@[simp] theorem State.onRing_lport (s : State) (r : Nat) (f : Ring → Ring) (k : Nat) : (s.onRing r f).lport k = s.lport k := rfl
@[simp] theorem State.setPhase_lport (s : State) (r i : Nat) (p : Phase) (k : Nat) : (s.setPhase r i p).lport k = s.lport k := rfl
@[simp] theorem State.emit_lport (s : State) (w : HostWrite) (k : Nat) : (s.emit w).lport k = s.lport k := rfl
@[simp] theorem State.auditRelease_lport (s : State) (n : Nat) (k : Nat) : (s.auditRelease n).lport k = s.lport k := rfl
@[simp] theorem State.setConvOut_lport (s : State) (n : Nat) (x : ConvOut) (k : Nat) : (s.setConvOut n x).lport k = s.lport k := rfl
@[simp] theorem State.setCand_lport (s : State) (c : Nat) (x : MCand) (k : Nat) : (s.setCand c x).lport k = s.lport k := rfl
@[simp] theorem State.setTrig_lport (s : State) (c : Nat) (x : Trigger) (k : Nat) : (s.setTrig c x).lport k = s.lport k := rfl
@[simp] theorem State.setFftQ_lport (s : State) (c : Nat) (q : List FftJob) (k : Nat) : (s.setFftQ c q).lport k = s.lport k := rfl
@[simp] theorem State.setCore_lport (s : State) (c : Nat) (x : LCore) (k : Nat) : (s.setCore c x).lport k = s.lport k := rfl
@[simp] theorem State.onHost_lport (s : State) (f : HostIf → HostIf) (k : Nat) : (s.onHost f).lport k = s.lport k := rfl
@[simp] theorem State.onAudit_lport (s : State) (f : Audit → Audit) (k : Nat) : (s.onAudit f).lport k = s.lport k := rfl
@[simp] theorem State.onMgt_lport (s : State) (f : Mgt → Mgt) (k : Nat) : (s.onMgt f).lport k = s.lport k := rfl
@[simp] theorem State.onRnd_lport (s : State) (f : Render → Render) (k : Nat) : (s.onRnd f).lport k = s.lport k := rfl
@[simp] theorem State.onCnv_lport (s : State) (f : Conv → Conv) (k : Nat) : (s.onCnv f).lport k = s.lport k := rfl
@[simp] theorem State.onMix_lport (s : State) (f : Mix → Mix) (k : Nat) : (s.onMix f).lport k = s.lport k := rfl
@[simp] theorem State.setQueue_lport (s : State) (o n : Nat) (q : EQueue) (k : Nat) : (s.setQueue o n q).lport k = s.lport k := rfl
@[simp] theorem State.onChan_lport (s : State) (c : Nat) (f : DramChan → DramChan) (k : Nat) : (s.onChan c f).lport k = s.lport k := rfl
@[simp] theorem State.setTile_lport (s : State) (c : Nat) (t : Tile) (k : Nat) : (s.setTile c t).lport k = s.lport k := rfl
@[simp] theorem State.onMac_lport (s : State) (n : Nat) (f : Mac → Mac) (k : Nat) : (s.onMac n f).lport k = s.lport k := rfl
@[simp] theorem State.onTim_lport (s : State) (f : TimeBlock → TimeBlock) (k : Nat) : (s.onTim f).lport k = s.lport k := rfl
@[simp] theorem State.setStream_lport (s : State) (n : Nat) (x : Stream) (k : Nat) : (s.setStream n x).lport k = s.lport k := rfl
@[simp] theorem State.setVox_lport (s : State) (v : Nat) (x : VoxChan) (k : Nat) : (s.setVox v x).lport k = s.lport k := rfl
@[simp] theorem State.onVox_lport (s : State) (v : Nat) (f : VoxChan → VoxChan) (k : Nat) : (s.onVox v f).lport k = s.lport k := rfl
@[simp] theorem State.onWick_lport (s : State) (f : Wick → Wick) (k : Nat) : (s.onWick f).lport k = s.lport k := rfl
@[simp] theorem State.onLan_lport (s : State) (f : Lantern → Lantern) (k : Nat) : (s.onLan f).lport k = s.lport k := rfl
@[simp] theorem State.onVig_lport (s : State) (f : VigilSt → VigilSt) (k : Nat) : (s.onVig f).lport k = s.lport k := rfl
@[simp] theorem State.onCore_lport (s : State) (c : Nat) (f : LCore → LCore) (k : Nat) : (s.onCore c f).lport k = s.lport k := rfl
@[simp] theorem State.onSec_lport (s : State) (f : Sec → Sec) (k : Nat) : (s.onSec f).lport k = s.lport k := rfl
@[simp] theorem State.onPwr_lport (s : State) (f : Pwr → Pwr) (k : Nat) : (s.onPwr f).lport k = s.lport k := rfl
@[simp] theorem State.onMnt_lport (s : State) (f : Mantle → Mantle) (k : Nat) : (s.onMnt f).lport k = s.lport k := rfl
@[simp] theorem State.onPort_lport (s : State) (p : Nat) (f : Port → Port) (k : Nat) : (s.onPort p f).lport k = s.lport k := rfl
@[simp] theorem State.onOps_lport (s : State) (c : Nat) (f : OpsChan → OpsChan) (k : Nat) : (s.onOps c f).lport k = s.lport k := rfl
theorem State.stream_setStream (s : State) (k : Nat) (x : Stream) : (s.setStream k x).stream k = x := Cells.get_put_self
theorem State.stream_setStream_ne (s : State) (k j : Nat) (x : Stream) (h : j ≠ k) : (s.setStream k x).stream j = s.stream j := Cells.get_put_ne h
@[simp] theorem State.setReg_stream (s : State) (off : Nat) (v : Word) (k : Nat) : (s.setReg off v).stream k = s.stream k := rfl
@[simp] theorem State.setFld_stream (s : State) (off hi lo v : Nat) (k : Nat) : (s.setFld off hi lo v).stream k = s.stream k := rfl
@[simp] theorem State.setFlag_stream (s : State) (off n : Nat) (b : Bool) (k : Nat) : (s.setFlag off n b).stream k = s.stream k := rfl
@[simp] theorem State.setReg64_stream (s : State) (off v : Nat) (k : Nat) : (s.setReg64 off v).stream k = s.stream k := rfl
@[simp] theorem State.bump_stream (s : State) (off n : Nat) (k : Nat) : (s.bump off n).stream k = s.stream k := rfl
@[simp] theorem State.elapse_stream (s : State) (dt : Nat) (k : Nat) : (s.elapse dt).stream k = s.stream k := rfl
@[simp] theorem State.fresh_stream (s : State) (n : Nat) (k : Nat) : ((s.fresh n).2).stream k = s.stream k := rfl
@[simp] theorem State.freshBytes_stream (s : State) (n : Nat) (k : Nat) : ((s.freshBytes n).2).stream k = s.stream k := rfl
@[simp] theorem State.setRing_stream (s : State) (r : Nat) (x : Ring) (k : Nat) : (s.setRing r x).stream k = s.stream k := rfl
@[simp] theorem State.onRing_stream (s : State) (r : Nat) (f : Ring → Ring) (k : Nat) : (s.onRing r f).stream k = s.stream k := rfl
@[simp] theorem State.setPhase_stream (s : State) (r i : Nat) (p : Phase) (k : Nat) : (s.setPhase r i p).stream k = s.stream k := rfl
@[simp] theorem State.emit_stream (s : State) (w : HostWrite) (k : Nat) : (s.emit w).stream k = s.stream k := rfl
@[simp] theorem State.auditRelease_stream (s : State) (n : Nat) (k : Nat) : (s.auditRelease n).stream k = s.stream k := rfl
@[simp] theorem State.setConvOut_stream (s : State) (n : Nat) (x : ConvOut) (k : Nat) : (s.setConvOut n x).stream k = s.stream k := rfl
@[simp] theorem State.setCand_stream (s : State) (c : Nat) (x : MCand) (k : Nat) : (s.setCand c x).stream k = s.stream k := rfl
@[simp] theorem State.setTrig_stream (s : State) (c : Nat) (x : Trigger) (k : Nat) : (s.setTrig c x).stream k = s.stream k := rfl
@[simp] theorem State.setFftQ_stream (s : State) (c : Nat) (q : List FftJob) (k : Nat) : (s.setFftQ c q).stream k = s.stream k := rfl
@[simp] theorem State.setCore_stream (s : State) (c : Nat) (x : LCore) (k : Nat) : (s.setCore c x).stream k = s.stream k := rfl
@[simp] theorem State.onHost_stream (s : State) (f : HostIf → HostIf) (k : Nat) : (s.onHost f).stream k = s.stream k := rfl
@[simp] theorem State.onAudit_stream (s : State) (f : Audit → Audit) (k : Nat) : (s.onAudit f).stream k = s.stream k := rfl
@[simp] theorem State.onMgt_stream (s : State) (f : Mgt → Mgt) (k : Nat) : (s.onMgt f).stream k = s.stream k := rfl
@[simp] theorem State.onRnd_stream (s : State) (f : Render → Render) (k : Nat) : (s.onRnd f).stream k = s.stream k := rfl
@[simp] theorem State.onCnv_stream (s : State) (f : Conv → Conv) (k : Nat) : (s.onCnv f).stream k = s.stream k := rfl
@[simp] theorem State.onMix_stream (s : State) (f : Mix → Mix) (k : Nat) : (s.onMix f).stream k = s.stream k := rfl
@[simp] theorem State.setQueue_stream (s : State) (o n : Nat) (q : EQueue) (k : Nat) : (s.setQueue o n q).stream k = s.stream k := rfl
@[simp] theorem State.onChan_stream (s : State) (c : Nat) (f : DramChan → DramChan) (k : Nat) : (s.onChan c f).stream k = s.stream k := rfl
@[simp] theorem State.setTile_stream (s : State) (c : Nat) (t : Tile) (k : Nat) : (s.setTile c t).stream k = s.stream k := rfl
@[simp] theorem State.onMac_stream (s : State) (n : Nat) (f : Mac → Mac) (k : Nat) : (s.onMac n f).stream k = s.stream k := rfl
@[simp] theorem State.onTim_stream (s : State) (f : TimeBlock → TimeBlock) (k : Nat) : (s.onTim f).stream k = s.stream k := rfl
@[simp] theorem State.setVox_stream (s : State) (v : Nat) (x : VoxChan) (k : Nat) : (s.setVox v x).stream k = s.stream k := rfl
@[simp] theorem State.onVox_stream (s : State) (v : Nat) (f : VoxChan → VoxChan) (k : Nat) : (s.onVox v f).stream k = s.stream k := rfl
@[simp] theorem State.onWick_stream (s : State) (f : Wick → Wick) (k : Nat) : (s.onWick f).stream k = s.stream k := rfl
@[simp] theorem State.onLan_stream (s : State) (f : Lantern → Lantern) (k : Nat) : (s.onLan f).stream k = s.stream k := rfl
@[simp] theorem State.onVig_stream (s : State) (f : VigilSt → VigilSt) (k : Nat) : (s.onVig f).stream k = s.stream k := rfl
@[simp] theorem State.onCore_stream (s : State) (c : Nat) (f : LCore → LCore) (k : Nat) : (s.onCore c f).stream k = s.stream k := rfl
@[simp] theorem State.onSec_stream (s : State) (f : Sec → Sec) (k : Nat) : (s.onSec f).stream k = s.stream k := rfl
@[simp] theorem State.onPwr_stream (s : State) (f : Pwr → Pwr) (k : Nat) : (s.onPwr f).stream k = s.stream k := rfl
@[simp] theorem State.onMnt_stream (s : State) (f : Mantle → Mantle) (k : Nat) : (s.onMnt f).stream k = s.stream k := rfl
@[simp] theorem State.onPort_stream (s : State) (p : Nat) (f : Port → Port) (k : Nat) : (s.onPort p f).stream k = s.stream k := rfl
@[simp] theorem State.onOps_stream (s : State) (c : Nat) (f : OpsChan → OpsChan) (k : Nat) : (s.onOps c f).stream k = s.stream k := rfl
@[simp] theorem State.onLink_stream (s : State) (f : Link → Link) (k : Nat) : (s.onLink f).stream k = s.stream k := rfl
@[simp] theorem State.onLport_stream (s : State) (p : Nat) (f : LinkPort → LinkPort) (k : Nat) : (s.onLport p f).stream k = s.stream k := rfl
theorem State.voxChan_setVox (s : State) (k : Nat) (x : VoxChan) : (s.setVox k x).voxChan k = x := Cells.get_put_self
theorem State.voxChan_setVox_ne (s : State) (k j : Nat) (x : VoxChan) (h : j ≠ k) : (s.setVox k x).voxChan j = s.voxChan j := Cells.get_put_ne h
theorem State.voxChan_onVox (s : State) (k : Nat) (f : VoxChan → VoxChan) : (s.onVox k f).voxChan k = f (s.voxChan k) := Cells.get_put_self
theorem State.voxChan_onVox_ne (s : State) (k j : Nat) (f : VoxChan → VoxChan) (h : j ≠ k) : (s.onVox k f).voxChan j = s.voxChan j := Cells.get_put_ne h
@[simp] theorem State.setReg_voxChan (s : State) (off : Nat) (v : Word) (k : Nat) : (s.setReg off v).voxChan k = s.voxChan k := rfl
@[simp] theorem State.setFld_voxChan (s : State) (off hi lo v : Nat) (k : Nat) : (s.setFld off hi lo v).voxChan k = s.voxChan k := rfl
@[simp] theorem State.setFlag_voxChan (s : State) (off n : Nat) (b : Bool) (k : Nat) : (s.setFlag off n b).voxChan k = s.voxChan k := rfl
@[simp] theorem State.setReg64_voxChan (s : State) (off v : Nat) (k : Nat) : (s.setReg64 off v).voxChan k = s.voxChan k := rfl
@[simp] theorem State.bump_voxChan (s : State) (off n : Nat) (k : Nat) : (s.bump off n).voxChan k = s.voxChan k := rfl
@[simp] theorem State.elapse_voxChan (s : State) (dt : Nat) (k : Nat) : (s.elapse dt).voxChan k = s.voxChan k := rfl
@[simp] theorem State.fresh_voxChan (s : State) (n : Nat) (k : Nat) : ((s.fresh n).2).voxChan k = s.voxChan k := rfl
@[simp] theorem State.freshBytes_voxChan (s : State) (n : Nat) (k : Nat) : ((s.freshBytes n).2).voxChan k = s.voxChan k := rfl
@[simp] theorem State.setRing_voxChan (s : State) (r : Nat) (x : Ring) (k : Nat) : (s.setRing r x).voxChan k = s.voxChan k := rfl
@[simp] theorem State.onRing_voxChan (s : State) (r : Nat) (f : Ring → Ring) (k : Nat) : (s.onRing r f).voxChan k = s.voxChan k := rfl
@[simp] theorem State.setPhase_voxChan (s : State) (r i : Nat) (p : Phase) (k : Nat) : (s.setPhase r i p).voxChan k = s.voxChan k := rfl
@[simp] theorem State.emit_voxChan (s : State) (w : HostWrite) (k : Nat) : (s.emit w).voxChan k = s.voxChan k := rfl
@[simp] theorem State.auditRelease_voxChan (s : State) (n : Nat) (k : Nat) : (s.auditRelease n).voxChan k = s.voxChan k := rfl
@[simp] theorem State.setConvOut_voxChan (s : State) (n : Nat) (x : ConvOut) (k : Nat) : (s.setConvOut n x).voxChan k = s.voxChan k := rfl
@[simp] theorem State.setCand_voxChan (s : State) (c : Nat) (x : MCand) (k : Nat) : (s.setCand c x).voxChan k = s.voxChan k := rfl
@[simp] theorem State.setTrig_voxChan (s : State) (c : Nat) (x : Trigger) (k : Nat) : (s.setTrig c x).voxChan k = s.voxChan k := rfl
@[simp] theorem State.setFftQ_voxChan (s : State) (c : Nat) (q : List FftJob) (k : Nat) : (s.setFftQ c q).voxChan k = s.voxChan k := rfl
@[simp] theorem State.setCore_voxChan (s : State) (c : Nat) (x : LCore) (k : Nat) : (s.setCore c x).voxChan k = s.voxChan k := rfl
@[simp] theorem State.onHost_voxChan (s : State) (f : HostIf → HostIf) (k : Nat) : (s.onHost f).voxChan k = s.voxChan k := rfl
@[simp] theorem State.onAudit_voxChan (s : State) (f : Audit → Audit) (k : Nat) : (s.onAudit f).voxChan k = s.voxChan k := rfl
@[simp] theorem State.onMgt_voxChan (s : State) (f : Mgt → Mgt) (k : Nat) : (s.onMgt f).voxChan k = s.voxChan k := rfl
@[simp] theorem State.onRnd_voxChan (s : State) (f : Render → Render) (k : Nat) : (s.onRnd f).voxChan k = s.voxChan k := rfl
@[simp] theorem State.onCnv_voxChan (s : State) (f : Conv → Conv) (k : Nat) : (s.onCnv f).voxChan k = s.voxChan k := rfl
@[simp] theorem State.onMix_voxChan (s : State) (f : Mix → Mix) (k : Nat) : (s.onMix f).voxChan k = s.voxChan k := rfl
@[simp] theorem State.setQueue_voxChan (s : State) (o n : Nat) (q : EQueue) (k : Nat) : (s.setQueue o n q).voxChan k = s.voxChan k := rfl
@[simp] theorem State.onChan_voxChan (s : State) (c : Nat) (f : DramChan → DramChan) (k : Nat) : (s.onChan c f).voxChan k = s.voxChan k := rfl
@[simp] theorem State.setTile_voxChan (s : State) (c : Nat) (t : Tile) (k : Nat) : (s.setTile c t).voxChan k = s.voxChan k := rfl
@[simp] theorem State.onMac_voxChan (s : State) (n : Nat) (f : Mac → Mac) (k : Nat) : (s.onMac n f).voxChan k = s.voxChan k := rfl
@[simp] theorem State.onTim_voxChan (s : State) (f : TimeBlock → TimeBlock) (k : Nat) : (s.onTim f).voxChan k = s.voxChan k := rfl
@[simp] theorem State.setStream_voxChan (s : State) (n : Nat) (x : Stream) (k : Nat) : (s.setStream n x).voxChan k = s.voxChan k := rfl
@[simp] theorem State.onWick_voxChan (s : State) (f : Wick → Wick) (k : Nat) : (s.onWick f).voxChan k = s.voxChan k := rfl
@[simp] theorem State.onLan_voxChan (s : State) (f : Lantern → Lantern) (k : Nat) : (s.onLan f).voxChan k = s.voxChan k := rfl
@[simp] theorem State.onVig_voxChan (s : State) (f : VigilSt → VigilSt) (k : Nat) : (s.onVig f).voxChan k = s.voxChan k := rfl
@[simp] theorem State.onCore_voxChan (s : State) (c : Nat) (f : LCore → LCore) (k : Nat) : (s.onCore c f).voxChan k = s.voxChan k := rfl
@[simp] theorem State.onSec_voxChan (s : State) (f : Sec → Sec) (k : Nat) : (s.onSec f).voxChan k = s.voxChan k := rfl
@[simp] theorem State.onPwr_voxChan (s : State) (f : Pwr → Pwr) (k : Nat) : (s.onPwr f).voxChan k = s.voxChan k := rfl
@[simp] theorem State.onMnt_voxChan (s : State) (f : Mantle → Mantle) (k : Nat) : (s.onMnt f).voxChan k = s.voxChan k := rfl
@[simp] theorem State.onPort_voxChan (s : State) (p : Nat) (f : Port → Port) (k : Nat) : (s.onPort p f).voxChan k = s.voxChan k := rfl
@[simp] theorem State.onOps_voxChan (s : State) (c : Nat) (f : OpsChan → OpsChan) (k : Nat) : (s.onOps c f).voxChan k = s.voxChan k := rfl
@[simp] theorem State.onLink_voxChan (s : State) (f : Link → Link) (k : Nat) : (s.onLink f).voxChan k = s.voxChan k := rfl
@[simp] theorem State.onLport_voxChan (s : State) (p : Nat) (f : LinkPort → LinkPort) (k : Nat) : (s.onLport p f).voxChan k = s.voxChan k := rfl
theorem State.opsChan_onOps (s : State) (k : Nat) (f : OpsChan → OpsChan) : (s.onOps k f).opsChan k = f (s.opsChan k) := Cells.get_put_self
theorem State.opsChan_onOps_ne (s : State) (k j : Nat) (f : OpsChan → OpsChan) (h : j ≠ k) : (s.onOps k f).opsChan j = s.opsChan j := Cells.get_put_ne h
@[simp] theorem State.setReg_opsChan (s : State) (off : Nat) (v : Word) (k : Nat) : (s.setReg off v).opsChan k = s.opsChan k := rfl
@[simp] theorem State.setFld_opsChan (s : State) (off hi lo v : Nat) (k : Nat) : (s.setFld off hi lo v).opsChan k = s.opsChan k := rfl
@[simp] theorem State.setFlag_opsChan (s : State) (off n : Nat) (b : Bool) (k : Nat) : (s.setFlag off n b).opsChan k = s.opsChan k := rfl
@[simp] theorem State.setReg64_opsChan (s : State) (off v : Nat) (k : Nat) : (s.setReg64 off v).opsChan k = s.opsChan k := rfl
@[simp] theorem State.bump_opsChan (s : State) (off n : Nat) (k : Nat) : (s.bump off n).opsChan k = s.opsChan k := rfl
@[simp] theorem State.elapse_opsChan (s : State) (dt : Nat) (k : Nat) : (s.elapse dt).opsChan k = s.opsChan k := rfl
@[simp] theorem State.fresh_opsChan (s : State) (n : Nat) (k : Nat) : ((s.fresh n).2).opsChan k = s.opsChan k := rfl
@[simp] theorem State.freshBytes_opsChan (s : State) (n : Nat) (k : Nat) : ((s.freshBytes n).2).opsChan k = s.opsChan k := rfl
@[simp] theorem State.setRing_opsChan (s : State) (r : Nat) (x : Ring) (k : Nat) : (s.setRing r x).opsChan k = s.opsChan k := rfl
@[simp] theorem State.onRing_opsChan (s : State) (r : Nat) (f : Ring → Ring) (k : Nat) : (s.onRing r f).opsChan k = s.opsChan k := rfl
@[simp] theorem State.setPhase_opsChan (s : State) (r i : Nat) (p : Phase) (k : Nat) : (s.setPhase r i p).opsChan k = s.opsChan k := rfl
@[simp] theorem State.emit_opsChan (s : State) (w : HostWrite) (k : Nat) : (s.emit w).opsChan k = s.opsChan k := rfl
@[simp] theorem State.auditRelease_opsChan (s : State) (n : Nat) (k : Nat) : (s.auditRelease n).opsChan k = s.opsChan k := rfl
@[simp] theorem State.setConvOut_opsChan (s : State) (n : Nat) (x : ConvOut) (k : Nat) : (s.setConvOut n x).opsChan k = s.opsChan k := rfl
@[simp] theorem State.setCand_opsChan (s : State) (c : Nat) (x : MCand) (k : Nat) : (s.setCand c x).opsChan k = s.opsChan k := rfl
@[simp] theorem State.setTrig_opsChan (s : State) (c : Nat) (x : Trigger) (k : Nat) : (s.setTrig c x).opsChan k = s.opsChan k := rfl
@[simp] theorem State.setFftQ_opsChan (s : State) (c : Nat) (q : List FftJob) (k : Nat) : (s.setFftQ c q).opsChan k = s.opsChan k := rfl
@[simp] theorem State.setCore_opsChan (s : State) (c : Nat) (x : LCore) (k : Nat) : (s.setCore c x).opsChan k = s.opsChan k := rfl
@[simp] theorem State.onHost_opsChan (s : State) (f : HostIf → HostIf) (k : Nat) : (s.onHost f).opsChan k = s.opsChan k := rfl
@[simp] theorem State.onAudit_opsChan (s : State) (f : Audit → Audit) (k : Nat) : (s.onAudit f).opsChan k = s.opsChan k := rfl
@[simp] theorem State.onMgt_opsChan (s : State) (f : Mgt → Mgt) (k : Nat) : (s.onMgt f).opsChan k = s.opsChan k := rfl
@[simp] theorem State.onRnd_opsChan (s : State) (f : Render → Render) (k : Nat) : (s.onRnd f).opsChan k = s.opsChan k := rfl
@[simp] theorem State.onCnv_opsChan (s : State) (f : Conv → Conv) (k : Nat) : (s.onCnv f).opsChan k = s.opsChan k := rfl
@[simp] theorem State.onMix_opsChan (s : State) (f : Mix → Mix) (k : Nat) : (s.onMix f).opsChan k = s.opsChan k := rfl
@[simp] theorem State.setQueue_opsChan (s : State) (o n : Nat) (q : EQueue) (k : Nat) : (s.setQueue o n q).opsChan k = s.opsChan k := rfl
@[simp] theorem State.onChan_opsChan (s : State) (c : Nat) (f : DramChan → DramChan) (k : Nat) : (s.onChan c f).opsChan k = s.opsChan k := rfl
@[simp] theorem State.setTile_opsChan (s : State) (c : Nat) (t : Tile) (k : Nat) : (s.setTile c t).opsChan k = s.opsChan k := rfl
@[simp] theorem State.onMac_opsChan (s : State) (n : Nat) (f : Mac → Mac) (k : Nat) : (s.onMac n f).opsChan k = s.opsChan k := rfl
@[simp] theorem State.onTim_opsChan (s : State) (f : TimeBlock → TimeBlock) (k : Nat) : (s.onTim f).opsChan k = s.opsChan k := rfl
@[simp] theorem State.setStream_opsChan (s : State) (n : Nat) (x : Stream) (k : Nat) : (s.setStream n x).opsChan k = s.opsChan k := rfl
@[simp] theorem State.setVox_opsChan (s : State) (v : Nat) (x : VoxChan) (k : Nat) : (s.setVox v x).opsChan k = s.opsChan k := rfl
@[simp] theorem State.onVox_opsChan (s : State) (v : Nat) (f : VoxChan → VoxChan) (k : Nat) : (s.onVox v f).opsChan k = s.opsChan k := rfl
@[simp] theorem State.onWick_opsChan (s : State) (f : Wick → Wick) (k : Nat) : (s.onWick f).opsChan k = s.opsChan k := rfl
@[simp] theorem State.onLan_opsChan (s : State) (f : Lantern → Lantern) (k : Nat) : (s.onLan f).opsChan k = s.opsChan k := rfl
@[simp] theorem State.onVig_opsChan (s : State) (f : VigilSt → VigilSt) (k : Nat) : (s.onVig f).opsChan k = s.opsChan k := rfl
@[simp] theorem State.onCore_opsChan (s : State) (c : Nat) (f : LCore → LCore) (k : Nat) : (s.onCore c f).opsChan k = s.opsChan k := rfl
@[simp] theorem State.onSec_opsChan (s : State) (f : Sec → Sec) (k : Nat) : (s.onSec f).opsChan k = s.opsChan k := rfl
@[simp] theorem State.onPwr_opsChan (s : State) (f : Pwr → Pwr) (k : Nat) : (s.onPwr f).opsChan k = s.opsChan k := rfl
@[simp] theorem State.onMnt_opsChan (s : State) (f : Mantle → Mantle) (k : Nat) : (s.onMnt f).opsChan k = s.opsChan k := rfl
@[simp] theorem State.onPort_opsChan (s : State) (p : Nat) (f : Port → Port) (k : Nat) : (s.onPort p f).opsChan k = s.opsChan k := rfl
@[simp] theorem State.onLink_opsChan (s : State) (f : Link → Link) (k : Nat) : (s.onLink f).opsChan k = s.opsChan k := rfl
@[simp] theorem State.onLport_opsChan (s : State) (p : Nat) (f : LinkPort → LinkPort) (k : Nat) : (s.onLport p f).opsChan k = s.opsChan k := rfl
theorem State.cand_setCand (s : State) (k : Nat) (x : MCand) : (s.setCand k x).cand k = x := Cells.get_put_self
theorem State.cand_setCand_ne (s : State) (k j : Nat) (x : MCand) (h : j ≠ k) : (s.setCand k x).cand j = s.cand j := Cells.get_put_ne h
@[simp] theorem State.setReg_cand (s : State) (off : Nat) (v : Word) (k : Nat) : (s.setReg off v).cand k = s.cand k := rfl
@[simp] theorem State.setFld_cand (s : State) (off hi lo v : Nat) (k : Nat) : (s.setFld off hi lo v).cand k = s.cand k := rfl
@[simp] theorem State.setFlag_cand (s : State) (off n : Nat) (b : Bool) (k : Nat) : (s.setFlag off n b).cand k = s.cand k := rfl
@[simp] theorem State.setReg64_cand (s : State) (off v : Nat) (k : Nat) : (s.setReg64 off v).cand k = s.cand k := rfl
@[simp] theorem State.bump_cand (s : State) (off n : Nat) (k : Nat) : (s.bump off n).cand k = s.cand k := rfl
@[simp] theorem State.elapse_cand (s : State) (dt : Nat) (k : Nat) : (s.elapse dt).cand k = s.cand k := rfl
@[simp] theorem State.fresh_cand (s : State) (n : Nat) (k : Nat) : ((s.fresh n).2).cand k = s.cand k := rfl
@[simp] theorem State.freshBytes_cand (s : State) (n : Nat) (k : Nat) : ((s.freshBytes n).2).cand k = s.cand k := rfl
@[simp] theorem State.setRing_cand (s : State) (r : Nat) (x : Ring) (k : Nat) : (s.setRing r x).cand k = s.cand k := rfl
@[simp] theorem State.onRing_cand (s : State) (r : Nat) (f : Ring → Ring) (k : Nat) : (s.onRing r f).cand k = s.cand k := rfl
@[simp] theorem State.setPhase_cand (s : State) (r i : Nat) (p : Phase) (k : Nat) : (s.setPhase r i p).cand k = s.cand k := rfl
@[simp] theorem State.emit_cand (s : State) (w : HostWrite) (k : Nat) : (s.emit w).cand k = s.cand k := rfl
@[simp] theorem State.auditRelease_cand (s : State) (n : Nat) (k : Nat) : (s.auditRelease n).cand k = s.cand k := rfl
@[simp] theorem State.setConvOut_cand (s : State) (n : Nat) (x : ConvOut) (k : Nat) : (s.setConvOut n x).cand k = s.cand k := rfl
@[simp] theorem State.setTrig_cand (s : State) (c : Nat) (x : Trigger) (k : Nat) : (s.setTrig c x).cand k = s.cand k := rfl
@[simp] theorem State.setFftQ_cand (s : State) (c : Nat) (q : List FftJob) (k : Nat) : (s.setFftQ c q).cand k = s.cand k := rfl
@[simp] theorem State.setCore_cand (s : State) (c : Nat) (x : LCore) (k : Nat) : (s.setCore c x).cand k = s.cand k := rfl
@[simp] theorem State.onHost_cand (s : State) (f : HostIf → HostIf) (k : Nat) : (s.onHost f).cand k = s.cand k := rfl
@[simp] theorem State.onAudit_cand (s : State) (f : Audit → Audit) (k : Nat) : (s.onAudit f).cand k = s.cand k := rfl
@[simp] theorem State.onMgt_cand (s : State) (f : Mgt → Mgt) (k : Nat) : (s.onMgt f).cand k = s.cand k := rfl
@[simp] theorem State.onRnd_cand (s : State) (f : Render → Render) (k : Nat) : (s.onRnd f).cand k = s.cand k := rfl
@[simp] theorem State.onCnv_cand (s : State) (f : Conv → Conv) (k : Nat) : (s.onCnv f).cand k = s.cand k := rfl
@[simp] theorem State.onMix_cand (s : State) (f : Mix → Mix) (k : Nat) : (s.onMix f).cand k = s.cand k := rfl
@[simp] theorem State.setQueue_cand (s : State) (o n : Nat) (q : EQueue) (k : Nat) : (s.setQueue o n q).cand k = s.cand k := rfl
@[simp] theorem State.onChan_cand (s : State) (c : Nat) (f : DramChan → DramChan) (k : Nat) : (s.onChan c f).cand k = s.cand k := rfl
@[simp] theorem State.setTile_cand (s : State) (c : Nat) (t : Tile) (k : Nat) : (s.setTile c t).cand k = s.cand k := rfl
@[simp] theorem State.onMac_cand (s : State) (n : Nat) (f : Mac → Mac) (k : Nat) : (s.onMac n f).cand k = s.cand k := rfl
@[simp] theorem State.onTim_cand (s : State) (f : TimeBlock → TimeBlock) (k : Nat) : (s.onTim f).cand k = s.cand k := rfl
@[simp] theorem State.setStream_cand (s : State) (n : Nat) (x : Stream) (k : Nat) : (s.setStream n x).cand k = s.cand k := rfl
@[simp] theorem State.setVox_cand (s : State) (v : Nat) (x : VoxChan) (k : Nat) : (s.setVox v x).cand k = s.cand k := rfl
@[simp] theorem State.onVox_cand (s : State) (v : Nat) (f : VoxChan → VoxChan) (k : Nat) : (s.onVox v f).cand k = s.cand k := rfl
@[simp] theorem State.onWick_cand (s : State) (f : Wick → Wick) (k : Nat) : (s.onWick f).cand k = s.cand k := rfl
@[simp] theorem State.onLan_cand (s : State) (f : Lantern → Lantern) (k : Nat) : (s.onLan f).cand k = s.cand k := rfl
@[simp] theorem State.onVig_cand (s : State) (f : VigilSt → VigilSt) (k : Nat) : (s.onVig f).cand k = s.cand k := rfl
@[simp] theorem State.onCore_cand (s : State) (c : Nat) (f : LCore → LCore) (k : Nat) : (s.onCore c f).cand k = s.cand k := rfl
@[simp] theorem State.onSec_cand (s : State) (f : Sec → Sec) (k : Nat) : (s.onSec f).cand k = s.cand k := rfl
@[simp] theorem State.onPwr_cand (s : State) (f : Pwr → Pwr) (k : Nat) : (s.onPwr f).cand k = s.cand k := rfl
@[simp] theorem State.onPort_cand (s : State) (p : Nat) (f : Port → Port) (k : Nat) : (s.onPort p f).cand k = s.cand k := rfl
@[simp] theorem State.onOps_cand (s : State) (c : Nat) (f : OpsChan → OpsChan) (k : Nat) : (s.onOps c f).cand k = s.cand k := rfl
@[simp] theorem State.onLink_cand (s : State) (f : Link → Link) (k : Nat) : (s.onLink f).cand k = s.cand k := rfl
@[simp] theorem State.onLport_cand (s : State) (p : Nat) (f : LinkPort → LinkPort) (k : Nat) : (s.onLport p f).cand k = s.cand k := rfl
theorem State.chan_onChan (s : State) (k : Nat) (f : DramChan → DramChan) : (s.onChan k f).chan k = f (s.chan k) := Cells.get_put_self
theorem State.chan_onChan_ne (s : State) (k j : Nat) (f : DramChan → DramChan) (h : j ≠ k) : (s.onChan k f).chan j = s.chan j := Cells.get_put_ne h
@[simp] theorem State.setReg_chan (s : State) (off : Nat) (v : Word) (k : Nat) : (s.setReg off v).chan k = s.chan k := rfl
@[simp] theorem State.setFld_chan (s : State) (off hi lo v : Nat) (k : Nat) : (s.setFld off hi lo v).chan k = s.chan k := rfl
@[simp] theorem State.setFlag_chan (s : State) (off n : Nat) (b : Bool) (k : Nat) : (s.setFlag off n b).chan k = s.chan k := rfl
@[simp] theorem State.setReg64_chan (s : State) (off v : Nat) (k : Nat) : (s.setReg64 off v).chan k = s.chan k := rfl
@[simp] theorem State.bump_chan (s : State) (off n : Nat) (k : Nat) : (s.bump off n).chan k = s.chan k := rfl
@[simp] theorem State.elapse_chan (s : State) (dt : Nat) (k : Nat) : (s.elapse dt).chan k = s.chan k := rfl
@[simp] theorem State.fresh_chan (s : State) (n : Nat) (k : Nat) : ((s.fresh n).2).chan k = s.chan k := rfl
@[simp] theorem State.freshBytes_chan (s : State) (n : Nat) (k : Nat) : ((s.freshBytes n).2).chan k = s.chan k := rfl
@[simp] theorem State.setRing_chan (s : State) (r : Nat) (x : Ring) (k : Nat) : (s.setRing r x).chan k = s.chan k := rfl
@[simp] theorem State.onRing_chan (s : State) (r : Nat) (f : Ring → Ring) (k : Nat) : (s.onRing r f).chan k = s.chan k := rfl
@[simp] theorem State.setPhase_chan (s : State) (r i : Nat) (p : Phase) (k : Nat) : (s.setPhase r i p).chan k = s.chan k := rfl
@[simp] theorem State.emit_chan (s : State) (w : HostWrite) (k : Nat) : (s.emit w).chan k = s.chan k := rfl
@[simp] theorem State.auditRelease_chan (s : State) (n : Nat) (k : Nat) : (s.auditRelease n).chan k = s.chan k := rfl
@[simp] theorem State.setConvOut_chan (s : State) (n : Nat) (x : ConvOut) (k : Nat) : (s.setConvOut n x).chan k = s.chan k := rfl
@[simp] theorem State.setCand_chan (s : State) (c : Nat) (x : MCand) (k : Nat) : (s.setCand c x).chan k = s.chan k := rfl
@[simp] theorem State.setTrig_chan (s : State) (c : Nat) (x : Trigger) (k : Nat) : (s.setTrig c x).chan k = s.chan k := rfl
@[simp] theorem State.setFftQ_chan (s : State) (c : Nat) (q : List FftJob) (k : Nat) : (s.setFftQ c q).chan k = s.chan k := rfl
@[simp] theorem State.setCore_chan (s : State) (c : Nat) (x : LCore) (k : Nat) : (s.setCore c x).chan k = s.chan k := rfl
@[simp] theorem State.onHost_chan (s : State) (f : HostIf → HostIf) (k : Nat) : (s.onHost f).chan k = s.chan k := rfl
@[simp] theorem State.onAudit_chan (s : State) (f : Audit → Audit) (k : Nat) : (s.onAudit f).chan k = s.chan k := rfl
@[simp] theorem State.onMgt_chan (s : State) (f : Mgt → Mgt) (k : Nat) : (s.onMgt f).chan k = s.chan k := rfl
@[simp] theorem State.onRnd_chan (s : State) (f : Render → Render) (k : Nat) : (s.onRnd f).chan k = s.chan k := rfl
@[simp] theorem State.onCnv_chan (s : State) (f : Conv → Conv) (k : Nat) : (s.onCnv f).chan k = s.chan k := rfl
@[simp] theorem State.onMix_chan (s : State) (f : Mix → Mix) (k : Nat) : (s.onMix f).chan k = s.chan k := rfl
@[simp] theorem State.setQueue_chan (s : State) (o n : Nat) (q : EQueue) (k : Nat) : (s.setQueue o n q).chan k = s.chan k := rfl
@[simp] theorem State.setTile_chan (s : State) (c : Nat) (t : Tile) (k : Nat) : (s.setTile c t).chan k = s.chan k := rfl
@[simp] theorem State.onMac_chan (s : State) (n : Nat) (f : Mac → Mac) (k : Nat) : (s.onMac n f).chan k = s.chan k := rfl
@[simp] theorem State.onTim_chan (s : State) (f : TimeBlock → TimeBlock) (k : Nat) : (s.onTim f).chan k = s.chan k := rfl
@[simp] theorem State.setStream_chan (s : State) (n : Nat) (x : Stream) (k : Nat) : (s.setStream n x).chan k = s.chan k := rfl
@[simp] theorem State.setVox_chan (s : State) (v : Nat) (x : VoxChan) (k : Nat) : (s.setVox v x).chan k = s.chan k := rfl
@[simp] theorem State.onVox_chan (s : State) (v : Nat) (f : VoxChan → VoxChan) (k : Nat) : (s.onVox v f).chan k = s.chan k := rfl
@[simp] theorem State.onWick_chan (s : State) (f : Wick → Wick) (k : Nat) : (s.onWick f).chan k = s.chan k := rfl
@[simp] theorem State.onLan_chan (s : State) (f : Lantern → Lantern) (k : Nat) : (s.onLan f).chan k = s.chan k := rfl
@[simp] theorem State.onVig_chan (s : State) (f : VigilSt → VigilSt) (k : Nat) : (s.onVig f).chan k = s.chan k := rfl
@[simp] theorem State.onCore_chan (s : State) (c : Nat) (f : LCore → LCore) (k : Nat) : (s.onCore c f).chan k = s.chan k := rfl
@[simp] theorem State.onSec_chan (s : State) (f : Sec → Sec) (k : Nat) : (s.onSec f).chan k = s.chan k := rfl
@[simp] theorem State.onPwr_chan (s : State) (f : Pwr → Pwr) (k : Nat) : (s.onPwr f).chan k = s.chan k := rfl
@[simp] theorem State.onMnt_chan (s : State) (f : Mantle → Mantle) (k : Nat) : (s.onMnt f).chan k = s.chan k := rfl
@[simp] theorem State.onPort_chan (s : State) (p : Nat) (f : Port → Port) (k : Nat) : (s.onPort p f).chan k = s.chan k := rfl
@[simp] theorem State.onOps_chan (s : State) (c : Nat) (f : OpsChan → OpsChan) (k : Nat) : (s.onOps c f).chan k = s.chan k := rfl
@[simp] theorem State.onLink_chan (s : State) (f : Link → Link) (k : Nat) : (s.onLink f).chan k = s.chan k := rfl
@[simp] theorem State.onLport_chan (s : State) (p : Nat) (f : LinkPort → LinkPort) (k : Nat) : (s.onLport p f).chan k = s.chan k := rfl
theorem State.core_setCore (s : State) (k : Nat) (x : LCore) : (s.setCore k x).core k = x := Cells.get_put_self
theorem State.core_setCore_ne (s : State) (k j : Nat) (x : LCore) (h : j ≠ k) : (s.setCore k x).core j = s.core j := Cells.get_put_ne h
theorem State.core_onCore (s : State) (k : Nat) (f : LCore → LCore) : (s.onCore k f).core k = f (s.core k) := Cells.get_put_self
theorem State.core_onCore_ne (s : State) (k j : Nat) (f : LCore → LCore) (h : j ≠ k) : (s.onCore k f).core j = s.core j := Cells.get_put_ne h
@[simp] theorem State.setReg_core (s : State) (off : Nat) (v : Word) (k : Nat) : (s.setReg off v).core k = s.core k := rfl
@[simp] theorem State.setFld_core (s : State) (off hi lo v : Nat) (k : Nat) : (s.setFld off hi lo v).core k = s.core k := rfl
@[simp] theorem State.setFlag_core (s : State) (off n : Nat) (b : Bool) (k : Nat) : (s.setFlag off n b).core k = s.core k := rfl
@[simp] theorem State.setReg64_core (s : State) (off v : Nat) (k : Nat) : (s.setReg64 off v).core k = s.core k := rfl
@[simp] theorem State.bump_core (s : State) (off n : Nat) (k : Nat) : (s.bump off n).core k = s.core k := rfl
@[simp] theorem State.elapse_core (s : State) (dt : Nat) (k : Nat) : (s.elapse dt).core k = s.core k := rfl
@[simp] theorem State.fresh_core (s : State) (n : Nat) (k : Nat) : ((s.fresh n).2).core k = s.core k := rfl
@[simp] theorem State.freshBytes_core (s : State) (n : Nat) (k : Nat) : ((s.freshBytes n).2).core k = s.core k := rfl
@[simp] theorem State.setRing_core (s : State) (r : Nat) (x : Ring) (k : Nat) : (s.setRing r x).core k = s.core k := rfl
@[simp] theorem State.onRing_core (s : State) (r : Nat) (f : Ring → Ring) (k : Nat) : (s.onRing r f).core k = s.core k := rfl
@[simp] theorem State.setPhase_core (s : State) (r i : Nat) (p : Phase) (k : Nat) : (s.setPhase r i p).core k = s.core k := rfl
@[simp] theorem State.emit_core (s : State) (w : HostWrite) (k : Nat) : (s.emit w).core k = s.core k := rfl
@[simp] theorem State.auditRelease_core (s : State) (n : Nat) (k : Nat) : (s.auditRelease n).core k = s.core k := rfl
@[simp] theorem State.setConvOut_core (s : State) (n : Nat) (x : ConvOut) (k : Nat) : (s.setConvOut n x).core k = s.core k := rfl
@[simp] theorem State.setCand_core (s : State) (c : Nat) (x : MCand) (k : Nat) : (s.setCand c x).core k = s.core k := rfl
@[simp] theorem State.setTrig_core (s : State) (c : Nat) (x : Trigger) (k : Nat) : (s.setTrig c x).core k = s.core k := rfl
@[simp] theorem State.onHost_core (s : State) (f : HostIf → HostIf) (k : Nat) : (s.onHost f).core k = s.core k := rfl
@[simp] theorem State.onAudit_core (s : State) (f : Audit → Audit) (k : Nat) : (s.onAudit f).core k = s.core k := rfl
@[simp] theorem State.onMgt_core (s : State) (f : Mgt → Mgt) (k : Nat) : (s.onMgt f).core k = s.core k := rfl
@[simp] theorem State.onRnd_core (s : State) (f : Render → Render) (k : Nat) : (s.onRnd f).core k = s.core k := rfl
@[simp] theorem State.onCnv_core (s : State) (f : Conv → Conv) (k : Nat) : (s.onCnv f).core k = s.core k := rfl
@[simp] theorem State.onMix_core (s : State) (f : Mix → Mix) (k : Nat) : (s.onMix f).core k = s.core k := rfl
@[simp] theorem State.setQueue_core (s : State) (o n : Nat) (q : EQueue) (k : Nat) : (s.setQueue o n q).core k = s.core k := rfl
@[simp] theorem State.onChan_core (s : State) (c : Nat) (f : DramChan → DramChan) (k : Nat) : (s.onChan c f).core k = s.core k := rfl
@[simp] theorem State.setTile_core (s : State) (c : Nat) (t : Tile) (k : Nat) : (s.setTile c t).core k = s.core k := rfl
@[simp] theorem State.onMac_core (s : State) (n : Nat) (f : Mac → Mac) (k : Nat) : (s.onMac n f).core k = s.core k := rfl
@[simp] theorem State.onTim_core (s : State) (f : TimeBlock → TimeBlock) (k : Nat) : (s.onTim f).core k = s.core k := rfl
@[simp] theorem State.setStream_core (s : State) (n : Nat) (x : Stream) (k : Nat) : (s.setStream n x).core k = s.core k := rfl
@[simp] theorem State.setVox_core (s : State) (v : Nat) (x : VoxChan) (k : Nat) : (s.setVox v x).core k = s.core k := rfl
@[simp] theorem State.onVox_core (s : State) (v : Nat) (f : VoxChan → VoxChan) (k : Nat) : (s.onVox v f).core k = s.core k := rfl
@[simp] theorem State.onWick_core (s : State) (f : Wick → Wick) (k : Nat) : (s.onWick f).core k = s.core k := rfl
@[simp] theorem State.onVig_core (s : State) (f : VigilSt → VigilSt) (k : Nat) : (s.onVig f).core k = s.core k := rfl
@[simp] theorem State.onSec_core (s : State) (f : Sec → Sec) (k : Nat) : (s.onSec f).core k = s.core k := rfl
@[simp] theorem State.onPwr_core (s : State) (f : Pwr → Pwr) (k : Nat) : (s.onPwr f).core k = s.core k := rfl
@[simp] theorem State.onMnt_core (s : State) (f : Mantle → Mantle) (k : Nat) : (s.onMnt f).core k = s.core k := rfl
@[simp] theorem State.onPort_core (s : State) (p : Nat) (f : Port → Port) (k : Nat) : (s.onPort p f).core k = s.core k := rfl
@[simp] theorem State.onOps_core (s : State) (c : Nat) (f : OpsChan → OpsChan) (k : Nat) : (s.onOps c f).core k = s.core k := rfl
@[simp] theorem State.onLink_core (s : State) (f : Link → Link) (k : Nat) : (s.onLink f).core k = s.core k := rfl
@[simp] theorem State.onLport_core (s : State) (p : Nat) (f : LinkPort → LinkPort) (k : Nat) : (s.onLport p f).core k = s.core k := rfl
theorem State.convOut_setConvOut (s : State) (k : Nat) (x : ConvOut) : (s.setConvOut k x).convOut k = x := Cells.get_put_self
theorem State.convOut_setConvOut_ne (s : State) (k j : Nat) (x : ConvOut) (h : j ≠ k) : (s.setConvOut k x).convOut j = s.convOut j := Cells.get_put_ne h
@[simp] theorem State.setReg_convOut (s : State) (off : Nat) (v : Word) (k : Nat) : (s.setReg off v).convOut k = s.convOut k := rfl
@[simp] theorem State.setFld_convOut (s : State) (off hi lo v : Nat) (k : Nat) : (s.setFld off hi lo v).convOut k = s.convOut k := rfl
@[simp] theorem State.setFlag_convOut (s : State) (off n : Nat) (b : Bool) (k : Nat) : (s.setFlag off n b).convOut k = s.convOut k := rfl
@[simp] theorem State.setReg64_convOut (s : State) (off v : Nat) (k : Nat) : (s.setReg64 off v).convOut k = s.convOut k := rfl
@[simp] theorem State.bump_convOut (s : State) (off n : Nat) (k : Nat) : (s.bump off n).convOut k = s.convOut k := rfl
@[simp] theorem State.elapse_convOut (s : State) (dt : Nat) (k : Nat) : (s.elapse dt).convOut k = s.convOut k := rfl
@[simp] theorem State.fresh_convOut (s : State) (n : Nat) (k : Nat) : ((s.fresh n).2).convOut k = s.convOut k := rfl
@[simp] theorem State.freshBytes_convOut (s : State) (n : Nat) (k : Nat) : ((s.freshBytes n).2).convOut k = s.convOut k := rfl
@[simp] theorem State.setRing_convOut (s : State) (r : Nat) (x : Ring) (k : Nat) : (s.setRing r x).convOut k = s.convOut k := rfl
@[simp] theorem State.onRing_convOut (s : State) (r : Nat) (f : Ring → Ring) (k : Nat) : (s.onRing r f).convOut k = s.convOut k := rfl
@[simp] theorem State.setPhase_convOut (s : State) (r i : Nat) (p : Phase) (k : Nat) : (s.setPhase r i p).convOut k = s.convOut k := rfl
@[simp] theorem State.emit_convOut (s : State) (w : HostWrite) (k : Nat) : (s.emit w).convOut k = s.convOut k := rfl
@[simp] theorem State.auditRelease_convOut (s : State) (n : Nat) (k : Nat) : (s.auditRelease n).convOut k = s.convOut k := rfl
@[simp] theorem State.setCand_convOut (s : State) (c : Nat) (x : MCand) (k : Nat) : (s.setCand c x).convOut k = s.convOut k := rfl
@[simp] theorem State.setTrig_convOut (s : State) (c : Nat) (x : Trigger) (k : Nat) : (s.setTrig c x).convOut k = s.convOut k := rfl
@[simp] theorem State.setFftQ_convOut (s : State) (c : Nat) (q : List FftJob) (k : Nat) : (s.setFftQ c q).convOut k = s.convOut k := rfl
@[simp] theorem State.setCore_convOut (s : State) (c : Nat) (x : LCore) (k : Nat) : (s.setCore c x).convOut k = s.convOut k := rfl
@[simp] theorem State.onHost_convOut (s : State) (f : HostIf → HostIf) (k : Nat) : (s.onHost f).convOut k = s.convOut k := rfl
@[simp] theorem State.onAudit_convOut (s : State) (f : Audit → Audit) (k : Nat) : (s.onAudit f).convOut k = s.convOut k := rfl
@[simp] theorem State.onMgt_convOut (s : State) (f : Mgt → Mgt) (k : Nat) : (s.onMgt f).convOut k = s.convOut k := rfl
@[simp] theorem State.onRnd_convOut (s : State) (f : Render → Render) (k : Nat) : (s.onRnd f).convOut k = s.convOut k := rfl
@[simp] theorem State.onMix_convOut (s : State) (f : Mix → Mix) (k : Nat) : (s.onMix f).convOut k = s.convOut k := rfl
@[simp] theorem State.setQueue_convOut (s : State) (o n : Nat) (q : EQueue) (k : Nat) : (s.setQueue o n q).convOut k = s.convOut k := rfl
@[simp] theorem State.onChan_convOut (s : State) (c : Nat) (f : DramChan → DramChan) (k : Nat) : (s.onChan c f).convOut k = s.convOut k := rfl
@[simp] theorem State.setTile_convOut (s : State) (c : Nat) (t : Tile) (k : Nat) : (s.setTile c t).convOut k = s.convOut k := rfl
@[simp] theorem State.onMac_convOut (s : State) (n : Nat) (f : Mac → Mac) (k : Nat) : (s.onMac n f).convOut k = s.convOut k := rfl
@[simp] theorem State.onTim_convOut (s : State) (f : TimeBlock → TimeBlock) (k : Nat) : (s.onTim f).convOut k = s.convOut k := rfl
@[simp] theorem State.setStream_convOut (s : State) (n : Nat) (x : Stream) (k : Nat) : (s.setStream n x).convOut k = s.convOut k := rfl
@[simp] theorem State.setVox_convOut (s : State) (v : Nat) (x : VoxChan) (k : Nat) : (s.setVox v x).convOut k = s.convOut k := rfl
@[simp] theorem State.onVox_convOut (s : State) (v : Nat) (f : VoxChan → VoxChan) (k : Nat) : (s.onVox v f).convOut k = s.convOut k := rfl
@[simp] theorem State.onWick_convOut (s : State) (f : Wick → Wick) (k : Nat) : (s.onWick f).convOut k = s.convOut k := rfl
@[simp] theorem State.onLan_convOut (s : State) (f : Lantern → Lantern) (k : Nat) : (s.onLan f).convOut k = s.convOut k := rfl
@[simp] theorem State.onVig_convOut (s : State) (f : VigilSt → VigilSt) (k : Nat) : (s.onVig f).convOut k = s.convOut k := rfl
@[simp] theorem State.onCore_convOut (s : State) (c : Nat) (f : LCore → LCore) (k : Nat) : (s.onCore c f).convOut k = s.convOut k := rfl
@[simp] theorem State.onSec_convOut (s : State) (f : Sec → Sec) (k : Nat) : (s.onSec f).convOut k = s.convOut k := rfl
@[simp] theorem State.onPwr_convOut (s : State) (f : Pwr → Pwr) (k : Nat) : (s.onPwr f).convOut k = s.convOut k := rfl
@[simp] theorem State.onMnt_convOut (s : State) (f : Mantle → Mantle) (k : Nat) : (s.onMnt f).convOut k = s.convOut k := rfl
@[simp] theorem State.onPort_convOut (s : State) (p : Nat) (f : Port → Port) (k : Nat) : (s.onPort p f).convOut k = s.convOut k := rfl
@[simp] theorem State.onOps_convOut (s : State) (c : Nat) (f : OpsChan → OpsChan) (k : Nat) : (s.onOps c f).convOut k = s.convOut k := rfl
@[simp] theorem State.onLink_convOut (s : State) (f : Link → Link) (k : Nat) : (s.onLink f).convOut k = s.convOut k := rfl
@[simp] theorem State.onLport_convOut (s : State) (p : Nat) (f : LinkPort → LinkPort) (k : Nat) : (s.onLport p f).convOut k = s.convOut k := rfl
theorem State.trig_setTrig (s : State) (k : Nat) (x : Trigger) : (s.setTrig k x).trig k = x := Cells.get_put_self
theorem State.trig_setTrig_ne (s : State) (k j : Nat) (x : Trigger) (h : j ≠ k) : (s.setTrig k x).trig j = s.trig j := Cells.get_put_ne h
@[simp] theorem State.setReg_trig (s : State) (off : Nat) (v : Word) (k : Nat) : (s.setReg off v).trig k = s.trig k := rfl
@[simp] theorem State.setFld_trig (s : State) (off hi lo v : Nat) (k : Nat) : (s.setFld off hi lo v).trig k = s.trig k := rfl
@[simp] theorem State.setFlag_trig (s : State) (off n : Nat) (b : Bool) (k : Nat) : (s.setFlag off n b).trig k = s.trig k := rfl
@[simp] theorem State.setReg64_trig (s : State) (off v : Nat) (k : Nat) : (s.setReg64 off v).trig k = s.trig k := rfl
@[simp] theorem State.bump_trig (s : State) (off n : Nat) (k : Nat) : (s.bump off n).trig k = s.trig k := rfl
@[simp] theorem State.elapse_trig (s : State) (dt : Nat) (k : Nat) : (s.elapse dt).trig k = s.trig k := rfl
@[simp] theorem State.fresh_trig (s : State) (n : Nat) (k : Nat) : ((s.fresh n).2).trig k = s.trig k := rfl
@[simp] theorem State.freshBytes_trig (s : State) (n : Nat) (k : Nat) : ((s.freshBytes n).2).trig k = s.trig k := rfl
@[simp] theorem State.setRing_trig (s : State) (r : Nat) (x : Ring) (k : Nat) : (s.setRing r x).trig k = s.trig k := rfl
@[simp] theorem State.onRing_trig (s : State) (r : Nat) (f : Ring → Ring) (k : Nat) : (s.onRing r f).trig k = s.trig k := rfl
@[simp] theorem State.setPhase_trig (s : State) (r i : Nat) (p : Phase) (k : Nat) : (s.setPhase r i p).trig k = s.trig k := rfl
@[simp] theorem State.emit_trig (s : State) (w : HostWrite) (k : Nat) : (s.emit w).trig k = s.trig k := rfl
@[simp] theorem State.auditRelease_trig (s : State) (n : Nat) (k : Nat) : (s.auditRelease n).trig k = s.trig k := rfl
@[simp] theorem State.setConvOut_trig (s : State) (n : Nat) (x : ConvOut) (k : Nat) : (s.setConvOut n x).trig k = s.trig k := rfl
@[simp] theorem State.setCand_trig (s : State) (c : Nat) (x : MCand) (k : Nat) : (s.setCand c x).trig k = s.trig k := rfl
@[simp] theorem State.setFftQ_trig (s : State) (c : Nat) (q : List FftJob) (k : Nat) : (s.setFftQ c q).trig k = s.trig k := rfl
@[simp] theorem State.setCore_trig (s : State) (c : Nat) (x : LCore) (k : Nat) : (s.setCore c x).trig k = s.trig k := rfl
@[simp] theorem State.onHost_trig (s : State) (f : HostIf → HostIf) (k : Nat) : (s.onHost f).trig k = s.trig k := rfl
@[simp] theorem State.onAudit_trig (s : State) (f : Audit → Audit) (k : Nat) : (s.onAudit f).trig k = s.trig k := rfl
@[simp] theorem State.onMgt_trig (s : State) (f : Mgt → Mgt) (k : Nat) : (s.onMgt f).trig k = s.trig k := rfl
@[simp] theorem State.onRnd_trig (s : State) (f : Render → Render) (k : Nat) : (s.onRnd f).trig k = s.trig k := rfl
@[simp] theorem State.onCnv_trig (s : State) (f : Conv → Conv) (k : Nat) : (s.onCnv f).trig k = s.trig k := rfl
@[simp] theorem State.onMix_trig (s : State) (f : Mix → Mix) (k : Nat) : (s.onMix f).trig k = s.trig k := rfl
@[simp] theorem State.setQueue_trig (s : State) (o n : Nat) (q : EQueue) (k : Nat) : (s.setQueue o n q).trig k = s.trig k := rfl
@[simp] theorem State.onChan_trig (s : State) (c : Nat) (f : DramChan → DramChan) (k : Nat) : (s.onChan c f).trig k = s.trig k := rfl
@[simp] theorem State.setTile_trig (s : State) (c : Nat) (t : Tile) (k : Nat) : (s.setTile c t).trig k = s.trig k := rfl
@[simp] theorem State.onMac_trig (s : State) (n : Nat) (f : Mac → Mac) (k : Nat) : (s.onMac n f).trig k = s.trig k := rfl
@[simp] theorem State.setStream_trig (s : State) (n : Nat) (x : Stream) (k : Nat) : (s.setStream n x).trig k = s.trig k := rfl
@[simp] theorem State.setVox_trig (s : State) (v : Nat) (x : VoxChan) (k : Nat) : (s.setVox v x).trig k = s.trig k := rfl
@[simp] theorem State.onVox_trig (s : State) (v : Nat) (f : VoxChan → VoxChan) (k : Nat) : (s.onVox v f).trig k = s.trig k := rfl
@[simp] theorem State.onWick_trig (s : State) (f : Wick → Wick) (k : Nat) : (s.onWick f).trig k = s.trig k := rfl
@[simp] theorem State.onLan_trig (s : State) (f : Lantern → Lantern) (k : Nat) : (s.onLan f).trig k = s.trig k := rfl
@[simp] theorem State.onVig_trig (s : State) (f : VigilSt → VigilSt) (k : Nat) : (s.onVig f).trig k = s.trig k := rfl
@[simp] theorem State.onCore_trig (s : State) (c : Nat) (f : LCore → LCore) (k : Nat) : (s.onCore c f).trig k = s.trig k := rfl
@[simp] theorem State.onSec_trig (s : State) (f : Sec → Sec) (k : Nat) : (s.onSec f).trig k = s.trig k := rfl
@[simp] theorem State.onPwr_trig (s : State) (f : Pwr → Pwr) (k : Nat) : (s.onPwr f).trig k = s.trig k := rfl
@[simp] theorem State.onMnt_trig (s : State) (f : Mantle → Mantle) (k : Nat) : (s.onMnt f).trig k = s.trig k := rfl
@[simp] theorem State.onPort_trig (s : State) (p : Nat) (f : Port → Port) (k : Nat) : (s.onPort p f).trig k = s.trig k := rfl
@[simp] theorem State.onOps_trig (s : State) (c : Nat) (f : OpsChan → OpsChan) (k : Nat) : (s.onOps c f).trig k = s.trig k := rfl
@[simp] theorem State.onLink_trig (s : State) (f : Link → Link) (k : Nat) : (s.onLink f).trig k = s.trig k := rfl
@[simp] theorem State.onLport_trig (s : State) (p : Nat) (f : LinkPort → LinkPort) (k : Nat) : (s.onLport p f).trig k = s.trig k := rfl
theorem State.fftQ_setFftQ (s : State) (k : Nat) (x : List FftJob) : (s.setFftQ k x).fftQ k = x := Cells.get_put_self
theorem State.fftQ_setFftQ_ne (s : State) (k j : Nat) (x : List FftJob) (h : j ≠ k) : (s.setFftQ k x).fftQ j = s.fftQ j := Cells.get_put_ne h
@[simp] theorem State.setReg_fftQ (s : State) (off : Nat) (v : Word) (k : Nat) : (s.setReg off v).fftQ k = s.fftQ k := rfl
@[simp] theorem State.setFld_fftQ (s : State) (off hi lo v : Nat) (k : Nat) : (s.setFld off hi lo v).fftQ k = s.fftQ k := rfl
@[simp] theorem State.setFlag_fftQ (s : State) (off n : Nat) (b : Bool) (k : Nat) : (s.setFlag off n b).fftQ k = s.fftQ k := rfl
@[simp] theorem State.setReg64_fftQ (s : State) (off v : Nat) (k : Nat) : (s.setReg64 off v).fftQ k = s.fftQ k := rfl
@[simp] theorem State.bump_fftQ (s : State) (off n : Nat) (k : Nat) : (s.bump off n).fftQ k = s.fftQ k := rfl
@[simp] theorem State.elapse_fftQ (s : State) (dt : Nat) (k : Nat) : (s.elapse dt).fftQ k = s.fftQ k := rfl
@[simp] theorem State.fresh_fftQ (s : State) (n : Nat) (k : Nat) : ((s.fresh n).2).fftQ k = s.fftQ k := rfl
@[simp] theorem State.freshBytes_fftQ (s : State) (n : Nat) (k : Nat) : ((s.freshBytes n).2).fftQ k = s.fftQ k := rfl
@[simp] theorem State.setRing_fftQ (s : State) (r : Nat) (x : Ring) (k : Nat) : (s.setRing r x).fftQ k = s.fftQ k := rfl
@[simp] theorem State.onRing_fftQ (s : State) (r : Nat) (f : Ring → Ring) (k : Nat) : (s.onRing r f).fftQ k = s.fftQ k := rfl
@[simp] theorem State.setPhase_fftQ (s : State) (r i : Nat) (p : Phase) (k : Nat) : (s.setPhase r i p).fftQ k = s.fftQ k := rfl
@[simp] theorem State.emit_fftQ (s : State) (w : HostWrite) (k : Nat) : (s.emit w).fftQ k = s.fftQ k := rfl
@[simp] theorem State.auditRelease_fftQ (s : State) (n : Nat) (k : Nat) : (s.auditRelease n).fftQ k = s.fftQ k := rfl
@[simp] theorem State.setConvOut_fftQ (s : State) (n : Nat) (x : ConvOut) (k : Nat) : (s.setConvOut n x).fftQ k = s.fftQ k := rfl
@[simp] theorem State.setCand_fftQ (s : State) (c : Nat) (x : MCand) (k : Nat) : (s.setCand c x).fftQ k = s.fftQ k := rfl
@[simp] theorem State.setTrig_fftQ (s : State) (c : Nat) (x : Trigger) (k : Nat) : (s.setTrig c x).fftQ k = s.fftQ k := rfl
@[simp] theorem State.onHost_fftQ (s : State) (f : HostIf → HostIf) (k : Nat) : (s.onHost f).fftQ k = s.fftQ k := rfl
@[simp] theorem State.onAudit_fftQ (s : State) (f : Audit → Audit) (k : Nat) : (s.onAudit f).fftQ k = s.fftQ k := rfl
@[simp] theorem State.onMgt_fftQ (s : State) (f : Mgt → Mgt) (k : Nat) : (s.onMgt f).fftQ k = s.fftQ k := rfl
@[simp] theorem State.onRnd_fftQ (s : State) (f : Render → Render) (k : Nat) : (s.onRnd f).fftQ k = s.fftQ k := rfl
@[simp] theorem State.onCnv_fftQ (s : State) (f : Conv → Conv) (k : Nat) : (s.onCnv f).fftQ k = s.fftQ k := rfl
@[simp] theorem State.onMix_fftQ (s : State) (f : Mix → Mix) (k : Nat) : (s.onMix f).fftQ k = s.fftQ k := rfl
@[simp] theorem State.setQueue_fftQ (s : State) (o n : Nat) (q : EQueue) (k : Nat) : (s.setQueue o n q).fftQ k = s.fftQ k := rfl
@[simp] theorem State.onChan_fftQ (s : State) (c : Nat) (f : DramChan → DramChan) (k : Nat) : (s.onChan c f).fftQ k = s.fftQ k := rfl
@[simp] theorem State.setTile_fftQ (s : State) (c : Nat) (t : Tile) (k : Nat) : (s.setTile c t).fftQ k = s.fftQ k := rfl
@[simp] theorem State.onMac_fftQ (s : State) (n : Nat) (f : Mac → Mac) (k : Nat) : (s.onMac n f).fftQ k = s.fftQ k := rfl
@[simp] theorem State.onTim_fftQ (s : State) (f : TimeBlock → TimeBlock) (k : Nat) : (s.onTim f).fftQ k = s.fftQ k := rfl
@[simp] theorem State.setStream_fftQ (s : State) (n : Nat) (x : Stream) (k : Nat) : (s.setStream n x).fftQ k = s.fftQ k := rfl
@[simp] theorem State.setVox_fftQ (s : State) (v : Nat) (x : VoxChan) (k : Nat) : (s.setVox v x).fftQ k = s.fftQ k := rfl
@[simp] theorem State.onVox_fftQ (s : State) (v : Nat) (f : VoxChan → VoxChan) (k : Nat) : (s.onVox v f).fftQ k = s.fftQ k := rfl
@[simp] theorem State.onWick_fftQ (s : State) (f : Wick → Wick) (k : Nat) : (s.onWick f).fftQ k = s.fftQ k := rfl
@[simp] theorem State.onVig_fftQ (s : State) (f : VigilSt → VigilSt) (k : Nat) : (s.onVig f).fftQ k = s.fftQ k := rfl
@[simp] theorem State.onSec_fftQ (s : State) (f : Sec → Sec) (k : Nat) : (s.onSec f).fftQ k = s.fftQ k := rfl
@[simp] theorem State.onPwr_fftQ (s : State) (f : Pwr → Pwr) (k : Nat) : (s.onPwr f).fftQ k = s.fftQ k := rfl
@[simp] theorem State.onMnt_fftQ (s : State) (f : Mantle → Mantle) (k : Nat) : (s.onMnt f).fftQ k = s.fftQ k := rfl
@[simp] theorem State.onPort_fftQ (s : State) (p : Nat) (f : Port → Port) (k : Nat) : (s.onPort p f).fftQ k = s.fftQ k := rfl
@[simp] theorem State.onOps_fftQ (s : State) (c : Nat) (f : OpsChan → OpsChan) (k : Nat) : (s.onOps c f).fftQ k = s.fftQ k := rfl
@[simp] theorem State.onLink_fftQ (s : State) (f : Link → Link) (k : Nat) : (s.onLink f).fftQ k = s.fftQ k := rfl
@[simp] theorem State.onLport_fftQ (s : State) (p : Nat) (f : LinkPort → LinkPort) (k : Nat) : (s.onLport p f).fftQ k = s.fftQ k := rfl

end Sys2Proof.Machine
end

