-- ==== Sys2Proof/Laws/Regs.lean ====
section
/-!
SUPPORT. Laws/Regs.lean: which registers the shared operations may write: interrupts, device-to-host entries, completions and the audit
log.
-/
namespace Sys2Proof.Machine

-- One proof at a time: the proofs of this file in parallel ask for more threads than the memory bound holds.
set_option Elab.async false

theorem RegsKept.refl {l : List Nat} {s : State} : RegsKept l s s := fun _ _ => rfl
theorem RegsKept.trans {l : List Nat} {s t u : State} (h : RegsKept l s t) (k : RegsKept l t u) : RegsKept l s u :=
  fun o ho => (k o ho).trans (h o ho)
theorem RegsKept.mono {a b : List Nat} {s t : State} (hw : a ⊆ b) (h : RegsKept a s t) : RegsKept b s t :=
  fun o ho => h o (fun k => ho (hw k))
theorem RegsKept.of_eq {l : List Nat} {s t : State} (h : t.regs = s.regs) : RegsKept l s t := by
  intro o _; simp [State.reg, h]

/-- An operation that does not write the register file. -/
theorem RegsKept.of_does {l : List Nat} {ps : List Part} {s t : State} (h : Does ps s t) (hr : Part.regs ∉ ps := by decide) :
    RegsKept l s t := .of_eq (h.frame .regs hr)

theorem State.reg_setReg_all (s : State) (off o : Nat) (v : Word) :
    (s.setReg off v).reg o = if o = off then v else s.reg o := by
  split
  · next h => subst h; exact State.reg_setReg _ _ _
  · next h => exact State.reg_setReg_ne _ _ _ _ h

theorem State.setReg_kept {l : List Nat} {s : State} {off : Nat} {v : Word} (h : off ∈ l) : RegsKept l s (s.setReg off v) := by
  intro o ho
  exact State.reg_setReg_ne _ _ _ _ (fun k => ho (k ▸ h))
theorem State.bump_kept {l : List Nat} {s : State} {off n : Nat} (h : off ∈ l) : RegsKept l s (s.bump off n) := State.setReg_kept h
theorem State.setFlag_kept {l : List Nat} {s : State} {off n : Nat} {b : Bool} (h : off ∈ l) : RegsKept l s (s.setFlag off n b) :=
  State.setReg_kept h
theorem State.setFld_kept {l : List Nat} {s : State} {off hi lo v : Nat} (h : off ∈ l) : RegsKept l s (s.setFld off hi lo v) :=
  State.setReg_kept h
theorem State.setReg64_kept {l : List Nat} {s : State} {off v : Nat} (h : off ∈ l) (h2 : off + 4 ∈ l) :
    RegsKept l s (s.setReg64 off v) := (State.setReg_kept h).trans (State.setReg_kept h2)

theorem State.firedFlags_kept {l : List Nat} {s : State} {v : Nat} (h : 0x20008 + 4 * (v / 32) ∈ l) :
    RegsKept l s (s.firedFlags v) := by
  unfold State.firedFlags
  exact (State.setFlag_kept h).trans (.of_eq rfl)

theorem State.writeOrDrop_kept {l : List Nat} {s : State} {r c : Nat} {e : D2h} (h : c ∈ l) : RegsKept l s (s.writeOrDrop r c e) := by
  unfold State.writeOrDrop
  split
  · exact (RegsKept.of_eq rfl).trans (State.bump_kept h)
  · exact .of_does (State.writeD2h_does (fun _ h => h) .refl)

/-- An interrupt source writes its INT_STATUS register and, where ring 2 is full, the counter of lost entries. -/
theorem State.fireAt_kept {l : List Nat} {s : State} {v : Nat} {a b c : Word} {t : Nat} (h : 0x20008 + 4 * (v / 32) ∈ l)
    (h2 : 0x10114 ∈ l) : RegsKept l s (s.fireAt v a b c t) := by
  unfold State.fireAt
  extract_lets u time w x
  have h1 : RegsKept l s u := State.firedFlags_kept h
  have h3 : RegsKept l u w := .of_eq rfl
  have h4 : RegsKept l w x := State.writeOrDrop_kept h2
  clear_value x w u
  exact ((h1.trans h3).trans h4).trans (.of_does (State.message_does (fun _ h => h) .refl))
theorem State.fire_kept {l : List Nat} {s : State} {v : Nat} {a b c : Word} (h : 0x20008 + 4 * (v / 32) ∈ l) (h2 : 0x10114 ∈ l) :
    RegsKept l s (s.fire v a b c) := State.fireAt_kept h h2

theorem State.fireRing_kept {l : List Nat} {s : State} {v r : Nat} (h : 0x20008 + 4 * (v / 32) ∈ l) : RegsKept l s (s.fireRing v r) := by
  unfold State.fireRing
  refine (State.firedFlags_kept h).trans ?_
  dsimp only
  split
  · exact .refl
  · exact .of_does (State.message_does (fun _ h => h) .refl)

theorem ringSource_lt (r : Nat) (h : r < 64) : ringSource r / 32 = 0 := by
  have : ∀ r : Fin 64, ringSource r / 32 = 0 := by decide
  exact this ⟨r, h⟩

theorem State.drainGo_kept {l : List Nat} {r : Nat} (hr : r < 64) (h : 0x20008 ∈ l) : ∀ {es : List D2h} {s : State},
    RegsKept l s (State.drainGo r es s)
  | [], s => .of_eq rfl
  | e :: es, s => by
    unfold State.drainGo
    split
    · exact .of_eq rfl
    · refine RegsKept.trans (RegsKept.trans (.of_does (State.writeD2h_does (fun _ h => h) .refl)) (State.fireRing_kept ?_)) (State.drainGo_kept hr h)
      rw [ringSource_lt r hr]; exact h

theorem State.enqueue_kept {l : List Nat} {s : State} {r : Nat} {e : D2h} (hr : r < 64) (h4 : r ≠ 4) (h5 : r ≠ 5) (h : 0x20008 ∈ l) :
    RegsKept l s (s.enqueue r e) := by
  unfold State.enqueue State.drain
  rw [if_neg h4, if_neg h5]
  exact (RegsKept.of_eq rfl).trans (State.drainGo_kept hr h)

theorem State.fire46_kept {l : List Nat} {s : State} {a b c : Word} (hl : auditRegs ⊆ l) : RegsKept l s (s.fire 46 a b c) :=
  State.fire_kept (hl (by decide)) (hl (by decide))

theorem State.auditCross_kept {l : List Nat} {s : State} {b : Nat} (hl : auditRegs ⊆ l) : RegsKept l s (s.auditCross b) := by
  have h1 : ∀ u : State, RegsKept l u ((u.setFlag 0x200 30 true).fire 46 1 (BitVec.ofNat 32 s.auditFill) 0) := fun u =>
    (State.setFlag_kept (hl (by decide))).trans (State.fire46_kept hl)
  unfold State.auditCross
  extract_lets f u
  have hu : RegsKept l s u := by
    show RegsKept l s (if _ then _ else _)
    split
    · exact h1 s
    · exact .refl
  clear_value u
  split
  · exact hu.trans (State.fire46_kept hl)
  · exact hu

theorem State.auditReserve_kept {l : List Nat} {s : State} {n : Nat} (hl : auditRegs ⊆ l) : RegsKept l s (s.auditReserve n) := by
  unfold State.auditReserve
  exact (RegsKept.of_eq rfl).trans (State.auditCross_kept hl)

theorem State.chainEntry_kept {l : List Nat} {s : State} {a b c d e : Nat} {x y z : Word} (hl : 0x20008 ∈ l) :
    RegsKept l s (s.chainEntry a b c d e x y z) := by
  unfold State.chainEntry
  extract_lets time body hash i u v
  have h1 : v.regs = s.regs := by
    show (if _ then _ else _ : State).regs = _
    split <;> rfl
  clear_value v
  exact RegsKept.trans (.of_eq h1) (State.enqueue_kept (by decide) (by decide) (by decide) hl)

theorem State.auditRelease_kept {l : List Nat} {s : State} {n : Nat} : RegsKept l s (s.auditRelease n) := .of_eq rfl

theorem State.auditNow_kept {l : List Nat} {s : State} {a b c d : Nat} {x y z : Word} (hl : auditRegs ⊆ l) :
    RegsKept l s (s.auditNow a b c d x y z) := by
  unfold State.auditNow
  exact ((State.auditReserve_kept hl).trans State.auditRelease_kept).trans (State.chainEntry_kept (hl (by decide)))

/-- A logged register write that finds room: the register takes the value. -/
theorem State.loggedWrite_reg {s : State} {o : Origin} {off : Nat} {v : Word} (h : s.auditRoom 1 = true) (ho : off ∉ auditRegs) :
    (s.loggedWrite o off v).reg off = v := by
  unfold State.loggedWrite
  rw [if_pos h]
  exact (State.auditNow_kept (fun _ h => h) off ho).trans (State.reg_setReg _ _ _)

theorem State.loggedWrite_kept {l : List Nat} {s : State} {o : Origin} {off : Nat} {v : Word} (h : s.auditRoom 1 = true)
    (ho : off ∈ l) (hl : auditRegs ⊆ l) : RegsKept l s (s.loggedWrite o off v) := by
  unfold State.loggedWrite
  rw [if_pos h]
  exact (State.setReg_kept ho).trans (State.auditNow_kept hl)

/-- Where the audit buffer is full the write is discarded and counted. -/
theorem State.loggedWrite_full {s : State} {o : Origin} {off : Nat} {v : Word} (h : s.auditRoom 1 = false) :
    s.loggedWrite o off v = s.bump 0x300 1 := by
  unfold State.loggedWrite
  rw [if_neg (by simp [h])]

/-! ### What an entry of the audit log advances -/

theorem State.drainGo_audit {r : Nat} : ∀ {es : List D2h} {s : State}, (State.drainGo r es s).audit = s.audit
  | [], _ => rfl
  | e :: es, s => by
    unfold State.drainGo
    split
    · rfl
    · rw [State.drainGo_audit]
      exact ((State.fireRing_does (ps := [.regs, .host, .rings]) (by decide) (State.writeD2h_does (by decide) .refl)).frame .audit (by decide))

theorem State.chainEntry_index {s : State} {a b c d e : Nat} {x y z : Word} :
    (s.chainEntry a b c d e x y z).audit.index = s.audit.index + 1 := by
  unfold State.chainEntry
  extract_lets time body hash i u v
  have h1 : v.audit.index = s.audit.index + 1 := by
    show (if _ then _ else _ : State).audit.index = _
    split <;> rfl
  clear_value v
  unfold State.enqueue State.drain
  rw [if_neg (by decide : ¬ 3 = 4), if_neg (by decide : ¬ 3 = 5), State.drainGo_audit]
  exact h1

theorem State.auditReserve_index {s : State} {n : Nat} : (s.auditReserve n).audit.index = s.audit.index := by
  unfold State.auditReserve
  extract_lets b
  refine (congrArg Audit.index (Does.frame (State.auditCross_does (before := b) (ps := [.regs, .host, .rings]) (by decide) .refl) .audit (by decide))).trans ?_
  rfl

theorem State.auditRelease_index {s : State} {n : Nat} : (s.auditRelease n).audit.index = s.audit.index := rfl

theorem State.auditNow_index {s : State} {a b c d : Nat} {x y z : Word} :
    (s.auditNow a b c d x y z).audit.index = s.audit.index + 1 := by
  unfold State.auditNow
  exact State.chainEntry_index.trans (congrArg (· + 1) (State.auditRelease_index.trans State.auditReserve_index))

theorem State.loggedWrite_index {s : State} {o : Origin} {off : Nat} {v : Word} (h : s.auditRoom 1 = true) :
    (s.loggedWrite o off v).audit.index = s.audit.index + 1 := by
  have e : ∀ u : State, u.audit = s.audit → (u.auditNow (originCode o) (originId o) 0x01 0 (BitVec.ofNat 32 off) (s.reg off) v).audit.index
      = s.audit.index + 1 := fun u hu => State.auditNow_index.trans (by rw [hu])
  unfold State.loggedWrite
  rw [if_pos h]
  dsimp only
  exact e (s.setReg off v) rfl

end Sys2Proof.Machine
end

