-- ==== Sys2Proof/WellFormed.lean ====
section
/-!
DEFINITION. WellFormed.lean: the operands a command may name: rings, MACs, ports, cores and the other numbered parts the manual gives the
module. A command whose operands are in range is well formed; what one out of range does is in its meaning all the same.
-/
namespace Sys2Proof

/-- Rings 0 to 63. -/
def ringOk (r : Nat) : Bool := decide (r < 64)
/-- NET0 to NET3. -/
def macOk (m : Nat) : Bool := decide (m < 4)
/-- Audio ports 0 to 15. -/
def portOk (p : Nat) : Bool := decide (p < 16)
/-- Link ports 0 and 1, with two lanes each (R342). -/
def linkPortOk (p : Nat) : Bool := decide (p < 2)
def laneOk (l : Nat) : Bool := decide (l < 2)
/-- Cores 0 to 127 and clusters 0 to 15 (R168). -/
def coreOk (c : Nat) : Bool := decide (c < 128)
def clusterOk (c : Nat) : Bool := decide (c < 16)
/-- The queues of the five owner classes (R246). -/
def queueOk (owner i : Nat) : Bool :=
  (owner == 0 && decide (i < 16) && decide (i % 4 < 3)) || (owner == 1 && decide (i < 32))
    || ((owner == 2 || owner == 3) && decide (i < 16)) || (owner == 4 && decide (i < 4))
/-- DRAM channels 0 to 3 (R234). -/
def dramOk (c : Nat) : Bool := decide (c < 4)
/-- Voice channels 0 to 511. -/
def voiceOk (v : Nat) : Bool := decide (v < 512)
/-- Streams 0 to 255 (R293). -/
def streamOk (i : Nat) : Bool := decide (i < 256)
/-- Operator-sense channels 0 to 7, and the 8-bit code of a sample (R335). -/
def senseOk (c : Nat) : Bool := decide (c < 8)
def codeOk (c : Nat) : Bool := decide (c < 256)
/-- Reference candidates 0 to 10 (R306). -/
def candidateOk (c : Nat) : Bool := decide (c < 11)
/-- Physical banks of a tile memory: 16 and the spare (R243). -/
def bankOk (b : Nat) : Bool := decide (b ≤ 16)
/-- Entries of a destination filter. -/
def filterOk (e : Nat) : Bool := decide (e < 32)
/-- Time triggers 0 to 7 (R291). -/
def triggerOk (t : Nat) : Bool := decide (t < 8)
/-- Wick levels 0 to 15 (R149). -/
def levelOk (l : Nat) : Bool := decide (l < 16)
/-- LNK_CFG, LNK_BCAST, LNK_RX; and the four configuration registers of an audio port. -/
def lnkRegOk (i : Nat) : Bool := decide (i < 3)
def portRegOk (i : Nat) : Bool := decide (i < 4)
/-- An offset of an aligned dword of BAR0 (R437), or behind it of BAR2 (R201). -/
def offsetOk (off : Nat) : Bool := decide (off < 0x404000) && off % 4 == 0
/-- Engines that Wick dispatches to, and resources: cores, then engines (R143, R150). -/
def engineOk (e : Nat) : Bool := decide (e < 16)
def resourceOk (r : Nat) : Bool := decide (r < 144)
/-- TARGET codes of R24; a control action may also name the register of a mode write (R20). -/
def blockOk (t : Nat) : Bool := decide (t ≤ 0xA0) || (decide (0xB0 ≤ t) && decide (t < 0xE0))
def actionTargetOk (t : Nat) : Bool := blockOk t || decide (0x1000 ≤ t)
/-- Interrupt sources and MSI-X vectors 0 to 63. -/
def sourceOk (v : Nat) : Bool := decide (v < 64)
/-- Rendered outputs 0 to 511 (R4). -/
def outputOk (o : Nat) : Bool := decide (o < 512)
/-- Outstanding transfers a DMA.WAIT names: at most four. -/
def dmaCountOk (n : Nat) : Bool := decide (n ≤ 4)
/-- Memories that are scrubbed: tiles, object delay, voice (R245). -/
def memOk (m : Nat) : Bool := decide (m < 16) || m == 0x40 || m == 0x41
/-- Matrix masters 0 to 13 (R227). -/
def masterOk (m : Nat) : Bool := decide (m < 14)
/-- Interrupt lines of a core: TCMP and DMA (R189). -/
def interruptOk (i : Nat) : Bool := decide (i < 2)

/-- Every operand of the command names a part the module has. -/
def WellFormed (i : Instr) : Bool :=
  match i with
  | .registerWrite off _ _ _ => offsetOk off
  | .controlActionExecute _ target => actionTargetOk target
  | .objPos ring => ringOk ring
  | .objBatch ring _ => ringOk ring
  | .fltLoad ring _ => ringOk ring
  | .fltUnity ring => ringOk ring
  | .fltDisarm ring => ringOk ring
  | .filterLoadDone _ ring => ringOk ring
  | .filterCrossfadeEnd _ out => outputOk out
  | .psetLoad ring _ => ringOk ring
  | .psetLoadDone _ ring => ringOk ring
  | .psetCopy ring => ringOk ring
  | .swap ring => ringOk ring
  | .voxOpen ring _ => ringOk ring
  | .voxModify ring _ => ringOk ring
  | .voxClose ring => ringOk ring
  | .voxKey ring => ringOk ring
  | .voxQuery ring => ringOk ring
  | .channelIdle _ chan => voiceOk chan
  | .rxTimeout _ chan => voiceOk chan
  | .concealmentLimit _ chan => voiceOk chan
  | .talkOff _ chan => voiceOk chan
  | .ecEnabled _ chan => voiceOk chan
  | .nlpForceEnd _ chan => voiceOk chan
  | .keyChange chan => voiceOk chan
  | .codecTaskMissed _ chan => voiceOk chan
  | .engineCompletion _ engine _ => engineOk engine
  | .dispatch _ res => resourceOk res
  | .levelCapWrite l _ _ => levelOk l
  | .taskWatchdog _ core _ => coreOk core
  | .selfTestDone _ target _ => blockOk target
  | .ldW core _ _ _ _ => coreOk core
  | .ldH core _ _ _ _ => coreOk core
  | .ldV core _ _ _ _ => coreOk core
  | .ldVb core _ _ _ _ => coreOk core
  | .stW core _ _ _ _ => coreOk core
  | .stV core _ _ _ _ => coreOk core
  | .padd core _ _ _ => coreOk core
  | .movp core _ _ _ => coreOk core
  | .vadd core _ _ _ _ _ => coreOk core
  | .vsub core _ _ _ _ _ => coreOk core
  | .vneg core _ _ _ _ => coreOk core
  | .vabs core _ _ _ _ => coreOk core
  | .vshl core _ _ _ _ _ => coreOk core
  | .vsra core _ _ _ _ => coreOk core
  | .vand core _ _ _ _ => coreOk core
  | .vor core _ _ _ _ => coreOk core
  | .vxor core _ _ _ _ => coreOk core
  | .vmin core _ _ _ _ => coreOk core
  | .vmax core _ _ _ _ => coreOk core
  | .vcmp core _ _ _ _ => coreOk core
  | .vsel core _ _ _ _ => coreOk core
  | .vmaxi core _ _ _ _ => coreOk core
  | .vmini core _ _ _ _ => coreOk core
  | .rmaxi core _ _ _ => coreOk core
  | .rmini core _ _ _ => coreOk core
  | .vmul core _ _ _ _ _ => coreOk core
  | .vmac core _ _ _ _ _ => coreOk core
  | .vmsu core _ _ _ _ _ => coreOk core
  | .vmacb core _ _ _ _ _ => coreOk core
  | .vmsub core _ _ _ _ _ => coreOk core
  | .aclr core _ _ => coreOk core
  | .amov core _ _ _ _ => coreOk core
  | .aext core _ _ _ _ _ => coreOk core
  | .asum core _ _ _ => coreOk core
  | .add core _ _ _ _ _ => coreOk core
  | .sub core _ _ _ _ _ => coreOk core
  | .and core _ _ _ _ => coreOk core
  | .or core _ _ _ _ => coreOk core
  | .xor core _ _ _ _ => coreOk core
  | .shl core _ _ _ _ _ => coreOk core
  | .shr core _ _ _ _ => coreOk core
  | .asr core _ _ _ _ => coreOk core
  | .min core _ _ _ _ => coreOk core
  | .max core _ _ _ _ => coreOk core
  | .cmp core _ _ _ => coreOk core
  | .movi core _ _ _ _ => coreOk core
  | .mov core _ _ _ => coreOk core
  | .br core _ _ _ _ => coreOk core
  | .call core _ _ _ => coreOk core
  | .jmpR core _ _ => coreOk core
  | .ret core _ => coreOk core
  | .loop core _ _ _ _ _ => coreOk core
  | .ni core _ _ => coreOk core
  | .rti core _ => coreOk core
  | .coreNop core _ => coreOk core
  | .waitTask core _ _ => coreOk core
  | .post core _ _ _ _ => coreOk core
  | .dmaRd core _ _ _ _ => coreOk core
  | .dmaWr core _ _ _ _ => coreOk core
  | .dmaTrd core _ _ _ _ => coreOk core
  | .dmaTwr core _ _ _ _ => coreOk core
  | .dmaWait core _ n => coreOk core && dmaCountOk n
  | .dmaTransferDone _ core => coreOk core
  | .fftRun core _ _ => coreOk core
  | .fftWait core _ _ => coreOk core
  | .fftJobDone _ cluster _ => clusterOk cluster
  | .crcI core _ _ => coreOk core
  | .crcW core _ _ => coreOk core
  | .crcF core _ _ => coreOk core
  | .time core _ _ => coreOk core
  | .tcmp core _ _ => coreOk core
  | .interruptEntry _ core src => coreOk core && interruptOk src
  | .imgLoad ring _ _ _ => ringOk ring
  | .dbgResponse level sig => decide (level < 256) && sig.length == 96
  | .mbxPost ring => ringOk ring
  | .nop ring => ringOk ring
  | .ringStopped ring => ringOk ring
  | .enable ring _ => ringOk ring
  | .d2hRingDrain ring => ringOk ring
  | .holdoffEnd _ src => sourceOk src
  | .lockBroken _ master _ _ => masterOk master
  | .refresh _ ch _ => dramOk ch
  | .forcedRefresh _ ch => dramOk ch
  | .powerDownEntry _ ch => dramOk ch
  | .selfRefreshEntry _ ch _ => dramOk ch
  | .spareRotation _ c _ => clusterOk c
  | .bankCopyDone _ c => clusterOk c
  | .bankRetire _ c bank _ => clusterOk c && bankOk bank
  | .scrubPass _ mem _ => memOk mem
  | .queueWord owner inst _ _ _ _ => queueOk owner inst
  | .queueSwap owner inst => queueOk owner inst
  | .queueRead owner inst _ => queueOk owner inst
  | .flush owner inst _ => queueOk owner inst
  | .flushDone owner inst => queueOk owner inst
  | .netEnable mac _ _ => macOk mac
  | .netSpeed mac _ _ => macOk mac
  | .blockLock mac _ => macOk mac
  | .macLockLoss mac _ => macOk mac
  | .macFault mac _ _ _ => macOk mac
  | .macFaultClear _ mac => macOk mac
  | .frameReceive _ mac _ _ _ _ _ _ => macOk mac
  | .rxBuf ring => ringOk ring
  | .rxDmaDeliver _ mac _ _ => macOk mac
  | .rxHoldExpiry _ mac _ => macOk mac
  | .daLo mac e _ _ => macOk mac && filterOk e
  | .daHi mac e _ _ => macOk mac && filterOk e
  | .txFrame ring _ => ringOk ring
  | .txSso ring _ _ => ringOk ring
  | .transmitSelection _ mac => macOk mac
  | .frameTransmitted _ mac _ => macOk mac
  | .gateChange mac _ _ => macOk mac
  | .gateListSwitch _ mac => macOk mac
  | .gateEntryAdvance _ mac => macOk mac
  | .launch _ mac => macOk mac
  | .lateDrop _ mac => macOk mac
  | .lpiEntry _ mac => macOk mac
  | .lpiWake _ mac => macOk mac
  | .triggerEnable t _ _ => triggerOk t
  | .triggerFire _ t => triggerOk t
  | .triggerPulseEnd _ t => triggerOk t
  | .streamStateChange stream => streamOk stream
  | .streamPacketLaunch _ stream => streamOk stream
  | .candidateFault _ c _ => candidateOk c
  | .portEnable port _ _ => portOk port
  | .portDisable port _ _ => portOk port
  | .portCfgWrite port i _ _ => portOk port && portRegOk i
  | .tdmFrame _ port _ _ => portOk port
  | .maskWrite port _ _ _ _ => portOk port
  | .rateWindow _ port _ _ => portOk port
  | .portLost _ port => portOk port
  | .sarSample _ c code _ => senseOk c && codeOk code
  | .accessoryClassify _ c => senseOk c
  | .linkPortEnable port _ _ => linkPortOk port
  | .laneLock port lane => linkPortOk port && laneOk lane
  | .markerReceive _ port _ => linkPortOk port
  | .markerLoss _ port => linkPortOk port
  | .linkFrameReceive _ port _ _ => linkPortOk port
  | .lnkCfgWrite i _ _ => lnkRegOk i
  | .tunSend ring _ => ringOk ring
  | .tunnelReceive _ port => linkPortOk port
  | .cvRun ring _ _ _ => ringOk ring
  | .copy ring _ _ _ => ringOk ring
  | .scan ring _ _ _ => ringOk ring
  | .octetCounterRead mac _ => macOk mac
  | .laneLockLoss port lane => linkPortOk port && laneOk lane
  | .lpiReceive mac _ => macOk mac
  | .msixVectorUnmask vec => sourceOk vec
  | .planeSplitWrite _ _ | .planeStart | .planeStop | .planesStopped | .remove | .restore | .reset | .retireBank | .rotate
  | .frameTick _ _ _ | .segmentRestore | .swapAct _ | .zcTimeout _ _ | .taperRampEnd _ _ | .snuffer _ | .snufferEnd _
  | .voiceTick _ | .expire _ | .agingScan _ | .postAdmit | .postTimeout _ | .doorbellPoll _ _ | .abort _ | .ringSetup | .ringStop
  | .run _ | .statusPageWrite _ | .functionLevelReset | .perstN | .linkDown _ _ | .refreshRateCheck _ _ | .mdioStart _ _
  | .mdioDone _ _ | .timIncrFrac _ _ | .timIncrNs _ _ | .go _ _ | .timNowRead | .syncReceiptTimeout _ _ | .ppsOut _ | .ppsIn _
  | .servoTick _ | .strStart _ | .strStop | .candidateMeasurement _ _ _ | .pullUpdate _ | .revertiveSwitch _ | .force _ _
  | .returnToNominal _ | .mantleFault _ | .family _ _ | .rate _ _ | .groupCapture _ | .readdress _ | .accept _ | .lnkSliceApply
  | .secSetOwner _ | .secCommitSvn | .bypass | .idcode | .samplePreload _ | .extest _ | .extestPulse _ | .extestTrain _
  | .dbgChallenge _ | .glitch _ _ | .checkpoint | .auditSpaceReturn | .staEpochWrite _ _ | .staCurEpochRead
  | .mgtAudIndexRead | .dramScrub _ _ _ | .powerUpStart _ _ _ | .vinLowWarning _ _ | .vinRecover _ _ | .undervoltage _ _
  | .overvoltageWarning _ _ | .overvoltage _ _ | .railFault _ | .auxFault _ | .temperatureEstimate _ _ | .thermal _
  | .watchdogWarning _ | .watchdog _ | .resetN _ _ | .modReset | .boot _ _ _ _ _ _ _ _ | .pwrStandby | .pwrWake | .smbReadVin
  | .smbReadTemp | .smbReadCause | .smbReadStatus | .alertResponse | .auxFaultRecovery _ | .overvoltageRecovery _ _ _
  | .watchdogService _ | .pcieLinkRestored _ _ | .smbWrite => true

end Sys2Proof
end

