-- ==== Sys2Proof/Tests/Slice0.lean ====
section
/-!
SUPPORT. Tests/Slice0.lean: ill-formed commands that WellFormed refuses, what holds right after reset, and for the premises of each
statement of Certificates/Slice0/Obligations.lean a small state and operands that meet them. Reset values are those of R149 and R443.
-/
open Sys2Proof Sys2Proof.Machine
namespace Sys2Proof.Tests

-- One proof at a time: the proofs of this file in parallel ask for more threads than the memory bound holds.
set_option Elab.async false

/-- The module after reset, with one core at work. -/
def withCore (c : Nat) (x : LCore) : State :=
  { State.reset with lan := { Lantern.empty with cores := [(c, { x with st := 1 })] } }
def core0 : State := withCore 0 LCore.idle0
/-- A fetched descriptor: opcode and flags, ring-specific bits, words 1 to 5; its cookie is 7. -/
def mkD (op spec : Nat) (ws : List Nat) : Desc :=
  let w := fun (i : Nat) => BitVec.ofNat 32 (ws.getD i 0)
  { index := 0, w0 := BitVec.ofNat 32 (op + 65536 * spec), w1 := w 0, w2 := w 1, w3 := w 2, w4 := w 3, w5 := w 4, w6 := 7, peer := none, phase := .fetched }
/-- A state with this descriptor alone on a running ring. -/
def post (s : State) (r : Nat) (d : Desc) : State :=
  { s with rings := Cells.put (fun _ => Ring.empty) s.rings r { Ring.empty with state := .running, descs := [d], fetched := 1 } }
/-- The module with a plane or both at work. -/
def running (render voice : Bool) : State :=
  { State.reset with mgt := { Mgt.empty with
      modState := 4, render := { PlaneSt.empty with run := render }, voice := { PlaneSt.empty with run := voice } } }
/-- Fields of a register set in a state. -/
def regs (s : State) (l : List (Nat × Nat)) : State := l.foldl (fun s p => s.setReg p.1 (BitVec.ofNat 32 p.2)) s
/-- The PCIe link is up and the function may issue requests. -/
def up (s : State) : State := { s with host := { s.host with bme := true, linkWidth := 16, linkSpeed := 5 } }
/-- A ring in a given state of its own. -/
def ringAs (s : State) (r : Nat) (x : Ring) : State := { s with rings := Cells.put (fun _ => Ring.empty) s.rings r x }

/-! ### Well-formed commands, the decoder, reset -/

/-- For each check of WellFormed, a command it refuses. -/
theorem test_ill_formed : ∀ i ∈ [Instr.registerWrite 0x404000 0 0xF .host, .registerWrite 2 0 0xF .host, .controlActionExecute 0 0xA1, .objPos 64,
    .filterCrossfadeEnd 0 512, .channelIdle 0 512, .engineCompletion 0 16 0, .dispatch 0 144, .levelCapWrite 16 0 .host, .taskWatchdog 0 128 0,
    .selfTestDone 0 0xA1 none, .dmaWait 0 true 5, .ldW 128 true 0 0 none, .fftJobDone 0 16 false, .interruptEntry 0 0 2, .holdoffEnd 0 64,
    .lockBroken 0 14 0 0, .refresh 0 4 .early, .bankRetire 0 0 17 false, .scrubPass 0 16 [], .queueSwap 0 3, .queueSwap 5 0],
    WellFormed i = false := by decide +kernel
theorem test_ill_formed_ports : ∀ i ∈ [Instr.blockLock 4 true, .daLo 0 32 0 .host, .triggerFire 0 8, .streamStateChange 256, .candidateFault 0 11 0,
    .portLost 0 16, .portCfgWrite 0 4 0 .host, .sarSample 0 8 0 false, .sarSample 0 0 256 false, .linkPortEnable 2 0 .host, .laneLock 0 2, .lnkCfgWrite 3 0 .host,
    .dbgResponse 1 [], .dbgResponse 256 (List.replicate 96 0)],
    WellFormed i = false := by decide +kernel
theorem test_well_formed : ∀ i ∈ [Instr.registerWrite 0x3FFFFC 0 0xF .host, .objPos 63, .dispatch 0 143, .dmaWait 127 true 4, .queueSwap 4 3, .blockLock 3 true],
    WellFormed i = true := by decide +kernel
/-- No word spells a command. -/
theorem test_decode : decodeTableWord 32 0 = none ∧ decodeTableWord 0 0xFFFFFFFF = none := by decide
/-- R447: reset values of registers with one. -/
theorem test_reset_registers : State.reset.reg 0x50044 = 320 ∧ State.reset.reg 0x5007C = 1600 ∧ State.reset.flag 0x10000 0 = false := by decide +kernel
theorem test_step_idles : step State.reset = .next (State.reset.elapse 1) := rfl
theorem test_step_front : step { State.reset with pending := [.pwrWake, .pwrStandby] } = exec .pwrWake { State.reset with pending := [.pwrStandby] } := rfl

/-! ### Cores -/

def allWords : List CoreOp :=
  [.sop .add true 1 2 3, .sop .sub true 1 2 3, .sop .and false 31 31 31, .sop .or false 0 0 0, .sop .xor false 1 2 3, .sop .min false 1 2 3,
   .sop .max false 1 2 3, .shift .shl true 1 2 63, .shift .shr false 1 2 63, .shift .asr false 1 2 0, .cmp 1 31, .movi 1 0xFFFF none,
   .movi 1 0xFFFF (some 0xFFFFFFF), .crcF 31, .crcW 7, .padd 7 none, .padd 0 (some 7), .movp 7 31, .mov (.g 31) .cid, .mov .cst (.g 1),
   .crcI 30, .time 31, .tcmp 30, .nop, .vop .add true 7 7 7, .vop .sub false 0 1 2, .vop .and false 1 2 3, .vop .or false 1 2 3,
   .vop .xor false 1 2 3, .vop .min false 1 2 3, .vop .max false 1 2 3, .vop .sel false 1 2 3, .vcmp .lt 1 2, .vop .mul true 1 2 3,
   .vop1 .neg true 1 2, .vop1 .abs true 1 2, .vop1 (.shl 31) true 1 2, .vop1 (.sra 1) false 1 2, .search true 6 1 31,
   .search false 0 1 31, .reduce true 30 6, .reduce false 0 0]
def accWords : List CoreOp :=
  [.mac false false true 0 1 2, .mac true false true 1 1 2, .mac false true true 0 1 31, .mac true true true 0 1 31, .asum true 1,
   .aext true 1 1 40, .amov 1 7 40, .aclr 1]
/-- Every operation of one word that only computes issues on an idle core that runs. -/
theorem test_words_issue : core0.coreRuns 0 = true ∧ (core0.core 0).bundle = [] ∧ (core0.core 0).branch = none ∧
    ∀ w ∈ allWords ++ accWords, core0.bundleFault 0 (core0.landed 0) [w] true = none := by decide +kernel
theorem test_movi_ext : ∀ e ∈ [0x0007FFF, 0xFFF8000, 0], signed 28 (BitVec.ofNat 28 e).toNat = signed 16 (BitVec.ofNat 28 e).toNat := by
  decide +kernel
/-- Lanes with equal extremes and different indices: lane 1 is the lowest index of the greatest value. -/
def coreLanes : LCore := (withCore 0 { LCore.idle0 with r := [(0, 5), (1, 9), (2, 9), (3, 1), (4, 7), (5, 2), (6, 3), (7, 0)] }).landed 0
theorem test_reduce_max :
    (∀ l : Fin 4, coreLanes.lane 0 l < coreLanes.lane 0 (1 : Fin 4) ∨ (coreLanes.lane 0 l = coreLanes.lane 0 (1 : Fin 4) ∧
      coreLanes.lane 1 (1 : Fin 4) ≤ coreLanes.lane 1 l)) ∧
    (∀ l : Fin 4, l < (1 : Fin 4) → coreLanes.lane 0 l = coreLanes.lane 0 (1 : Fin 4) → coreLanes.lane 1 (1 : Fin 4) < coreLanes.lane 1 l) := by
  decide
theorem test_reduce_min :
    (∀ l : Fin 4, coreLanes.lane 0 (3 : Fin 4) < coreLanes.lane 0 l ∨ (coreLanes.lane 0 l = coreLanes.lane 0 (3 : Fin 4) ∧
      coreLanes.lane 1 (3 : Fin 4) ≤ coreLanes.lane 1 l)) ∧
    (∀ l : Fin 4, l < (3 : Fin 4) → coreLanes.lane 0 l = coreLanes.lane 0 (3 : Fin 4) → coreLanes.lane 1 (3 : Fin 4) < coreLanes.lane 1 l) := by
  decide
/-- No clamp, no chain, and sums that fit 72 bits, at the ends of the 72-bit range as at 0. -/
theorem test_acc_open : (core0.landed 0).chain = [] ∧ ∀ k, (core0.landed 0).clamped k = false :=
  ⟨by decide, fun k => by
    simp only [LCore.clamped, LCore.cst, core0, withCore, State.landed, State.core, LCore.landBy, LCore.idle0, LCore.reg, Cells.get, bitOf]
    exact Nat.testBit_lt_two_pow (Nat.lt_of_lt_of_le (by decide : 0xF00 < 2 ^ 24) (Nat.pow_le_pow_right (by decide) (Nat.le_add_right 24 k)))⟩
theorem test_acc_fits : satS 72 (2 ^ 71 - 1) = 2 ^ 71 - 1 ∧ satS 72 (-2 ^ 71) = -2 ^ 71 ∧
    ∀ l ∈ [0, 1, 2, 3], satS 72 ((core0.landed 0).accu (2 * l) + (core0.landed 0).lane 1 l * (core0.landed 0).lane 2 l) =
      (core0.landed 0).accu (2 * l) + (core0.landed 0).lane 1 l * (core0.landed 0).lane 2 l := by decide

/-- A core whose pointers lie at the last word of its tile, at 0, and over another tile; g2 holds a record's address, g3 a length. -/
def corePtrs : State := withCore 0 { LCore.idle0 with r := [(2, 64), (3, 16), (31, 8), (32, 0x3FFFFC), (33, 0), (34, 32)], pc := 4 }
theorem test_place_last_word : corePtrs.access 0 ((corePtrs.landed 0).ea 0 0) 4 = .ok 0x3FFFFC := by rfl
theorem test_place_half : corePtrs.access 0 ((corePtrs.landed 0).ea 1 0) 2 = .ok 0 := by rfl
theorem test_places_lanes : corePtrs.access 0 ((corePtrs.landed 0).ea 1 0) 4 = .ok 0 ∧ corePtrs.access 0 ((corePtrs.landed 0).ea 1 1) 4 = .ok 4 ∧
    corePtrs.access 0 ((corePtrs.landed 0).ea 1 2) 4 = .ok 8 ∧ corePtrs.access 0 ((corePtrs.landed 0).ea 1 3) 4 = .ok 12 :=
  ⟨by rfl, by rfl, by rfl, by rfl⟩
theorem test_memory_words : (∀ l < 4, ∀ j < l, 4 * l + 4 ≤ 4 * j ∨ 4 * j + 4 ≤ 4 * l) ∧ corePtrs.coreRuns 0 = true ∧
    ∀ w ∈ [CoreOp.ld .w 1 0 none, .ld .h 1 1 (some 0), .ld .v 1 1 none, .ld .vb 7 0 none, .st false 1 0 none, .st true 7 1 none],
      corePtrs.bundleFault 0 (corePtrs.landed 0) [w] true = none := by decide +kernel
theorem test_control_words : ∀ w ∈ [CoreOp.br .eq 8 false, .br .eq (-4) true, .call 4 true, .jmpR 2, .ret, .loop 1 3 8 false, .ni 16, .ni 1,
    .waitTask true, .post 1 2 3, .dmaWait 0, .fftRun 2, .fftWait 2, .dma 0 2 2 3, .dma 3 2 2 3],
    corePtrs.bundleFault 0 (corePtrs.landed 0) [w] true = none := by decide +kernel
theorem test_loop_begins : (corePtrs.landed 0).reg 64 = 0 ∧ (corePtrs.landed 0).reg 65 = 0 ∧
    ((corePtrs.landed 0).pc + 4) % 2 ^ 19 ≤ pattern 19 (((corePtrs.landed 0).pc : Int) + 8) ∧ (corePtrs.landed 0).ni = 0 := by decide
theorem test_rti : let s := withCore 0 { LCore.idle0 with inHandler := true }
    (s.landed 0).inHandler = true ∧ s.bundleFault 0 (s.landed 0) [.rti] true = none := by decide +kernel
/-- A branch of each kind with one or two bundles to go. -/
theorem test_delay : ∀ n ∈ [1, 2], ∀ k ∈ [0, 1, 2, 3], let s := withCore 0 { LCore.idle0 with branch := some (n, k, 64) }
    s.coreRuns 0 = true ∧ (s.core 0).branch = some (n, k, 64) ∧ s.bundleFault 0 (s.landed 0) [.nop] true = none := by decide +kernel
/-- The end bundle of a loop, with its count at 1 and above. -/
theorem test_loop_end : ∀ n ∈ [1, 2], let s := withCore 0 { LCore.idle0 with r := [(64, BitVec.ofNat 32 n), (66, 8), (68, 16)], pc := 16 }
    s.coreRuns 0 = true ∧ (s.core 0).branch = none ∧ s.bundleFault 0 (s.landed 0) [.nop] true = none ∧ (s.landed 0).reg 65 = 0 ∧
    0 < ((s.landed 0).reg 64).toNat ∧ ((s.landed 0).reg 68).toNat = (s.landed 0).pc := by decide +kernel
theorem test_dma_job : corePtrs.dmaJob 0 (corePtrs.landed 0) 0 2 2 3 = .ok { kind := 0, local_ := 32, remote := 64, bytes := 16 } ∧
    corePtrs.dmaJob 0 (corePtrs.landed 0) 3 2 2 3 = .ok { kind := 3, local_ := 32, remote := 64, bytes := 16 } := ⟨by rfl, by rfl⟩
theorem test_fft_record : ((corePtrs.landed 0).reg 2).toNat % 32 = 0 ∧ corePtrs.access 0 ((corePtrs.landed 0).reg 2).toNat 32 = .ok 64 ∧
    (corePtrs.fftQ (corePtrs.fftServer 0)).length < 16 ∧ corePtrs.fftStatus 64 = 0 ∧ Sound corePtrs := by
  refine ⟨by decide, by rfl, by decide, by decide, ?_⟩; unfold Sound; decide

/-! ### Tasks and items -/

/-- A node of the Render plane: its number, kind, release, level, edges and cost. -/
def nodeRec (n kind release level edges cost : Nat) : List Byte :=
  leBytes 2 n ++ leBytes 1 (1 + 4 * kind + 16 * release) ++ leBytes 1 level ++ leBytes 2 0 ++ leBytes 1 100 ++ leBytes 7 0 ++ leBytes 2 edges ++
    leBytes 8 0 ++ leBytes 4 cost ++ leBytes 4 0
def img0 : Image :=
  { id := 1, render := true, voice := false, tileBytes := 0, dramBytes := 0, kernels := [{ id := 0, plane := 1, entry := 16, length := 16 }], code := []
    nodes := [nodeRec 0x400 0 2 3 1 10, nodeRec 0x401 0 2 3 0 10, nodeRec 0x402 2 2 3 1 10, nodeRec 0x403 0 0 3 0 10], edges := [(0, 0x401)], svn := 0 }
def item0 (n : Nat) : WItem :=
  { node := n, grid := 0, num := 0, key := 0, data := 5, level := 3, ready := 0, tLvl := 0, flow := 0, deadline := some 100, reserve := false, vigil := none }
def inst0 : WInst := { grid := 0, num := 0, ticks := [0] }
/-- The Render plane at work with a graph of four nodes, one instance, and what is given of Wick; core 0 as given. -/
def withWick (w : Wick → Wick) (x : LCore) : State :=
  { running true false with
    mgt := { (running true false).mgt with split := 16 }
    imgs := { held := [img0], staged := [], render := [img0], voice := [], boot := none, bootSvn := 0 }
    wick := w { Wick.empty with insts := [inst0] }
    lan := { Lantern.empty with cores := Cells.put coreDflt [] 0 x } }
def task0 : WTask := { item := item0 0x400, res := 0, slice := false }
/-- Where the kernel of the graph's nodes is placed. -/
def kernelPc : Nat := (withWick (fun w => w) LCore.idle0).codeBase 1 1 + 16
/-- Core 0 has the task of node 0x400, at its kernel's entry, with its successor 0x401 in g2; a POST names them. -/
def tasked : State :=
  withWick (fun w => { w with tasks := [task0] }) { LCore.idle0 with st := 1, pc := kernelPc, r := [(2, 0x00070401), (3, 9), (74, 0xF00)] }
theorem tasked_code : tasked.codeOf 0 = some (kernelPc, 16) := by rfl
theorem test_wait_task : tasked.taskOf 0 = some task0 ∧ task0.item.vigil = none ∧ (tasked.landed 0).inHandler = false ∧
    (tasked.landed 0).writesOut = false ∧ tasked.takes 0 (.waitTask true) := by
  refine ⟨by decide +kernel, by decide, by rfl, by rfl, by decide +kernel, by rfl, by rfl, ?_⟩
  have hp : (tasked.landed 0).pc = kernelPc := rfl
  simp [State.bundleFault, tasked_code, hp, bundleWords, CoreOp.words]
  decide
/-- The same task of a node whose kernel is in no image: its POST is refused. -/
def unkernelled : State := { tasked with imgs := { tasked.imgs with render := [{ img0 with kernels := [] }] } }
theorem test_post_refused : unkernelled.taskOf 0 = some task0 ∧ unkernelled.imageOf 0 = none ∧ unkernelled.takes 0 (.post 1 2 3) := by
  refine ⟨by decide +kernel, by decide +kernel, by decide +kernel, by rfl, by rfl, by decide +kernel⟩
theorem test_post_made : tasked.takes 0 (.post 1 2 3) ∧ tasked.imageOf 0 ≠ none ∧ field ((tasked.landed 0).reg 2) 11 0 = 0x401 ∧
    tasked.nodeOf 0x400 = some (img0, nodeRec 0x400 0 2 3 1 10) ∧ (tasked.succOf (nodeRec 0x400 0 2 3 1 10)).contains 0x401 = true ∧
    mailboxRing 0x401 = none ∧ tasked.nodeOf 0x401 = some (img0, nodeRec 0x401 0 2 3 0 10) ∧
    tasked.instOf 0 0 = some inst0 ∧ ndInCount (nodeRec 0x401 0 2 3 0 10) ≤ 1 ∧
    tasked.levelOpen (ndLevel (nodeRec 0x401 0 2 3 0 10)) = true := by
  refine ⟨⟨by decide +kernel, by rfl, by rfl, ?_⟩, by decide +kernel, by decide +kernel, by decide +kernel, by decide +kernel,
    by decide +kernel, by decide +kernel, by decide +kernel, by decide +kernel, by decide +kernel⟩
  have hp : (tasked.landed 0).pc = kernelPc := rfl
  simp [State.bundleFault, tasked_code, hp, bundleWords, CoreOp.words]
  decide
theorem test_post_in_time : tasked.pastDeadline (tasked.deadlineOf inst0 (nodeRec 0x401 0 2 3 0 10)) = false := by decide +kernel

/-- A POST of core 0 that has been blocked since instant 0, and one of a mailbox ring. -/
def blocked (core : Option Nat) (num since : Nat) : WPost :=
  { core := core, ring := 60, index := 0, target := 0x401, key := 7, data := 9, src := 0x400, grid := 0, num := num, since := since }
def stuck (q : WPost) : State :=
  withWick (fun w => { w with tasks := [task0], blocked := [q] }) { LCore.idle0 with st := 1, freeze := some (.post 1) }
theorem test_blocked_done : (stuck (blocked (some 0) 0 0)).wick.blocked = [blocked (some 0) 0 0] ∧
    ((stuck (blocked (some 0) 0 0)).core 0).freeze = some (.post 1) ∧ ((stuck (blocked (some 0) 0 0)).tryPost (blocked (some 0) 0 0) true).1 = .done := by
  decide +kernel
/-- Long after the only instance's deadlines. -/
def late (q : WPost) : State := (stuck q).elapse 1000000000
theorem test_blocked_expired : ((stuck (blocked (some 0) 1 0)).tryPost (blocked (some 0) 1 0) true).1 = .expired ∧
    ((late (blocked none 0 0)).tryPost ((late (blocked none 0 0)).aimPost (blocked none 0 0)) true).1 = .expired := by decide +kernel
theorem test_blocked_stays : ∀ c ∈ [some 0, none], let q := { blocked c 0 0 with target := 0x3FC }
    ((stuck q).tryPost ((stuck q).aimPost q) true).1 = .block := by decide +kernel
theorem test_blocked_host : ((stuck (blocked none 9 0)).tryPost ((stuck (blocked none 9 0)).aimPost (blocked none 9 0)) true).1 = .done := by
  decide +kernel
theorem test_blocked_timeout : (blocked none 0 0).since + (stuck (blocked none 0 0)).wckTimeout ≤ ((stuck (blocked none 0 0)).elapse 100000000).now ∧
    ((stuck (blocked none 0 0)).elapse 1).now < (blocked none 0 0).since + (stuck (blocked none 0 0)).wckTimeout := by
  decide +kernel

/-- Two waiting items: the earlier is not the better. -/
def waiting : State := withWick (fun w => { w with items := [item0 0x401, { item0 0x400 with level := 4 }] }) LCore.idle0
theorem test_dispatch : State.pickGo waiting 0 waiting.wick.items none = some { item0 0x400 with level := 4 } ∧ waiting.wick.guard = false ∧
    (waiting.core 0).st = 0 ∧ waiting.isOut 0 = false ∧ waiting.stopGrant 0 = false ∧ waiting.clusterLive 0 = true ∧
    waiting.nodeOf 0x400 = some (img0, nodeRec 0x400 0 2 3 1 10) ∧
    waiting.kernelOf (nodeRec 0x400 0 2 3 1 10) = some (img0, { id := 0, plane := 1, entry := 16, length := 16 }) := by decide +kernel
/-- A Vigil item of cluster 0 waits behind another, and the cluster is owed a slice, which core 7 may take. -/
def vigilItem : WItem := { item0 5 with vigil := some 0, deadline := none }
def owed : State := withWick (fun w => { w with items := [item0 0x401, vigilItem], guard := true, slices := [0] }) LCore.idle0
theorem test_dispatch_slice : (owed.core 7).st = 0 ∧ owed.isOut 7 = false ∧ owed.stopGrant 7 = false ∧ owed.clusterLive 0 = true ∧
    vigilItem.vigil.isSome = true ∧ owed.wick.guard = true ∧ owed.wick.slices.contains (7 / 8) = true ∧ owed.topCore 0 = some 7 ∧
    owed.wick.items.find? (fun i => i.vigil == some 0 && !owed.wick.quarantine.contains i.node) = some vigilItem := by decide +kernel
theorem test_dispatch_none : State.pickGo waiting 8 waiting.wick.items none = some { item0 0x400 with level := 4 } ∧
    State.pickGo waiting 128 waiting.wick.items none = none := by decide +kernel
theorem test_dispatch_engine : let s := withWick (fun w => { w with items := [item0 0x402] }) LCore.idle0
    State.pickGo s 128 s.wick.items none = some (item0 0x402) := by decide +kernel
theorem test_aging : ∀ it ∈ waiting.wick.items, it.flow = 0 := by decide
theorem test_level_cap : waiting.anyRun = true ∧ State.reset.anyRun = false ∧ State.reset.auditRoom 1 = true ∧
    (List.range 16).foldl (fun a k => if k = 0 then a else a + State.reset.levelCap k) 0 + 16 ≤ 7680 := by decide +kernel
/-- An engine task of node 0x402 on engine 3, whose successor takes items of engine completions. -/
def engined : State := withWick (fun w => { w with tasks := [{ task0 with item := item0 0x402, res := 0x83 }] }) LCore.idle0
theorem test_engine : engined.taskOf (0x80 + 3) = some { task0 with item := item0 0x402, res := 0x83 } ∧
    engined.nodeOf 0x402 = some (img0, nodeRec 0x402 2 2 3 1 10) ∧ engined.succOf (nodeRec 0x402 2 2 3 1 10) = [0x401] ∧
    engined.nodeOf 0x401 = some (img0, nodeRec 0x401 0 2 3 0 10) ∧ ndRelease (nodeRec 0x401 0 2 3 0 10) = 2 ∧
    ndGrid (nodeRec 0x401 0 2 3 0 10) = 0 ∧ engined.planeRuns (ndPlane (nodeRec 0x401 0 2 3 0 10)) = true ∧
    engined.instOf 0 0 = some inst0 ∧ engined.levelOpen 3 = true := by decide +kernel
/-- Node 0x402 names engine 0 and takes items of its completions; no task of Wick is at work. -/
theorem test_engine_named : let s := withWick (fun w => w) LCore.idle0
    s.taskOf 0x80 = none ∧ (s.liveNodes.filter (fun p => ndKind p.2 == 2 && ndTarget p.2 == 0 && ndRelease p.2 == 2)).map (fun p => ndNode p.2) = [0x402] ∧
    s.newestInst 0 = some inst0 := by decide +kernel
theorem test_engine_alone : State.reset.taskOf 0x80 = none ∧ State.reset.liveNodes = [] := by decide +kernel
theorem test_watchdog : tasked.taskOf 0 = some task0 ∧ (tasked.core 0).issued ≤ 21 ∧
    max 2 (field (tasked.effReg 0x70000) 7 0) * ndCost (nodeRec 0x400 0 2 3 1 10) < 10 * max 2 (field (tasked.effReg 0x70000) 7 0) + 1 ∧
    ndCost (nodeRec 0x400 0 2 3 1 10) = 10 ∧ tasked.isOut 0 = false ∧ tasked.removalAsked 0 = false ∧ tasked.auditRoom 1 = true := by decide +kernel

/-! ### Tests of blocks, transfers, transforms and interrupts -/

def tested (cmd : Option Nat) : VigilTest := { target := 0x40, cmd := cmd, origin := 0, test := 1, detail := 0, passed := none }
def underTest (cmd : Option Nat) : State := { State.reset with vig := { VigilSt.empty with tests := [tested cmd] } }
theorem test_self_test : (underTest none).vig.tests.find? (fun x => x.target == 0x40 && x.passed.isNone) = some (tested none) ∧
    (underTest (some 0)).vig.tests.find? (fun x => x.target == 0x40 && x.passed.isNone) = some (tested (some 0)) ∧
    (tested none).test = 1 := by decide +kernel
def fftTest : State := { regs State.reset [(0x120000, 1)] with lan := { Lantern.empty with fftSegs := [(15, 192)] } }
theorem test_fft_test : fftTest.vig.tests = [] ∧ fftTest.flag 0x120000 0 = true ∧ 192 ≤ Cells.get (fun _ => 0) fftTest.lan.fftSegs 15 ∧
    fftTest.isOut 0x8F = false ∧ fftTest.removalAsked 0x8F = false := by decide +kernel
def xfer (k : Nat) : DmaJob := { kind := k, local_ := 32, remote := 64, bytes := 16 }
theorem test_transfer : ∀ f ∈ [none, some (Freeze.dmaWait 0), some (Freeze.dma (xfer 1))], ∀ k ∈ [0, 1, 2, 3],
    let s := withCore 0 { LCore.idle0 with dma := [xfer k], freeze := f }
    (s.core 0).dma = [xfer k] ∧ (s.core 0).freeze = f := by decide +kernel
def fjob : FftJob := { cluster := 0, core := 0, addr := 64, task := none, image := none }
/-- A job whose record is in range (16 points, in and out in the tile), and one whose record is not. -/
def jobs (log2n : Nat) : State := { State.reset with lan := { Lantern.empty with
  fft := [(0, [fjob])]
  tile := Memory.store [] 64 (leBytes 4 1024 ++ leBytes 4 2048 ++ leBytes 1 log2n) } }
theorem test_fft_job : (jobs 4).fftQ 0 = [fjob] ∧
    ((jobs 4).fftPlaces fjob).isSome = true ∧
    (jobs 3).fftPlaces fjob = none ∧ (jobs 4).lan.cores = [] ∧ (jobs 4).isOut 0x80 = false ∧ (jobs 4).removalAsked 0x80 = false := by decide +kernel
/-- A core with the interrupt of a source enabled and pending. -/
def pendingIrq (src : Nat) : State :=
  withCore 0 { LCore.idle0 with r := [(73, 0x400), (74, BitVec.ofNat 32 (2 ^ 21 + 2 ^ (17 + src)))], dmaPend := true, pc := 8 }
theorem test_interrupt : ∀ src ∈ [0, 1], let s := pendingIrq src
    s.coreRuns 0 = true ∧ (s.core 0).bundle = [] ∧ (s.core 0).branch = none ∧ bitOf ((s.core 0).landBy (s.core 0).issued).cst 21 = true ∧
    bitOf ((s.core 0).landBy (s.core 0).issued).cst (17 + src) = true ∧ ((s.core 0).landBy (s.core 0).issued).ni = 0 ∧
    ((s.core 0).landBy (s.core 0).issued).tcmp ≤ s.now ∧ (s.core 0).dmaPend = true := by decide +kernel

/-! ### Messages and images -/

def mailed (w0 : Nat) : State := post (withWick (fun w => w) LCore.idle0) 60 (mkD 0x80 w0 [7, 9])
theorem test_mail : ∀ n ∈ [0x402, 0x403, 0x404], (mailed n).nextDesc 60 0x80 = some (mkD 0x80 n [7, 9]) ∧
    (mailed n).wick.blocked.any (fun q => q.core.isNone && q.ring == 60) = false ∧
    field (mkD 0x80 n [7, 9]).w0 31 28 = 0 ∧ (mkD 0x80 n [7, 9]).flags = 0 ∧ field (mkD 0x80 n [7, 9]).w1 31 16 = 0 ∧
    (mkD 0x80 n [7, 9]).w3 = 0 ∧ field (mkD 0x80 n [7, 9]).w0 27 16 = n := by decide +kernel
def nodesOf (s : State) : List (List Byte) := s.liveNodes.map (·.2) ++ ((s.imgs.held ++ s.imgs.staged).map (fun i => i.nodes)).flatten
theorem test_mail_item : (mailed 0x403).nodeOf 0x403 = some (img0, nodeRec 0x403 0 0 3 0 10) ∧
    ndRelease (nodeRec 0x403 0 0 3 0 10) = 0 ∧ (mailed 0x403).planeRuns (ndPlane (nodeRec 0x403 0 0 3 0 10)) = true ∧
    (mailed 0x403).newestInst 0 = some inst0 ∧ (mailed 0x403).instOf 0 0 = some inst0 ∧
    (mailed 0x403).pastDeadline ((mailed 0x403).deadlineOf inst0 (nodeRec 0x403 0 0 3 0 10)) = false ∧ (mailed 0x403).levelOpen 3 = true := by
  decide +kernel
theorem test_mail_refused : (nodesOf (mailed 0x404)).find? (fun x => ndNode x == 0x404) = none ∧
    (nodesOf (mailed 0x402)).find? (fun x => ndNode x == 0x402) = some (nodeRec 0x402 2 2 3 1 10) ∧ ndRelease (nodeRec 0x402 2 2 3 1 10) ≠ 0 := by
  decide +kernel
theorem test_mail_stopped : let s := { mailed 0x403 with mgt := Mgt.empty }
    (nodesOf s).find? (fun x => ndNode x == 0x403) = some (nodeRec 0x403 0 0 3 0 10) ∧ s.planeRuns (ndPlane (nodeRec 0x403 0 0 3 0 10)) = false := by
  decide +kernel
/-- A customer image of one header record, signed with a P-384 key made for this test. -/
def imageBody : List Byte := leBytes 2 0x70 ++ leBytes 2 1 ++ leBytes 4 0 ++ leBytes 2 5 ++ leBytes 30 1
def imageSigner : List Byte := beBytes 97
  (0x408D999057BA3D2D969260045C55B97F089025959A6F434D651D207D19FB96E9E4FE0E86EBE0E64F85B96A9C75295DF61 * 2 ^ 384 +
    0x8E80F1FA5B1B3CEDB7BFE8DFFD6DBA74B275D875BC6CC43E904E505F256AB4255FFD43E94D39E22D61501E700A940E80)
def imageSig : List Byte := beBytes 96
  (0xDBA23634C080C17077FF7185A072E75CCF7EAF2C87097A4BA83DD1140AF6C2F0E322B21AD05B136EDD95383C29F116D7 * 2 ^ 384 +
    0x42CBA7E5A745ABB5904CB97D5B88B301CFA2E736242FB2B54EEDC1890D5A0B12AFC81F89897A7E3385FFE383EA3930D6)
def imageBytes (svn : Nat) (sig : List Byte) : List Byte :=
  leBytes 4 0x47564C4D ++ leBytes 4 2 ++ leBytes 4 svn ++ leBytes 4 40 ++ imageSigner ++ leBytes 143 0 ++ sig ++ leBytes 32 0 ++ imageBody
def owned : State := { State.reset with sec := { Sec.new with ownerHash := some (sha384 imageSigner) } }
def loading (len addr : Nat) : State := post owned 6 (mkD 0x70 0 [len, addr])
theorem test_image_desc : (loading 424 0x20).nextDesc 6 0x70 = some (mkD 0x70 0 [424, 0x20]) ∧
    (∀ a ∈ [0, 0x20], let d := mkD 0x70 0 [424, a]
      d.flags = 0 ∧ d.spec = 0 ∧ d.w4 = 0 ∧ d.w5 = 0 ∧ d.addr % 32 = 0 ∧ 384 ≤ d.w1.toNat ∧ d.w1.toNat ≤ 16777216) ∧
    (mkD 0x70 0 [424, 0x21]).addr % 32 ≠ 0 ∧ (mkD 0x70 0 [383, 0]).w1.toNat < 384 ∧ 16777216 < (mkD 0x70 0 [16777217, 0]).w1.toNat ∧
    (loading 424 0x20).auditRoom 1 = true := by decide +kernel
theorem test_image_envelope : (imageBytes 0 imageSig).take 424 = imageBytes 0 imageSig ∧ envelopeOk (imageBytes 0 imageSig) = true ∧
    leAt (imageBytes 0 imageSig) 4 1 = 2 ∧ envelopeOk (0 :: imageBytes 0 imageSig) = false := by decide +kernel
theorem test_image_signer : owned.sec.ownerHash = some (sha384 (((imageBytes 0 imageSig).drop 16).take 97)) ∧
    State.reset.sec.ownerHash ≠ some (sha384 (((imageBytes 0 imageSig).drop 16).take 97)) := by decide +kernel
theorem test_image_signed : imageSigned (imageBytes 0 imageSig) = true := by decide +kernel
theorem test_image_unsigned : imageSigned (imageBytes 0 (leBytes 96 0)) = false ∧ imageSigned (imageBytes 1 imageSig) = false := by decide +kernel
theorem test_image_rolled : leAt (imageBytes 0 imageSig) 8 4 < 1 := by decide +kernel
theorem test_image_opens : (loading 424 0).openImage (imageBytes 0 imageSig) = .inr imageBody := by
  have e := test_image_envelope
  have g : (loading 424 0).sec.ownerHash = some (sha384 (((imageBytes 0 imageSig).drop 16).take 97)) := test_image_signer.1
  have v : ¬ leAt (imageBytes 0 imageSig) 8 4 < (loading 424 0).sec.ownerMin := by decide +kernel
  have p : leAt (imageBytes 0 imageSig) 5 1 = 0 := by decide +kernel
  have b : (imageBytes 0 imageSig).drop 384 = imageBody := by decide +kernel
  simp [State.openImage, e.2.1, e.2.2.1, test_image_signed, g, v, p, b]
theorem test_image_refused : owned.openImage (imageBytes 0 (leBytes 96 0)) = .inl (secBadSig, true) := by
  have e : envelopeOk (imageBytes 0 (leBytes 96 0)) = true := by decide +kernel
  have y : leAt (imageBytes 0 (leBytes 96 0)) 4 1 = 2 := by decide +kernel
  have g : owned.sec.ownerHash = some (sha384 (((imageBytes 0 (leBytes 96 0)).drop 16).take 97)) := by decide +kernel
  simp [State.openImage, e, y, test_image_unsigned.1, g]
/-- What host memory holds is what the two reads make, and a failed read leaves none. -/
theorem test_image_read (b : List Byte) : imageRead b.length (some (b.take 384)) (some (b.drop 384)) = some b ∧
    imageRead b.length none (some b) = none := by simp [imageRead, List.take_take]
theorem test_image_cut : let p := { Pwr.reset with booted := 1 }
    ((p.writeSlot [0, 0, 0, 0, 0, 0, 0, 0, 9] (some 9)).slotA = some (9, [0, 0, 0, 0, 0, 0, 0, 0, 9])) ∧
    (p.writeSlot [1, 2] none).newest = 0 ∧ ({ Pwr.reset with newest := 1 }.writeSlot [1, 2] (some 1)).newest = 1 := by decide +kernel
theorem test_image_checked : checkImage owned.imgs 0 imageBody =
    .inr { id := 5, render := true, voice := false, tileBytes := 0, dramBytes := 0, kernels := [], code := [], nodes := [], edges := [], svn := 0 } ∧
    checkImage owned.imgs 0 [0] = .inl lanBadImage := by decide +kernel
/-- The signer of a firmware image is Meridian's root key, whose hash is open: an image of TYPE 1 opens where that is the signer's. -/
theorem test_image_firmware (b : List Byte) (s : State) (he : envelopeOk b = true) (ht : leAt b 4 1 = 1)
    (hr : sha384 ((b.drop 16).take 97) = Config.rootHash) (hs : imageSigned b = true) (hv : s.sec.fwMin ≤ leAt b 8 4) (hp : leAt b 5 1 = 0) :
    s.openImage b = .inr (b.drop 384) := by
  simp [State.openImage, he, ht, hr, hs, hp, Nat.not_lt.mpr hv]

/-! ### Rings and completions -/

def held1 : State := up (post State.reset 6 (mkD 0x70 0 []))
/-- Ring 6 reports to ring 1, which has room or none. -/
def oneTo1 (room : Nat) : State :=
  ringAs (regs held1 [(regRing 6 + 8, 128), (regRing 1 + 8, 4)]) 1 { Ring.empty with state := .running, wr := 16 - room }
theorem test_completion : isD2h 6 = false ∧ (held1.ring 6).descs = [mkD 0x70 0 []] ∧ (mkD 0x70 0 []).peer = none ∧ held1.linkOk = true ∧
    held1.host.lateAborts = [] ∧ held1.pwr.standby = none ∧ held1.toRing1 6 = false := by decide +kernel
theorem test_completion_ring1 : (oneTo1 0).toRing1 6 = true ∧ ((oneTo1 0).ring 6).descs = [mkD 0x70 0 []] ∧ (oneTo1 0).linkOk = true ∧
    (oneTo1 0).d2hFull 1 = true ∧ (oneTo1 1).d2hFull 1 = false ∧ (oneTo1 1).host.wait1 = [] := by decide +kernel
def two : State := ringAs State.reset 6 { Ring.empty with state := .running, descs := [mkD 0x70 0 [], { mkD 0x70 0 [] with index := 1 }] }
theorem test_ring_order : (two.ring 6).descs = [mkD 0x70 0 [], { mkD 0x70 0 [] with index := 1 }] ∧ (mkD 0x70 0 []).isDone = false ∧
    two.host.lateAborts = [] ∧ two.pwr.standby = none := by decide +kernel

/-- A ring 0 command beside a descriptor that stands on ring 6. -/
def ring0 (op spec : Nat) (ws : List Nat) : State := post (post State.reset 6 (mkD 0x70 0 [])) 0 (mkD op spec ws)
theorem test_nop : (post State.reset 63 (mkD 0 0 [])).nextDesc 63 0 = some (mkD 0 0 []) ∧ (mkD 0 0 []).w0 = 0 ∧ (mkD 0 0 []).w1 = 0 := by decide +kernel
theorem test_abort : (ring0 0xA1 6 [7]).nextDesc 0 0xA1 = some (mkD 0xA1 6 [7]) ∧ field (mkD 0xA1 6 [7]).w0 21 16 = 6 ∧ isD2h 6 = false ∧
    (((ring0 0xA1 6 [7]).fetchRing 6 65536 []).ring 6).descs.find? (fun y => y.w6 == 7) = some (mkD 0x70 0 []) ∧
    (mkD 0x70 0 []).phase ≠ .committed ∧ (mkD 0x70 0 []).isDone = false ∧
    (let x := { mkD 0x70 0 [] with phase := .committed }
     (((post (post State.reset 6 x) 0 (mkD 0xA1 6 [7])).fetchRing 6 65536 []).ring 6).descs.find? (fun y => y.w6 == 7) = some x) ∧
    (((ring0 0xA1 6 [8]).fetchRing 6 65536 []).ring 6).descs.find? (fun y => y.w6 == 8) = none := by decide +kernel
theorem test_ring_setup : ∀ n ∈ [4, 16], let d := mkD (0xA2 + 256) 8 [n + 256 * 3 + 65536 * 9, 0x200, 1]
    let s := ring0 (0xA2 + 256) 8 [n + 256 * 3 + 65536 * 9, 0x200, 1]
    s.nextDesc 0 0xA2 = some d ∧ field d.w0 31 22 = 0 ∧ field d.w0 15 9 = 0 ∧ field d.w1 31 16 ≠ s.ringGen 8 ∧ 4 ≤ field d.w1 4 0 ∧
    field d.w1 4 0 ≤ 16 ∧ (s.ring 8).state.idle = true ∧ s.auditFill + 4 ≤ 4096 := by decide +kernel
theorem test_ring_stop : let s := ringAs (ring0 0xA3 8 []) 8 { Ring.empty with state := .running }
    s.nextDesc 0 0xA3 = some (mkD 0xA3 8 []) ∧ (s.ring 8).state = .running ∧ (s.ring 8).descs = [] ∧ s.host.lateAborts = [] ∧ s.pwr.standby = none := by
  decide +kernel
theorem test_ring_rests : ∀ e ∈ [0, 2], ∀ c ∈ [none, some 0], let s := ringAs (regs State.reset [(0x10000, 1)]) 6 { Ring.empty with state := .stopping, errCause := e, stopCmd := c }
    (s.ring 6).state = .stopping ∧ s.allWritten 6 = true ∧ s.flag 0x10000 0 = true ∧ (s.ring 6).errCause = e ∧ (s.ring 6).stopCmd = c := by decide +kernel
theorem test_run : State.reset.auditRoom 1 = true ∧ State.reset.flag 0x10000 0 = false ∧
    (let s := ringAs (regs State.reset [(0x10000, 1)]) 6 { Ring.empty with state := .running }
     s.auditRoom 1 = true ∧ s.flag 0x10000 0 = true ∧ isD2h 6 = false ∧ (s.ring 6).state = .running ∧ (s.ring 6).descs = [] ∧
     (∀ q < 64, q ≠ 6 → isD2h q = false → (s.ring q).state ≠ .running) ∧ s.host.lateAborts = [] ∧ s.pwr.standby = none) := by decide +kernel
theorem test_enable : (State.reset.ring 63).state.idle = true ∧ 3 ≤ State.reset.mgt.modState ∧ (two.ring 6).state.idle = false := by decide +kernel

/-! ### Doorbells and waiting writes -/

def polled : State := up (regs State.reset [(0x10000, 1)])
theorem test_poll : polled.flag 0x10000 0 = true ∧ polled.linkOk = true ∧ polled.rings = [] ∧ polled.host.hostReset = none ∧
    polled.host.lateAborts = [] ∧ polled.pwr.standby = none := by decide +kernel
/-- A doorbell at the end of the ring's range, and one of another generation. -/
theorem test_doorbell : let s := ringAs State.reset 6 { Ring.empty with state := .running, fetched := 3, cons := 3 }
    (s.ring 6).state = .running ∧ (16 + 3) / 2 ^ 50 = 0 ∧ ((16 + 3) / 2 ^ 32) % 2 ^ 16 = s.ringGen 6 ∧ idxSub (s.ring 6).fetched (s.ring 6).cons ≤ idxSub 19 (s.ring 6).cons ∧
    idxSub 19 (s.ring 6).cons ≤ s.ringSize 6 ∧ (2 ^ 32 / 2 ^ 32) % 2 ^ 16 ≠ s.ringGen 6 := by decide +kernel
def words (op cks : Nat) : List Word := [BitVec.ofNat 32 op, 0, 0, 0, 0, 0, 0, BitVec.ofNat 32 cks]
/-- Entries of ring 6 whose seal fails, and whose seal holds with an opcode it takes and one it does not. -/
theorem test_entry_seals : entrySeal 6 0 (mkDesc 0 (words 0x70 0)).body ≠ ((words 0x70 0).getD 7 0).toNat ∧
    (∀ op ∈ [0x70, 0x71], let cks := entrySeal 6 0 (mkDesc 0 (words op 0)).body
      entrySeal 6 0 (mkDesc 0 (words op cks)).body = ((words op cks).getD 7 0).toNat) ∧
    ringAccepts 6 0x70 = true ∧ ringAccepts 6 0x71 = false := by decide +kernel
theorem test_drain_full : State.reset.d2hFull 1 = true ∧ (oneTo1 1).d2hFull 1 = false := by decide +kernel
def drainable : State :=
  ringAs (up (regs State.reset [(regRing 2 + 8, 4)])) 2
    { Ring.empty with state := .running, waiting := [{ code := 1, flags := 0, bits := 0, w1 := 0, w2 := 0, w3 := 0, time := 0, payload := [] }] }
theorem test_drain_other : isD2h 2 = true ∧ drainable.d2hFull 2 = false ∧ (drainable.ring 2).waiting.length = 1 := by decide +kernel
def holding (h : Nat) : State :=
  { up (regs State.reset [(0x20000, 2 ^ 9)]) with host := { (up State.reset).host with holdUntil := [(9, h)], held := BitVec.ofNat 64 512, msixEnable := true, vecMask := 0 } }
theorem test_holdoff : Cells.get (fun _ => 0) (holding 5).host.holdUntil 9 = 5 ∧ 5 ≤ ((holding 5).elapse 10).now ∧ (holding 5).host.held.getLsbD 9 = true ∧
    (holding 5).host.msixEnable = true ∧ (holding 5).srcEnabled 9 = true ∧ (holding 5).linkOk = true ∧ (holding 5).host.vecMask.getLsbD 9 = false := by decide +kernel
theorem test_msix_table : (up State.reset).linkOk = true ∧ (up State.reset).host.msixOf 63 = .msix 63 0 0 ∧
    (∀ k : Fin 3, bar2 + 16 * 63 + 4 * k.val < 0x404000) ∧ msixEntry (0, 0) 1 7 = (0x700000000, 0) ∧ msixEntry (5, 0) 2 7 = (5, 7) := by decide +kernel
theorem test_link_restored : State.reset.host.dueMsi = 0 ∧ State.reset.wick.trace = [] ∧ State.reset.host.wait1 = [] ∧ State.reset.rings = [] ∧ State.reset.sta.banks = [] ∧ State.reset.host.lateAborts = [] ∧
    State.reset.pwr.standby = none := by decide +kernel

/-! ### DRAM, spare banks and queues -/

def chanAs (c : DramChan) (m : Nat) : State := { State.reset with dram := { chans := [(3, c)], hot := 0 }, mgt := { Mgt.empty with modState := m } }
/-- A channel with 7 refreshes owed, one with 7 taken ahead, and one that owes 8. -/
theorem test_refresh : let c := { DramChan.start with owed := 7 }; let a := { DramChan.start with ahead := 7 }; let f := { DramChan.start with owed := 8 }
    (chanAs c 3).chan 3 = c ∧ c.selfRefresh = false ∧ c.ahead = 0 ∧ c.owed < 8 ∧ (chanAs a 3).chan 3 = a ∧ a.owed = 0 ∧ 0 < a.ahead ∧ a.ahead < 8 ∧
    (chanAs f 3).chan 3 = f ∧ f.owed = 8 ∧ (chanAs c 5).mgt.modState = 5 ∧ (regs (chanAs c 3) [(0x40000, 1)]).fld 0x40000 15 0 ≠ 0 ∧
    8 * c.lastReq + 15 * (regs (chanAs c 3) [(0x40000, 1)]).fld 0x40000 15 0 ≤ 8 * ((chanAs c 3).elapse 2).now := by decide +kernel
theorem test_refresh_bounds : ∀ k < 4, ((chanAs { DramChan.start with owed := 8, ahead := 8 } 3).chan k).owed ≤ 8 ∧
    ((chanAs { DramChan.start with owed := 8, ahead := 8 } 3).chan k).ahead ≤ 8 := by decide +kernel
theorem test_lock : State.reset.flag 0x30008 31 = false ∧ (regs State.reset [(0x30008, 2 ^ 31)]).flag 0x30008 31 = true := by decide +kernel
theorem test_rate_check : (regs State.reset [(0x130008, 1051)]).caseTemp = 1051 ∧ (regs State.reset [(0x130008, 1050)]).caseTemp = 1050 := by decide +kernel

def tileAs (x : Tile) (render : Bool) : State := { running render false with tiles := Cells.put tileDflt [] 0 x }
theorem test_rotation : ∀ c ∈ [none, some 0], let x := { Tile.idle0 with phase := 1, cmd := c }
    (tileAs x false).tile 0 = x ∧ (tileAs x false).auditRoom 1 = true ∧ (tileAs x false).spare 0 < 17 ∧ (tileAs x false).spare 0 ≠ 31 := by decide +kernel
theorem test_copy_done : let x := { Tile.idle0 with phase := 2, cmd := some 0, victim := 3 }; let y := { Tile.idle0 with phase := 2, victim := 15 }
    (tileAs x true).clusterLive 0 = true ∧ x.cmd.isSome = true ∧ (tileAs y false).clusterLive 0 = false ∧ (tileAs y false).tile 0 = y ∧ y.next = none ∧ y.victim < 17 ∧
    (tileAs y false).auditRoom 1 = true ∧ (tileAs y false).tileMap 0 15 = 15 ∧ ∀ k < 15, (tileAs y false).tileMap 0 k ≠ 15 := by decide +kernel
theorem test_bank_retire : let s := { State.reset with parWords := [(0, 0)] }
    s.tileMap 0 0 = 0 ∧ s.spare 0 ≠ 31 ∧ (s.tile 0).phase = 0 ∧ (s.tile 0).cmd = none ∧ s.failingWords 0 0 = 1 := by decide +kernel
theorem test_scrub : ∀ m ∈ [0, 15, 0x40, 0x41], (m < 16 ∨ m = 0x40 ∨ m = 0x41) ∧ (regs State.reset [(sramBlock m + 8, 1)]).fld (sramBlock m + 8) 15 0 ≠ 0 := by
  decide +kernel
/-- ROTATE of cluster 15, and RETIRE_BANK of bank 0 and of the spare: while no plane runs, while a plane runs, and while a rotation copies. -/
def bankCmd (act arg : Nat) : State := post State.reset 0 (mkD 0x92 (0xDF + 256 * act) [arg])
theorem test_bank_command_live : let s := post (running false true) 0 (mkD 0x92 (0xDF + 1024) [16]); let x := { Tile.idle0 with phase := 2 }
    let r := { bankCmd 4 0 with tiles := Cells.put tileDflt [] 15 x }
    s.ctlCheck (mkD 0x92 (0xDF + 1024) [16]) = none ∧ s.spare 15 = 16 ∧ s.clusterLive 15 = true ∧ (s.tile 15).phase < 2 ∧ (s.tile 15).cmd = none ∧
    r.ctlCheck (mkD 0x92 (0xDF + 1024) [0]) = none ∧ r.tile 15 = x := by decide +kernel
theorem test_bank_commands : ∀ p ∈ [(5, 0), (4, 0), (4, 16)], (bankCmd p.1 p.2).nextDesc 0 0x92 = some (mkD 0x92 (0xDF + 256 * p.1) [p.2]) ∧
    (bankCmd p.1 p.2).ctlCheck (mkD 0x92 (0xDF + 256 * p.1) [p.2]) = none ∧ (bankCmd p.1 p.2).auditRoom 1 = true ∧ (bankCmd p.1 p.2).spare 15 = 16 ∧
    ((bankCmd p.1 p.2).tile 15).phase < 2 ∧ ((bankCmd p.1 p.2).tile 15).cmd = none ∧ (bankCmd p.1 p.2).clusterLive 15 = false := by
  decide +kernel

def queueAs (q : EQueue) : State := { State.reset with queues := Cells.put qDflt [] 1024 q }
def qw : QWord := { x := 5, last := true }
theorem test_queue_shape : queueShape 4 0 = some { base := 0x100200, bank := 4096, item := 516 } ∧ queueShape 4 3 ≠ none ∧ queueShape 1 31 ≠ none := by decide
theorem test_queue_word : (queueAs EQueue.empty).queue 4 0 = EQueue.empty ∧ EQueue.empty.skip = false ∧ EQueue.empty.opened = false ∧
    EQueue.empty.canSwap = false ∧ EQueue.empty.stray = false ∧ EQueue.empty.fill.length < 4096 := by decide +kernel
theorem test_queue_full : let q := { EQueue.empty with fill := List.replicate 4096 qw, opened := true }
    4096 ≤ q.fill.length ∧ q.opened = true ∧ q.skip = false := by decide +kernel
theorem test_queue_swap : let q := { EQueue.empty with fill := [qw], cm := 1 }
    ((queueAs q).queue 4 0) = q ∧ q.opened = false ∧ q.drain = [] ∧ 0 < q.cm := by decide +kernel
theorem test_queue_read : let q := { EQueue.empty with drain := [qw] }; let f := { EQueue.empty with flushing := true, opened := false }
    ((queueAs q).queue 4 0).drain = [qw] ∧ q.flushing = false ∧ ((queueAs f).queue 4 0).flushing = true ∧
    (regs State.reset [(0x100204, 2 ^ 30)]).flag 0x100204 30 = true ∧ State.reset.flag 0x100204 30 = false := by decide +kernel
theorem test_queue_items : State.reset.queue 4 0 = EQueue.empty ∧ [1, 2, 3] ≠ [] ∧ [1, 2, 3].length ≤ 4096 := by decide +kernel

/-! ### Planes and control actions -/

def planeCmd (s : State) (op mask : Nat) : State := post s 0 (mkD op mask [])
theorem test_split : State.reset.mgt.modState = 3 ∧ field (16 : Word) 4 0 = 16 ∧ State.reset.auditRoom 1 = true ∧ field (17 : Word) 4 0 = 17 ∧
    (running true false).mgt.modState ≠ 3 := by decide +kernel
theorem test_plane_start : let s := planeCmd State.reset 0x90 3; let d := mkD 0x90 3 []
    s.nextDesc 0 0x90 = some d ∧ field d.w0 31 18 = 0 ∧ d.flags = 0 ∧ field d.w0 17 16 = 3 ∧ d.time ≤ s.now + 3600000000000 ∧ s.auditRoom 1 = true ∧
    (∀ p ∈ planeList 3, (s.planeSt p).run = false ∧ (s.planeSt p).start = none) ∧ s.mnt.st ≠ 7 := by decide +kernel
theorem test_plane_start_check : ((planeCmd State.reset 0x90 2).noteNeed 2).startCheck 2 = none := by decide +kernel
theorem test_plane_stop : let s := planeCmd (running true true) 0x91 3; let d := mkD 0x91 3 []
    s.nextDesc 0 0x91 = some d ∧ (∀ p ∈ planeList (field d.w0 17 16), (s.planeSt p).run = true ∧ (s.planeSt p).stop = none ∧ (s.planeSt p).rampEnd = none) := by
  decide +kernel
theorem test_plane_refused : let s := planeCmd (running true false) 0x90 1; let r := planeCmd (running true false) 0x91 2
    s.nextDesc 0 0x90 = some (mkD 0x90 1 []) ∧ (∃ p ∈ planeList 1, (s.planeSt p).run = true) ∧ r.nextDesc 0 0x91 = some (mkD 0x91 2 []) ∧
    (∃ p ∈ planeList 2, (r.planeSt p).run = false) := by decide +kernel
theorem test_plane_future : let d := mkD 0x91 1 [0, 0, 0, 0xFFFFFFFF, 1000]
    (post (running true false) 0 d).nextDesc 0 0x91 = some d ∧ (post (running true false) 0 d).now + 3600000000000 < d.time := by decide +kernel
def stopping : State := { running true false with mgt := { (running true false).mgt with render := { PlaneSt.empty with run := true, rampEnd := some (0, 0) } } }
theorem test_planes_rest : (stopping.planeSt 1).rampEnd = some (0, 0) ∧ 0 ≤ stopping.mgt.tick.count ∧ (stopping.planeSt 2).run = false ∧
    (stopping.planeSt 2).rampEnd = none ∧ stopping.pwr.standby = none := by decide +kernel
/-- A control action on core 0 while its plane runs, and while none runs. -/
def ctlCmd (act : Nat) (render : Bool) : State := post (running render false) 0 (mkD 0x92 (256 * act) [])
theorem test_control_action : ∀ act ∈ [1, 2, 3], ∀ live ∈ [true, false], let d := mkD 0x92 (256 * act) []
    (ctlCmd act live).nextDesc 0 0x92 = some d ∧ field d.w0 31 24 = act ∧ (ctlCmd act live).ctlCheck d = none ∧ (ctlCmd act live).auditRoom 1 = true ∧
    (ctlCmd act live).blockLive 0 = live := by decide +kernel
theorem test_restore_out : let s := { ctlCmd 2 false with mgt := { (ctlCmd 2 false).mgt with out := [(0, 1)] } }
    (∃ x ∈ unitsOf 0, s.isOut x = true) ∧ (∀ x ∈ unitsOf 0, (ctlCmd 2 false).isOut x = false) := by decide +kernel
def waitingAct (frames : Nat) : CtlAct :=
  { target := 0, action := 1, arg := 0, req := { Req.none0 with accFrame := frames }, moves := 0, origin := 0, test := 0, reserved := true }
def withAct (frames : Nat) : State :=
  { running true false with mgt := { (running true false).mgt with
      ctl := [waitingAct frames], tick := { count := 2, last := 0, prev := 0, captured := 0, past := [], stepped := false } } }
theorem test_action_due : ∀ f ∈ [0, 1], (withAct f).mgt.ctl.find? (fun x => x.target == 0) = some (waitingAct f) ∧ (withAct f).blockLive 0 = true ∧
    (withAct f).reqDue (waitingAct f).req = decide (f = 0) ∧ (withAct f).inService 0 = false := by decide +kernel
def metaSrc : ModeWrite := { off := 0x80000, v := 1, origin := 0, originId := 0, req := Req.none0 }
theorem test_mode_write : ∀ r ∈ [true, false], let s := { running r false with mgt := { (running r false).mgt with modeWrites := [metaSrc] } }
    s.mgt.modeWrites.find? (fun x => x.off == 0x80000) = some metaSrc ∧ s.mgt.render.run = r ∧ s.reqDue metaSrc.req = false := by decide +kernel
theorem test_ticks : ({ State.reset with mgt := { Mgt.empty with modState := 2 } }).mgt.modState ≤ 2 ∧ 2 < State.reset.mgt.modState ∧
    (running false true).voiceDue = true ∧ State.reset.voiceDue = false := by decide +kernel

/-! ### Metadata, room filters, parameter sets and swaps -/

/-- A batch of one record and one of 1,024, from the host while any source may feed, and while only the head may. -/
def batchOf (len addr : Nat) : Desc := mkD 2 0 [len, addr]
theorem test_metadata : ∀ src ∈ [0, 1], ∀ op ∈ [mkD 1 1023 [1, 2, 3], batchOf 32 0x20, batchOf 32768 0x40], let s := regs (post State.reset 8 op) [(0x80000, src)]
    s.nextDesc 8 op.opcode = some op ∧ s.wrongSource = decide (src = 1) ∧ field op.w0 31 26 = 0 ∧
    (op.opcode = 2 → op.w1.toNat % 32 = 0 ∧ 32 ≤ op.w1.toNat ∧ op.w1.toNat ≤ 32768 ∧ op.addr % 32 = 0) := by decide +kernel
def runAt (ts : List Nat) : ObjRun := { ObjRun.cold0 with states := ts.map (fun t => { ObjState.reset with time := t }) }
/-- No state, one, and four before, around and after the block; a record now, late, at a state's own time, and with no room left. -/
theorem test_trajectory : (∀ l ∈ [[], [5], [5, 50, 500, 5000], [200, 300, 400, 500]],
    (runAt l).states.Pairwise (fun a b => a.time < b.time) ∧ (runAt l).states.length ≤ 4) ∧
    ([0, 99, 100, 500].map (fun t => (applyMeta 100 200 { posRecord (mkD 1 0 []) with st := { ObjState.reset with time := t } } (runAt [5, 50, 500, 5000])).1))
      = [stOk, stOk, stOk, stOk] ∧
    (applyMeta 100 200 { posRecord (mkD 1 0 []) with st := { ObjState.reset with time := 600 } } (runAt [200, 300, 400, 500])).1 = rndTrajFull := by
  decide +kernel
/-- An image of one tap; the first output and the last. -/
def fltBytes : List Byte := leBytes 4 1 ++ leBytes 4 0 ++ leBytes 4 (crc32c (leBytes 4 0x8000000)) ++ leBytes 20 0 ++ leBytes 4 0x8000000
def fltCmd (op out : Nat) (x : ConvOut) : State :=
  { post State.reset 14 (mkD op out (if op = 0x10 then [36, 0x20] else [])) with
    cnv := { State.reset.cnv with outs := Cells.put (fun _ => ConvOut.reset) [] out x } }
theorem test_filter_loads : ∀ op ∈ [0x10, 0x11, 0x12], ∀ out ∈ [0, 511], ∀ p ∈ [false, true],
    let d := mkD op out (if op = 0x10 then [36, 0x20] else []); let s := fltCmd op out { ConvOut.reset with pending := p }
    s.nextDesc 14 op = some d ∧ fltOut d = out ∧ field d.w0 31 25 = 0 ∧ d.flags = 0 ∧ fltOut d < s.maxOut ∧ (s.convOut out).busy = p ∧
    s.cnv.loads.any (fun q => q.ring == 14) = false ∧ (op = 0x10 → d.addr % 32 = 0 ∧ 32 ≤ d.w1.toNat ∧ d.w1.toNat % 4 = 0) ∧
    (op ≠ 0x10 → d.w1 = 0) := by decide +kernel
theorem test_filter_image : parseFilter (fltCmd 0x10 0 ConvOut.reset).maxTaps 36 fltBytes = .inr ({ taps := [0x8000000], prio := 0 }, 0) := by
  decide +kernel
def fltQueued (k : Nat) : State :=
  { State.reset with cnv := { State.reset.cnv with loads := [{ ring := 14, index := 0, kind := k, out := 0, filter := .identity }] } }
theorem test_filter_load_done : ∀ k ∈ [0, 1, 2], (fltQueued k).cnv.loads.find? (fun q => q.ring == 14) =
      some { ring := 14, index := 0, kind := k, out := 0, filter := .identity } ∧ ((fltQueued k).convOut 0).busy = false ∧
    (∀ q ∈ (fltQueued k).cnv.loads.erase { ring := 14, index := 0, kind := k, out := 0, filter := .identity }, q.ring ≠ 14) := by decide +kernel
theorem test_crossfade_end : ∀ n ∈ [0, 4095, 4096], ((fltCmd 0x11 0 { ConvOut.reset with xfade := some n }).convOut 0).xfade = some n := by decide +kernel
def shedding : State := regs { running true false with cnv := { State.reset.cnv with shedOrder := [(0, 2), (1, 2)], cleanFrames := 1 } } [(0x90004, 0)]
/-- Output 1's shed segment C has a zeroed spectrum in its FDL; output 0's has none. -/
def zeroed : State := { shedding with cnv := { shedding.cnv with
  outs := Cells.put (fun _ => ConvOut.reset) [] 1 { ConvOut.reset with segs := [.cold, .cold, { ConvSeg.cold with fdl := [none] }] } } }
theorem test_restore_zeroed : (((zeroed.convOut 1).seg 2).fdl.take (segParts zeroed.rateClass 2)).any (·.isNone) = true ∧
    (((zeroed.convOut 0).seg 2).fdl.take (segParts zeroed.rateClass 2)).any (·.isNone) = false ∧ zeroed.restoreFrames ≤ zeroed.cnv.cleanFrames ∧
    zeroed.cnv.shedOrder ≠ [] ∧ zeroed.mgt.render.run = true := by decide +kernel
theorem test_restore : shedding.restoreFrames ≤ shedding.cnv.cleanFrames ∧ shedding.cnv.shedOrder ≠ [] ∧ shedding.mgt.render.run = true := by
  decide +kernel
theorem test_crossblock : ([3, -7] : List Int)[1]? = some (-7) ∧ ([4, 9] : List Int)[1]? = some 9 := by decide

def setSwap (mask : Nat) (act : Option (Nat × Nat × Bool)) : Swap :=
  { ring := 13, index := 0, mask := mask, time := 0, accFrame := 0, outs := [], act := act, fed := false, crcs := (0, 0) }
def mixAs (s : State) (swaps : List Swap) (jobs : List PsetJob) : State := { s with mix := { s.mix with swaps := swaps, jobs := jobs } }
def setBytes : List Byte := leBytes 2 0x42 ++ leBytes 6 0
def setCmd (op dom fl : Nat) (busy : Bool) : State :=
  mixAs (post State.reset 12 (mkD (op + 256 * fl) dom (if op = 0x20 then [8, 0x20] else []))) (if busy then [setSwap (2 ^ dom) none] else []) []
theorem test_parameter_sets : ∀ op ∈ [0x20, 0x21], ∀ dom ∈ [1, 8], ∀ fl ∈ [0, 0x21 - op], ∀ busy ∈ [false, true],
    let d := mkD (op + 256 * fl) dom (if op = 0x20 then [8, 0x20] else [])
    (setCmd op dom fl busy).nextDesc 12 op = some d ∧ field d.w0 31 24 = 0 ∧ field d.w0 23 16 = dom ∧ domainOk dom = true ∧ wrongRing 12 dom = false ∧
    d.flags = fl ∧ (setCmd op dom fl busy).domainBusy dom = busy ∧
    (if op = 0x20 then d.w1.toNat % 8 = 0 ∧ 8 ≤ d.w1.toNat ∧ d.w1.toNat ≤ 1048576 ∧ d.addr % 32 = 0 else d.w1 = 0) := by decide +kernel
theorem test_set_payload : loadPayload (State.reset.loadCtx State.reset.planeTags) 6 (setBytes.take 8) State.reset.idleSets = .inr State.reset.idleSets := by
  decide +kernel
def setJob : PsetJob := { ring := 12, index := 0, domain := 6, copyLive := false, payload := some setBytes }
theorem test_set_job : (mixAs State.reset [] [setJob]).mix.jobs.find? (fun q => q.ring == 12) = some setJob ∧ setJob.payload = some setBytes ∧
    (mixAs State.reset [] [setJob]).domainBusy 6 = false := by decide +kernel
/-- A SWAP of each domain alone and of all, alone on its ring and behind another. -/
theorem test_swap : ∀ mask ∈ [2, 8, 256, 510], let d := mkD 0x22 mask []
    (post State.reset 13 d).nextDesc 13 0x22 = some d ∧ ((post State.reset 13 d).ring 13).descs.head? = some d ∧ d.flags = 0 ∧
    swapCheck State.reset.planeTags (post State.reset 13 d) d = none ∧ (post State.reset 13 d).auditRoom 1 = true := by decide +kernel
theorem test_swap_waits : let d := mkD 0x22 2 []
    let s := ringAs State.reset 13 { Ring.empty with state := .running, descs := [{ mkD 0x20 6 [8] with phase := .accepted }, d] }
    s.nextDesc 13 0x22 = some d ∧ (s.ring 13).descs.head? ≠ some d := by decide +kernel
/-- Three swaps in block 1: one whose frame has just reached every egress, one accepted later with an earlier sample, one whose frame has not. -/
def swapped (late : Bool) : State :=
  { mixAs State.reset [setSwap 8 (some (34, 7, late)), setSwap 510 (some (33, 5, late)), setSwap 2 (some (35, 9, late))] [] with
    mgt := { Mgt.empty with modState := 3, tick := { count := 4, last := 0, prev := 0, captured := 0, past := [], stepped := false } } }
theorem test_swap_acts : (∀ late ∈ [false, true], (swapped late).swapDue = some (setSwap 510 (some (33, 5, late)))) ∧ State.reset.swapDue = none ∧
    egressTick 34 = 4 ∧ egressTick 35 = 5 := by decide +kernel

def gained (g : GainPt) : State := { State.reset with mix := { State.reset.mix with
  masters := [(0, some g)], fading := [{ bus := 0, slot := 0, src := 0, ramp := 1, gp := g }] } }
/-- A falling route at zero, and a point that is not there. -/
def falling : State := { State.reset with mix := { State.reset.mix with
  dests := Cells.put destDflt [] 5 { (destDflt 5) with old := [{ src := 0, gp := .hold 0, zc := 7, plane := 1, ramp := 1 }] } } }
theorem test_falling_route : falling.gainPoint (.destOld 5 0) = some (.hold 0, 7) ∧ falling.gainPoint (.destOld 5 1) = none := by decide +kernel
/-- A gain point whose wait is not yet over, is just over, and one at rest above and at zero. -/
theorem test_gain_points : (∀ p ∈ [GainRef.master 0, .fading 0], (gained (.hold 0)).gainPoint p = some (.hold 0, 20)) ∧
    (gained (.hold 1)).gainPoint (.master 0) = some (.hold 1, 20) ∧
    (∀ n ∈ [959, 960], (gained { GainPt.hold 0 with pending := true, waited := n }).gainPoint (.master 0) =
      some ({ GainPt.hold 0 with pending := true, waited := n }, 20) ∧ (20 * State.reset.renderRate ≤ n * 1000 ↔ n = 960)) := by decide +kernel

/-! ### Voice channels -/

/-- A record for G.711 at 8 kHz with every field at its least value; `port` is LOCAL_PORT. -/
def callRec (port : Nat) : List Byte :=
  leBytes 4 0 ++ leBytes 4 6000 ++ leBytes 48 0 ++ leBytes 2 port ++ leBytes 2 1 ++ leBytes 4 0 ++ leBytes 1 0 ++ leBytes 1 1 ++ leBytes 2 2 ++
    leBytes 2 2 ++ leBytes 2 2 ++ leBytes 1 1 ++ leBytes 1 0 ++ leBytes 2 0 ++ leBytes 2 0xFC18 ++ leBytes 50 0
theorem test_call_record : (callRec 1).take 128 = callRec 1 ∧ voxRecOk (callRec 1) = true ∧ voxRateOk (callRec 1) = true ∧
    voxSameFixed (callRec 1) (callRec 1) = true := by decide +kernel
def calls (s : State) (l : List (Nat × VoxChan)) : State :=
  { s with vox := { s.vox with chans := l.foldl (fun m p => Cells.put voxDflt m p.1 p.2) [] } }
def chanIn (st : Nat) : VoxChan := { VoxChan.idle0 with st := st, ring := 16, rec_ := callRec 1 }
def callLen (op : Nat) : Nat := if op ≤ 0x31 then 128 else if op = 0x34 then 64 else 0
def callD (op fl v : Nat) : Desc := mkD (op + 256 * fl) v [callLen op, 0x20]
def callCmd (op fl v st : Nat) : State :=
  { calls (post (running false true) 16 (callD op fl v)) (if st = 0 then [] else [(v, chanIn st)]) with regs := [(0x80, 12)] }
/-- Every call command on the first and the last channel, in each state that lets it, with and without its flag. -/
theorem test_calls : ∀ p ∈ [(0x30, 0, 0), (0x31, 0, 1), (0x31, 2, 2), (0x32, 0, 1), (0x32, 0, 2), (0x32, 0, 3), (0x33, 0, 3), (0x33, 1, 2), (0x34, 0, 1)],
    ∀ v ∈ [0, 511], let s := callCmd p.1 p.2.1 v p.2.2; let d := callD p.1 p.2.1 v
    s.nextDesc 16 p.1 = some d ∧ field d.w0 24 16 = v ∧ field d.w0 31 25 = 0 ∧ d.flags = p.2.1 ∧ s.mgt.voice.run = true ∧
    d.time ≤ s.now + 3600000000000 ∧ d.w1 = BitVec.ofNat 32 (callLen p.1) ∧ d.addr % 32 = 0 ∧ (s.voxChan v).st = p.2.2 ∧
    (p.2.2 ≠ 0 → (s.voxChan v).ring = 16 ∧ (s.voxChan v).rec_ = callRec 1) ∧ s.auditRoom 1 = true ∧ s.fld 0x80 4 0 < 16 := by decide +kernel
theorem test_call_room : (callCmd 0x30 0 0 0).voxOpenList = [] ∧ (callCmd 0x30 0 0 0).voxAdmitted + voxCost (callRec 1) ≤ (callCmd 0x30 0 0 0).voxCap := by
  decide +kernel
theorem test_call_refused : (∀ st ∈ [1, 2, 3], ((callCmd 0x30 0 0 st).voxChan 0).st ≠ 0) ∧
    (∀ op ∈ [0x32, 0x33, 0x34], ((callCmd op 0 0 0).voxChan 0).st = 0 ∧ (callCmd op 0 0 0).nextDesc 16 op = some (callD op 0 0)) ∧
    (∀ op ∈ [0x32, 0x33, 0x34], let s := calls (post (running false true) 17 (callD op 0 0)) [(0, chanIn 2)]
      s.nextDesc 17 op = some (callD op 0 0) ∧ (s.voxChan 0).st ≠ 0 ∧ (s.voxChan 0).ring ≠ 17) := by decide +kernel
/-- With every core of the Voice plane out of service there is no capacity. -/
theorem test_call_capacity : let s := callCmd 0x30 0 0 0
    let n := { s with mgt := { s.mgt with out := (List.range 128).map (fun t => (t, 1)) } }
    n.nextDesc 16 0x30 = some (callD 0x30 0 0) ∧ n.voxOpenList = [] ∧ n.fld 0x80 4 0 < 16 ∧ n.voxCap < n.voxAdmitted + voxCost (callRec 1) := by
  decide +kernel

def one (c : VoxChan) : State := calls (running false true) [(5, c)]
/-- A channel at the limit of each timer: reception, concealment, the hangover, the canceller, suppression, the codec task. -/
theorem test_rx_timeout : let s := regs (one (chanIn 2)) [(0xB0000, 1)]
    2 ≤ (s.voxChan 5).st ∧ (s.voxChan 5).closedAt = none ∧ s.fld 0xB0000 15 0 = 1 ∧ (s.voxChan 5).rxTimedOut = false ∧
    (s.voxChan 5).lastRx + 1000000 ≤ (s.elapse 125000000).now := by decide +kernel
theorem test_voice_limits : let a := { chanIn 2 with concealMs := 60 }; let b := { chanIn 2 with ecDisabled := true, quiet := 25 }
    let f := { chanIn 2 with forced := true, coldAt := 0 }
    ((one a).voxChan 5 = a ∧ a.st ≠ 0 ∧ 60 ≤ a.concealMs ∧ a.mute = 0) ∧ ((one b).voxChan 5 = b ∧ b.ecDisabled = true ∧ 25 ≤ b.quiet) ∧
    ((one f).voxChan 5 = f ∧ f.forced = true ∧ 2000000000 ≤ ((one f).elapse 250000000000).now) := by decide +kernel
theorem test_talk_off : ∀ det ∈ [0, 16], let c := { chanIn 2 with offAt := some 80, rec_ := callRec 1 |>.set 74 (BitVec.ofNat 8 det) }
    ((one c).voxChan 5).offAt = some 80 ∧ (recDet ((one c).voxChan 5).rec_).testBit 4 = decide (det = 16) ∧
    (one c).d2hFull (20 + recEvtRing c.rec_) = true ∧
    (up (ringAs (one c) 20 { Ring.empty with state := .running })).d2hFull 20 = false := by decide +kernel
def lateTask : VoxTask :=
  { k := 0, tickAt := 0, tk := 0, lead := 0, units := 0, held := [], pieces := [], sin := [], sout := [], missed := false }
theorem test_codec_task : let c := { chanIn 2 with task := some lateTask }
    ((one c).voxChan 5).task = some lateTask ∧ lateTask.missed = false ∧ 8000000 ≤ ((one c).elapse 1000000000).now ∧
    (regs (one c) [(0xB0000, 0)]).flag 0xB0000 16 = false := by
  decide +kernel
def atOnce : Req := Req.none0
theorem test_channel_idle : let c := { chanIn 3 with closedAt := some 0 }
    ((one c).voxChan 5).closedAt = some 0 ∧ c.st = 3 ∧ 0 + 11000000 ≤ ((one c).elapse 1375000000).now := by decide +kernel
def ticked (s : State) : State :=
  { s with mgt := { s.mgt with tick := { count := 2, last := 0, prev := 0, captured := 0, past := [], stepped := false } } }
theorem test_keys : let c := { chanIn 2 with keyReqs := [(atOnce, true)] }; let s := ticked (one c); let n := one c
    (s.voxChan 5).keyReqs = [(atOnce, true)] ∧ s.reqDue atOnce = true ∧ c.opsInds = [] ∧ n.reqDue atOnce = false := by decide +kernel
theorem test_indications : ∀ k ∈ [0, 1, 2, 3], let i : OpsInd := { kind := k, long := false, req := atOnce }
    let c := { chanIn 2 with opsInds := [i] }; let s := ticked (one c)
    (s.voxChan 5).opsInds = [i] ∧ (s.voxChan 5).keyReqs = [] ∧ s.reqDue i.req = true ∧ recKeyMode (s.voxChan 5).rec_ = 0 := by decide +kernel

/-! ### Power, reset and boot -/

/-- The power state of the module after reset, changed. -/
def pwrAs (s : State) (f : Pwr → Pwr) : State := { s with pwr := f s.pwr }
/-- The rails are off, held for a cause. -/
def railsDown (hold : Nat) : State := pwrAs (regs State.reset [(0x130000, 0)]) (fun p => { p with hold := hold })
theorem test_rails_start : ∀ h ∈ [4, 5, 9], (railsDown h).pg = false ∧ (railsDown h).pwr.hold = h := by decide +kernel
theorem test_vin_flag : State.reset.flag 0x130000 4 = false ∧ (regs State.reset [(0x130000, 0x13)]).flag 0x130000 4 = true := by decide +kernel
theorem test_snuff_ready : State.reset.pg = true ∧ State.reset.pwr.snuff = none ∧ State.reset.pwr.hold = 0 := by decide +kernel
theorem test_aux : State.reset.pwr.aux = true ∧ State.reset.flag 0x130000 5 = false ∧ State.reset.mgt.modState ≠ 0 := by decide +kernel
theorem test_heat : State.reset.flag 0x130000 3 = false ∧ (regs State.reset [(0x130000, 0xB)]).flag 0x130000 3 = true ∧
    State.reset.pwr.hotSince = none ∧ (railsDown 6).pg = false ∧ (railsDown 6).pwr.hold = 6 ∧ (regs State.reset [(0x130008, 1350)]).caseTemp = 1350 := by
  decide +kernel
theorem test_hot_long : 0 + msTicks 1000 ≤ (State.reset.elapse 1000000000).clock.ticks := by decide +kernel
theorem test_dog : State.reset.ready = true ∧ State.reset.pwr.warned = false ∧
    State.reset.pwr.serviced + msTicks 50 ≤ (State.reset.elapse 50000000).clock.ticks ∧
    State.reset.pwr.serviced + msTicks 100 ≤ (State.reset.elapse 100000000).clock.ticks ∧ State.reset.mnt.st ≠ 7 := by decide +kernel
/-- Snuffer at work, its record written or not; and a MOD_RESET accepted at 0 whose completion has gone out. -/
def snuffing (cause : Nat) (flushed : Bool) : State := pwrAs State.reset (fun p => { p with snuff := some (cause, 5), flushed := flushed, hold := 0 })
theorem test_snuffing : ∀ c ∈ [2, 3, 4, 5, 6, 7, 8, 9], ∀ f ∈ [false, true],
    (snuffing c f).pwr.snuff = some (c, 5) ∧ (snuffing c f).pwr.flushed = f := by decide +kernel
theorem test_mod_reset_due : ((pwrAs State.reset (fun p => { p with resetAt := some (0, 0) })).elapse 1000000).modResetDue = true := by decide +kernel
theorem test_mod_reset : (post State.reset 0 (mkD 0xE1 0 [])).nextDesc 0 0xE1 = some (mkD 0xE1 0 []) ∧ pwrFields (mkD 0xE1 0 []) = true ∧
    (post State.reset 0 (mkD 0xE1 0 [])).auditRoom 1 = true := by decide +kernel
/-- The module in BOOT with no image in its flash. -/
def booting (m : Nat) : State :=
  let s := pwrAs State.reset (fun p => { p with slotA := none, slotB := none })
  { s with mgt := { Mgt.empty with modState := m }, imgs := { s.imgs with boot := if m = 0 then none else some [] } }
theorem test_boot : ∀ m ∈ [0, 1, 2], (booting m).pg = true ∧ (booting m).pwr.hold = 0 ∧ (booting m).pwr.snuff = none ∧
    (booting m).pwr.resetLow = false ∧ (booting m).mgt.modState = m ∧ (booting m).pwr.slots = [] ∧ (m ≠ 0 → (booting m).imgs.boot = some []) ∧
    (booting m).firmwareOk [] = false := by decide +kernel
/-- An image in the flash passes where its signer is Meridian's root key, whose hash is open. -/
theorem test_boot_slot (b : List Byte) (he : envelopeOk b = true) (ht : leAt b 4 1 = 1) (hr : sha384 ((b.drop 16).take 97) = Config.rootHash)
    (hs : imageSigned b = true) (hp : leAt b 5 1 = 0) : let s := pwrAs (booting 0) (fun p => { p with slotB := some (0, b) })
    s.firmwareOk b = true ∧ s.pwr.slots.find? (fun x => (if x.1 = 0 then false else true) && s.firmwareOk x.2.2) = some (1, 0, b) := by
  intro s
  have h : s.firmwareOk b = true := by
    have o := test_image_firmware b s he ht hr hs (Nat.zero_le _) hp
    simp [State.firmwareOk, o, ht]
  have l : s.pwr.slots = [(1, 0, b)] := rfl
  exact ⟨h, by simp [l, h]⟩
theorem test_standby : let s := post State.reset 0 (mkD 0xE2 0 [])
    s.nextDesc 0 0xE2 = some (mkD 0xE2 0 []) ∧ s.anyRun = false ∧ s.pwr.standby = none ∧ (s.ring 0).descs = [mkD 0xE2 0 []] ∧
    s.host.lateAborts = [] := by decide +kernel
theorem test_standby_alone (r : Nat) (h : r ≠ 0) : ((post State.reset 0 (mkD 0xE2 0 [])).ring r).descs = [] := by
  have e : ((post State.reset 0 (mkD 0xE2 0 [])).ring r) = Ring.empty := by
    have k : (Cells.get (fun _ => Ring.empty) [(0, { Ring.empty with state := .running, descs := [mkD 0xE2 0 []], fetched := 1 })] r) = Ring.empty := by
      simp [Cells.get, Ne.symm h]
    exact k
  rw [e]; rfl
theorem test_standby_refused : let s := post (running true false) 0 (mkD 0xE2 0 [])
    s.nextDesc 0 0xE2 = some (mkD 0xE2 0 []) ∧ s.anyRun = true := by decide +kernel
theorem test_wake : ∀ m ∈ [3, 5], let s := post { State.reset with mgt := { Mgt.empty with modState := m } } 0 (mkD 0xE3 0 [])
    s.nextDesc 0 0xE3 = some (mkD 0xE3 0 []) ∧ pwrFields (mkD 0xE3 0 []) = true ∧ s.mgt.modState = m := by decide +kernel
/-- A ring 0 command that arrives in standby, its seal right. -/
def sealed0 : List Word :=
  let ws := (List.range 7).map (fun i => if i = 0 then (0xA1 : Word) else 0)
  ws ++ [BitVec.ofNat 32 (entrySeal 0 0 (mkDesc 0 ws).body)]
theorem test_standby_gate : entrySeal 0 0 (mkDesc 0 sealed0).body = (sealed0.getD 7 0).toNat ∧ ringAccepts 0 (mkDesc 0 sealed0).opcode = true ∧
    (mkDesc 0 sealed0).opcode ≠ 0 ∧ (mkDesc 0 sealed0).opcode ≠ 0xE3 := by decide +kernel
theorem test_bus : State.reset.pwr.aux = true ∧ (pwrAs State.reset (fun p => { p with alert := true })).pwr.alert = true ∧
    State.reset.pwr.alert = false := by decide +kernel

/-! ### Network MACs -/

/-- MAC `n` alone in a given state. -/
def macAs (s : State) (n : Nat) (m : Mac) : State := { s with macs := Cells.put macDflt [] n m }
def macUp : Mac := { Mac.reset with st := 2 }
theorem test_mac_lock : ∀ n ∈ [0, 3], let a := macAs State.reset n { Mac.reset with st := 1 }; let g := regs a [(regNet n 0, 6)]
    (a.mac n).st = 1 ∧ a.netGig n = false ∧ g.netGig n = true ∧ g.flag (regNet n 0) 2 = true := by decide +kernel
theorem test_mac_up : ∀ n ∈ [0, 3], let a := macAs State.reset n macUp
    (a.mac n).st = 2 ∧ a.netGig n = false ∧ a.pwr.standby = none ∧ ((macAs State.reset n { macUp with st := 3 }).mac n).st = 3 := by decide +kernel
theorem test_mac_control : ∀ n ∈ [0, 3], let on := regs State.reset [(regNet n 0, 1)]
    State.reset.flag (regNet n 0) 0 = false ∧ on.flag (regNet n 0) 0 = true ∧ bitOf (1 : Word) 1 = on.netGig n ∧ on.anyRun = false ∧
    on.mgt.modState ≠ 5 ∧ bitOf (2 : Word) 0 = false ∧ bitOf (3 : Word) 1 ≠ on.netGig n ∧ on.auditRoom 1 = true ∧
    (regs (running true false) [(regNet n 0, 1)]).anyRun = true := by decide +kernel
/-- A MAC at 1 Gb/s, up and idle, whose low-power idle is enabled after 1 µs. -/
def lpi : State := macAs (regs State.reset [(regNet 3 0, 7), (regNet 3 0x18, 0x10001)]) 3 macUp
theorem test_lpi : lpi.flag (regNet 3 0x18) 16 = true ∧ (lpi.mac 3).st = 2 ∧ lpi.netGig 3 = true ∧ (lpi.mac 3).lpiTx = false ∧
    (lpi.mac 3).line = none ∧ (lpi.elapse 1000).anyEligible 3 = false ∧
    (lpi.mac 3).idleSince + 1000 * max 1 (lpi.fld (regNet 3 0x18) 15 0) ≤ (lpi.elapse 1000).now ∧
    (lpi.elapse 1000).launchWithin 3 (2 * lpi.twNs 3) = false := by decide +kernel
theorem test_lpi_wake : let s := macAs State.reset 3 { macUp with lpiTx := true }
    (s.mac 3).lpiTx = true ∧ s.flag (regNet 3 0x18) 16 = false := by decide +kernel
theorem test_mdio : State.reset.flag 0xC0044 31 = false ∧ (∀ op ∈ [0, 1, 2, 3], ∀ c22 ∈ [0, 1],
    let s := regs State.reset [(0xC0044, 2 ^ 31 + c22 * 2 ^ 30 + op * 2 ^ 28)]
    s.flag 0xC0044 31 = true ∧ s.mdioEnd ≤ s.now ∧ s.fld 0xC0044 29 28 = op ∧ s.flag 0xC0044 30 = (c22 == 1)) := by decide +kernel

/-! ### Received frames -/

/-- A frame to the broadcast address with a type and a body, 60 bytes in all. -/
def frame (type : Nat) : List Byte := leBytes 6 (2 ^ 48 - 1) ++ leBytes 6 0 ++ beBytes 2 type ++ leBytes 46 1
/-- The MAC is up; broadcast passes its filter where `open_` says so. -/
def receiving (open_ : Nat) : State := macAs (regs State.reset [(regNet 3 8, 4 * open_)]) 3 macUp
theorem test_receive_closed : (State.reset.mac 0).st ≠ 2 := by decide +kernel
theorem test_receive_control : ((receiving 1).mac 3).st = 2 ∧ (receiving 1).lanesTaken = false ∧ (parseEth (frame 0x8808)).etherType = 0x8808 ∧
    (receiving 1).rxFaults 3 60 true false = [] := by decide +kernel
theorem test_receive_filtered : (receiving 0).filterMatch 3 (parseEth (frame 0x0800)).dst = none ∧ (parseEth (frame 0x0800)).etherType ≠ 0x8808 := by
  decide +kernel
theorem test_receive_bad : (receiving 1).filterMatch 3 (parseEth (frame 0x0800)).dst = some (0, 1) ∧
    (receiving 1).rxFaults 3 60 false true ≠ [] ∧ (receiving 1).rxFaults 3 59 true false ≠ [] ∧ (receiving 1).rxFaults 3 9213 true false ≠ [] ∧
    (receiving 1).flag (regNet 3 8) 0 = false := by decide +kernel
theorem test_receive_host : ∀ t ∈ [0x1234, 0x88F7], let s := (receiving 1).elapse 5; let p := parseEth (frame t)
    s.streamFor 3 p (parseUdp p) = none ∧ s.voxFor 3 p (parseUdp p) = none ∧ (ptpType p).isSome = (t == 0x88F7) ∧ s.servoOwned = false := by
  decide +kernel
theorem test_receive_servo : let s := regs (receiving 1) [(regTimCtrl, 0xE0000)]
    s.servoOwned = true ∧ s.fld regTimCtrl 19 18 = 3 ∧ (ptpType (parseEth (frame 0x88F7))).isSome = true := by decide +kernel
/-- A 60-byte frame heads the normal queue of MAC 3; one buffer is available, or none. -/
def held3 (buf : Bool) : State :=
  let s := macAs (up State.reset) 3 macUp
  let words := List.replicate 8 5 ++ [60, 9]
  let s := { s with queues := Cells.put qDflt [] (4 * 3 + 2) { EQueue.empty with drain := words.zipIdx.map (fun p => { x := p.1, last := p.2 == 9 }) } }
  ringAs s 39 { Ring.empty with state := .running, descs := if buf then [{ mkD 0x48 0 [256, 0x20] with phase := .accepted }] else [] }
theorem test_rx_buf : ∀ len ∈ [256, 16384], let d := mkD 0x48 0 [len, 0x20]; let s := post State.reset 39 d
    s.nextDesc 39 0x48 = some d ∧ field d.w0 31 8 = 0 ∧ d.w4 = 0 ∧ d.w5 = 0 ∧ d.w1.toNat % 64 = 0 ∧ 256 ≤ d.w1.toNat ∧ d.w1.toNat ≤ 16384 ∧
    d.addr % 32 = 0 := by decide +kernel
theorem test_rx_deliver : ((held3 true).queue 0 14).head = some (List.replicate 8 5 ++ [60, 9]) ∧
    bufferRun 60 ((held3 true).buffers 39) = some [{ mkD 0x48 0 [256, 0x20] with phase := .accepted }] ∧ (held3 true).linkOk = true ∧
    (List.replicate 8 5 ++ [60, 9]).getD 8 0 % 65536 = 60 := by decide +kernel
theorem test_rx_expiry : bufferRun 60 ((held3 false).buffers 39) = none ∧
    Cells.get (fun _ => 0) ((held3 false).mac 3).headAt 2 + min 100000000 ((held3 false).reg (regNet 3 0x10)).toNat ≤ ((held3 false).elapse 100000000).now := by
  decide +kernel

/-! ### Transmitted frames -/

def txD (tc : Nat) (time : Nat) : Desc := mkD 0x40 tc [60, 0x20, 0, time, 0]
/-- A transmit descriptor on the high ring of MAC 3. -/
def sending (st : Nat) (d : Desc) : State := post (macAs State.reset 3 { Mac.reset with st := st }) 36 d
theorem test_tx_frame : ∀ st ∈ [0, 2], ∀ time ∈ [0, 5000], let d := txD 7 time; let s := sending st d
    s.txNext 36 0x40 = some d ∧ field d.w0 31 19 = 0 ∧ field d.w0 15 11 = 0 ∧ 14 ≤ d.w1.toNat ∧ d.w1.toNat + 4 ≤ s.netMaxLen 3 ∧
    d.time = time ∧ d.time ≤ s.now + 10000000000 ∧ bitOf d.w0 10 = false ∧ (s.mac 3).jobs = [] ∧ (s.mac 3).st = st ∧
    (s.mac 3).launch.length < 64 ∧ s.itemFits 1 (8 * 3 + 7) 9 = true := by decide +kernel
/-- An SSO record: 20 bytes of payload in frames of 10, over IPv4 and UDP. -/
def ssoRec : List Byte :=
  leBytes 4 20 ++ leBytes 2 10 ++ [42, 0, 14] ++ leBytes 23 0 ++ leBytes 12 0 ++ beBytes 2 0x0800 ++ [0x45] ++ leBytes 8 0 ++ [17] ++ leBytes 18 0
theorem test_tx_sso : let d := mkD 0x41 7 [74, 0x20]; let s := sending 2 d
    s.txNext 36 0x41 = some d ∧ field d.w0 31 19 = 0 ∧ field d.w0 15 10 = 0 ∧ d.addr % 32 = 0 ∧ d.w1.toNat = 32 + ssoHdr ssoRec ∧
    (s.mac 3).st = 2 ∧ d.time ≤ s.now + 10000000000 ∧ ssoOk ssoRec (s.netMaxLen 3) d.time = true ∧ (s.mac 3).jobs = [] ∧ ssoFrames ssoRec = 2 := by
  decide +kernel
/-- A frame of the host (ring 36, index 0), or of a stream. -/
def frameMeta (src launch : Nat) : TxMeta :=
  { src := src, ring := 36, index := 0, sso := 0, tc := 7, len := 60, launch := launch, stamp := false, lateSend := false, skipped := false }
def launching (t : Nat) : State := macAs State.reset 3 { macUp with launch := [(frameMeta 0 t, leBytes 60 0)] }
theorem test_launch : ((launching 0).mac 3).launch = [(frameMeta 0 0, leBytes 60 0)] ∧ ((launching 0).mac 3).launched = false ∧
    (frameMeta 0 0).launch ≤ (launching 0).now ∧ (frameMeta 0 0).lateSend = false ∧ (frameMeta 0 0).skipped = false ∧
    (frameMeta 0 0).launch + (launching 0).lateNs 3 ≤ ((launching 0).elapse 1000000).now ∧ ((launching 0).mac 3).jobs = [] := by decide +kernel
theorem test_selection : let s := macAs State.reset 3 { macUp with launch := [(frameMeta 0 0, leBytes 60 0)], launched := true }
    (s.mac 3).line = none ∧ (s.mac 3).lpiTx = false ∧ (s.mac 3).wakeAt ≤ s.now ∧ s.pwr.standby = none ∧
    [7, 6, 5, 4, 3, 2, 1, 0].findSome? (fun tc => ([7, 6, 5, 4, 3, 2, 1, 0].foldl (fun (s : State) tc => s.dropNever 3 tc) s).eligible 3 tc) =
      some (.launch, frameMeta 0 0, leBytes 60 0) := by decide +kernel
theorem test_selection_none : [7, 6, 5, 4, 3, 2, 1, 0].findSome? (fun tc =>
    ([7, 6, 5, 4, 3, 2, 1, 0].foldl (fun (s : State) tc => s.dropNever 3 tc) (macAs State.reset 3 macUp)).eligible 3 tc) = none := by decide +kernel
def wire (src : Nat) : InFlight := { meta_ := frameMeta src 0, bytes := leBytes 60 0, start := 5, finish := 77 }
def job0 : TxJob :=
  { ring := 36, index := 0, tc := 7, launch := 0, stamp := false, lateSend := false, record := [], payload := leBytes 60 0, total := 1, built := 1
    ended := 0, sent := 0, flags := 0, status := 0, time := 0 }
def onWire (src : Nat) : State := macAs State.reset 3 { macUp with line := some (wire src), jobs := [job0] }
theorem test_transmitted : ∀ src ∈ [0, 1], ((onWire src).mac 3).line = some (wire src) ∧ (wire src).finish ≤ ((onWire src).elapse 77).now ∧
    (wire src).meta_.stamp = false ∧ (wire src).meta_.src = src ∧ ((onWire src).mac 3).jobs = [job0] := by decide +kernel

/-! ### Gate lists -/

/-- A gate list of two entries at work on MAC 3, with a change to come at `change`. -/
def gated (change : Option Nat) : State :=
  macAs (regs State.reset [(regNet 3 0x400, 1), (regNet 3 0x408, 5000), (regNet 3 0x410, 2000), (regNet 3 0x414, 2),
    (regNet 3 0x800, 0xFF0003E8), (regNet 3 0x804, 0x010003E8)]) 3
    { macUp with gates := { en := true, segs := [(255, 1000), (1, 1000)], pos := 1, until_ := 100, change := change } }
theorem test_gates : ((gated none).mac 3).gates.change = none ∧ ((gated (some 8)).mac 3).gates.change = some 8 ∧ (gated none).auditRoom 1 = true ∧
    ((gated none).elapse 3).now < 8 ∧ 8 ≤ ((gated none).elapse 8).now ∧ ((gated none).mac 3).gates.en = true ∧ ((gated none).mac 3).gates.segs ≠ [] ∧
    ((gated none).mac 3).gates.until_ ≤ ((gated none).elapse 100).now ∧ (gated none).adminSegs 3 = [(255, 1000), (1, 1000)] := by decide +kernel

/-! ### Time, streams and Mantle -/

/-- TIM_STEP is set, and the render plane runs where `run` says so. -/
def stepping (run : Bool) (lo hi : Nat) : State := regs (running run false) [(0xD001C, lo), (0xD0020, hi)]
theorem test_clock_owner : let s := regs State.reset [(0xD0000, 0x20000)]
    State.reset.servoOwned = false ∧ s.servoOwned = true ∧ (Origin.host ≠ Origin.firmware) := by decide +kernel
theorem test_clock_range : (0 : Word).toNat * 2 ^ 32 + State.reset.clock.heldFrac < 8546984920 ∧
    8632884264 < (3 : Word).toNat * 2 ^ 32 + State.reset.clock.heldFrac := by decide +kernel
theorem test_clock_step : (stepping true 5 0).auditRoom 2 = true ∧ 0 ≤ signed 64 ((stepping true 5 0).reg64 0xD001C) ∧
    signed 64 ((stepping false 0xFFFFFFFB 0xFFFFFFFF).reg64 0xD001C) < 0 ∧ (stepping false 0xFFFFFFFB 0xFFFFFFFF).anyRun = false ∧
    signed 64 ((stepping true 0xFFFFFFFB 0xFFFFFFFF).reg64 0xD001C) < 0 ∧ (stepping true 0xFFFFFFFB 0xFFFFFFFF).anyRun = true ∧
    (stepping true 0xFFFFFFFB 0xFFFFFFFF).auditRoom 2 = true ∧ bitOf (1 : Word) 0 = true ∧ bitOf (2 : Word) 0 = false := by decide +kernel
theorem test_clock_receipt : let s := regs State.reset [(0xD0000, 0x20000)]
    s.servoOwned = true ∧ s.tim.ptpLast + 3000000000 ≤ (s.elapse 1500000000).now := by decide +kernel

/-- A trigger of a series, and another with an earlier instant where one is given. -/
def trigAt (x : Trigger) (y : Option Trigger) : State :=
  { State.reset with tim := { State.reset.tim with triggers := (0, x) :: (match y with | some y => [(1, y)] | none => []), gpio := 1 } }
def series (next : Nat) (left : Option Nat) (period : Nat) : Trigger := { running := true, next := next, left := left, period := period, pulseEnd := 0 }
theorem test_trigger_enable : let s := regs State.reset [(regTrig 7 + 4, 50), (regTrig 7 + 12, 8)]
    s.auditRoom 1 = true ∧ s.now ≤ s.reg64 (regTrig 7 + 4) ∧ (s.reg (regTrig 7 + 12)).toNat ≠ 0 ∧ bitOf (0x80000000 : Word) 31 = true ∧
    bitOf (0 : Word) 31 = false ∧ bitOf (0 : Word) 30 = false := by decide +kernel
theorem test_trigger_fire : ∀ x ∈ [series 10 (some 1) 0, series 10 none 30], let s := trigAt x none
    (s.trig 0).running = true ∧ (s.trig 0).next ≤ (s.elapse 100).now ∧ s.trigEarlier (s.trig 0) = false ∧ (s.trig 0).left = x.left ∧
    (s.trig 0).period = x.period ∧ (s.elapse 2).now < (s.trig 0).next ∧ (regs s [(regTrig 0, 2 ^ 30)]).flag (regTrig 0) 30 = true := by
  decide +kernel
theorem test_trigger_waits : (trigAt (series 10 none 30) (some (series 6 none 4))).trigEarlier (series 10 none 30) = true := by decide +kernel
theorem test_trigger_pulse : let s := trigAt (series 10 none 30) none
    (s.trig 0).pulseEnd ≤ (s.elapse 5).now ∧ s.tim.gpio.testBit 0 = true := by decide +kernel
/-- The clock stands at 3 s and some, the pulse output is on, and the servo ticks each 100 ms. -/
def pps : State :=
  let s := regs State.reset [(0xD0000, 0x8000 + 100), (0xD0034, 5)]
  { s with clock := { s.clock with acc := 3000000100 * 2 ^ 32 } }
theorem test_pps_out : pps.flag 0xD0000 15 = true ∧ min 999999999 (pps.reg 0xD0034).toNat = 5 ∧ (3000000005 - 5) % 1000000000 = 0 ∧
    3000000005 ≤ (pps.elapse 1).now ∧ (pps.elapse 1).now < 3000000005 + 1000000000 ∧ pps.tim.ppsLast < 3000000005 ∧
    ({ pps with tim := { pps.tim with ppsLast := 3000000005 } }).tim.ppsFall ≤ (pps.elapse 1).now ∧ State.reset.flag 0xD0000 15 = false := by
  decide +kernel
theorem test_pps_in : State.reset.tim.ppsIn = none ∧
    (let s : State := { State.reset with tim := { State.reset.tim with ppsIn := some 7 } }
     s.tim.ppsIn = some 7 ∧ (s.elapse 5).now < 7 + 500000000 ∧ 7 + 500000000 ≤ (s.elapse 250000010).now) ∧
    (regs State.reset [(0xD0000, 0x10000)]).flag 0xD0000 16 = true := by decide +kernel
theorem test_servo_tick : 1000000 * min 1000 (pps.fld 0xD0000 9 0) = 100000000 ∧ 3000000000 % 100000000 = 0 ∧ 3000000000 ≤ (pps.elapse 1).now ∧
    (pps.elapse 1).now < 3000000000 + 100000000 ∧ pps.tim.servoLast < 3000000000 ∧
    1000000 * min 1000 ((regs State.reset [(0xD0000, 0)]).fld 0xD0000 9 0) = 0 := by decide +kernel

/-- A stream record: transmit (or receive) over MAC 0, one channel of 16-bit samples, 8 a packet; `flags` conceal or not. -/
def strRec (b0 : Nat) : List Byte :=
  [b0, 0, 1, 1, 8, 0, 0, 0, 0, 0, 96, 0, 64, 0, 0, 0].map (BitVec.ofNat 8) ++ List.replicate 112 (0 : Byte)
def strD (op k : Nat) (ws : List Nat) : Desc := mkD op k ws
def streamAs (s : State) (k : Nat) (x : Stream) : State := { s with streams := [(k, x)] }
theorem test_stream_start : let bs := strRec 1 ++ [9]; let d := strD 0xB1 2 [128, 0x20]; let s := post State.reset 0 d
    s.nextDesc 0 0xB1 = some d ∧ field d.w0 31 24 = 0 ∧ d.flags = 0 ∧ strStartCheck s (field d.w0 23 16) d (some (bs.take 128)) = none ∧
    s.auditRoom 1 = true ∧ ((streamAs s 2 { Stream.idle0 with st := 1, record := strRec 1 }).stream 2).st ≠ 0 := by decide +kernel
theorem test_stream_stop : let d := strD 0xB2 2 []; let s := streamAs (post State.reset 0 d) 2 { Stream.idle0 with st := 2, record := strRec 1 }
    s.nextDesc 0 0xB2 = some d ∧ field d.w0 31 24 = 0 ∧ d.flags = 0 ∧ (s.stream (field d.w0 23 16)).st ≠ 0 ∧ d.w1 = 0 ∧ d.w2 = 0 ∧ d.w3 = 0 ∧
    d.time ≤ s.now + 3600000000000 ∧ s.auditRoom 1 = true ∧ ((post State.reset 0 d).stream (field d.w0 23 16)).st = 0 := by decide +kernel
/-- Stream 2 waits on one command, its boundary past or ahead. -/
def awaits (start due : Bool) : State :=
  streamAs State.reset 2 { Stream.idle0 with
    st := 1, record := strRec 1, ops := [(start, { index := 0, time := if due then 0 else 9, accTime := 0, accFrame := 0, accOnTick := true })] }
theorem test_stream_change : ∀ start ∈ [false, true], ∀ due ∈ [false, true], let s := awaits start due
    let s := { s with mgt := { s.mgt with tick := { s.mgt.tick with count := 2 } } }
    (s.stream 2).ops = [(start, { index := 0, time := if due then 0 else 9, accTime := 0, accFrame := 0, accOnTick := true })] ∧
    s.reqDue { index := 0, time := if due then 0 else 9, accTime := 0, accFrame := 0, accOnTick := true } = due ∧ 1 ≤ strSpp (strRec 1) := by
  decide +kernel
/-- Stream 2 sends on MAC 0, which is up; its first packet is due, of a block that is bad or whole. -/
def sends (bad : Bool) : State :=
  let s := streamAs (macAs State.reset 0 macUp) 2 { Stream.idle0 with st := 2, record := strRec 1 }
  { s with ing := { s.ing with media := [32, 0] }
           mix := { s.mix with egress := [(0, List.replicate 2 { samples := List.replicate 32 0, flags := if bad then 8 else 0, plane := 1 })] } }
theorem test_stream_packet : ∀ bad ∈ [false, true], let s := sends bad; let x := s.stream 2; let r := x.record
    2 ≤ x.st ∧ strTx r = true ∧ x.nextP + strSpp r ≤ s.mediaNow + 32 ∧ s.mediaInstant (x.nextP + strSpp r) + strDelay r ≤ (s.elapse 500000).now ∧
    ((s.elapse 500000).packetSamples r x.nextP).any (·.2) = bad ∧ strConceal r = false ∧ s.snuffDone = false ∧ strRed r = false ∧
    (s.mac (strMac r)).st = 2 := by decide +kernel

def mntAs (s : State) (f : Mantle → Mantle) : State := { s with mnt := f s.mnt }
/-- Candidate 0 takes part, at a priority and a state of its own. -/
def candAs (prio qual : Nat) (x : MCand) : State :=
  mntAs (regs State.reset [(0xE0100, 0x10 + prio)]) (fun m => { m with cands := [(0, { x with qual := qual, cfg := BitVec.ofNat 32 (0x10 + prio) })] })
theorem test_candidate : (∀ edges ∈ [false, true], ∀ qual ∈ [0, 1, 2], let s := candAs 3 qual MCand.reset
      (s.cand 0).qual = qual ∧ (s.setCand 0 ((s.cand 0).measure (s.reg 0xE0100) (if edges then some 40 else none))).candFault 0 edges =
        if edges then 0 else 1) ∧
    ([(0, (40 : Int))].find? (fun p => p.1 == 0)).map (·.2) = some 40 := by decide +kernel
/-- The module is stopped. -/
def halted : State := { State.reset with mgt := { Mgt.empty with modState := 3 } }
/-- Mantle pulls to a candidate. -/
def pulling (run : Bool) (t : Nat) (e : Int) : State := mntAs (running run false) (fun m => { m with st := 1, pull := some (t, e) })
theorem test_pull : (pulling false 2 7).mnt.pull = some (2, 7) ∧ (pulling false 2 7).anyRun = false ∧
    (let s := pulling true 2 10000000000; s.mnt.pull = some (2, 10000000000) ∧ s.anyRun = true ∧
      100000 ≤ (pullStep s.slewMax s.slewAcc (s.mnt.out - 1000 * (s.cand 2).offset) 10000000000).2.natAbs) := by decide +kernel
theorem test_revert :
    let s := mntAs (regs State.reset [(0xE0000, 0x1F)]) (fun m =>
      { m with st := 2, sel := 1, cands := [(0, { MCand.reset with qual := 2, cfg := 0x15 }), (1, { MCand.reset with qual := 2, cfg := 0x13 })] })
    s.bestOf 2 = some 0 ∧ s.flag 0xE0000 4 = true ∧ s.forced = none ∧ 1 ≤ s.mnt.st ∧ s.mnt.st ≤ 4 ∧ (s.cand s.mnt.sel).prio < (s.cand 0).prio ∧
    s.mnt.lastPull = none := by decide +kernel
theorem test_nominal : let s := mntAs (regs State.reset [(0xE0020, 1)]) (fun m => { m with st := 5 })
    s.mnt.st = 5 ∧ s.fld 0xE0020 15 0 ≠ 65535 ∧ s.mnt.heldSince + s.fld 0xE0020 15 0 * secTicks ≤ (s.elapse 500000000).clock.ticks := by
  decide +kernel
/-- A write of MNT_CTRL leaves FAMILY and RATE. -/
abbrev sameRate (s : State) (v : Word) : Prop :=
  field (v &&& 0x1F7F) 6 5 = field (s.reg 0xE0000) 6 5 ∧ bitOf (v &&& 0x1F7F) 8 = bitOf (s.reg 0xE0000) 8
theorem test_mantle_control : State.reset.auditRoom 1 = true ∧ sameRate State.reset 3 ∧ field ((3 : Word) &&& 0x1F7F) 6 5 ≠ 3 ∧
    ¬ sameRate State.reset 0x120 ∧ (running true false).mgt.modState ≠ 3 ∧ halted.mgt.modState = 3 ∧ ¬ sameRate halted 0x120 ∧
    field ((0x120 : Word) &&& 0x1F7F) 6 5 ≠ 3 ∧ bitOf ((0x120 : Word) &&& 0x1F7F) 8 ≠ bitOf (halted.reg 0xE0000) 8 := by decide +kernel

/-! ### Audio ports and operator sense -/

/-- Port 15 in a given state of its own. -/
def portAs (s : State) (x : Port) : State := { s with ports := [(15, x)] }
def regP : Nat := 0xF0000 + 0x800 * 15
/-- Slave or master configurations of 32-bit slots, two a frame, enabled or not. -/
def cfgS (on : Bool) : Nat := (if on then 2 ^ 31 else 0) + 2 * 2 ^ 26 + 64
def portCfg (on run : Bool) : State := regs (running run false) [(regP, cfgS on)]
theorem test_port_enable : let s := State.reset; let v : Word := BitVec.ofNat 32 (cfgS true) &&& 0xFFC007FF
    bitOf (s.reg regP) 31 = false ∧ bitOf v 31 = true ∧ s.portCfgOk 15 v = true ∧ s.auditRoom 1 = true ∧
    s.portCfgOk 15 (BitVec.ofNat 32 (cfgS true + 2 ^ 30) &&& 0xFFC007FF) = false := by decide +kernel
theorem test_port_disable : ∀ run ∈ [false, true], let s := portAs (portCfg true run) { Port.reset with st := if run then 2 else 0 }
    let old := s.reg regP; let v : Word := BitVec.ofNat 32 (cfgS false) &&& 0xFFC007FF
    bitOf old 31 = true ∧ bitOf v 31 = false ∧ setBitOf v 31 true = setBitOf old 31 true ∧ s.auditRoom 1 = true ∧
    ((s.port 15).st ≠ 0 ↔ run) ∧ s.anyRun = run ∧ setBitOf (v + 1) 31 true ≠ setBitOf old 31 true := by decide +kernel
theorem test_port_field : bitOf ((portCfg true false).reg regP) 31 = true ∧ ((5 : Word) &&& 0xFFFF) ≠ (portCfg true false).reg (regP + 4) ∧
    (((portCfg true false).reg (regP + 4)) &&& 0xFFFF) = (portCfg true false).reg (regP + 4) ∧ bitOf (State.reset.reg regP) 31 = false := by decide +kernel

/-- A slave port that runs, its next frame due at sample `e` of the grid; both its slots are live. -/
def portRuns (st : Nat) (next : Option Nat) : State := portAs (portCfg true true) { Port.reset with st := st, rxLive := 3, txLive := 3, next := next }
theorem test_port_frame : (portRuns 3 none).flag regP 31 = true ∧ (portRuns 3 none).pinsTaken = false ∧ ((portRuns 3 none).port 15).st = 3 ∧
    (portCfg false true).flag regP 31 = false ∧ (let s := portRuns 2 none; let u := s.elapse 50; let x := s.port 15
      x.st = 2 ∧ x.rxNew = none ∧ x.txNew = none ∧ u.portMap 15 = (1, 0, false) ∧ s.fld regP 10 0 = 64 ∧ x.rxLive.testBit 0 = true ∧
      0 < s.portSlots 15 ∧ s.portMaster 15 = false) := by decide +kernel
theorem test_port_slips : ((portRuns 2 (some 9)).elapse 50).portMap 15 = (8, 0, true) ∧ ((portRuns 2 (some 0)).elapse 50).portMap 15 = (1, 1, false) := by
  decide +kernel
theorem test_port_lost : let s := portAs (portCfg true true) { Port.reset with st := 2, lastStart := some 0 }
    s.portMaster 15 = false ∧ (s.port 15).st = 2 ∧ (s.port 15).lastStart = some 0 ∧ 0 + 2000000000 / s.renderRate ≤ (s.elapse 50000).now := by
  decide +kernel

/-- Headset channel 7 is enabled, with bias or without, and stands as `o` says. -/
def headset (bias : Bool) (o : OpsChan) : State :=
  { regs State.reset [(0xF8000, 2 ^ 23 + if bias then 2 ^ 31 else 0)] with ops := [(7, o)] }
theorem test_headset_jack : (State.reset.opsEnabled 7 = false) ∧ (∀ plugged ∈ [false, true], let s := headset true { OpsChan.reset with plugged := plugged, jackRun := 19 }
    s.opsEnabled 7 = true ∧ (plugged == s.flag 0xF8000 15) = !plugged ∧ (s.opsChan 7).plugged = plugged ∧ (s.opsChan 7).jackRun = 19) := by
  decide +kernel
theorem test_headset_button : let o := { OpsChan.reset with plugged := true, acc := 1, runLo := 19 }
    let p := { OpsChan.reset with plugged := true, acc := 2, pressed := true, runHi := 19 }
    (headset true o).opsBias = true ∧ (false == (headset true o).flag 0xF8000 15) = ((headset true o).opsChan 7).plugged ∧
    ((headset true o).opsChan 7) = o ∧ o.pressed = false ∧ o.relOn = none ∧ ((headset true p).opsChan 7) = p ∧ p.pressed = true := by decide +kernel
theorem test_headset_classify : ∀ bias ∈ [false, true], let s := headset bias { OpsChan.reset with plugged := true, due := some 6, codes := [5, 5, 5] }
    s.opsEnabled 7 = true ∧ (s.opsChan 7).plugged = true ∧ (s.opsChan 7).due = some 6 ∧ 6 ≤ (s.elapse 5).now ∧ s.opsBias = bias ∧
    (s.opsChan 7).codes ≠ [] ∧ (∀ a ∈ (s.opsChan 7).codes, a = 5) := by decide +kernel

/-! ### The Birlor Link -/

/-- Both link ports in a given state, on a member of a chain or on its head. -/
def linkAs (s : State) (x : LinkPort) (f : Link → Link) : State := { s with link := f { s.link with ports := [(0, x), (1, x)] } }
def lport (st : Nat) : LinkPort := { LinkPort.reset with st := st }
def onHead (s : State) : State := { s with straps := { s.straps with head := true } }
theorem test_link_enable : let s := regs State.reset [(0x100140, 1)]
    State.reset.auditRoom 1 = true ∧ bitOf (State.reset.reg 0x100140) 0 = false ∧ bitOf (1 : Word) 0 = true ∧ bitOf (s.reg 0x100140) 0 = true ∧
    bitOf (0 : Word) 0 = false ∧ (s.lport 1).st = 0 ∧
    (let r := linkAs (regs (running true false) [(0x100140, 1)]) (lport 3) id; (r.lport 1).st ≠ 0 ∧ r.anyRun = true ∧ r.auditRoom 1 = true) := by
  decide +kernel
theorem test_lanes : ∀ st ∈ [1, 2, 3], let s := linkAs State.reset { LinkPort.reset with st := st, lanes := 1 } id
    (s.lport 1).st = st ∧ st ≠ 0 ∧ (if (s.lport 1).lanes.testBit 0 then (s.lport 1).lanes - 2 ^ 0 else (s.lport 1).lanes) = 0 := by decide +kernel
/-- A marker: its first 60 bytes with their CRC. -/
def marker (hop : Nat) : List Byte :=
  let b := leBytes 8 5 ++ leBytes 4 6 ++ leBytes 1 hop ++ leBytes 1 1 ++ leBytes 46 0
  b ++ leBytes 4 (crc32c b)
theorem test_marker : let s := linkAs State.reset { LinkPort.reset with st := 2, good := 3, delays := [7] } id; let x := s.lport 1
    x.st = 2 ∧ 3 ≤ x.good ∧ x.delays ≠ [] ∧ s.lanesTaken = false ∧ (marker 2).length = 64 ∧
    crc32c ((marker 2).take 60) = leAt (marker 2) 60 4 ∧ crc32c ((marker 2).reverse.take 60) ≠ leAt (marker 2).reverse 60 4 := by decide +kernel

theorem test_link_closed : State.reset.linkOpen 0 = false ∧ (linkAs State.reset (lport 3) id).linkOpen 0 = true ∧
    (linkAs (onHead State.reset) (lport 3) (fun l => { l with conflict := 4 })).linkOpen 0 = false := by decide +kernel
/-- A frame of a class, from module 5, part 3. -/
def chainFrame (cls : Nat) : List Byte := linkFrame cls 5 0 1 3 9 4 (leBytes 8 1)
theorem test_link_frame : (∀ cls ∈ [3, 5], let f := chainFrame cls
      f.length = leAt f 4 2 + 20 ∧ leAt f 4 2 ≤ 2048 ∧ crc32c (f.take (16 + leAt f 4 2)) = leAt f (16 + leAt f 4 2) 4 ∧ leAt f 0 1 = cls ∧
      leAt f 1 1 ≠ State.reset.link.addr ∧ State.reset.link.seen.contains (leAt f 1 1, cls + 256 * leAt f 6 2, leAt f 8 4) = false ∧
      ({ State.reset.link with seen := [(5, cls + 256 * 3, 9)] }).seen.contains (leAt f 1 1, cls + 256 * leAt f 6 2, leAt f 8 4) = true) ∧
    leAt (chainFrame 7) 0 1 = 7 ∧ ¬ (chainFrame 3 ++ [0]).length = leAt (chainFrame 3 ++ [0]) 4 2 + 20 := by decide +kernel
theorem test_link_chain : let s := regs State.reset [(0x100000, 1), (0x80000, 1)]
    s.chainEn = true ∧ s.chainMeta = true ∧ State.reset.chainEn = false ∧ State.reset.chainMeta = false := by decide +kernel
theorem test_group_capture : let s := regs (onHead (running true false)) [(0x100000, 5)]
    let s := { s with mgt := { s.mgt with tick := { s.mgt.tick with count := 1 } } }
    s.casting = true ∧ 0 < s.mgt.tick.count ∧ s.link.capG < 7 ∧ s.sampleInstant (4 * s.link.capG + 4) ≤ (s.elapse 50000).now ∧
    State.reset.casting = false := by decide +kernel

theorem test_readdress : (∀ k ∈ [0, 3, 5], (linkAs State.reset (lport 0) (fun l => { l with conflict := k })).isHead = false) ∧
    (onHead State.reset).isHead = true ∧ bitOf (1 : Word) 0 = true ∧ bitOf (1 : Word) 1 = false ∧ State.reset.auditRoom 1 = true := by decide +kernel
theorem test_accept : let s := linkAs State.reset (lport 0) (fun l => { l with conflict := 1 })
    bitOf (2 : Word) 0 = false ∧ bitOf (2 : Word) 1 = true ∧ s.link.conflict = 1 ∧ s.link.map.testBit (s.straps.addr - 1) = false ∧
    State.reset.link.conflict ≠ 1 ∧ bitOf (0 : Word) 1 = false := by decide +kernel
theorem test_link_cfg : State.reset.lnkCfgBad 0x100000 1 = false ∧ State.reset.lnkCfgBad 0x10000C 5 = false ∧
    State.reset.lnkCfgBad 0x100010 5 = false ∧ State.reset.lnkCfgBad 0x100000 8 = true := by decide +kernel
theorem test_slice_apply : let d := mkD 0xC1 0 []; let s := post State.reset 0 d
    s.nextDesc 0 0xC1 = some d ∧ d.w1 = 0 ∧ d.w2 = 0 ∧ d.w3 = 0 ∧ d.time ≤ s.now + 3600000000000 ∧ s.auditRoom 1 = true ∧ s.sliceBad = false ∧
    (regs s [(0x101000, 2 ^ 31), (0x101004, 2 ^ 31)]).sliceBad = true := by decide +kernel

theorem test_tun_send : let d := mkD 0x50 2 [4, 0x20]; let s := linkAs (post State.reset 52 d) (lport 3) id
    s.nextDesc 52 0x50 = some d ∧ field d.w0 31 21 = 0 ∧ field d.w0 15 9 = 0 ∧ field d.w0 20 16 < 17 ∧ field d.w0 20 16 ≠ s.link.addr ∧
    s.anyLink = true ∧ 1 ≤ d.w1.toNat ∧ d.w1.toNat ≤ 4096 ∧ d.addr % 32 = 0 ∧ s.linkOpen 0 = true ∧ (post State.reset 52 d).anyLink = false ∧
    17 ≤ field (mkD 0x50 17 [4, 0x20]).w0 20 16 := by decide +kernel
/-- A message of 8 bytes heads the receive queue of LINK_UP; its ring 54 has room or is full. -/
def tunnelled (arg : Nat) (full : Bool) : State :=
  let s := ringAs (up State.reset) 54 { Ring.empty with state := if full then .stopping else .running, doorIndex := 0 }
  { s with queues := Cells.put qDflt [] 1024 { EQueue.empty with drain := [5, 0, 8, arg, 7].zipIdx.map (fun p => { x := p.1, last := p.2 == 4 }) } }
theorem test_tunnel : ∀ full ∈ [false, true], let s := tunnelled 8 full
    (s.queue 4 0).head = some [5, 0, 8, 8, 7] ∧ (8 : Nat).testBit 16 = false ∧ s.d2hFull 54 = full ∧ (s.ring 54).waiting = [] ∧
    (65544 : Nat).testBit 16 = true ∧ s.flag 0x100000 4 = false := by decide +kernel

/-! ### Integrity, security, audit, registers -/

/-- A job record: source, destination, length, step, pieces, polynomial, flags. -/
def jobRec (len count poly flags : Nat) : List Byte :=
  leBytes 8 64 ++ leBytes 8 128 ++ leBytes 4 len ++ leBytes 4 0 ++ leBytes 4 count ++ leBytes 1 poly ++ leBytes 1 flags ++ leBytes 34 0
def jobD (op : Nat) : Desc := mkD op 0 [64, 0x20]
theorem test_job_desc : ∀ op ∈ [0x60, 0x68, 0x69], let d := jobD op
    d.flags = 0 ∧ d.spec = 0 ∧ d.w4 = 0 ∧ d.w5 = 0 ∧ d.addr % 32 = 0 ∧ d.w1 = 64 ∧ (post State.reset 51 d).nextDesc 51 op = some d := by decide +kernel
theorem test_job_record : (∀ poly ∈ [0, 1, 2, 3], ∀ flags ∈ [0, 8], ∀ kind ∈ [0, 1], let r := jobRec 3 1 poly flags
      jobOk kind r = true ∧ jobPoly r ≤ 3 ∧ jobCount r = 1 ∧ leAt r 29 1 = flags ∧ jobSrc r + jobLen r ≤ 2 ^ 64 ∧ jobDst r + jobLen r ≤ 2 ^ 64) ∧
    (∀ kind ∈ [0, 1], jobOk kind (jobRec 0 1 0 0) = false) := by decide +kernel

theorem test_set_owner : let d := mkD 0xD2 0 [0, 0x20]
    (post State.reset 0 d).nextDesc 0 0xD2 = some d ∧ (post State.reset 0 d).sec.ownerHash = none ∧ (post State.reset 0 d).auditRoom 1 = true ∧
    (post { State.reset with sec := { Sec.new with ownerHash := some [] } } 0 d).sec.ownerHash.isSome = true := by decide +kernel
/-- An image of each TYPE is held, with SVN 3; no OTP step is left where `steps` is 0. -/
def svnHeld (type steps : Nat) : State :=
  let i : Image := { id := 5, render := true, voice := false, tileBytes := 0, dramBytes := 0, kernels := [], code := [], nodes := [], edges := [], svn := 3 }
  post { State.reset with
    imgs := { State.reset.imgs with boot := some [], bootSvn := 3, held := [i] }, sec := { Sec.new with ownerSteps := steps, fwSteps := steps } }
    0 (mkD 0xD1 0 [type])
theorem test_commit_svn : ∀ type ∈ [1, 2], (∀ steps ∈ [0, 64], let s := svnHeld type steps
      s.nextDesc 0 0xD1 = some (mkD 0xD1 0 [type]) ∧ (mkD 0xD1 0 [type]).w1.toNat = type ∧ s.heldSvn type = some 3 ∧ s.sec.fwMin < 3 ∧
      s.sec.ownerMin < 3 ∧ s.sec.fwSteps = steps ∧ s.sec.ownerSteps = steps ∧ s.auditRoom 1 = true) ∧
    State.reset.heldSvn type = none ∧ (3 : Nat) ≤ 3 := by decide +kernel

/-- The signature of that key on a challenge and LEVEL 1. -/
def dbgSig : List Byte := beBytes 96
  (0xDBA23634C080C17077FF7185A072E75CCF7EAF2C87097A4BA83DD1140AF6C2F0E322B21AD05B136EDD95383C29F116D7 * 2 ^ 384 +
    0x43CA11CCD8CE00F15FC88E3BCA7FF0A3ED45013B179146EB044DF548B78110EDD6AA8C3F4C923DA6A544FB86E28531C4)
def challenged : State := { State.reset with sec := { Sec.new with ownerHash := some (sha384 imageSigner), challenge := some (leBytes 48 7) } }
theorem test_debug_signed : ownerSigned (sha384 imageSigner) (leBytes 48 7 ++ leBytes 1 1) dbgSig = true := by decide +kernel
theorem test_debug_response : challenged.dbgSigned 1 dbgSig = true ∧ (1 : Nat) ≠ 0 ∧ 1 ≤ challenged.dbgMax ∧ challenged.auditRoom 1 = true ∧
    challenged.audit.late = [] ∧ ¬ (State.reset.dbgSigned 1 dbgSig = true) := by
  refine ⟨?_, by decide +kernel, by decide +kernel, by decide +kernel, by decide +kernel, by decide +kernel⟩
  exact test_debug_signed
theorem test_debug_wait : let s := { State.reset with sec := { Sec.new with waitUntil := 50 } }
    (s.elapse 5).now < s.sec.waitUntil ∧ State.reset.sec.waitUntil ≤ (State.reset.elapse 5).now := by decide +kernel

/-- A checkpoint is owed, or an entry waits for space; ring 3 runs with room, or is full. -/
def owes (room : Bool) : State :=
  let s := ringAs (up State.reset) 3 { Ring.empty with state := if room then .running else .stopping }
  { s with audit := { s.audit with owed := [(5, 6, 7), (8, 9, 10)] } }
theorem test_checkpoint : ∀ room ∈ [false, true], (owes room).audit.owed = (5, 6, 7) :: [(8, 9, 10)] ∧ (owes room).d2hFull 3 = !room ∧
    ((owes room).ring 3).waiting = [] := by decide +kernel
def lateOne : LateEntry := { time := 5, origin := 3, kind := 9, flags := 0, target := 0, old := 0, new := 0 }
def waits (late : List LateEntry) (full : Bool) : State :=
  { State.reset with audit := { State.reset.audit with late := late, reserved := if full then 4096 else 0 } }
theorem test_audit_space : ∀ full ∈ [false, true], let s := waits [lateOne] full
    s.mgt.ctl = [] ∧ s.audit.waiting = [] ∧ s.audit.late = [lateOne] ∧ s.auditRoom 1 = !full ∧ (waits [] full).audit.late = [] := by decide +kernel
theorem test_dram_scrub : ∀ m ∈ [3, 4], let s := regs { State.reset with mgt := { Mgt.empty with modState := m } } [(0x120010, 3670014)]
    s.mgt.modState = m ∧ s.flag 0x120000 2 = true ∧ s.fld 0x120010 22 0 + 1 < 3670016 := by decide +kernel

theorem test_register_window : State.reset.mayWrite .debug 0x80 = false ∧ State.reset.mayWrite .host 0x20000 = true ∧ (14 : BitVec 4) ≠ 15 ∧
    State.reset.mayWrite .host 0x20FFC = true ∧ regRow 0x20FFC = none := by decide +kernel
theorem test_register_plain : ∃ r, regRow 0x20008 = some r ∧ r.logged = false ∧ State.reset.mayWrite .host 0x20008 = true := by
  refine ⟨_, rfl, ?_⟩; decide +kernel
theorem test_register_logged : ∃ r, regRow 0x90000 = some r ∧ r.logged = true ∧ r.rw ≠ 0 ∧ State.reset.mayWrite .host 0x90000 = true ∧
    State.reset.auditRoom 1 = true ∧ (waits [] true).auditRoom 1 = false ∧ 0x90000 ∉ auditRegs := by
  refine ⟨_, rfl, ?_⟩; decide +kernel

/-! ### The whole machine -/

theorem test_whole_sound : Sound State.reset := by
  refine ⟨?_, ?_, ?_, ?_, ?_, ?_, ?_, ?_, ?_, ?_, ?_⟩ <;> decide
theorem test_whole_step : ∃ t, step State.reset = .next t := ⟨_, rfl⟩
theorem test_whole_owner : ∃ h, owned.sec.ownerHash = some h := ⟨_, rfl⟩

end Sys2Proof.Tests
end

section
/-!
PROOF. Register writes (R8 to R10, R437): what each outcome of REGISTER_WRITE is, what a register takes under its access codes bit by
bit, and the frame of a logged write; O6 is assembled from these.
-/
namespace Sys2Proof.Machine

/-! ### The frame of an audit entry: it waits on ring 3, so neither the trace buffer nor the snapshot banks drain -/

section
variable {ps : List Part} {s0 : State}

/-- An entry of a ring other than 4 (snapshots) and 5 (trace) drains the entries that wait on its ring, nothing else. -/
theorem State.enqueue_does_of_ne {s : State} {r : Nat} {e : D2h} (h4 : r ≠ 4) (h5 : r ≠ 5) (hw : [.regs, .host, .rings] ⊆ ps)
    (h : Does ps s0 s) : Does ps s0 (s.enqueue r e) := by
  unfold State.enqueue State.drain
  rw [if_neg h4, if_neg h5]
  exact State.drainGo_does hw (State.onRing_does (sub hw) h)

theorem State.chainEntry_does_log {s : State} {time origin oid kind flags : Nat} {target old new : Word}
    (hw : [.regs, .host, .rings, .audit, .pwr] ⊆ ps) (h : Does ps s0 s) :
    Does ps s0 (s.chainEntry time origin oid kind flags target old new) := by
  unfold State.chainEntry
  exact State.enqueue_does_of_ne (by decide) (by decide) (sub hw)
    (Does.ite (State.journalWrite_does (sub hw) (State.onAudit_does (sub hw) h)) (State.onAudit_does (sub hw) h))

theorem State.auditNow_does_log {s : State} {origin oid kind flags : Nat} {target old new : Word}
    (hw : [.regs, .host, .rings, .audit, .pwr] ⊆ ps) (h : Does ps s0 s) :
    Does ps s0 (s.auditNow origin oid kind flags target old new) := by
  unfold State.auditNow
  exact State.chainEntry_does_log hw (State.auditRelease_does (sub hw) (State.auditReserve_does (sub hw) h))

theorem State.loggedWrite_does_log {s : State} {o : Origin} {off : Nat} {v : Word}
    (hw : [.regs, .host, .rings, .audit, .pwr] ⊆ ps) (h : Does ps s0 s) : Does ps s0 (s.loggedWrite o off v) := by
  unfold State.loggedWrite
  exact Does.ite (State.auditNow_does_log hw (State.setReg_does (sub hw) h)) (State.bump_does (sub hw) h)

end

/-! ### A write under the access codes alone -/

theorem State.plainWrite_unlogged {s : State} {o : Origin} {off : Nat} {r : RegRow} {v : Word} (h : r.logged = false) :
    s.plainWrite o off r v = s.setReg off (r.value (s.reg off) v) := by
  simp [State.plainWrite, h]

theorem State.plainWrite_logged {s : State} {o : Origin} {off : Nat} {r : RegRow} {v : Word} (h : r.logged = true) (hrw : r.rw ≠ 0) :
    s.plainWrite o off r v = s.loggedWrite o off (r.value (s.reg off) v) := by
  simp [State.plainWrite, h, hrw]

theorem bitOf_eq_getLsbD (w : Word) (n : Nat) : bitOf w n = w.getLsbD n := rfl

/-- The access codes bit by bit (R8): a 1 sets a W1S bit and clears a W1C bit, a RW bit takes what is written, any other keeps. -/
theorem RegRow.bitOf_value (r : RegRow) (old v : Word) {n : Nat} (hn : n < 32) :
    bitOf (r.value old v) n = ((r.w1s.testBit n && bitOf v n) ||
      (!(r.w1c.testBit n && bitOf v n) && (if r.rw.testBit n then bitOf v n else bitOf old n))) := by
  simp only [RegRow.value, bitOf_eq_getLsbD, BitVec.getLsbD_or, BitVec.getLsbD_and, BitVec.getLsbD_not, BitVec.getLsbD_ofNat, hn,
    decide_true, Bool.true_and]
  cases r.rw.testBit n <;> cases v.getLsbD n <;> simp [Bool.or_comm, Bool.and_comm]

/-! ### The outcomes of REGISTER_WRITE -/

/-- Offsets at which a register has no rule of its own: the windows MGT_, INT_ to DMC_, CNV_ to VOX_ and OPS_, without the plane split
and the address of the audit payload area. -/
def NoOwnRule (off : Nat) : Prop :=
  off ≠ 0x80 ∧ off ≠ 0x210 ∧ off ≠ 0x214 ∧
    (off < 0x10000 ∨ (0x20000 ≤ off ∧ off < 0x50000) ∨ (0x90000 ≤ off ∧ off < 0xC0000) ∨ (0xF8000 ≤ off ∧ off < 0x100000))

theorem NoOwnRule.lt_bar2 {off : Nat} (h : NoOwnRule off) : off < bar2 := by
  obtain ⟨-, -, -, h⟩ := h
  unfold bar2
  omega

theorem State.writeReg_of_noOwnRule {s : State} {o : Origin} {off : Nat} {r : RegRow} {v : Word} (h : NoOwnRule off) :
    s.writeReg o off r v = s.plainWrite o off r v := by
  obtain ⟨h80, h210, h214, h | h | h | h⟩ := h <;>
    simp (disch := omega) only [State.writeReg, ↓if_neg, ↓if_pos]

section
variable {s : State} {off : Nat} {be : BitVec 4} {v : Word} {o : Origin} {r : RegRow}

theorem exec_registerWrite : exec (.registerWrite off be v o) s = execRegisterWrite off be v o s := rfl

theorem exec_registerWrite_closed (hb : off < bar2) (hm : s.mayWrite o off = false) :
    exec (.registerWrite off be v o) s = .next s := by
  rw [exec_registerWrite, execRegisterWrite, if_neg (by omega), if_pos (by simp [hm])]

theorem exec_registerWrite_subDword (hb : off < bar2) (hm : s.mayWrite o off = true) (hbe : be ≠ 15) :
    exec (.registerWrite off be v o) s = .next (s.bump 0x10124 1) := by
  rw [exec_registerWrite, execRegisterWrite, if_neg (by omega), if_neg (by simp [hm]), if_pos hbe]

theorem exec_registerWrite_noRegister (hb : off < bar2) (hr : regRow off = none) (hm : s.mayWrite o off = true) :
    exec (.registerWrite off 15 v o) s = .next s := by
  rw [exec_registerWrite, execRegisterWrite, if_neg (by omega), if_neg (by simp [hm]), if_neg (by decide), hr]

theorem exec_registerWrite_register (hb : off < bar2) (hr : regRow off = some r) (hm : s.mayWrite o off = true) :
    exec (.registerWrite off 15 v o) s = .next (s.writeReg o off r v) := by
  rw [exec_registerWrite, execRegisterWrite, if_neg (by omega), if_neg (by simp [hm]), if_neg (by decide), hr]

theorem exec_registerWrite_plain (h : NoOwnRule off) (hr : regRow off = some r) (hm : s.mayWrite o off = true) :
    exec (.registerWrite off 15 v o) s = .next (s.plainWrite o off r v) := by
  rw [exec_registerWrite_register h.lt_bar2 hr hm, State.writeReg_of_noOwnRule h]

end

/-- A counter that rises leaves every other register and every other part of the state. -/
theorem State.bump_counted (s : State) (off n : Nat) :
    (s.bump off n).reg off = s.up off n ∧ RegsKept [off] s (s.bump off n) ∧ Frame [.regs] s (s.bump off n) :=
  ⟨State.reg_bump s off n, State.bump_kept (by simp), (State.bump_does (by simp) .refl).frame⟩

/-- Settles O6, one outcome of REGISTER_WRITE at a time; a register without a rule of its own is one `plainWrite`. -/
theorem registerWritesObeyTheMap : Obligations.RegisterWritesObeyTheMap := by
  intro s off n be v o r
  refine ⟨exec_registerWrite_closed, fun hb hm hbe => ?_, exec_registerWrite_noRegister, fun hr hm h80 h210 h214 hoff => ?_⟩
  · exact ⟨_, exec_registerWrite_subDword hb hm hbe, s.bump_counted 0x10124 1⟩
  · have he := exec_registerWrite_plain (v := v) ⟨h80, h210, h214, hoff⟩ hr hm
    refine ⟨fun hl => ?_, fun hl hrw hroom haud => ?_, fun hl hrw hroom => ?_⟩
    · rw [State.plainWrite_unlogged hl] at he
      refine ⟨_, he, State.setReg_kept (by simp), (State.setReg_does (by simp) .refl).frame,
        fun hn => ?_⟩
      rw [State.reg_setReg, r.bitOf_value _ _ hn]
    · rw [State.plainWrite_logged hl hrw] at he
      exact ⟨_, he, State.loggedWrite_reg hroom haud, State.loggedWrite_index hroom,
        State.loggedWrite_kept hroom (by simp) (by simp), (State.loggedWrite_does_log (by decide) .refl).frame⟩
    · rw [State.plainWrite_logged hl hrw, State.loggedWrite_full hroom] at he
      exact ⟨_, he, s.bump_counted 0x300 1⟩

end Sys2Proof.Machine
end

section
/-!
PROOF. Object metadata (R39 to R44): what OBJ_POS and OBJ_BATCH do with their descriptor, and how a record joins the states of its
object; O25 is assembled from these.
-/
namespace Sys2Proof.Machine

/-! ### The descriptor: refused, failed, or waiting for its tick -/

theorem State.atPhase_setPhase (s : State) (r index : Nat) (p : Phase) : (s.setPhase r index p).atPhase r index p := by
  intro d hd hi
  rw [State.setPhase, State.ring_onRing] at hd
  obtain ⟨d', -, rfl⟩ := List.mem_map.mp hd
  by_cases h : d'.index = index
  · rw [if_pos h]
  · rw [if_neg h] at hi
    exact absurd hi h

/-- Queued records stand last among those that wait, and their descriptor is accepted (R40). -/
theorem State.queueMeta_waits (s : State) (r index : Nat) (recs : List MetaRec) :
    (s.queueMeta r index recs).rnd = { s.rnd with
      waiting := s.rnd.waiting ++ [{ ring := r, index := index, recs := recs, status := stOk, fetchedAt := s.now }] } ∧
    (s.queueMeta r index recs).atPhase r index .accepted ∧ Frame [.rings, .rnd] s (s.queueMeta r index recs) :=
  ⟨rfl, State.atPhase_setPhase s r index .accepted, (State.queueMeta_does (by simp) .refl).frame⟩

section
variable {s : State} {r : Nat} {d : Desc} {data : Option (List Byte)} {bs : List Byte}

theorem exec_objPos_waits (hd : s.nextDesc r 1 = some d) (hz : field d.w0 31 26 = 0) (hs : s.wrongSource = false) :
    exec (.objPos r) s = .next (s.queueMeta r d.index [posRecord d]) := by
  simp [exec, execObjPos, hd, hz, hs]

theorem exec_objPos_wrongSource (hd : s.nextDesc r 1 = some d) (hz : field d.w0 31 26 = 0) (hs : s.wrongSource = true) :
    exec (.objPos r) s = .next ((s.bump 0x80104 1).finish r d.index rndWrongSource) := by
  simp [exec, execObjPos, hd, hz, hs]

theorem exec_objBatch_wrongSource (hd : s.nextDesc r 2 = some d) (hs : s.wrongSource = true) :
    exec (.objBatch r data) s = .next ((s.bump 0x80104 (d.w1.toNat / 32)).finish r d.index rndWrongSource) := by
  simp [exec, execObjBatch, hd, hs]

/-- The length and address of a batch that R41 admits. -/
def BatchSizeOk (d : Desc) : Prop := d.w1.toNat % 32 = 0 ∧ 32 ≤ d.w1.toNat ∧ d.w1.toNat ≤ 32768 ∧ d.addr % 32 = 0

theorem BatchSizeOk.admitted (h : BatchSizeOk d) :
    ¬ (d.w1.toNat % 32 ≠ 0 ∨ d.w1.toNat < 32 ∨ 32768 < d.w1.toNat ∨ d.addr % 32 ≠ 0) := by
  obtain ⟨h32, hlo, hhi, ha⟩ := h
  omega

theorem exec_objBatch_waits (hd : s.nextDesc r 2 = some d) (hs : s.wrongSource = false) (hz : BatchSizeOk d) :
    exec (.objBatch r (some bs)) s = .next (s.queueMeta r d.index (parseBatch (d.w1.toNat / 32) bs)) := by
  simp [exec, execObjBatch, hd, hs, hz.admitted]

theorem exec_objBatch_dmaError (hd : s.nextDesc r 2 = some d) (hs : s.wrongSource = false) (hz : BatchSizeOk d) :
    exec (.objBatch r none) s = .next (s.finish r d.index stDmaError) := by
  simp [exec, execObjBatch, hd, hs, hz.admitted]

end

theorem length_parseBatch (n : Nat) (bs : List Byte) : (parseBatch n bs).length = n := by
  induction n generalizing bs with
  | zero => rfl
  | succ n ih => simp [parseBatch, ih]

/-- Record `k` of a batch is the `k`-th block of 32 bytes (R42). -/
theorem getElem?_parseBatch {n k : Nat} (hk : k < n) (bs : List Byte) :
    (parseBatch n bs)[k]? = some (parseMeta ((bs.drop (32 * k)).take 32)) := by
  induction n generalizing k bs with
  | zero => omega
  | succ n ih =>
    cases k with
    | zero => rfl
    | succ k =>
      rw [parseBatch, List.getElem?_cons_succ, ih (by omega), List.drop_drop]
      congr 4
      omega

/-! ### Insertion: a state among the others -/

/-- States in rising time order. -/
abbrev InTimeOrder (sts : List ObjState) : Prop := sts.Pairwise (fun a b => a.time < b.time)

theorem mem_insertState_self (r : ObjState) (sts : List ObjState) : r ∈ insertState r sts := by simp [insertState]

theorem insertState_inTimeOrder {sts : List ObjState} (r : ObjState) (h : InTimeOrder sts) : InTimeOrder (insertState r sts) := by
  rw [insertState, InTimeOrder, List.pairwise_append, List.pairwise_cons]
  refine ⟨h.filter _, ⟨fun b hb => by simpa using (List.mem_filter.mp hb).2, h.filter _⟩, fun a ha b hb => ?_⟩
  have har : a.time < r.time := by simpa using (List.mem_filter.mp ha).2
  obtain rfl | hb := List.mem_cons.mp hb
  · exact har
  · have hrb : r.time < b.time := by simpa using (List.mem_filter.mp hb).2
    omega

/-- A new state takes the place of those at its own time. -/
theorem length_insertState (r : ObjState) (sts : List ObjState) :
    (insertState r sts).length + sts.countP (fun t => t.time = r.time) = sts.length + 1 := by
  induction sts with
  | nil => rfl
  | cons t sts ih =>
    simp only [insertState, List.length_append, List.length_cons, List.filter_cons, List.countP_cons, decide_eq_true_eq] at ih ⊢
    rcases Nat.lt_trichotomy t.time r.time with h | h | h
    · rw [if_pos h, if_neg (by omega), if_neg (by omega), List.length_cons]; omega
    · rw [if_neg (by omega), if_neg (by omega), if_pos h]; omega
    · rw [if_neg (by omega), if_pos h, if_neg (by omega), List.length_cons]; omega

theorem length_insertState_le {r : ObjState} {sts : List ObjState} (h4 : sts.length ≤ 4)
    (h : sts.length ≠ 4 ∨ ∃ t ∈ sts, t.time = r.time) : (insertState r sts).length ≤ 4 := by
  have hl := length_insertState r sts
  obtain h | ⟨t, ht, he⟩ := h
  · omega
  · have : 0 < sts.countP (fun t => t.time = r.time) := List.countP_pos_iff.mpr ⟨t, ht, by simpa using he⟩
    omega

/-! ### Leaving a hold: where no state lies ahead, the anchor moves to the start of the block -/

/-- The states of an object as a record finds them. -/
def statesAfterHold (es : Nat) (sts : List ObjState) : List ObjState :=
  match anchorOf sts es with
  | some a => if sts.all (fun t => t.time ≤ es) then sts.map (fun t => if t = a then { a with time := es } else t) else sts
  | none => sts

/-- The anchor is the latest of the states at or before its instant. -/
theorem time_le_anchorOf {sts : List ObjState} {e : Nat} {a t : ObjState} (h : InTimeOrder sts) (ha : anchorOf sts e = some a)
    (ht : t ∈ sts) (hte : t.time ≤ e) : t.time ≤ a.time := by
  obtain ⟨before, hb⟩ := List.getLast?_eq_some_iff.mp ha
  have ho : InTimeOrder (before ++ [a]) := hb ▸ h.filter _
  have hm : t ∈ before ++ [a] := hb ▸ List.mem_filter.mpr ⟨ht, by simpa using hte⟩
  obtain hm | hm := List.mem_append.mp hm
  · exact Nat.le_of_lt ((List.pairwise_append.mp ho).2.2 t hm a (List.mem_singleton_self a))
  · exact Nat.le_of_eq (congrArg ObjState.time (List.mem_singleton.mp hm))

/-- Only the time of a state may change. -/
theorem statesAfterHold_map_untimed (es : Nat) (sts : List ObjState) :
    (statesAfterHold es sts).map (fun t => { t with time := 0 }) = sts.map (fun t => { t with time := 0 }) := by
  unfold statesAfterHold
  split
  · next a _ =>
    split
    · rw [List.map_map]
      refine List.map_congr_left fun t _ => ?_
      by_cases h : t = a <;> simp [h]
    · rfl
  · rfl

theorem length_statesAfterHold (es : Nat) (sts : List ObjState) : (statesAfterHold es sts).length = sts.length := by
  simpa using congrArg List.length (statesAfterHold_map_untimed es sts)

theorem statesAfterHold_inTimeOrder {sts : List ObjState} (es : Nat) (h : InTimeOrder sts) : InTimeOrder (statesAfterHold es sts) := by
  unfold statesAfterHold
  split
  · next a ha =>
    split
    · next hall =>
      have hle : ∀ t ∈ sts, t.time ≤ es := by simpa using hall
      refine List.pairwise_map.mpr (h.imp_of_mem fun {t u} ht hu htu => ?_)
      have hua := time_le_anchorOf h ha hu (hle u hu)
      have hue := hle u hu
      rw [if_neg (show t ≠ a by rintro rfl; omega)]
      split
      · exact Nat.lt_of_lt_of_le htu hue
      · exact htu
    · exact h
  · exact h

/-! ### One record applied -/

/-- A record's state with the time at which it takes effect: the end of the block where it is late. -/
def stampLate (es ee : Nat) (st : ObjState) : ObjState := if st.time = 0 ∨ st.time < es then { st with time := ee } else st

theorem stampLate_place (es ee : Nat) (st : ObjState) :
    (stampLate es ee st).time = (if st.time = 0 ∨ st.time < es then ee else st.time) ∧ (stampLate es ee st).x = st.x ∧
      (stampLate es ee st).y = st.y ∧ (stampLate es ee st).z = st.z := by
  unfold stampLate
  split <;> exact ⟨rfl, rfl, rfl, rfl⟩

/-- An object after it has left its hold. -/
def ObjRun.leaveHold (es : Nat) (run : ObjRun) : ObjRun := { run with states := statesAfterHold es run.states }

/-- The state a record becomes. -/
def joining (es ee : Nat) (m : MetaRec) (run : ObjRun) : ObjState := keepValues (run.leaveHold es) m (stampLate es ee m.st)

/-- Kept values (R42) are neither a time nor a position. -/
theorem joining_place (es ee : Nat) (m : MetaRec) (run : ObjRun) :
    (joining es ee m run).time = (if m.st.time = 0 ∨ m.st.time < es then ee else m.st.time) ∧ (joining es ee m run).x = m.st.x ∧
      (joining es ee m run).y = m.st.y ∧ (joining es ee m run).z = m.st.z :=
  stampLate_place es ee m.st

/-- What applying a record comes to (R44): its state joins those that remain after a hold is left, all of them or all but the oldest,
which have a free place or a state at its time; or four states leave no room. -/
theorem applyMeta_cases (es ee : Nat) (m : MetaRec) (run : ObjRun) :
    (∃ sts, sts.Sublist (statesAfterHold es run.states) ∧ (sts.length ≠ 4 ∨ ∃ t ∈ sts, t.time = (joining es ee m run).time) ∧
      applyMeta es ee m run =
        (stOk, decide (m.st.time = 0 ∨ m.st.time < es), { run with states := insertState (joining es ee m run) sts })) ∨
    ((statesAfterHold es run.states).length = 4 ∧
      applyMeta es ee m run = (rndTrajFull, decide (m.st.time = 0 ∨ m.st.time < es), run.leaveHold es)) := by
  unfold applyMeta
  extract_lets late _ stamped anc hold left anc' r
  have hleft : left = run.leaveHold es := by
    simp only [left, anc, hold, ObjRun.leaveHold, statesAfterHold]
    cases anchorOf run.states es with
    | none => rfl
    | some a => dsimp only; split <;> rfl
  have hr : r = joining es ee m run := by simp only [r, hleft]; rfl
  clear_value left anc' r
  subst hleft hr
  split
  · next hany => exact .inl ⟨_, .refl _, .inr (by simpa [ObjRun.leaveHold] using hany), rfl⟩
  · split
    · next h4 =>
      split
      · next o rest _ hsts =>
        split
        · exact .inl ⟨rest, by rw [show statesAfterHold es run.states = o :: rest from hsts]; simp,
            .inl (by rw [hsts, List.length_cons] at h4; omega), rfl⟩
        · exact .inr ⟨h4, rfl⟩
      · exact .inr ⟨h4, rfl⟩
    · next h4 => exact .inl ⟨_, .refl _, .inl h4, rfl⟩

section
variable {es ee : Nat} {m : MetaRec} {run : ObjRun}

theorem applyMeta_late : (applyMeta es ee m run).2.1 = true ↔ m.st.time = 0 ∨ m.st.time < es := by
  obtain ⟨_, _, _, h⟩ | ⟨_, h⟩ := applyMeta_cases es ee m run <;> simp [h]

theorem applyMeta_inTimeOrder (h : InTimeOrder run.states) : InTimeOrder (applyMeta es ee m run).2.2.states := by
  obtain ⟨sts, hsub, _, he⟩ | ⟨_, he⟩ := applyMeta_cases es ee m run <;> rw [he]
  · exact insertState_inTimeOrder _ ((statesAfterHold_inTimeOrder es h).sublist hsub)
  · exact statesAfterHold_inTimeOrder es h

theorem applyMeta_length_le (h : run.states.length ≤ 4) : (applyMeta es ee m run).2.2.states.length ≤ 4 := by
  obtain ⟨sts, hsub, hroom, he⟩ | ⟨h4, he⟩ := applyMeta_cases es ee m run <;> rw [he]
  · have hl := hsub.length_le
    rw [length_statesAfterHold] at hl
    exact length_insertState_le (Nat.le_trans hl h) hroom
  · exact Nat.le_of_eq h4

/-- A record that is taken stands among the states at its time and position. -/
theorem applyMeta_joined (h : (applyMeta es ee m run).1 = stOk) : ∃ x ∈ (applyMeta es ee m run).2.2.states,
    x.time = (if m.st.time = 0 ∨ m.st.time < es then ee else m.st.time) ∧ x.x = m.st.x ∧ x.y = m.st.y ∧ x.z = m.st.z := by
  obtain ⟨sts, _, _, he⟩ | ⟨_, he⟩ := applyMeta_cases es ee m run <;> rw [he] at h ⊢
  · exact ⟨_, mem_insertState_self _ _, joining_place es ee m run⟩
  · exact absurd h (show rndTrajFull ≠ stOk by decide)

/-- A record that is refused changes no more than a state's time. -/
theorem applyMeta_full (h : (applyMeta es ee m run).1 ≠ stOk) :
    applyMeta es ee m run = (rndTrajFull, decide (m.st.time = 0 ∨ m.st.time < es), run.leaveHold es) ∧
      (statesAfterHold es run.states).length = 4 := by
  obtain ⟨_, _, _, he⟩ | ⟨h4, he⟩ := applyMeta_cases es ee m run
  · exact absurd (congrArg Prod.fst he) h
  · exact ⟨he, h4⟩

end

/-- Settles O25: the outcomes of the two descriptors, then what `applyMeta_cases` says of a record applied. -/
theorem metadataMovesObjects : Obligations.MetadataMovesObjects := by
  refine ⟨fun s r d bs => ⟨fun hd hz hs => ?_, fun hd hz hs => ?_, fun hd hs hz => ?_, fun hd hs _ => ?_, fun hd hs hz => ?_⟩,
    fun es ee m run hord hlen => ⟨applyMeta_inTimeOrder hord, applyMeta_length_le hlen, applyMeta_late, applyMeta_joined, fun h => ?_⟩⟩
  · exact ⟨_, exec_objPos_waits hd hz hs, s.queueMeta_waits r d.index _⟩
  · exact ⟨_, exec_objPos_wrongSource hd hz hs, s.bump_counted 0x80104 1⟩
  · exact ⟨_, length_parseBatch _ bs, fun k hk => getElem?_parseBatch hk bs, _, exec_objBatch_waits hd hs hz, s.queueMeta_waits r d.index _⟩
  · exact ⟨_, exec_objBatch_wrongSource hd hs, s.bump_counted 0x80104 _⟩
  · exact ⟨s, exec_objBatch_dmaError hd hs hz, rfl⟩
  · obtain ⟨he, h4⟩ := applyMeta_full h
    rw [he]
    exact ⟨rfl, h4, rfl, statesAfterHold_map_untimed es run.states⟩

end Sys2Proof.Machine
end

section
/-!
PROOF. Room correction filters (R78 to R87): what a checked filter command comes to, what the end of a load and of a crossfade leave, how
shed segments are to return, and the crossfade sample by sample; O26 is assembled from these.
-/
namespace Sys2Proof.Machine

@[simp] theorem State.finish_cnv (s : State) (r index status : Nat) : (s.finish r index status).cnv = s.cnv :=
  (State.finish_does (ps := [.regs, .host, .rings, .mgt, .macs, .pwr, .link]) (by decide) .refl).frame .cnv (by decide)

@[simp] theorem State.finish_convOut (s : State) (r index status k : Nat) : (s.finish r index status).convOut k = s.convOut k := by
  rw [State.convOut, State.finish_cnv, State.convOut]

/-! ### The filter commands: refused, waiting for their conversion, or taken at once -/

/-- What a filter command that takes effect makes of its output (R78, R81). -/
def FltLoad.taken (l : FltLoad) (x : ConvOut) : ConvOut :=
  if l.kind = 2 then { x with armed := false } else { x with idle := l.filter, armed := true, badIdle := [] }

/-- A ring's staging buffer holds an image (R81). -/
def State.stage (s : State) (ring : Nat) (bs : List Byte) : State :=
  s.onCnv (fun c => { c with staging := Cells.put (fun _ => ([] : List Byte)) c.staging ring bs })

/-- The command at the front of its ring is a FLT_LOAD whose image passes the checks of R80. -/
def ImageChecked (s : State) (r : Nat) (d : Desc) (bs : List Byte) (f : Filter) (sats : Nat) : Prop :=
  s.nextDesc r 0x10 = some d ∧ d.addr % 32 = 0 ∧ 32 ≤ d.w1.toNat ∧ d.w1.toNat % 4 = 0 ∧
    parseFilter s.maxTaps d.w1.toNat bs = .inr (f, sats)

section
variable {s : State} {l : FltLoad}

theorem State.fltApply_free (h : (s.convOut l.out).busy = false) :
    s.fltApply l = (s.setConvOut l.out (l.taken (s.convOut l.out))).finish l.ring l.index stOk := by
  simp [State.fltApply, FltLoad.taken, h]

theorem State.fltAccept_load (h : l.kind = 0) :
    s.fltAccept l = (s.setPhase l.ring l.index .accepted).onCnv (fun c => { c with loads := c.loads ++ [l] }) := by
  simp [State.fltAccept, h]

theorem State.fltAccept_atOnce (hk : l.kind ≠ 0) (hl : s.cnv.loads.any (fun q => q.ring == l.ring) = false)
    (hb : (s.convOut l.out).busy = false) :
    s.fltAccept l =
      ((s.setPhase l.ring l.index .accepted).setConvOut l.out (l.taken (s.convOut l.out))).finish l.ring l.index stOk := by
  rw [State.fltAccept, if_pos ⟨hk, by simp [hl]⟩]
  exact State.fltApply_free (s := s.setPhase l.ring l.index .accepted) hb

/-- A command taken at once changes its own output and its descriptor (R78). -/
theorem State.atOnce_changes (s : State) (r index o : Nat) (x : ConvOut) :
    ((s.setPhase r index .accepted).setConvOut o x).convOut o = x ∧
    (∀ k, k ≠ o → ((s.setPhase r index .accepted).setConvOut o x).convOut k = s.convOut k) ∧
    Frame [.rings, .cnv] s ((s.setPhase r index .accepted).setConvOut o x) :=
  ⟨State.convOut_setConvOut _ o x, fun k hk => State.convOut_setConvOut_ne _ o k x hk,
    (State.setConvOut_does (by decide) (State.setPhase_does (by decide) .refl)).frame⟩

/-- A refusal of R80 is counted in CNV_FILTER_REJ and leaves the sequencer as it was. -/
theorem State.fltRefusal_counted (s : State) :
    ((s.bump 0x90110 1).reg 0x90110 = s.up 0x90110 1 ∧ RegsKept [0x90110] s (s.bump 0x90110 1)) ∧ (s.bump 0x90110 1).cnv = s.cnv :=
  ⟨⟨State.reg_bump s 0x90110 1, State.bump_kept (by simp)⟩, rfl⟩

end

section
variable {s : State} {r : Nat} {d : Desc} {bs : List Byte} {f : Filter} {sats : Nat}

section
variable (hz : field d.w0 31 25 = 0) (hf : d.flags = 0) (ho : fltOut d < s.maxOut)
include hz hf ho

/-- FLT_LOAD with a checked image: the image is staged before the bank is looked at (R80, R81). -/
theorem exec_fltLoad_checked (hi : ImageChecked s r d bs f sats) :
    exec (.fltLoad r (some bs)) s = .next (if (s.convOut (fltOut d)).busy then (s.stage r bs).fltRefuse r d.index cnvBankBusy
      else ((s.stage r bs).bump 0x90118 sats).fltAccept { ring := r, index := d.index, kind := 0, out := fltOut d, filter := f }) := by
  obtain ⟨hd, ha, h32, h4, hp⟩ := hi
  have hsize : ¬ (d.addr % 32 ≠ 0 ∨ d.w1.toNat < 32 ∨ d.w1.toNat % 4 ≠ 0) := by omega
  have hp' : parseFilter (s.stage r bs).maxTaps d.w1.toNat bs = .inr (f, sats) := hp
  have hb : ((s.stage r bs).convOut (fltOut d)).busy = (s.convOut (fltOut d)).busy := rfl
  rw [State.stage] at hp' hb ⊢
  simp only [exec, execFltLoad, hd, hz, hf, ne_eq, not_true_eq_false, or_self, if_false, if_neg (Nat.not_le.mpr ho), if_neg hsize, hp', hb]
  split <;> rfl

theorem exec_fltUnity_checked (hd : s.nextDesc r 0x11 = some d) (hw : d.w1 = 0) :
    exec (.fltUnity r) s = .next (if (s.convOut (fltOut d)).busy then s.fltRefuse r d.index cnvBankBusy
      else s.fltAccept { ring := r, index := d.index, kind := 1, out := fltOut d, filter := .identity }) := by
  simp only [exec, execFltUnity, hd, hz, hf, hw, ne_eq, not_true_eq_false, or_self, if_false, if_neg (Nat.not_le.mpr ho)]
  split <;> rfl

theorem exec_fltDisarm_checked (hd : s.nextDesc r 0x12 = some d) :
    exec (.fltDisarm r) s = .next (if (s.convOut (fltOut d)).busy then s.fltRefuse r d.index cnvBankBusy
      else s.fltAccept { ring := r, index := d.index, kind := 2, out := fltOut d, filter := .identity }) := by
  simp only [exec, execFltDisarm, hd, hz, hf, ne_eq, not_true_eq_false, or_self, if_false, if_neg (Nat.not_le.mpr ho)]
  split <;> rfl

end

/-- A load that joins the others of the sequencer, its image staged and its saturated coefficients counted. -/
theorem State.loadJoins (s : State) (bs : List Byte) (sats : Nat) (l : FltLoad) (hl : l.kind = 0) :
    let t := ((s.stage l.ring bs).bump 0x90118 sats).fltAccept l
    t.cnv = { (s.stage l.ring bs).cnv with loads := s.cnv.loads ++ [l] } ∧ t.atPhase l.ring l.index .accepted ∧
      t.reg 0x90118 = s.up 0x90118 sats ∧ RegsKept [0x90118] s t ∧ Frame [.regs, .rings, .cnv] s t := by
  intro t
  have ht : t = _ := State.fltAccept_load hl
  rw [ht]
  refine ⟨rfl, State.atPhase_setPhase _ l.ring l.index .accepted, State.reg_bump s 0x90118 sats,
    State.bump_kept (s := s) (n := sats) (by simp), ?_⟩
  exact (State.onCnv_does (by decide) (State.setPhase_does (by decide) (State.bump_does (by decide)
    (State.onCnv_does (by decide) .refl)))).frame

end

/-! ### The end of a load and of a crossfade -/

theorem State.fltFollow_otherRings {ring : Nat} {ls : List FltLoad} {s : State} (h : ∀ q ∈ ls, q.ring ≠ ring) :
    State.fltFollow ring ls s = (ls, s) := by
  induction ls with
  | nil => rfl
  | cons q ls ih =>
    rw [State.fltFollow, if_pos (h q (by simp)), ih fun q hq => h q (by simp [hq])]

/-- A load ends: its output takes it, its descriptor completes, and the other loads go on waiting. -/
def State.loadEnds (s : State) (l : FltLoad) : State :=
  (((s.onCnv (fun c => { c with loads := [] })).setConvOut l.out (l.taken (s.convOut l.out))).finish l.ring l.index stOk).onCnv
    (fun c => { c with loads := s.cnv.loads.erase l ++ c.loads })

theorem State.loadEnds_changes (s : State) (l : FltLoad) :
    (s.loadEnds l).convOut l.out = l.taken (s.convOut l.out) ∧ (∀ k, k ≠ l.out → (s.loadEnds l).convOut k = s.convOut k) ∧
      (s.loadEnds l).cnv.loads = s.cnv.loads.erase l := by
  have hout : ∀ k, (s.loadEnds l).convOut k =
      ((s.onCnv (fun c => { c with loads := [] })).setConvOut l.out (l.taken (s.convOut l.out))).convOut k :=
    fun k => State.finish_convOut _ l.ring l.index stOk k
  refine ⟨(hout l.out).trans (State.convOut_setConvOut _ _ _), fun k h => (hout k).trans (State.convOut_setConvOut_ne _ _ k _ h), ?_⟩
  simp [State.loadEnds, State.onCnv, State.setConvOut]

section
variable {s : State} {dt r o n : Nat} {l : FltLoad}

/-- The oldest load of a ring takes effect with the others of the sequencer waiting (R81 step 4). -/
theorem exec_filterLoadDone_alone (hl : s.cnv.loads.find? (fun q => q.ring == r) = some l) (hb : (s.convOut l.out).busy = false)
    (hr : ∀ q ∈ s.cnv.loads.erase l, q.ring ≠ r) : exec (.filterLoadDone dt r) s = .next ((s.elapse dt).loadEnds l) := by
  have hb' : (((s.elapse dt).onCnv (fun c => { c with loads := [] })).convOut l.out).busy = false := hb
  simp only [exec, execFilterLoadDone, State.elapse_cnv, hl, State.fltFollow_otherRings hr, State.fltApply_free hb']
  rfl

theorem exec_filterCrossfadeEnd_over (hx : (s.convOut o).xfade = some n) (hn : 4096 ≤ n) :
    exec (.filterCrossfadeEnd dt o) s = .next ((s.elapse dt).setConvOut o
      { s.convOut o with xfade := none, segs := (s.convOut o).segs.map (fun g => { g with tailOld := [] }) }) := by
  simp [exec, execFilterCrossfadeEnd, hx, hn]

theorem exec_filterCrossfadeEnd_running (hx : (s.convOut o).xfade = some n) (hn : n < 4096) :
    exec (.filterCrossfadeEnd dt o) s = .next (s.elapse dt) := by
  simp [exec, execFilterCrossfadeEnd, hx, Nat.not_le.mpr hn]

end

/-! ### Shed segments on their way back -/

/-- The FDL of a segment holds a zeroed spectrum (R87). -/
def State.fdlZeroed (s : State) (p : Nat × Nat) : Bool := (((s.convOut p.1).seg p.2).fdl.take (segParts s.rateClass p.2)).any (·.isNone)

/-- Segment `p`, shed in `s`, is on its way back in `t`: with its next super-block from block `m` on, or waiting for a zeroed spectrum
to leave its FDL (R86, R87). -/
def ComesBack (m : Nat) (s : State) (p : Nat × Nat) (t : State) : Prop :=
  if s.fdlZeroed p then p.2 ∈ (t.convOut p.1).fdlWait ∧ p.2 ∉ (t.convOut p.1).shed
  else (p.2, nextTail m p.1 p.2) ∈ (t.convOut p.1).restoreAt

/-- What the return of any segment keeps of an output: its FDLs, which segments wait or are to return, and that a segment is not shed. -/
structure ConvOut.Restores (x y : ConvOut) : Prop where
  segs : y.segs = x.segs
  fdlWait : x.fdlWait ⊆ y.fdlWait
  restoreAt : x.restoreAt ⊆ y.restoreAt
  shed : y.shed ⊆ x.shed

theorem ConvOut.Restores.refl (x : ConvOut) : x.Restores x := ⟨rfl, List.Subset.refl _, List.Subset.refl _, List.Subset.refl _⟩

theorem ConvOut.Restores.trans {x y z : ConvOut} (h : x.Restores y) (k : y.Restores z) : x.Restores z :=
  ⟨k.segs.trans h.segs, List.Subset.trans h.fdlWait k.fdlWait, List.Subset.trans h.restoreAt k.restoreAt,
    List.Subset.trans k.shed h.shed⟩

/-- The same of every output. -/
structure Restores (s t : State) : Prop where
  rateClass : t.rateClass = s.rateClass
  outs : ∀ o, (s.convOut o).Restores (t.convOut o)

theorem Restores.refl (s : State) : Restores s s := ⟨rfl, fun _ => .refl _⟩

theorem Restores.trans {s t u : State} (h : Restores s t) (k : Restores t u) : Restores s u :=
  ⟨k.rateClass.trans h.rateClass, fun o => (h.outs o).trans (k.outs o)⟩

theorem Restores.fdlZeroed {s t : State} (h : Restores s t) (p : Nat × Nat) : t.fdlZeroed p = s.fdlZeroed p := by
  simp only [State.fdlZeroed, ConvOut.seg, (h.outs p.1).segs, h.rateClass]

theorem ComesBack.restores {m : Nat} {s t u : State} {p : Nat × Nat} (h : ComesBack m s p t) (k : Restores t u) : ComesBack m s p u := by
  unfold ComesBack at h ⊢
  split at h
  · next hz =>
    obtain ⟨hwait, hshed⟩ := h
    rw [if_pos hz]
    exact ⟨(k.outs p.1).fdlWait hwait, fun hm => hshed ((k.outs p.1).shed hm)⟩
  · next hz =>
    rw [if_neg hz]
    exact (k.outs p.1).restoreAt h

/-- An output with one of its shed segments on its way back. -/
def ConvOut.bringBack (x : ConvOut) (zeroed : Bool) (seg block : Nat) : ConvOut :=
  if zeroed then { x with shed := x.shed.filter (· != seg), fdlWait := x.fdlWait ++ [seg] }
  else { x with restoreAt := x.restoreAt ++ [(seg, block)] }

theorem ConvOut.bringBack_restores (x : ConvOut) (zeroed : Bool) (seg block : Nat) : x.Restores (x.bringBack zeroed seg block) := by
  cases zeroed
  · exact ⟨rfl, List.Subset.refl _, List.subset_append_left _ _, List.Subset.refl _⟩
  · exact ⟨rfl, List.subset_append_left _ _, List.Subset.refl _, List.filter_sublist.subset⟩

theorem State.restoreSeg_eq (m : Nat) (s : State) (p : Nat × Nat) :
    State.restoreSeg m s p = s.setConvOut p.1 ((s.convOut p.1).bringBack (s.fdlZeroed p) p.2 (nextTail m p.1 p.2)) := rfl

theorem State.restoreSeg_restores (m : Nat) (s : State) (p : Nat × Nat) : Restores s (State.restoreSeg m s p) := by
  refine ⟨rfl, fun o => ?_⟩
  rw [State.restoreSeg_eq]
  by_cases h : o = p.1
  · subst h
    rw [State.convOut_setConvOut]
    exact ConvOut.bringBack_restores _ _ _ _
  · rw [State.convOut_setConvOut_ne _ _ _ _ h]
    exact .refl _

theorem State.restoreSeg_comesBack (m : Nat) (s : State) (p : Nat × Nat) : ComesBack m s p (State.restoreSeg m s p) := by
  rw [State.restoreSeg_eq, ComesBack, State.convOut_setConvOut]
  cases s.fdlZeroed p <;> simp [ConvOut.bringBack]

theorem State.restoreSegs_restores (m : Nat) (s : State) (ps : List (Nat × Nat)) : Restores s (ps.foldl (State.restoreSeg m) s) := by
  induction ps generalizing s with
  | nil => exact .refl s
  | cons p ps ih => exact (State.restoreSeg_restores m s p).trans (ih _)

/-- Every segment restored is on its way back after the last of them. -/
theorem State.restoreSegs_comeBack {m : Nat} {s : State} {ps : List (Nat × Nat)} {p : Nat × Nat} (hp : p ∈ ps) :
    ComesBack m s p (ps.foldl (State.restoreSeg m) s) := by
  induction ps generalizing s with
  | nil => exact absurd hp List.not_mem_nil
  | cons q ps ih =>
    rw [List.foldl_cons]
    obtain rfl | hp := List.mem_cons.mp hp
    · exact (State.restoreSeg_comesBack m s p).restores (State.restoreSegs_restores m _ ps)
    · have h := ih (s := State.restoreSeg m s q) hp
      rwa [ComesBack, (State.restoreSeg_restores m s q).fdlZeroed p] at h

theorem State.restoreSegs_shedOrder (m : Nat) (s : State) (ps : List (Nat × Nat)) :
    (ps.foldl (State.restoreSeg m) s).cnv.shedOrder = s.cnv.shedOrder := by
  induction ps generalizing s with
  | nil => rfl
  | cons p ps ih => exact ih _

/-- The shed segments restored together: the 32 shed last, the newest first (R86). -/
def State.newestShed (s : State) : List (Nat × Nat) := (s.cnv.shedOrder.drop (s.cnv.shedOrder.length - 32)).reverse

theorem exec_segmentRestore_due {s : State} (hc : s.restoreFrames ≤ s.cnv.cleanFrames) (ho : s.cnv.shedOrder ≠ [])
    (hr : s.mgt.render.run = true) :
    exec .segmentRestore s = .next ((s.newestShed.foldl (State.restoreSeg (s.convBlockNo + 1)) s).onCnv
      (fun c => { c with shedOrder := c.shedOrder.take (s.cnv.shedOrder.length - 32), cleanFrames := 0 })) := by
  rw [exec, execSegmentRestore, if_pos ⟨hc, ho, hr⟩]
  rfl

/-! ### The crossfade, sample by sample (R83) -/

/-- A sample of a crossfade at position `t` of its 4,096. -/
def crossSample (t : Nat) (a b : Int) : Int := (a * (4096 - t) + b * t + 2048).fdiv 4096

/-- The position in the crossfade of sample `i` of a block that starts at `p`, where the swap lies at sample `j`. -/
def crossPos (p j i : Nat) : Nat := min 4096 (p + i - j)

theorem getElem?_crossBlock {p j i : Nat} {old new : List Int} {a b : Int} (ha : old[i]? = some a) (hb : new[i]? = some b) :
    (crossBlock p j old new)[i]? = some (if i < j then a else crossSample (crossPos p j i) a b) := by
  simp [crossBlock, ha, hb, crossSample, crossPos, List.getElem?_zipWith]

theorem crossSample_eq_ediv (t : Nat) (a b : Int) : crossSample t a b = (a * (4096 - t) + b * t + 2048) / 4096 :=
  Int.fdiv_eq_ediv_of_nonneg _ (by decide)

theorem crossSample_start (a b : Int) : crossSample 0 a b = a := by
  rw [crossSample_eq_ediv]
  omega

theorem crossSample_end (a b : Int) : crossSample 4096 a b = b := by
  rw [crossSample_eq_ediv]
  omega

/-- A weighted mean of two samples lies between them, and so does the whole number nearest to it. -/
theorem crossSample_between {t : Nat} (ht : t ≤ 4096) (a b : Int) : min a b ≤ crossSample t a b ∧ crossSample t a b ≤ max a b := by
  have h0 : (0 : Int) ≤ t := Int.natCast_nonneg t
  have h1 : (0 : Int) ≤ 4096 - t := by omega
  have lo : min a b * 4096 ≤ a * (4096 - t) + b * t := calc
    min a b * 4096 = min a b * (4096 - t) + min a b * t := by rw [← Int.mul_add, Int.sub_add_cancel]
    _ ≤ a * (4096 - t) + b * t :=
      Int.add_le_add (Int.mul_le_mul_of_nonneg_right (Int.min_le_left a b) h1) (Int.mul_le_mul_of_nonneg_right (Int.min_le_right a b) h0)
  have hi : a * (4096 - t) + b * t ≤ max a b * 4096 := calc
    a * (4096 - t) + b * t ≤ max a b * (4096 - t) + max a b * t :=
      Int.add_le_add (Int.mul_le_mul_of_nonneg_right (Int.le_max_left a b) h1) (Int.mul_le_mul_of_nonneg_right (Int.le_max_right a b) h0)
    _ = max a b * 4096 := by rw [← Int.mul_add, Int.sub_add_cancel]
  rw [crossSample_eq_ediv]
  generalize min a b = m at lo ⊢
  generalize max a b = n at hi ⊢
  generalize a * (4096 - t) + b * t = x at lo hi ⊢
  omega

/-- What a sample of a block in a crossfade comes to: the old one up to the swap's, the new one from the 4,096th on, never beyond either. -/
theorem crossed_fades (p j i : Nat) (a b : Int) :
    let y := if i < j then a else crossSample (crossPos p j i) a b
    (i < j → y = a) ∧ (j ≤ i → p + i - j = 0 → y = a) ∧ (j ≤ i → 4096 ≤ p + i - j → y = b) ∧ min a b ≤ y ∧ y ≤ max a b := by
  intro y
  have after : j ≤ i → y = crossSample (crossPos p j i) a b := fun h => if_neg (Nat.not_lt.mpr h)
  refine ⟨fun h => if_pos h, fun h h0 => ?_, fun h h1 => ?_, ?_⟩
  · rw [after h, crossPos, h0, Nat.min_zero, crossSample_start]
  · rw [after h, crossPos, Nat.min_eq_left h1, crossSample_end]
  · obtain h | h := Nat.lt_or_ge i j
    · rw [show y = a from if_pos h]
      exact ⟨Int.min_le_left a b, Int.le_max_left a b⟩
    · rw [after h]
      exact crossSample_between (Nat.min_le_left _ _) a b

/-- Settles O26: each command, event and sample by the lemma that says what it comes to. -/
theorem filtersAreLoadedAndFaded : Obligations.FiltersAreLoadedAndFaded := by
  refine ⟨fun s r d bs f sats => ?_, fun s dt r o l => ⟨fun hl hb hr => ?_, fun n hx hn => ?_, fun n => exec_filterCrossfadeEnd_running,
    fun hc ho hr => ?_⟩, fun p j i old new a b ha hb => ⟨_, getElem?_crossBlock ha hb, crossed_fades p j i a b⟩⟩
  · intro o x staged image load hz hf ho
    refine ⟨fun hi hb => ?_, fun hd hw hb hl => ?_, fun hd hb hl => ?_, fun hb => ⟨fun hi => ?_, fun hd hw => ?_, fun hd => ?_⟩⟩
    · have he := exec_fltLoad_checked hz hf ho hi
      rw [if_neg (Bool.eq_false_iff.mp hb)] at he
      exact ⟨_, he, s.loadJoins bs sats (load 0 f) rfl⟩
    · have he := exec_fltUnity_checked hz hf ho hd hw
      rw [if_neg (Bool.eq_false_iff.mp hb), State.fltAccept_atOnce Nat.one_ne_zero hl hb] at he
      exact ⟨_, he, s.atOnce_changes r d.index o _⟩
    · have he := exec_fltDisarm_checked hz hf ho hd
      rw [if_neg (Bool.eq_false_iff.mp hb), State.fltAccept_atOnce (Nat.succ_ne_zero 1) hl hb] at he
      exact ⟨_, he, s.atOnce_changes r d.index o _⟩
    · have he := exec_fltLoad_checked hz hf ho hi
      rw [if_pos hb] at he
      exact ⟨_, he, (s.stage r bs).fltRefusal_counted⟩
    · have he := exec_fltUnity_checked hz hf ho hd hw
      rw [if_pos hb] at he
      exact ⟨_, he, s.fltRefusal_counted⟩
    · have he := exec_fltDisarm_checked hz hf ho hd
      rw [if_pos hb] at he
      exact ⟨_, he, s.fltRefusal_counted⟩
  · exact ⟨_, exec_filterLoadDone_alone hl hb hr, (s.elapse dt).loadEnds_changes l⟩
  · exact ⟨_, exec_filterCrossfadeEnd_over hx hn, State.convOut_setConvOut _ o _, fun k hk => State.convOut_setConvOut_ne _ o k _ hk,
      (State.setConvOut_does (by decide) (State.elapse_does (by decide) .refl)).frame⟩
  · refine ⟨_, exec_segmentRestore_due hc ho hr, ?_, rfl,
      fun p hp => State.restoreSegs_comeBack (List.mem_reverse.mpr hp), ?_⟩
    · exact congrArg _ (State.restoreSegs_shedOrder _ s _)
    · exact (State.onCnv_does (by decide) (.foldl .refl fun _ _ h => State.restoreSeg_does (by decide) h)).frame

end Sys2Proof.Machine
end

section
/-!
PROOF. Parameter sets (R105 to R109): which answer PSET_LOAD and PSET_COPY give for a domain they may name, how a job joins those at work,
and what a staged load writes when it ends; O27 is assembled from these.
-/
namespace Sys2Proof.Machine

/-! ### The banks: a write of the inactive ones leaves the live ones -/

@[simp] theorem State.idleSets_setIdle (s : State) (b : Sets) : (s.setIdle b).idleSets = b := rfl
@[simp] theorem State.liveSets_setIdle (s : State) (b : Sets) : (s.setIdle b).liveSets = s.liveSets := rfl

/-! ### The two commands: refused for a busy domain, or at work -/

/-- A job stands last among those at work, and its descriptor is accepted (R106). -/
def State.jobJoins (s : State) (j : PsetJob) : State :=
  (s.setPhase j.ring j.index .accepted).onMix (fun m => { m with jobs := m.jobs ++ [j] })

theorem State.jobJoins_waits (s : State) (j : PsetJob) :
    (s.jobJoins j).mix = { s.mix with jobs := s.mix.jobs ++ [j] } ∧ (s.jobJoins j).atPhase j.ring j.index .accepted ∧
      Frame [.rings, .mix] s (s.jobJoins j) :=
  ⟨rfl, State.atPhase_setPhase s j.ring j.index .accepted, (State.onMix_does (by decide) (State.setPhase_does (by decide) .refl)).frame⟩

/-- The size and address of a payload that R107 admits. -/
def PayloadSizeOk (d : Desc) : Prop := d.w1.toNat % 8 = 0 ∧ 8 ≤ d.w1.toNat ∧ d.w1.toNat ≤ 1048576 ∧ d.addr % 32 = 0

theorem PayloadSizeOk.admitted {d : Desc} (h : PayloadSizeOk d) :
    ¬ (d.w1.toNat % 8 ≠ 0 ∨ d.w1.toNat < 8 ∨ 1048576 < d.w1.toNat ∨ d.addr % 32 ≠ 0) := by
  obtain ⟨h8, hlo, hhi, ha⟩ := h
  omega

section
variable {s : State} {r : Nat} {d : Desc} {data : Option (List Byte)} {bs : List Byte} {b : Sets}
variable (hz : field d.w0 31 24 = 0) (ho : domainOk (field d.w0 23 16) = true) (hr : wrongRing r (field d.w0 23 16) = false)
include hz ho hr

section
variable (hd : s.nextDesc r 0x20 = some d) (hf : d.flags < 2)
include hd hf

theorem exec_psetLoad_busy (hb : s.domainBusy (field d.w0 23 16) = true) :
    exec (.psetLoad r data) s = .next (s.mixRefuse r d.index mixBankBusy) := by
  simp [exec, execPsetLoad, psetLoad, hd, hz, ho, hr, hb, Nat.div_eq_of_lt hf]

theorem exec_psetLoad_checked (hb : s.domainBusy (field d.w0 23 16) = false) (hn : PayloadSizeOk d)
    (hp : loadPayload (s.loadCtx s.planeTags) (field d.w0 23 16) (bs.take d.w1.toNat)
      (if d.flags = 1 then s.idleSets.takeDomain s.liveSets (field d.w0 23 16) else s.idleSets) = .inr b) :
    exec (.psetLoad r (some bs)) s = .next (s.jobJoins { ring := r, index := d.index, domain := field d.w0 23 16, copyLive := d.flags = 1
                                                         payload := some (bs.take d.w1.toNat) }) := by
  simp [exec, execPsetLoad, psetLoad, hd, hz, ho, hr, hb, Nat.div_eq_of_lt hf, hn.admitted, hp, State.jobJoins]

end

section
variable (hd : s.nextDesc r 0x21 = some d) (hf : d.flags = 0)
include hd hf

theorem exec_psetCopy_busy (hb : s.domainBusy (field d.w0 23 16) = true) :
    exec (.psetCopy r) s = .next (s.mixRefuse r d.index mixBankBusy) := by
  simp [exec, execPsetCopy, hd, hz, ho, hr, hb, hf]

theorem exec_psetCopy_checked (hb : s.domainBusy (field d.w0 23 16) = false) (hw : d.w1 = 0) :
    exec (.psetCopy r) s =
      .next (s.jobJoins { ring := r, index := d.index, domain := field d.w0 23 16, copyLive := true, payload := none }) := by
  simp [exec, execPsetCopy, hd, hz, ho, hr, hb, hf, hw, State.jobJoins]

end

end

/-! ### The end of a staged load -/

/-- A job leaves those at work, and the inactive banks are `b` (R106). -/
def State.jobWrites (s : State) (j : PsetJob) (b : Sets) : State :=
  (s.onMix (fun m => { m with jobs := m.jobs.erase j })).setIdle b

/-- A staged load whose payload still passes its checks is written (R106). -/
theorem psetDone_writes {s : State} {tags : Cells Nat} {j : PsetJob} {p : List Byte} {b : Sets} (hb : s.domainBusy j.domain = false)
    (hl : loadPayload (s.loadCtx tags) j.domain p
      (if j.copyLive then s.idleSets.takeDomain s.liveSets j.domain else s.idleSets) = .inr b) :
    psetDone tags s j p = (s.setIdle b).finish j.ring j.index stOk := by
  simp [psetDone, hb, hl]

/-- The oldest staged load of a ring ends; neither the time passed nor its leaving the jobs shows in what it is checked against. -/
theorem exec_psetLoadDone_writes {s : State} {dt r : Nat} {j : PsetJob} {p : List Byte} {b : Sets}
    (hj : s.mix.jobs.find? (fun q => q.ring == r) = some j) (hp : j.payload = some p) (hb : s.domainBusy j.domain = false)
    (hl : loadPayload (s.loadCtx s.planeTags) j.domain p
      (if j.copyLive then s.idleSets.takeDomain s.liveSets j.domain else s.idleSets) = .inr b) :
    exec (.psetLoadDone dt r) s = .next (((s.elapse dt).jobWrites j b).finish j.ring j.index stOk) := by
  simp only [exec, execPsetLoadDone, psetLoadDone, State.elapse_mix, hj, hp]
  exact congrArg _ (psetDone_writes (s := (s.elapse dt).onMix (fun m => { m with jobs := m.jobs.erase j })) hb hl)

theorem State.jobWrites_changes (s : State) (dt : Nat) (j : PsetJob) (b : Sets) :
    ((s.elapse dt).jobWrites j b).idleSets = b ∧ ((s.elapse dt).jobWrites j b).liveSets = s.liveSets ∧
      ((s.elapse dt).jobWrites j b).mix.jobs = s.mix.jobs.erase j ∧ Frame [.clock, .rnd, .mix] s ((s.elapse dt).jobWrites j b) :=
  ⟨State.idleSets_setIdle _ b, State.liveSets_setIdle _ b, rfl,
    (State.setIdle_does (by decide) (State.onMix_does (by decide) (State.elapse_does (by decide) .refl))).frame⟩

/-- Settles O27: each command by the lemma that says what it comes to; a refusal is one counter. -/
theorem parameterSetsAreStaged : Obligations.ParameterSetsAreStaged := by
  refine ⟨fun s r d bs b => ?_, fun s dt r j p b hj hp hb hl => ⟨_, exec_psetLoadDone_writes hj hp hb hl, s.jobWrites_changes dt j b⟩⟩
  intro dom len base busy hz ho hr
  refine ⟨fun hd hf hb h8 hlo hhi ha hp => ?_, fun hd hf hb => ?_, fun hd hf hw hb => ?_, fun hd hf hb => ?_⟩
  · exact ⟨_, exec_psetLoad_checked hz ho hr hd hf hb ⟨h8, hlo, hhi, ha⟩ hp, s.jobJoins_waits _⟩
  · exact ⟨_, exec_psetLoad_busy hz ho hr hd hf hb, s.bump_counted 0xA0100 1⟩
  · exact ⟨_, exec_psetCopy_checked hz ho hr hd hf hb hw, s.jobJoins_waits _⟩
  · exact ⟨_, exec_psetCopy_busy hz ho hr hd hf hb, s.bump_counted 0xA0100 1⟩

end Sys2Proof.Machine
end

section
/-!
PROOF. Calls (R119 to R124, R130, R135, R137): which answer the checks of R122 give, and what an accepted call command leaves of its
channel and of its descriptor; O29 is assembled from these.
-/
namespace Sys2Proof.Machine

/-! ### Device-to-host entries: outstanding descriptors stay as they were -/

@[simp] theorem State.firedFlags_ring (s : State) (v k : Nat) : (s.firedFlags v).ring k = s.ring k := rfl

@[simp] theorem State.message_ring (s : State) (v k : Nat) : (s.message v).ring k = s.ring k := by
  rw [State.ring, (State.message_does (ps := [.host]) (by decide) .refl).frame .rings (by decide), State.ring]

@[simp] theorem State.fireRing_ring (s : State) (src r k : Nat) : (s.fireRing src r).ring k = s.ring k := by
  rw [State.ring, (State.fireRing_does (ps := [.regs, .host]) (by decide) .refl).frame .rings (by decide), State.ring]

/-- An entry advances the ring it is written to (R216). -/
theorem State.writeD2h_wr (s : State) (r : Nat) (e : D2h) : ((s.writeD2h r e).ring r).wr = idxAdd (s.ring r).wr 1 := by
  simp only [State.writeD2h, State.consumerWrite, State.emit_ring, State.ring_setRing]

theorem State.writeD2h_descs (s : State) (r k : Nat) (e : D2h) : ((s.writeD2h r e).ring k).descs = (s.ring k).descs := by
  simp only [State.writeD2h, State.consumerWrite, State.emit_ring]
  by_cases h : k = r
  · rw [h, State.ring_setRing]
  · rw [State.ring_setRing_ne _ _ _ _ h, State.emit_ring]
    split <;> rfl

theorem State.writeOrDrop_descs (s : State) (r c k : Nat) (e : D2h) : ((s.writeOrDrop r c e).ring k).descs = (s.ring k).descs := by
  unfold State.writeOrDrop
  split
  · rw [State.bump_ring]
    by_cases h : k = r
    · rw [h, State.ring_onRing]
    · rw [State.ring_onRing_ne _ _ _ _ h]
  · exact s.writeD2h_descs r k e

theorem State.fire_descs (s : State) (v k : Nat) (a b c : Word) : ((s.fire v a b c).ring k).descs = (s.ring k).descs := by
  rw [State.fire, State.fireAt, State.message_ring, State.writeOrDrop_descs]
  rfl

theorem State.auditCross_descs (s : State) (b k : Nat) : ((s.auditCross b).ring k).descs = (s.ring k).descs := by
  unfold State.auditCross
  extract_lets f t
  have ht : (t.ring k).descs = (s.ring k).descs := by
    show ((if _ then _ else _ : State).ring k).descs = _
    split
    · rw [State.fire_descs, State.setFlag_ring]
    · rfl
  split
  · rw [State.fire_descs, ht]
  · exact ht

theorem State.auditReserve_descs (s : State) (n k : Nat) : ((s.auditReserve n).ring k).descs = (s.ring k).descs :=
  State.auditCross_descs _ _ k

theorem State.auditReserve_reserved (s : State) (n : Nat) : (s.auditReserve n).audit.reserved = s.audit.reserved + n := by
  have h : ∀ (t : State) (b : Nat), (t.auditCross b).audit = t.audit := fun t b =>
    (State.auditCross_does (ps := [.regs, .host, .rings]) (by decide) .refl).frame .audit (by decide)
  rw [State.auditReserve, h]
  rfl

/-! ### A call command accepted -/

@[simp] theorem State.setPhase_request (s : State) (r index i time : Nat) (p : Phase) :
    (s.setPhase r index p).request i time = s.request i time := rfl

theorem State.auditReserve_frame (s : State) (n : Nat) : Frame [.regs, .host, .rings, .audit] s (s.auditReserve n) :=
  (State.auditReserve_does (by decide) .refl).frame

@[simp] theorem State.auditReserve_vox (s : State) (n : Nat) : (s.auditReserve n).vox = s.vox := s.auditReserve_frame n .vox (by decide)

@[simp] theorem State.auditReserve_voxChan (s : State) (n v : Nat) : (s.auditReserve n).voxChan v = s.voxChan v := by
  rw [State.voxChan, State.auditReserve_vox, State.voxChan]

@[simp] theorem State.auditReserve_request (s : State) (n i time : Nat) : (s.auditReserve n).request i time = s.request i time := by
  have hm : (s.auditReserve n).mgt = s.mgt := s.auditReserve_frame n .mgt (by decide)
  have hc : (s.auditReserve n).clock = s.clock := s.auditReserve_frame n .clock (by decide)
  simp only [State.request, State.now, hm, hc]

theorem State.atPhase_auditReserve {s : State} {r index : Nat} {p : Phase} (n : Nat) (h : s.atPhase r index p) :
    (s.auditReserve n).atPhase r index p := by
  rwa [State.atPhase, State.auditReserve_descs]

theorem State.atPhase_setVox (s : State) (v : Nat) (x : VoxChan) (r index : Nat) (p : Phase) :
    (s.setVox v x).atPhase r index p = s.atPhase r index p := rfl

/-- A logged command is accepted: its descriptor waits for its effect, and the audit log holds room for its entry (R123, R383). -/
abbrev State.acceptLogged (s : State) (r index : Nat) : State := (s.setPhase r index .accepted).auditReserve 1

/-- A call command is accepted: its channel is `x` and no other changes, its descriptor waits, and `n` entries are reserved. -/
def CallAccepted (s : State) (r index v : Nat) (parts : List Part) (n : Nat) (x : VoxChan) (t : State) : Prop :=
  t.voxChan v = x ∧ (∀ k, k ≠ v → t.voxChan k = s.voxChan k) ∧ t.vox.nextK = s.vox.nextK ∧ t.audit.reserved = s.audit.reserved + n ∧
    t.atPhase r index .accepted ∧ Frame parts s t

theorem State.callAccepted_logged (s : State) (r index v : Nat) (x : VoxChan) :
    CallAccepted s r index v [.regs, .host, .rings, .audit, .vox] 1 x ((s.acceptLogged r index).setVox v x) := by
  refine ⟨State.voxChan_setVox _ v x, fun k hk => ?_, ?_, ?_, ?_, ?_⟩
  · rw [State.voxChan_setVox_ne _ v k x hk, State.auditReserve_voxChan, State.setPhase_voxChan]
  · rw [State.setVox, State.auditReserve_vox, State.setPhase_vox]
  · rw [State.setVox_audit, State.auditReserve_reserved, State.setPhase_audit]
  · rw [State.atPhase_setVox]
    exact State.atPhase_auditReserve 1 (s.atPhase_setPhase r index .accepted)
  · exact (State.setVox_does (by decide) (State.auditReserve_does (by decide) (State.setPhase_does (by decide) .refl))).frame

theorem State.callAccepted_unlogged (s : State) (r index v : Nat) (x : VoxChan) :
    CallAccepted s r index v [.rings, .vox] 0 x ((s.setPhase r index .accepted).setVox v x) :=
  ⟨State.voxChan_setVox _ v x, fun k hk => State.voxChan_setVox_ne _ v k x hk, rfl, rfl, s.atPhase_setPhase r index .accepted,
    (State.setVox_does (by decide) (State.setPhase_does (by decide) .refl)).frame⟩

/-! ### The checks of R122 -/

/-- CHAN has nine bits: no descriptor names a channel beyond the 512. -/
theorem chan_lt (d : Desc) : field d.w0 24 16 < 512 := Nat.mod_lt _ (by decide)

section
variable {s : State} {r : Nat} {d : Desc} (hz : field d.w0 31 25 = 0)
include hz

theorem voxCheck_opening {modify : Bool} (hc : s.fld 0x80 4 0 < 16) :
    voxCheck s d true (field d.w0 24 16) true modify = if (s.voxChan (field d.w0 24 16)).st ≠ 0 then some voxBusy else none := by
  simp [voxCheck, hz, Nat.not_le.mpr (chan_lt d), Nat.not_le.mpr hc]

theorem voxCheck_idle {modify : Bool} (hst : (s.voxChan (field d.w0 24 16)).st = 0) :
    voxCheck s d true (field d.w0 24 16) false modify = some voxIdleSt := by
  simp [voxCheck, hz, Nat.not_le.mpr (chan_lt d), hst]

theorem voxCheck_inUse {modify : Bool} (hst : (s.voxChan (field d.w0 24 16)).st ≠ 0)
    (hm : modify = true → (s.voxChan (field d.w0 24 16)).st ≠ 3) : voxCheck s d true (field d.w0 24 16) false modify = none := by
  simpa [voxCheck, hz, Nat.not_le.mpr (chan_lt d), hst] using hm

end

theorem voxCheckEnd_passed {s : State} {r v : Nat} {d : Desc} {opening timed : Bool} (hring : opening = true ∨ (s.voxChan v).ring = r)
    (htime : timed = true → d.time ≤ s.now + 3600000000000) (hrun : s.mgt.voice.run = true) : voxCheckEnd s r d v opening timed = none := by
  have h1 : ¬ (¬ opening = true ∧ (s.voxChan v).ring ≠ r) := fun ⟨ho, hr⟩ => hring.elim ho hr
  have h2 : ¬ (timed = true ∧ s.now + 3600000000000 < d.time) := fun ⟨ht, hl⟩ => Nat.not_lt.mpr (htime ht) hl
  rw [voxCheckEnd, if_neg h1, if_neg h2, if_neg (by simp [hrun])]

theorem voxCheckEnd_wrongRing {s : State} {r v : Nat} {d : Desc} {timed : Bool} (hring : (s.voxChan v).ring ≠ r) :
    voxCheckEnd s r d v false timed = some voxWrongRing := by
  simp [voxCheckEnd, hring]

/-! ### The five commands -/

/-- The record of an open or a modification: its place, its fields, and its codec at its rate (R121). -/
structure RecordOk (d : Desc) (rec_ : List Byte) : Prop where
  length : d.w1 = 128
  aligned : d.addr % 32 = 0
  fields : voxRecOk rec_ = true
  rate : voxRateOk rec_ = true

section
variable {s : State} {r : Nat} {d : Desc} {bs : List Byte} (hz : field d.w0 31 25 = 0)
include hz

/-! #### Accepted -/

section
variable (hrun : s.mgt.voice.run = true)
include hrun

theorem exec_voxOpen_accepted (hd : s.nextDesc r 0x30 = some d) (hsoon : d.time ≤ s.now + 3600000000000) (hf : d.flags = 0)
    (hc : s.fld 0x80 4 0 < 16) (hst : (s.voxChan (field d.w0 24 16)).st = 0) (hrec : RecordOk d (bs.take 128))
    (hport : ∀ u ∈ s.voxOpenList, voxSamePort (s.voxChan u).rec_ (bs.take 128) = false)
    (hcap : s.voxAdmitted + voxCost (bs.take 128) ≤ s.voxCap) (hroom : s.auditRoom 1 = true) :
    exec (.voxOpen r (some bs)) s = .next ((s.acceptLogged r d.index).setVox (field d.w0 24 16)
      { VoxChan.idle0 with st := 1, ring := r, rec_ := bs.take 128
                           ops := [{ op := 0x30, record := bs.take 128, ecReset := false, req := s.request d.index d.time }] }) := by
  have hp : s.voxOpenList.any (fun u => voxSamePort (s.voxChan u).rec_ (bs.take 128)) = false := by simpa using hport
  have he : voxCheckEnd s r d (field d.w0 24 16) true true = none := voxCheckEnd_passed (.inl rfl) (fun _ => hsoon) hrun
  simp [exec, execVoxOpen, hd, hf, voxCheck_opening hz hc, hst, hrec.length, hrec.aligned, hrec.fields, hrec.rate, hp,
    Nat.not_lt.mpr hcap, he, hroom]

theorem exec_voxModify_accepted (hd : s.nextDesc r 0x31 = some d) (hsoon : d.time ≤ s.now + 3600000000000)
    (hf : d.flags = 0 ∨ d.flags = 2) (hst : (s.voxChan (field d.w0 24 16)).st = 1 ∨ (s.voxChan (field d.w0 24 16)).st = 2)
    (hring : (s.voxChan (field d.w0 24 16)).ring = r) (hrec : RecordOk d (bs.take 128))
    (hsame : voxSameFixed (s.voxChan (field d.w0 24 16)).rec_ (bs.take 128) = true) (hroom : s.auditRoom 1 = true) :
    exec (.voxModify r (some bs)) s = .next ((s.acceptLogged r d.index).setVox (field d.w0 24 16)
      { s.voxChan (field d.w0 24 16) with
        ops := (s.voxChan (field d.w0 24 16)).ops ++
          [{ op := 0x31, record := bs.take 128, ecReset := bitOf d.w0 9, req := s.request d.index d.time }] }) := by
  have hfl : (d.flags == 0 || d.flags == 2) = true := by simpa using hf
  have hck : voxCheck s d true (field d.w0 24 16) false true = none := voxCheck_inUse hz (by omega) (by omega)
  have he : voxCheckEnd s r d (field d.w0 24 16) false true = none := voxCheckEnd_passed (.inr hring) (fun _ => hsoon) hrun
  simp [exec, execVoxModify, hd, hfl, hck, hrec.length, hrec.aligned, hrec.fields, hrec.rate, hsame, he, hroom, State.onVox]

section
variable (hst : (s.voxChan (field d.w0 24 16)).st ≠ 0) (hring : (s.voxChan (field d.w0 24 16)).ring = r)
include hst hring

theorem exec_voxClose_accepted (hd : s.nextDesc r 0x32 = some d) (hsoon : d.time ≤ s.now + 3600000000000) (hf : d.flags = 0)
    (hw : d.w1 = 0) (hroom : s.auditRoom 1 = true) :
    exec (.voxClose r) s = .next ((s.acceptLogged r d.index).setVox (field d.w0 24 16)
      { s.voxChan (field d.w0 24 16) with
        st := if (s.voxChan (field d.w0 24 16)).st = 2 then 3 else (s.voxChan (field d.w0 24 16)).st
        ops := (s.voxChan (field d.w0 24 16)).ops ++
          [{ op := 0x32, record := [], ecReset := false, req := s.request d.index d.time }] }) := by
  have hck : voxCheck s d true (field d.w0 24 16) false false = none := voxCheck_inUse hz hst (by simp)
  have he : voxCheckEnd s r d (field d.w0 24 16) false true = none := voxCheckEnd_passed (.inr hring) (fun _ => hsoon) hrun
  simp [exec, execVoxClose, hd, hf, hck, hw, he, hroom, State.onVox]

theorem exec_voxKey_accepted (hd : s.nextDesc r 0x33 = some d) (hsoon : d.time ≤ s.now + 3600000000000)
    (hf : d.flags = 0 ∨ d.flags = 1) (hw : d.w1 = 0) :
    exec (.voxKey r) s = .next ((s.setPhase r d.index .accepted).setVox (field d.w0 24 16)
      { s.voxChan (field d.w0 24 16) with
        keyReqs := (s.voxChan (field d.w0 24 16)).keyReqs ++ [(s.request d.index d.time, bitOf d.w0 8)] }) := by
  have hfl : (d.flags == 0 || d.flags == 1) = true := by simpa using hf
  have hck : voxCheck s d true (field d.w0 24 16) false false = none := voxCheck_inUse hz hst (by simp)
  have he : voxCheckEnd s r d (field d.w0 24 16) false true = none := voxCheckEnd_passed (.inr hring) (fun _ => hsoon) hrun
  simp [exec, execVoxKey, hd, hfl, hck, hw, he, State.onVox]

theorem exec_voxQuery_accepted (hd : s.nextDesc r 0x34 = some d) (hf : d.flags = 0) (hw : d.w1 = 64) (ha : d.addr % 32 = 0) :
    exec (.voxQuery r) s = .next ((s.setPhase r d.index .accepted).setVox (field d.w0 24 16)
      { s.voxChan (field d.w0 24 16) with queries := (s.voxChan (field d.w0 24 16)).queries ++ [(d.index, d.addr)] }) := by
  have hck : voxCheck s d true (field d.w0 24 16) false false = none := voxCheck_inUse hz hst (by simp)
  have he : voxCheckEnd s r d (field d.w0 24 16) false false = none := voxCheckEnd_passed (.inr hring) (by simp) hrun
  simp [exec, execVoxQuery, hd, hf, hck, hw, ha, he, State.onVox]

end

end

/-! #### Refused -/

section
variable (hf : d.flags = 0)
include hf

section
variable (hd : s.nextDesc r 0x30 = some d) (hc : s.fld 0x80 4 0 < 16)
include hd hc

theorem exec_voxOpen_busy (hst : (s.voxChan (field d.w0 24 16)).st ≠ 0) :
    exec (.voxOpen r (some bs)) s = .next (s.voxRefuse r d.index voxBusy) := by
  simp [exec, execVoxOpen, hd, hf, voxCheck_opening hz hc, hst, voxBusy, stDmaError]

theorem exec_voxOpen_noCapacity (hst : (s.voxChan (field d.w0 24 16)).st = 0) (hrec : RecordOk d (bs.take 128))
    (hport : ∀ u ∈ s.voxOpenList, voxSamePort (s.voxChan u).rec_ (bs.take 128) = false)
    (hcap : s.voxCap < s.voxAdmitted + voxCost (bs.take 128)) :
    exec (.voxOpen r (some bs)) s = .next (s.voxRefuse r d.index voxCapacity) := by
  have hp : s.voxOpenList.any (fun u => voxSamePort (s.voxChan u).rec_ (bs.take 128)) = false := by simpa using hport
  simp [exec, execVoxOpen, hd, hf, voxCheck_opening hz hc, hst, hrec.length, hrec.aligned, hrec.fields, hrec.rate, hp, hcap,
    voxCapacity, stDmaError]

end

/-- VOX_CLOSE, VOX_KEY and VOX_QUERY: the opcode is 0x32 and this number. -/
def callOn (p : Fin 3) (r : Nat) : Instr := if p = 0 then .voxClose r else if p = 1 then .voxKey r else .voxQuery r

theorem exec_callOn_idle (p : Fin 3) (hd : s.nextDesc r (0x32 + p.val) = some d) (hst : (s.voxChan (field d.w0 24 16)).st = 0) :
    exec (callOn p r) s = .next (s.voxRefuse r d.index voxIdleSt) := by
  have hck : voxCheck s d true (field d.w0 24 16) false false = some voxIdleSt := voxCheck_idle hz hst
  match p with
  | 0 => simp [exec, callOn, execVoxClose, show s.nextDesc r 0x32 = some d from hd, hf, hck]
  | 1 => simp [exec, callOn, execVoxKey, show s.nextDesc r 0x33 = some d from hd, hf, hck]
  | 2 => simp [exec, callOn, execVoxQuery, show s.nextDesc r 0x34 = some d from hd, hf, hck]

theorem exec_callOn_wrongRing (p : Fin 3) (hd : s.nextDesc r (0x32 + p.val) = some d) (hst : (s.voxChan (field d.w0 24 16)).st ≠ 0)
    (hw : d.w1 = if p = 2 then 64 else 0) (ha : d.addr % 32 = 0) (hring : (s.voxChan (field d.w0 24 16)).ring ≠ r) :
    exec (callOn p r) s = .next (s.voxRefuse r d.index voxWrongRing) := by
  have hck : voxCheck s d true (field d.w0 24 16) false false = none := voxCheck_inUse hz hst (by simp)
  match p with
  | 0 => simp [exec, callOn, execVoxClose, show s.nextDesc r 0x32 = some d from hd, hf, hck, show d.w1 = 0 from hw,
      voxCheckEnd_wrongRing hring]
  | 1 => simp [exec, callOn, execVoxKey, show s.nextDesc r 0x33 = some d from hd, hf, hck, show d.w1 = 0 from hw,
      voxCheckEnd_wrongRing hring]
  | 2 => simp [exec, callOn, execVoxQuery, show s.nextDesc r 0x34 = some d from hd, hf, hck, show d.w1 = 64 from hw, ha,
      voxCheckEnd_wrongRing hring]

end

end

/-- Settles O29: each command by the lemma that says what it comes to; a refusal is one counter. -/
theorem callsAreHandled : Obligations.CallsAreHandled := by
  refine ⟨fun s r d bs => ?_, fun s r d bs => ?_⟩
  · intro v rec_ q c becomes open_ soon logged
    refine ⟨?_, ?_, ?_, ?_, ?_⟩
    · intro hd ⟨hz, hrun⟩ hsoon hf hc hst hl ha hok hrate hport hcap hroom
      exact ⟨_, exec_voxOpen_accepted hz hrun hd hsoon hf hc hst ⟨hl, ha, hok, hrate⟩ hport hcap hroom, s.callAccepted_logged r d.index v _⟩
    · intro hd ⟨hz, hrun⟩ hsoon hf hst hring hl ha hok hrate hsame hroom
      exact ⟨_, exec_voxModify_accepted hz hrun hd hsoon hf hst hring ⟨hl, ha, hok, hrate⟩ hsame hroom, s.callAccepted_logged r d.index v _⟩
    · intro hd ⟨hz, hrun⟩ hsoon hf hst hring hw hroom
      exact ⟨_, exec_voxClose_accepted hz hrun hst hring hd hsoon hf hw hroom, s.callAccepted_logged r d.index v _⟩
    · intro hd ⟨hz, hrun⟩ hsoon hf hst hring hw
      exact ⟨_, exec_voxKey_accepted hz hrun hst hring hd hsoon hf hw, s.callAccepted_unlogged r d.index v _⟩
    · intro hd ⟨hz, hrun⟩ hf hst hring hw ha
      exact ⟨_, exec_voxQuery_accepted hz hrun hst hring hd hf hw ha, s.callAccepted_unlogged r d.index v _⟩
  · intro v rec_ c refused hz hf
    refine ⟨fun hd hc => ⟨fun hst => ?_, fun hst hl ha hok hrate hport hcap => ?_⟩, fun p => ?_⟩
    · exact ⟨_, exec_voxOpen_busy hz hf hd hc hst, s.bump_counted 0xB0100 1⟩
    · exact ⟨_, exec_voxOpen_noCapacity hz hf hd hc hst ⟨hl, ha, hok, hrate⟩ hport hcap, s.bump_counted 0xB0100 1⟩
    · intro i hd
      refine ⟨fun hst => ?_, fun hst hw ha hring => ?_⟩
      · exact ⟨_, exec_callOn_idle hz hf p hd hst, s.bump_counted 0xB0100 1⟩
      · exact ⟨_, exec_callOn_wrongRing hz hf p hd hst hw ha hring, s.bump_counted 0xB0100 1⟩

end Sys2Proof.Machine
end

section
/-!
PROOF. What time brings to a voice channel (R129, R133, R134, R136, R139, R141), how a channel becomes IDLE (R119), and the keys (R135); O30
is assembled from these.
-/
namespace Sys2Proof.Machine

/-! ### Events: a bit set reads as set, and an entry of a channel's event ring is written or lost -/

theorem bitOf_setBitOf_self (w : Word) {n : Nat} (hn : n < 32) : bitOf (setBitOf w n true) n = true := by
  simp only [bitOf, setBitOf, setField, field, BitVec.toNat_ofNat, Nat.testBit_mod_two_pow, hn, decide_true, Bool.true_and, if_true,
    Nat.add_sub_cancel_left, Nat.pow_one, Nat.shiftLeft_eq, Nat.shiftRight_eq_div_pow, Nat.mul_comm _ (2 ^ n)]
  rw [Nat.testBit_eq_decide_div_mod_eq, decide_eq_true_eq, Nat.mul_one, Nat.add_div_right _ (Nat.two_pow_pos n), Nat.sub_mul_div]
  generalize w.toNat / 2 ^ n = q
  omega

theorem State.flag_setFlag (s : State) (off : Nat) {n : Nat} (hn : n < 32) : (s.setFlag off n true).flag off n = true := by
  rw [State.flag, State.setFlag, State.reg_setReg, bitOf_setBitOf_self _ hn]

@[simp] theorem State.message_reg (s : State) (v off : Nat) : (s.message v).reg off = s.reg off := by
  rw [State.reg, (State.message_does (ps := [.host]) (by decide) .refl).frame .regs (by decide), State.reg]

/-- A source that fires sets its bit of INT_STATUS (R441). -/
theorem State.fireRing_flag (s : State) {src : Nat} (r : Nat) (h : src < 32) : (s.fireRing src r).flag 0x20008 src = true := by
  have hf : (s.firedFlags src).flag 0x20008 src = true := by
    rw [State.firedFlags, Nat.div_eq_of_lt h, Nat.mod_eq_of_lt h]
    exact s.flag_setFlag 0x20008 h
  unfold State.fireRing
  extract_lets u
  split
  · exact hf
  · rwa [State.flag, State.message_reg]

theorem State.writeOrDrop_full {s : State} {r c : Nat} {e : D2h} (h : s.d2hFull r = true) :
    ((s.writeOrDrop r c e).ring r).wr = (s.ring r).wr := by
  rw [State.writeOrDrop, if_pos h, State.bump_ring, State.ring_onRing]

theorem State.writeOrDrop_room {s : State} {r c : Nat} {e : D2h} (h : s.d2hFull r = false) :
    ((s.writeOrDrop r c e).ring r).wr = idxAdd (s.ring r).wr 1 := by
  rw [State.writeOrDrop, if_neg (by simp [h]), State.writeD2h_wr]

/-- An event of a channel: its entry joins the event ring, which fires, or is lost and VOX_STATUS says so (R136). -/
def EventTold (s : State) (evt : Nat) (t : State) : Prop :=
  (s.d2hFull evt = false → (t.ring evt).wr = idxAdd (s.ring evt).wr 1 ∧ t.flag 0x20008 10 = true) ∧
  (s.d2hFull evt = true → t.flag 0xB0004 19 = true ∧ (t.ring evt).wr = (s.ring evt).wr) ∧ RegsKept [0xB0004, 0xB012C, 0x20008] s t

theorem State.voxEvent_told (s : State) (v code a b time : Nat) :
    EventTold s (20 + recEvtRing (s.voxChan v).rec_) (s.voxEvent v code a b time) := by
  unfold State.voxEvent
  extract_lets r full t
  have hk : RegsKept [0xB0004, 0xB012C, 0x20008] s t := State.writeOrDrop_kept (by simp [regVox])
  refine ⟨fun h => ?_, fun h => ?_, ?_⟩
  · rw [if_neg (by simp [full, r, h])]
    refine ⟨?_, t.fireRing_flag r (by decide)⟩
    rw [State.fireRing_ring]
    exact State.writeOrDrop_room h
  · rw [if_pos (by simp [full, r, h])]
    refine ⟨t.flag_setFlag 0xB0004 (by decide), ?_⟩
    rw [State.setFlag_ring]
    exact State.writeOrDrop_full h
  · split
    · exact hk.trans (State.setFlag_kept (by simp [regVox]))
    · exact hk.trans (State.fireRing_kept (by simp))

@[simp] theorem State.voxEvent_vox (s : State) (v code a b time : Nat) : (s.voxEvent v code a b time).vox = s.vox :=
  (State.voxEvent_does (ps := [.regs, .host, .rings]) (by decide) .refl).frame .vox (by decide)

@[simp] theorem State.voxEvent_voxChan (s : State) (v code a b time k : Nat) : (s.voxEvent v code a b time).voxChan k = s.voxChan k := by
  rw [State.voxChan, State.voxEvent_vox, State.voxChan]

/-! ### A channel after its time has come -/

/-- Time passes, and channel `v` becomes `x`: no other changes. -/
theorem State.chanBecomes (s : State) (dt v : Nat) (x : VoxChan) :
    ((s.elapse dt).setVox v x).voxChan v = x ∧ (∀ k, k ≠ v → ((s.elapse dt).setVox v x).voxChan k = s.voxChan k) ∧
      Frame [.clock, .vox] s ((s.elapse dt).setVox v x) :=
  ⟨State.voxChan_setVox _ v x, fun k hk => State.voxChan_setVox_ne _ v k x hk,
    (State.setVox_does (by decide) (State.elapse_does (by decide) .refl)).frame⟩

/-- The same with an event on the channel's event ring. -/
theorem State.chanTells {s : State} {dt v : Nat} {x : VoxChan} (hx : x.rec_ = (s.voxChan v).rec_) (code a b time : Nat) :
    let t := ((s.elapse dt).setVox v x).voxEvent v code a b time
    t.voxChan v = x ∧ (∀ k, k ≠ v → t.voxChan k = s.voxChan k) ∧ Frame [.clock, .regs, .host, .rings, .vox] s t ∧
      EventTold s (20 + recEvtRing (s.voxChan v).rec_) t := by
  intro t
  obtain ⟨hv, hk, -⟩ := s.chanBecomes dt v x
  refine ⟨?_, fun k h => ?_, ?_, ?_⟩
  · rw [State.voxEvent_voxChan, hv]
  · rw [State.voxEvent_voxChan, hk k h]
  · exact (State.voxEvent_does (by decide) (State.setVox_does (by decide) (State.elapse_does (by decide) .refl))).frame
  · have h := ((s.elapse dt).setVox v x).voxEvent_told v code a b time
    rw [hv, hx] at h
    exact h

/-- The talk state of a channel goes off at a presentation position (R134). -/
def VoxChan.talkOff (c : VoxChan) (pos : Nat) : VoxChan := { c with talk := c.talk ++ [(pos, false)], offAt := none }

section
variable {s : State} {dt v : Nat}

theorem exec_rxTimeout_due (hst : 2 ≤ (s.voxChan v).st) (hcl : (s.voxChan v).closedAt = none) (hms : s.fld 0xB0000 15 0 ≠ 0)
    (hto : (s.voxChan v).rxTimedOut = false) (ht : (s.voxChan v).lastRx + s.fld 0xB0000 15 0 * 1000000 ≤ (s.elapse dt).now) :
    exec (.rxTimeout dt v) s = .next (((s.elapse dt).setVox v { s.voxChan v with rxTimedOut := true }).voxEvent v 0x8D 0 0
      (s.elapse dt).voxLastTick) := by
  have hf : (s.elapse dt).fld (regVox 0) 15 0 = s.fld 0xB0000 15 0 := rfl
  simp [exec, execRxTimeout, hf, hst, hcl, hms, hto, ht]

theorem exec_concealmentLimit_due (hst : (s.voxChan v).st ≠ 0) (hms : 60 ≤ (s.voxChan v).concealMs) (hmute : (s.voxChan v).mute = 0) :
    exec (.concealmentLimit dt v) s = .next ((s.elapse dt).setVox v { s.voxChan v with mute := 1 }) := by
  simp [exec, execConcealmentLimit, hst, hms, hmute]

theorem exec_talkOff_told {pos : Nat} (hoff : (s.voxChan v).offAt = some pos) (hdet : (recDet (s.voxChan v).rec_).testBit 4 = true) :
    exec (.talkOff dt v) s = .next (((s.elapse dt).setVox v ((s.voxChan v).talkOff pos)).voxEvent v 0x89 0 0
      (((s.elapse dt).setVox v ((s.voxChan v).talkOff pos)).voxInstant pos)) := by
  simp [exec, execTalkOff, hoff, State.talkOffAct, hdet, VoxChan.talkOff]

theorem exec_talkOff_silent {pos : Nat} (hoff : (s.voxChan v).offAt = some pos) (hdet : (recDet (s.voxChan v).rec_).testBit 4 = false) :
    exec (.talkOff dt v) s = .next ((s.elapse dt).setVox v ((s.voxChan v).talkOff pos)) := by
  simp [exec, execTalkOff, hoff, State.talkOffAct, hdet, VoxChan.talkOff]

theorem exec_ecEnabled_due (hst : (s.voxChan v).st ≠ 0) (hd : (s.voxChan v).ecDisabled = true) (hq : 25 ≤ (s.voxChan v).quiet) :
    exec (.ecEnabled dt v) s = .next (((s.elapse dt).setVox v { s.voxChan v with ecDisabled := false }).voxEvent v 0x86 0 0
      (s.voxChan v).quietAt) := by
  simp [exec, execEcEnabled, hst, hd, hq]

theorem exec_nlpForceEnd_due (hst : (s.voxChan v).st ≠ 0) (hf : (s.voxChan v).forced = true)
    (ht : (s.voxChan v).coldAt + 2000000000 ≤ (s.elapse dt).now) :
    exec (.nlpForceEnd dt v) s = .next ((s.elapse dt).setVox v { s.voxChan v with forced := false }) := by
  simp [exec, execNlpForceEnd, hst, hf, ht]

/-- Without AUTO_DEGRADE nothing is degraded (R139). -/
theorem State.voxDegrade_off (h : s.flag 0xB0000 16 = false) : s.voxDegrade = s := by
  have hf : s.flag (regVox 0) 16 = false := h
  simp [State.voxDegrade, hf]

theorem exec_codecTaskMissed_due {k : VoxTask} (hk : (s.voxChan v).task = some k) (hm : k.missed = false)
    (ht : k.tickAt + 8000000 ≤ (s.elapse dt).now) (hdeg : s.flag 0xB0000 16 = false) :
    exec (.codecTaskMissed dt v) s =
      .next (((s.elapse dt).setVox v { s.voxChan v with task := some { k with missed := true } }).bump 0xB0128 1) := by
  have hoff : ((((s.elapse dt).setVox v { s.voxChan v with task := some { k with missed := true } }).bump 0xB0128 1).flag 0xB0000 16) =
      false := by
    rw [State.flag, State.reg_bump_ne _ _ _ _ (by decide)]
    exact hdeg
  simp [exec, execCodecTaskMissed, hk, hm, Nat.not_lt.mpr ht, regVox, State.voxDegrade_off hoff]

end

/-- A late task is marked and counted, and no other channel changes. -/
theorem State.chanCounts (s : State) (dt v : Nat) (x : VoxChan) :
    let t := ((s.elapse dt).setVox v x).bump 0xB0128 1
    t.voxChan v = x ∧ t.reg 0xB0128 = s.up 0xB0128 1 ∧ RegsKept [0xB0128] s t ∧ Frame [.clock, .regs, .vox] s t := by
  intro t
  refine ⟨?_, ?_, RegsKept.trans (t := (s.elapse dt).setVox v x) (.of_eq rfl) (State.bump_kept (by simp)), ?_⟩
  · rw [State.bump_voxChan, State.voxChan_setVox]
  · rw [State.reg_bump, State.setVox_reg]
    rfl
  · exact (State.bump_does (by decide) (State.setVox_does (by decide) (State.elapse_does (by decide) .refl))).frame

/-! ### Degradation touches no IDLE channel, and no channel's state (R139) -/

/-- From `s` to `t` every channel keeps its state, and every channel not listed is the same. -/
def CallsKept (l : List Nat) (s t : State) : Prop :=
  ∀ k, (t.voxChan k).st = (s.voxChan k).st ∧ (k ∉ l → t.voxChan k = s.voxChan k)

theorem CallsKept.refl {l : List Nat} {s : State} : CallsKept l s s := fun _ => ⟨rfl, fun _ => rfl⟩

theorem CallsKept.trans {l : List Nat} {s t u : State} (h : CallsKept l s t) (h' : CallsKept l t u) : CallsKept l s u := fun k =>
  ⟨(h' k).1.trans (h k).1, fun hk => ((h' k).2 hk).trans ((h k).2 hk)⟩

theorem CallsKept.of_vox {l : List Nat} {s t : State} (h : t.vox = s.vox) : CallsKept l s t := fun k => by
  rw [State.voxChan, h]
  exact ⟨rfl, fun _ => rfl⟩

theorem CallsKept.setVox {l : List Nat} {s : State} {v : Nat} {x : VoxChan} (hv : v ∈ l) (hx : x.st = (s.voxChan v).st) :
    CallsKept l s (s.setVox v x) := fun k => by
  by_cases h : k = v
  · subst h
    rw [State.voxChan_setVox]
    exact ⟨hx, fun hk => absurd hv hk⟩
  · rw [State.voxChan_setVox_ne _ _ _ _ h]
    exact ⟨rfl, fun _ => rfl⟩

theorem CallsKept.foldl {l vs : List Nat} {f : State → Nat → State} (hf : ∀ s, ∀ v ∈ l, CallsKept l s (f s v)) (hvs : vs ⊆ l) {s : State} :
    CallsKept l s (vs.foldl f s) := by
  induction vs generalizing s with
  | nil => exact .refl
  | cons v vs ih =>
    obtain ⟨hv, hvs⟩ := List.cons_subset.mp hvs
    exact (hf s v hv).trans (ih hvs)

theorem CallsKept.voxEvent {l : List Nat} {s t : State} (h : CallsKept l s t) (v code a b time : Nat) :
    CallsKept l s (t.voxEvent v code a b time) := h.trans (.of_vox (t.voxEvent_vox v code a b time))

theorem CallsKept.bump {l : List Nat} {s t : State} (h : CallsKept l s t) (off n : Nat) : CallsKept l s (t.bump off n) :=
  h.trans (.of_vox rfl)

theorem State.degradeOne_callsKept {l : List Nat} (step : Nat) (s : State) (v : Nat) (hv : v ∈ l) :
    CallsKept l s (State.degradeOne step s v) := by
  unfold State.degradeOne
  extract_lets c
  split
  · exact .refl
  · split
    · split
      · exact .setVox hv rfl
      · exact .refl
    · split
      · exact .refl
      · refine CallsKept.voxEvent ?_ _ _ _ _ _
        exact .setVox hv rfl

theorem State.restoreOne_callsKept {l : List Nat} (step : Nat) (s : State) (v : Nat) (hv : v ∈ l) :
    CallsKept l s (State.restoreOne step s v) := by
  unfold State.restoreOne
  extract_lets c
  split
  · split
    · refine CallsKept.voxEvent (CallsKept.voxEvent ?_ _ _ _ _ _) _ _ _ _ _
      refine CallsKept.bump ?_ _ _
      exact .setVox hv rfl
    · exact .refl
  · split
    · exact .setVox hv rfl
    · exact .refl

theorem mem_insertBy {α : Type} {before : α → α → Bool} {a x : α} {l : List α} (h : a ∈ insertBy before x l) : a = x ∨ a ∈ l := by
  induction l with
  | nil => simpa [insertBy] using h
  | cons y ys ih =>
    rw [insertBy] at h
    split at h
    · simpa using h
    · obtain rfl | h := List.mem_cons.mp h
      · simp
      · obtain rfl | h := ih h <;> simp [*]

theorem sortBy_subset {α : Type} (before : α → α → Bool) (l : List α) : sortBy before l ⊆ l := by
  induction l with
  | nil => exact List.Subset.refl _
  | cons x l ih =>
    intro a ha
    obtain rfl | ha := mem_insertBy ha
    · exact List.mem_cons_self
    · exact List.mem_cons_of_mem x (ih ha)

theorem State.voxDegrade_callsKept (s : State) : CallsKept s.voxOpenList s s.voxDegrade := by
  unfold State.voxDegrade
  split
  · exact .refl
  · extract_lets order s1 s2 up s3
    have ho : order ⊆ s.voxOpenList := sortBy_subset _ _
    have hu : up ⊆ s.voxOpenList := fun k hk => ho (List.mem_reverse.mp hk)
    have h3 : CallsKept s.voxOpenList s s3 :=
      ((CallsKept.foldl (State.degradeOne_callsKept 1) ho).trans (.foldl (State.degradeOne_callsKept 2) ho)).trans
        (.foldl (State.restoreOne_callsKept 1) hu)
    split
    · exact h3
    · exact h3.trans (.foldl (State.restoreOne_callsKept 2) hu)

/-! ### Which registers the end of a descriptor may write -/

/-- The registers that completions may write: the counters of aborted and too late commands, and INT_STATUS. -/
def completionRegs : List Nat := [0x10118, 0x1011C, 0x20008]

/-- Every write-back source has its bit in the first register of INT_STATUS. -/
theorem ringSource_div (r : Nat) : ringSource r / 32 = 0 := by
  obtain h | h := Nat.lt_or_ge r 64
  · exact ringSource_lt r h
  · simp (disch := omega) only [ringSource, if_neg]

theorem State.fireRingSource_kept {l : List Nat} {s : State} {q r : Nat} (h : 0x20008 ∈ l) : RegsKept l s (s.fireRing (ringSource q) r) :=
  State.fireRing_kept (by rwa [ringSource_div])

theorem State.setPhase_kept {l : List Nat} {s : State} {r index : Nat} {p : Phase} : RegsKept l s (s.setPhase r index p) := .of_eq rfl

theorem State.toRing1Entry_kept {l : List Nat} {s : State} {e : List Byte} {r : Nat} (h : 0x20008 ∈ l) :
    RegsKept l s (s.toRing1Entry e r) := by
  unfold State.toRing1Entry
  split
  · exact .of_eq rfl
  · unfold State.writeRing1
    extract_lets x ph body s1 s2 s3
    have h3 : RegsKept l s s3 := RegsKept.trans (.of_eq rfl) (State.firedFlags_kept (s := s2.consumerWrite 1) h)
    split
    · exact h3
    · exact h3.trans (.of_does (State.message_does (fun _ h => h) .refl))

section
variable {l : List Nat} (hl : completionRegs ⊆ l)
include hl

theorem State.writeCompletion_kept {s : State} {r : Nat} {d : Desc} : RegsKept l s (s.writeCompletion r d) := by
  have h8 : 0x20008 ∈ l := hl (by decide)
  unfold State.writeCompletion
  split
  next status flags time result _ =>
    extract_lets x stamp s1 s2
    have h2 : RegsKept l s s2 := by
      refine RegsKept.trans (t := s1) (.of_eq rfl) ?_
      show RegsKept l s1 (if _ then _ else _)
      split
      · exact State.bump_kept (hl (by decide))
      · exact .refl
    clear_value s2
    split
    · exact h2.trans (.of_eq rfl)
    · split
      · exact h2.trans (State.toRing1Entry_kept h8)
      · refine (h2.trans (.of_eq ?_)).trans (State.fireRingSource_kept h8)
        cases result <;> rfl
  next => exact .refl

theorem State.retireGo_kept {r : Nat} {kept ds : List Desc} {s : State} : RegsKept l s (State.retireGo r kept ds s) := by
  induction ds generalizing kept s with
  | nil => exact .of_eq rfl
  | cons d ds ih =>
    unfold State.retireGo
    split
    · exact (State.writeCompletion_kept hl).trans ih
    · exact ih

theorem State.lateAbortsGo_kept {as : List (Nat × Nat × Nat × Nat)} {s : State} : RegsKept l s (State.lateAbortsGo as s) := by
  induction as generalizing s with
  | nil => exact .refl
  | cons a as ih =>
    unfold State.lateAbortsGo
    split
    · exact (RegsKept.of_eq rfl).trans ih
    · refine RegsKept.trans ?_ ih
      split
      · exact (State.bump_kept (hl (by decide))).trans (.of_eq rfl)
      · exact .of_eq rfl

theorem State.retireAll_kept {s : State} {r : Nat} : RegsKept l s (s.retireAll r) := by
  have h1 : RegsKept l s (State.retireGo r [] (s.ring r).descs s) := State.retireGo_kept hl
  unfold State.retireAll
  extract_lets s1 as s2
  split
  · exact h1
  · have h2 : RegsKept l s1 s2 := RegsKept.trans (.of_eq rfl) (State.lateAbortsGo_kept hl)
    exact (h1.trans h2).trans (State.retireGo_kept hl)

theorem State.standbyEnds_kept {s : State} : RegsKept l s s.standbyEnds := by
  unfold State.standbyEnds
  split
  · exact .refl
  · split
    · exact (RegsKept.of_eq rfl).trans (State.retireGo_kept hl)
    · exact .refl

theorem State.finishAt_kept {s : State} {r index status flags time : Nat} {result : Option Word} :
    RegsKept l s (s.finishAt r index status flags time result) := by
  unfold State.finishAt State.retire
  exact (State.setPhase_kept.trans (State.retireAll_kept hl)).trans (State.standbyEnds_kept hl)

end

theorem RegsKept.foldl {α : Type} {l : List Nat} {f : State → α → State} (hf : ∀ s a, RegsKept l s (f s a)) {as : List α} {s : State} :
    RegsKept l s (as.foldl f s) := by
  induction as generalizing s with
  | nil => exact .refl
  | cons a as ih => exact (hf s a).trans ih

/-! ### A channel becomes IDLE (R119) -/

/-- The registers a channel may write as it becomes IDLE: those of its event and of the descriptors that end with it. -/
def toIdleRegs : List Nat := [0xB0004, 0xB012C] ++ completionRegs

theorem State.callAudit_kept {l : List Nat} {s : State} {v op : Nat} {old new : List Byte} (h : 0x20008 ∈ l) :
    RegsKept l s (s.callAudit v op old new) := State.auditRelease_kept.trans (State.chainEntry_kept h)

theorem State.voxEndOps_kept {s : State} {v time : Nat} {c : VoxChan} : RegsKept toIdleRegs s (s.voxEndOps v time c) := by
  have hf {t : State} {r i st fl tm : Nat} {w : Option Word} : RegsKept toIdleRegs t (t.finishAt r i st fl tm w) :=
    State.finishAt_kept (by decide)
  unfold State.voxEndOps
  extract_lets s1 s2
  have h1 : RegsKept toIdleRegs s s1 := RegsKept.foldl fun t o => by
    split
    · extract_lets t'
      refine RegsKept.trans (t := t') ?_ hf
      show RegsKept toIdleRegs t (if _ then _ else _)
      split
      · exact .refl
      · exact State.callAudit_kept (by decide)
    · exact State.auditRelease_kept.trans hf
  exact (h1.trans (.foldl fun t q => hf)).trans (.foldl fun t q => hf)

theorem State.voxToIdle_kept {s : State} {v reason time : Nat} : RegsKept toIdleRegs s (s.voxToIdle v reason time) :=
  RegsKept.trans (RegsKept.mono (by decide) (s.voxEvent_told v 0x91 reason 0 s.voxLastTick).2.2)
    ((RegsKept.of_eq rfl).trans State.voxEndOps_kept)

theorem State.voxToIdle_vox (s : State) (v reason time : Nat) : (s.voxToIdle v reason time).vox = (s.setVox v .idle0).vox := by
  unfold State.voxToIdle
  extract_lets c s1
  have h1 : s1.vox = s.vox := s.voxEvent_vox v 0x91 reason 0 s.voxLastTick
  rw [(State.voxEndOps_does (ps := [.regs, .host, .rings, .audit, .mgt, .macs, .wick, .pwr, .sta, .link]) (by decide) .refl).frame .vox
    (by decide), State.setVox, State.setVox, h1]

theorem State.voxToIdle_voxChan (s : State) (v reason time k : Nat) :
    (s.voxToIdle v reason time).voxChan k = (s.setVox v .idle0).voxChan k := by
  rw [State.voxChan, State.voxToIdle_vox, State.voxChan]

theorem State.not_mem_voxOpenList_voxToIdle (s : State) (v reason time : Nat) : v ∉ (s.voxToIdle v reason time).voxOpenList := by
  rw [State.voxOpenList, State.voxToIdle_vox]
  simp [State.setVox, Cells.put, voxDflt]

/-- A channel that becomes IDLE with what degradation makes of the capacity it frees (R119, R139). -/
theorem State.voxToIdle_degrades (s : State) (v reason time : Nat) :
    let t := (s.voxToIdle v reason time).voxDegrade
    t.voxChan v = .idle0 ∧ (∀ k, k ≠ v → (t.voxChan k).st = (s.voxChan k).st) ∧
      (s.flag 0xB0000 16 = false → ∀ k, k ≠ v → t.voxChan k = s.voxChan k) := by
  intro t
  have hkept : CallsKept _ _ t := (s.voxToIdle v reason time).voxDegrade_callsKept
  have hother : ∀ k, k ≠ v → (s.voxToIdle v reason time).voxChan k = s.voxChan k := fun k hk => by
    rw [State.voxToIdle_voxChan, State.voxChan_setVox_ne _ _ _ _ hk]
  refine ⟨?_, fun k hk => ?_, fun hoff k hk => ?_⟩
  · rw [(hkept v).2 (s.not_mem_voxOpenList_voxToIdle v reason time), State.voxToIdle_voxChan, State.voxChan_setVox]
  · rw [(hkept k).1, hother k hk]
  · have hoff' : (s.voxToIdle v reason time).flag 0xB0000 16 = false := by
      rw [State.flag, State.voxToIdle_kept _ (by decide)]
      exact hoff
    rw [show t = s.voxToIdle v reason time from State.voxDegrade_off hoff', hother k hk]

theorem exec_channelIdle_due {s : State} {dt v e : Nat} (hcl : (s.voxChan v).closedAt = some e) (hst : (s.voxChan v).st = 3)
    (ht : e + 11000000 ≤ (s.elapse dt).now) :
    exec (.channelIdle dt v) s = .next ((s.elapse dt).voxToIdle v 0 (e + 11000000)).voxDegrade := by
  simp [exec, execChannelIdle, hcl, hst, ht]

/-! ### Keys (R135) -/

/-- A channel with the keys that have come due: the key it shows, if it changed, is an event. -/
def State.keyShown (s : State) (v : Nat) (x : VoxChan) : State :=
  if x.key = (s.voxChan v).key then s.setVox v x
  else (s.setVox v x).voxEvent v 0x8A ((if x.key then 1 else 0) + (if x.hostKey then 2 else 0) + (if x.opsKey then 4 else 0)) 0
    (s.setVox v x).voxLastTick

theorem State.keyShown_vox (s : State) (v : Nat) (x : VoxChan) : (s.keyShown v x).vox = (s.setVox v x).vox := by
  unfold State.keyShown
  split
  · rfl
  · exact State.voxEvent_vox _ _ _ _ _ _

theorem State.keyShown_voxChan (s : State) (v : Nat) (x : VoxChan) : (s.keyShown v x).voxChan v = x := by
  rw [State.voxChan, State.keyShown_vox]
  exact s.voxChan_setVox v x

theorem State.keyShown_voxChan_ne (s : State) {v k : Nat} (x : VoxChan) (h : k ≠ v) : (s.keyShown v x).voxChan k = s.voxChan k := by
  rw [State.voxChan, State.keyShown_vox]
  exact s.voxChan_setVox_ne v k x h

theorem State.keyShown_frame (s : State) (v : Nat) (x : VoxChan) : Frame [.regs, .host, .rings, .vox] s (s.keyShown v x) := by
  unfold State.keyShown
  exact (Does.ite (State.setVox_does (by decide) .refl) (State.voxEvent_does (by decide) (State.setVox_does (by decide) .refl))).frame

section
variable (c : VoxChan) (i : OpsInd)

@[simp] theorem VoxChan.opsAct_opsInds : (c.opsAct i).opsInds = c.opsInds := by
  unfold VoxChan.opsAct
  extract_lets mode
  split
  · rfl
  · split
    · rfl
    · split <;> rfl
  · rfl
  · rfl

@[simp] theorem VoxChan.opsAct_hostKey : (c.opsAct i).hostKey = c.hostKey := by
  unfold VoxChan.opsAct
  extract_lets mode
  split
  · rfl
  · split
    · rfl
    · split <;> rfl
  · rfl
  · rfl

/-- In key mode 0 a press sets the key, a long press leaves it, and a release or a removal clears it. -/
theorem VoxChan.opsAct_opsKey (hm : recKeyMode c.rec_ = 0) :
    (c.opsAct i).opsKey = if i.kind = 0 then true else if i.kind = 2 then c.opsKey else false := by
  unfold VoxChan.opsAct
  split
  next h => simp [h, hm]
  next h => simp [h, hm]
  next h => simp [h]
  next h0 _ h2 => rw [if_neg h0, if_neg h2]

end

section
variable {s : State} {v : Nat}

theorem exec_keyChange_command {q : Req} {key : Bool} (hst : (s.voxChan v).st ≠ 0) (hk : (s.voxChan v).keyReqs = [(q, key)])
    (hq : s.reqDue q = true) (hi : ∀ i ∈ (s.voxChan v).opsInds, s.reqDue i.req = false) :
    exec (.keyChange v) s = .next ((s.keyShown v { s.voxChan v with hostKey := key, keyReqs := [] }).finishAt (s.voxChan v).ring q.index
      stOk 0 s.mgt.tick.last none) := by
  have hdue : (s.voxChan v).opsInds.filter (fun i => s.reqDue i.req) = [] := by simpa [List.filter_eq_nil_iff] using hi
  have hwait : (s.voxChan v).opsInds.filter (fun i => !s.reqDue i.req) = (s.voxChan v).opsInds := by simpa [List.filter_eq_self] using hi
  simp [exec, execKeyChange, hst, hk, hq, hdue, hwait, State.keyShown]

theorem exec_keyChange_indication {i : OpsInd} (hst : (s.voxChan v).st ≠ 0) (hk : (s.voxChan v).keyReqs = [])
    (hi : (s.voxChan v).opsInds = [i]) (hq : s.reqDue i.req = true) :
    exec (.keyChange v) s = .next (s.keyShown v (VoxChan.opsAct { s.voxChan v with keyReqs := [], opsInds := [] } i)) := by
  simp [exec, execKeyChange, hst, hk, hq, hi, State.keyShown]

theorem exec_keyChange_nothingDue (hk : ∀ q ∈ (s.voxChan v).keyReqs, s.reqDue q.1 = false)
    (hi : ∀ i ∈ (s.voxChan v).opsInds, s.reqDue i.req = false) : exec (.keyChange v) s = .next s := by
  have hk' : (s.voxChan v).keyReqs.filter (fun q => s.reqDue q.1) = [] := by simpa [List.filter_eq_nil_iff] using hk
  have hi' : (s.voxChan v).opsInds.filter (fun i => s.reqDue i.req) = [] := by simpa [List.filter_eq_nil_iff] using hi
  simp [exec, execKeyChange, hk', hi']

end

/-- Settles O30: each event of time, the end of a call and the keys by the lemma that says what it comes to. -/
theorem voiceChannelsFollowTime : Obligations.VoiceChannelsFollowTime := by
  refine ⟨fun s dt v => ?_, fun s dt v => ?_⟩
  · intro u c evt becomes tells
    refine ⟨fun hst hcl hms hto ht => ?_, fun hst hms hmute => ?_, fun pos hoff => ⟨fun hdet => ?_, fun hdet => ?_⟩, fun hst hd hq => ?_,
      fun hst hf ht => ?_, fun k hk hm ht hdeg => ?_⟩
    · exact ⟨_, exec_rxTimeout_due hst hcl hms hto ht, State.chanTells (by rfl) _ _ _ _⟩
    · exact ⟨_, exec_concealmentLimit_due hst hms hmute, s.chanBecomes dt v _⟩
    · exact ⟨_, exec_talkOff_told hoff hdet, State.chanTells (by rfl) _ _ _ _⟩
    · exact ⟨_, exec_talkOff_silent hoff hdet, s.chanBecomes dt v _⟩
    · exact ⟨_, exec_ecEnabled_due hst hd hq, State.chanTells (by rfl) _ _ _ _⟩
    · exact ⟨_, exec_nlpForceEnd_due hst hf ht, s.chanBecomes dt v _⟩
    · exact ⟨_, exec_codecTaskMissed_due hk hm ht hdeg, s.chanCounts dt v _⟩
  · intro c
    refine ⟨fun e hcl hst ht => ?_, fun q key hst hk hq hi => ?_, fun i hst hk hi hq hm => ?_, fun _ => exec_keyChange_nothingDue⟩
    · exact ⟨_, exec_channelIdle_due hcl hst ht, (s.elapse dt).voxToIdle_degrades v 0 _⟩
    · exact ⟨_, exec_keyChange_command hst hk hq hi, s.keyShown_voxChan v _, fun k h => s.keyShown_voxChan_ne _ h, s.keyShown_frame v _⟩
    · refine ⟨_, exec_keyChange_indication hst hk hi hq, ?_, ?_, ?_, s.keyShown_frame v _⟩
      · rw [State.keyShown_voxChan]
        exact VoxChan.opsAct_opsKey _ i hm
      · rw [State.keyShown_voxChan]
        exact VoxChan.opsAct_opsInds _ i
      · rw [State.keyShown_voxChan]
        exact VoxChan.opsAct_hostKey _ i

end Sys2Proof.Machine
end

section
/-!
PROOF. Wick (R150 to R152, R162, R186): what a decision that is traced and the states of levels leave of the scheduler, which item is
picked, and how a granted task starts; O31 is assembled from these.
-/
namespace Sys2Proof.Machine

/-! ### Trace records and the states of levels: what they leave of the scheduler, and which registers they may write -/

/-- The schedulers differ in the trace alone: the buffer and the records lost. -/
def Wick.SameWork (w v : Wick) : Prop := v = { w with trace := v.trace, lost := v.lost }

theorem Wick.SameWork.eq {w v : Wick} (h : w.SameWork v) : v = { w with trace := v.trace, lost := v.lost } := h

theorem Wick.SameWork.trans {w v x : Wick} (h : w.SameWork v) (k : v.SameWork x) : w.SameWork x := by
  unfold Wick.SameWork at *
  rw [k, h]

@[simp] theorem State.onWick_wick (s : State) (f : Wick → Wick) : (s.onWick f).wick = f s.wick := rfl

@[simp] theorem State.fireOpen_wick (s : State) (v : Nat) : (s.fireOpen v).wick = s.wick :=
  (State.fireOpen_does (ps := [.free, .regs, .host, .rings]) (by decide) .refl).frame .wick (by decide)

theorem State.lostSet_sameWork (s : State) (f : Wick → Nat) : s.wick.SameWork (s.onWick (fun w => { w with lost := f w })).wick := rfl

theorem State.traceLost_sameWork (s : State) : s.wick.SameWork s.traceLost.wick := by
  rw [State.traceLost, State.onWick_wick, State.setFlag_wick, State.bump_wick]
  exact rfl

theorem State.drainTraceGo_sameWork (l : List TraceRec) (s : State) : s.wick.SameWork (State.drainTraceGo l s).wick := by
  induction l generalizing s with
  | nil => exact rfl
  | cons r l ih =>
    unfold State.drainTraceGo
    split
    · exact rfl
    · have h : ((s.writeD2h 5 r.entry).fireRing (ringSource 5) 5).wick = s.wick :=
        (State.fireRing_does (ps := [.regs, .host, .rings]) (by decide) (State.writeD2h_does (by decide) .refl)).frame .wick (by decide)
      rw [← h]
      exact ih _

theorem State.traceRecord_sameWork (s : State) (r : TraceRec) : s.wick.SameWork (s.traceRecord r).wick := by
  unfold State.traceRecord
  extract_lets n u
  have h : s.wick.SameWork u.wick := by
    refine .trans (v := { s.wick with trace := s.wick.trace ++ [r] }) rfl ?_
    exact State.drainTraceGo_sameWork _ (s.onWick fun w => { w with trace := w.trace ++ [r] })
  split
  · rw [State.fireOpen_wick]
    exact h
  · exact h

theorem State.trace_sameWork (s : State) (code : Nat) (it : WItem) (core : Nat) (abort slice : Bool) :
    s.wick.SameWork (s.trace code it core abort slice).wick := by
  unfold State.trace
  split
  · exact .refl _
  · extract_lets u
    have h : s.wick.SameWork u.wick := by
      show s.wick.SameWork (if _ then _ else _ : State).wick
      split
      · exact .refl _
      · exact (s.traceRecord_sameWork _).trans (State.lostSet_sameWork _ _)
    clear_value u
    split
    · exact h.trans u.traceLost_sameWork
    · exact h.trans (u.traceRecord_sameWork _)

section
variable (s : State) (code : Nat) (it : WItem) (core : Nat) (abort slice : Bool)

@[simp] theorem State.trace_items : (s.trace code it core abort slice).wick.items = s.wick.items :=
  by rw [(s.trace_sameWork code it core abort slice).eq]
@[simp] theorem State.trace_joins : (s.trace code it core abort slice).wick.joins = s.wick.joins :=
  by rw [(s.trace_sameWork code it core abort slice).eq]
@[simp] theorem State.trace_insts : (s.trace code it core abort slice).wick.insts = s.wick.insts :=
  by rw [(s.trace_sameWork code it core abort slice).eq]
@[simp] theorem State.trace_tasks : (s.trace code it core abort slice).wick.tasks = s.wick.tasks :=
  by rw [(s.trace_sameWork code it core abort slice).eq]
@[simp] theorem State.trace_slices : (s.trace code it core abort slice).wick.slices = s.wick.slices :=
  by rw [(s.trace_sameWork code it core abort slice).eq]
@[simp] theorem State.trace_full : (s.trace code it core abort slice).wick.full = s.wick.full :=
  by rw [(s.trace_sameWork code it core abort slice).eq]

end

/-- The levels that are FULL by their fill, or stay so for a POST that waits for them (R156, R157). -/
def State.fullLevels (s : State) : List Nat :=
  (List.range 16).filter (fun l => s.levelFull l || (s.wick.full.contains l && s.wick.blocked.any (fun q => s.postLevel q == some l)))

/-- What a fold of operations keeps that each of them keeps. -/
theorem State.foldl_keeps {α β : Type} (g : State → β) {f : State → α → State} (hf : ∀ s a, g (f s a) = g s) (as : List α) (s : State) :
    g (as.foldl f s) = g s := by
  induction as generalizing s with
  | nil => rfl
  | cons a as ih => exact (ih (f s a)).trans (hf s a)

@[simp] theorem State.levelSettle_wick (s : State) : s.levelSettle.wick = { s.wick with full := s.fullLevels } :=
  State.foldl_keeps State.wick (fun s _ => s.fireOpen_wick 48) _ _

section
variable {l : List Nat} {s : State}

theorem State.fireOpen_kept {v : Nat} (h : 0x20008 + 4 * (v / 32) ∈ l) (h2 : 0x10114 ∈ l) : RegsKept l s (s.fireOpen v) := by
  unfold State.fireOpen State.fresh
  dsimp only
  exact RegsKept.trans (t := { s with free := s.free + 1 + 1 + 1 }) (.of_eq rfl) (State.fire_kept h h2)

theorem State.drainTraceGo_kept (h : 0x20008 ∈ l) {rs : List TraceRec} : RegsKept l s (State.drainTraceGo rs s) := by
  induction rs generalizing s with
  | nil => exact .of_eq rfl
  | cons r rs ih =>
    unfold State.drainTraceGo
    split
    · exact .of_eq rfl
    · exact ((RegsKept.of_does (State.writeD2h_does (ps := [.host, .rings]) (by decide) .refl)).trans (State.fireRingSource_kept h)).trans ih

theorem State.levelSettle_kept (h : 0x2000C ∈ l) (h2 : 0x10114 ∈ l) : RegsKept l s s.levelSettle := by
  unfold State.levelSettle
  exact (RegsKept.of_eq (State.onWick_regs _ _)).trans (.foldl fun _ _ => State.fireOpen_kept h h2)

variable (hl : traceRegs ⊆ l)
include hl

theorem State.traceRecord_kept {r : TraceRec} : RegsKept l s (s.traceRecord r) := by
  unfold State.traceRecord
  extract_lets n u
  have h : RegsKept l s u := RegsKept.trans (.of_eq rfl) (State.drainTraceGo_kept (hl (by decide)))
  split
  · exact h.trans (State.fireOpen_kept (hl (by decide)) (hl (by decide)))
  · exact h

theorem State.traceLost_kept : RegsKept l s s.traceLost := by
  have hlost : 0x5012C ∈ l := hl (by decide)
  have hstatus : 0x50000 ∈ l := hl (by decide)
  have h : RegsKept l s ((s.bump 0x5012C 1).setFlag 0x50000 17 true) := (State.bump_kept hlost).trans (State.setFlag_kept hstatus)
  exact h.trans (.of_eq (State.onWick_regs _ _))

theorem State.trace_kept {code core : Nat} {it : WItem} {abort slice : Bool} : RegsKept l s (s.trace code it core abort slice) := by
  unfold State.trace
  split
  · exact .refl
  · extract_lets u
    have h : RegsKept l s u := by
      show RegsKept l s (if _ then _ else _)
      split
      · exact .refl
      · exact (State.traceRecord_kept hl).trans (.of_eq rfl)
    split
    · exact h.trans (State.traceLost_kept hl)
    · exact h.trans (State.traceRecord_kept hl)

end

/-! ### The item picked (R150) -/

theorem beatsItem_asymm {a b : WItem} (h : beatsItem a b = true) : beatsItem b a = false := by
  simp only [beatsItem, Bool.or_eq_true, Bool.and_eq_true, decide_eq_true_eq, beq_iff_eq, Bool.or_eq_false_iff, Bool.and_eq_false_imp,
    decide_eq_false_iff_not] at *
  omega

theorem beatsItem_irrefl (a : WItem) : beatsItem a a = false := by
  cases h : beatsItem a a with
  | false => rfl
  | true => exact h ▸ beatsItem_asymm h

/-- The order of grant is total on what it compares: where `a` does not go before `b`, nor `b` before `c`, `a` does not go before `c`. -/
theorem beatsItem_false_trans {a b c : WItem} (h : beatsItem a b = false) (k : beatsItem b c = false) : beatsItem a c = false := by
  simp only [beatsItem, beq_iff_eq, Bool.or_eq_false_iff, Bool.and_eq_false_imp, decide_eq_false_iff_not] at *
  omega

section
variable {s : State} {res : Nat}

/-- The better of the next item, where it may go, and the best one so far. -/
def State.better (s : State) (res : Nat) (it : WItem) (best : Option WItem) : Option WItem :=
  if s.eligibleItem res it then
    (match best with
    | none => some it
    | some b => if beatsItem it b then some it else some b)
  else best

theorem State.pickGo_cons (it : WItem) (l : List WItem) (best : Option WItem) :
    State.pickGo s res (it :: l) best = State.pickGo s res l (s.better res it best) := rfl

theorem State.better_some (it b : WItem) :
    s.better res it (some b) = if s.eligibleItem res it = true ∧ beatsItem it b = true then some it else some b := by
  unfold State.better
  cases s.eligibleItem res it <;> simp

theorem State.better_none (it : WItem) : s.better res it none = if s.eligibleItem res it = true then some it else none := rfl

/-- An item picked from a best one so far: it is that one, or a later one that may go; neither that one nor a later one that may go
comes before it. -/
theorem State.pickGo_some {l : List WItem} {b : WItem} :
    ∃ it, State.pickGo s res l (some b) = some it ∧ (it = b ∨ it ∈ l ∧ s.eligibleItem res it = true) ∧ beatsItem b it = false ∧
      ∀ x ∈ l, s.eligibleItem res x = true → beatsItem x it = false := by
  induction l generalizing b with
  | nil => exact ⟨b, rfl, .inl rfl, beatsItem_irrefl b, by simp⟩
  | cons y l ih =>
    rw [State.pickGo_cons, State.better_some]
    split
    next h =>
      obtain ⟨hy, hyb⟩ := h
      obtain ⟨it, hit, hmem, hyit, hl⟩ := ih (b := y)
      refine ⟨it, hit, .inr ?_, beatsItem_false_trans (beatsItem_asymm hyb) hyit, List.forall_mem_cons.mpr ⟨fun _ => hyit, hl⟩⟩
      obtain rfl | ⟨hm, he⟩ := hmem
      · exact ⟨List.mem_cons_self, hy⟩
      · exact ⟨List.mem_cons_of_mem y hm, he⟩
    next h =>
      obtain ⟨it, hit, hmem, hbit, hl⟩ := ih (b := b)
      have hyb : s.eligibleItem res y = true → beatsItem y b = false := fun hy => by simpa [hy] using h
      refine ⟨it, hit, ?_, hbit, List.forall_mem_cons.mpr ⟨fun hy => beatsItem_false_trans (hyb hy) hbit, hl⟩⟩
      exact hmem.imp_right fun ⟨hm, he⟩ => ⟨List.mem_cons_of_mem y hm, he⟩

theorem State.pickGo_none {l : List WItem} :
    (∀ it, State.pickGo s res l none = some it →
      it ∈ l ∧ s.eligibleItem res it = true ∧ ∀ x ∈ l, s.eligibleItem res x = true → beatsItem x it = false) ∧
    (State.pickGo s res l none = none → ∀ x ∈ l, s.eligibleItem res x = false) := by
  induction l with
  | nil => exact ⟨fun it h => (by cases h), by simp⟩
  | cons y l ih =>
    rw [State.pickGo_cons, State.better_none]
    split
    next hy =>
      obtain ⟨it, hit, hmem, hyit, hl⟩ := State.pickGo_some (s := s) (res := res) (l := l) (b := y)
      refine ⟨fun it' h => ?_, fun h => by simp [hit] at h⟩
      obtain rfl : it = it' := by simpa [hit] using h
      obtain rfl | ⟨hm, he⟩ := hmem
      · exact ⟨List.mem_cons_self, hy, List.forall_mem_cons.mpr ⟨fun _ => hyit, hl⟩⟩
      · exact ⟨List.mem_cons_of_mem y hm, he, List.forall_mem_cons.mpr ⟨fun _ => hyit, hl⟩⟩
    next hy =>
      obtain ⟨hsome, hnone⟩ := ih
      refine ⟨fun it h => ?_, fun h => List.forall_mem_cons.mpr ⟨by simpa using hy, hnone h⟩⟩
      obtain ⟨hm, he, hl⟩ := hsome it h
      exact ⟨List.mem_cons_of_mem y hm, he, List.forall_mem_cons.mpr ⟨fun h => absurd h hy, hl⟩⟩

end

/-! ### The start of a task (R152, R186) -/

/-- What places code and tile regions is the same in two states: the images, the plane split and the outputs in use. -/
structure SamePlaces (s t : State) : Prop where
  imgs : t.imgs = s.imgs
  mgt : t.mgt = s.mgt
  slice : t.slice = s.slice
  rate : t.reg 0xE0000 = s.reg 0xE0000

section
variable {s t : State}

theorem SamePlaces.of_does {ps : List Part} (h : Does ps s t) (hr : t.reg 0xE0000 = s.reg 0xE0000) (hi : Part.imgs ∉ ps := by decide)
    (hm : Part.mgt ∉ ps := by decide) (hs : Part.slice ∉ ps := by decide) : SamePlaces s t :=
  ⟨h.frame .imgs hi, h.frame .mgt hm, h.frame .slice hs, hr⟩

theorem State.nodeOf_of_imgs (h : t.imgs = s.imgs) : t.nodeOf = s.nodeOf := by
  funext n
  rw [State.nodeOf, State.liveNodes, h, State.nodeOf, State.liveNodes]

theorem State.kernelOf_of_imgs (h : t.imgs = s.imgs) : t.kernelOf = s.kernelOf := by
  funext r
  rw [State.kernelOf, State.planeImages, h, State.kernelOf, State.planeImages]

theorem State.codeBase_of_imgs (h : t.imgs = s.imgs) : t.codeBase = s.codeBase := by
  funext p id
  rw [State.codeBase, State.planeImages, h, State.codeBase, State.planeImages]

theorem SamePlaces.tileBase (h : SamePlaces s t) : t.tileBase = s.tileBase := by
  have ho : t.maxOut = s.maxOut := by rw [State.maxOut, State.rateClass, State.fld, h.rate]; rfl
  have hs : t.sliceList = s.sliceList := by rw [State.sliceList, h.slice, ho]; rfl
  funext p id
  simp only [State.tileBase, State.tileItems, State.planeImages, State.planeClusters, hs, h.imgs, h.mgt]

end

/-- A task of an item starts with ARG `arg` and its tile region at `p7`, at `pc`: those of the kernel of its node, and 0 for a Vigil item
(R152, R186). -/
def EntersAt (s : State) (it : WItem) (arg p7 pc : Nat) : Prop :=
  (it.vigil.isSome = true ∧ arg = 0 ∧ p7 = 0 ∧ pc = 0) ∨ (it.vigil = none ∧ ∃ i r j k, s.nodeOf it.node = some (i, r) ∧
    s.kernelOf r = some (j, k) ∧ arg = ndArg r ∧ p7 = s.tileBase (ndPlane r) j.id ∧ pc = s.codeBase (ndPlane r) j.id + k.entry)

theorem EntersAt.of_same {s t : State} {it : WItem} {arg p7 pc : Nat} (hp : SamePlaces s t) (h : EntersAt s it arg p7 pc) :
    EntersAt t it arg p7 pc := by
  unfold EntersAt at *
  rwa [State.nodeOf_of_imgs hp.imgs, State.kernelOf_of_imgs hp.imgs, hp.tileBase, State.codeBase_of_imgs hp.imgs]

/-- The scheduler once an item is granted: the item is in service, the grant is counted and traced (R150, R152, R162). -/
def State.granted (s : State) (res : Nat) (it : WItem) (slice : Bool) : State :=
  (((s.onWick (fun w => { w with items := w.items.erase it, tasks := w.tasks ++ [{ item := it, res := res, slice := slice }] })).levelSettle).bump
    0x50100 1).trace 0x01 it res false slice

/-- The words a task starts with in g0 to g3. -/
def startWords (it : WItem) (arg : Nat) (slice : Bool) : List Nat :=
  [it.node + 4096 * it.level + 65536 * (it.num % 256) + (if slice then 2 ^ 24 else 0), it.flow + 65536 * it.key, arg, it.data]

section
variable {s : State} {res : Nat} {it : WItem} {slice : Bool}

theorem State.grant_engine (h : 128 ≤ res) : s.grant res it slice = s.granted res it slice := by
  unfold State.grant
  exact if_pos h

theorem State.grant_core {arg p7 pc : Nat} (h : res < 128) (he : EntersAt (s.granted res it slice) it arg p7 pc) :
    s.grant res it slice = (s.granted res it slice).onCore res (fun x => taskEntry x (startWords it arg slice) p7 pc) := by
  unfold State.grant
  extract_lets s1 t g0
  rw [if_neg (by omega)]
  change EntersAt t _ _ _ _ at he
  obtain ⟨hv, rfl, rfl, rfl⟩ | ⟨hv, i, r, j, k, hn, hk, rfl, rfl, rfl⟩ := he
  · obtain ⟨c, hc⟩ := Option.isSome_iff_exists.mp hv
    rw [hc]
    rfl
  · rw [hv, hn]
    dsimp only
    rw [hk]
    rfl

@[simp] theorem State.granted_items : (s.granted res it slice).wick.items = s.wick.items.erase it := by simp [State.granted]
@[simp] theorem State.granted_tasks :
    (s.granted res it slice).wick.tasks = s.wick.tasks ++ [{ item := it, res := res, slice := slice }] := by simp [State.granted]
@[simp] theorem State.granted_slices : (s.granted res it slice).wick.slices = s.wick.slices := by simp [State.granted]

theorem State.granted_does {ps : List Part} {s0 : State} (hw : [.free, .regs, .host, .rings, .wick, .sta] ⊆ ps) (h : Does ps s0 s) :
    Does ps s0 (s.granted res it slice) :=
  State.trace_does hw (State.bump_does (sub hw) (State.levelSettle_does (sub hw) (State.onWick_does (sub hw) h)))

theorem State.granted_kept {l : List Nat} (hl : traceRegs ⊆ l) (h : 0x50100 ∈ l) : RegsKept l s (s.granted res it slice) :=
  ((RegsKept.of_eq (State.onWick_regs _ _)).trans (State.levelSettle_kept (hl (by decide)) (hl (by decide)))).trans
    ((State.bump_kept h).trans (State.trace_kept hl))

theorem State.granted_count : (s.granted res it slice).reg 0x50100 = s.up 0x50100 1 := by
  rw [State.granted, State.trace_kept (fun _ h => h) 0x50100 (by decide), State.reg_bump,
    State.levelSettle_kept (l := traceRegs) (by decide) (by decide) 0x50100 (by decide)]
  rfl

end

theorem Cells.get_put_eq_ite {β : Type} [DecidableEq β] (d : Nat → β) (m : Cells β) (k j : Nat) (v : β) :
    Cells.get d (Cells.put d m k v) j = if j = k then v else Cells.get d m j := by
  split
  next h => rw [h, Cells.get_put_self]
  next h => exact Cells.get_put_ne h

/-- What a task finds in its core (R152, R186): its words in g0 to g3, its tile region in p7, cst at its start value, and 0 elsewhere. -/
theorem taskEntry_reg (x : LCore) (a b c d p7 pc n : Nat) : ((taskEntry x [a, b, c, d] p7 pc).reg n).toNat =
    if n = 74 then 0xF00 else if n = 39 then p7 % 2 ^ 32 else if n = 3 then d % 2 ^ 32 else if n = 2 then c % 2 ^ 32
    else if n = 1 then b % 2 ^ 32 else if n = 0 then a % 2 ^ 32 else 0 := by
  simp only [LCore.reg, taskEntry, Cells.get_put_eq_ite, apply_ite BitVec.toNat, BitVec.toNat_ofNat, List.getD_cons_zero, List.getD_cons_succ]
  rfl

/-- An item of state `s` is granted to a core and its task starts there: what O31 says of the state after. -/
def TaskStarts (s : State) (res : Nat) (it : WItem) (arg p7 pc : Nat) (t : State) (slice : Bool) : Prop :=
  t.wick.items = s.wick.items.erase it ∧ t.wick.tasks = s.wick.tasks ++ [{ item := it, res := res, slice := slice }] ∧
  (t.core res).st = 1 ∧
  ((t.core res).reg 0).toNat = (it.node + 4096 * it.level + 65536 * (it.num % 256) + (if slice then 2 ^ 24 else 0)) % 2 ^ 32 ∧
  ((t.core res).reg 1).toNat = (it.flow + 65536 * it.key) % 2 ^ 32 ∧ ((t.core res).reg 2).toNat = arg % 2 ^ 32 ∧
  ((t.core res).reg 3).toNat = it.data % 2 ^ 32 ∧ ((t.core res).reg 39).toNat = p7 % 2 ^ 32 ∧
  (t.core res).pc = pc % 2 ^ 19 ∧ (t.core res).cst = 0xF00 ∧ (t.core res).inHandler = false ∧ (t.core res).flight = [] ∧
  (t.core res).acc = [] ∧ (∀ n, n ≠ 0 → n ≠ 1 → n ≠ 2 → n ≠ 3 → n ≠ 39 → n ≠ 74 → ((t.core res).reg n).toNat = 0) ∧
  (∀ c, c ≠ res → t.core c = s.core c) ∧ t.reg 0x50100 = s.up 0x50100 1 ∧ BytesKept s t

theorem TaskStarts.of_same {s u t : State} {res arg p7 pc : Nat} {it : WItem} {slice : Bool} (h : TaskStarts u res it arg p7 pc t slice)
    (hi : u.wick.items = s.wick.items) (ht : u.wick.tasks = s.wick.tasks) (hl : u.lan = s.lan) (hr : u.reg 0x50100 = s.reg 0x50100) :
    TaskStarts s res it arg p7 pc t slice := by
  unfold TaskStarts State.core State.up BytesKept at *
  rwa [hi, ht, hl, hr] at h

section
variable {s : State} {res arg p7 pc : Nat} {it : WItem} {slice : Bool}

theorem State.granted_lan : (s.granted res it slice).lan = s.lan :=
  (State.granted_does (ps := [.free, .regs, .host, .rings, .wick, .sta]) (by decide) .refl).frame .lan (by decide)

theorem State.granted_places : SamePlaces s (s.granted res it slice) :=
  .of_does (State.granted_does (fun _ h => h) .refl) (State.granted_kept (l := 0x50100 :: traceRegs) (by simp) (by simp) _ (by decide))

theorem State.bytesKept_onCore {t : State} (h : t.lan = s.lan) (c : Nat) (f : LCore → LCore) : BytesKept s (t.onCore c f) := by
  intro a
  rw [← h]
  exact ⟨rfl, rfl, rfl⟩

theorem State.grant_starts (h : res < 128) (he : EntersAt s it arg p7 pc) :
    TaskStarts s res it arg p7 pc (s.grant res it slice) slice := by
  have hr := fun n => taskEntry_reg ((s.granted res it slice).core res) (it.node + 4096 * it.level + 65536 * (it.num % 256) +
    (if slice then 2 ^ 24 else 0)) (it.flow + 65536 * it.key) arg it.data p7 pc n
  rw [State.grant_core h (he.of_same State.granted_places)]
  unfold TaskStarts
  rw [State.core_onCore, State.onCore_wick]
  refine ⟨State.granted_items, State.granted_tasks, rfl, hr 0, hr 1, hr 2, hr 3, hr 39, rfl, BitVec.eq_of_toNat_eq (hr 74), rfl, rfl, rfl,
    fun n h0 h1 h2 h3 h39 h74 => (hr n).trans (by simp [h0, h1, h2, h3, h39, h74]), fun c hc => ?_, State.granted_count,
    State.bytesKept_onCore State.granted_lan _ _⟩
  rw [State.core_onCore_ne _ _ _ _ hc, State.core, State.granted_lan, State.core]

theorem State.grant_cases (s : State) (res : Nat) (it : WItem) (slice : Bool) : s.grant res it slice = s.granted res it slice ∨
    ∃ f, s.grant res it slice = (s.granted res it slice).onCore res f := by
  unfold State.grant
  extract_lets s1 t g0
  split
  · exact .inl rfl
  · split
    exact .inr ⟨_, rfl⟩

theorem State.grant_wick : (s.grant res it slice).wick = (s.granted res it slice).wick := by
  obtain h | ⟨f, h⟩ := s.grant_cases res it slice <;> rw [h]
  rw [State.onCore_wick]

theorem State.grant_kept {l : List Nat} (hl : traceRegs ⊆ l) (h : 0x50100 ∈ l) : RegsKept l s (s.grant res it slice) := by
  have hg : RegsKept l s (s.granted res it slice) := State.granted_kept hl h
  obtain h | ⟨f, h⟩ := s.grant_cases res it slice <;> rw [h]
  · exact hg
  · exact hg.trans (.of_eq (State.onCore_regs _ _ _))

end

/-! ### DISPATCH -/

/-- A core that waits for a task may be granted one (R20, R21, R150): it is in service, no removal holds it, and its cluster is live. -/
def CoreAsks (s : State) (dt res : Nat) : Prop :=
  res < 128 ∧ (s.core res).st = 0 ∧ s.isOut res = false ∧ (s.elapse dt).stopGrant res = false ∧ s.clusterLive (res / 8) = true

section
variable {s : State} {dt res : Nat} {it : WItem}

theorem exec_dispatch : exec (.dispatch dt res) s = execDispatch dt res s := rfl

theorem exec_dispatch_picked (ha : CoreAsks s dt res) (hg : s.wick.guard = false)
    (hp : State.pickGo (s.elapse dt) res s.wick.items none = some it) :
    exec (.dispatch dt res) s = .next ((s.elapse dt).grant res it false) := by
  obtain ⟨hres, hst, hout, hstop, hlive⟩ := ha
  have hlive' : (s.elapse dt).clusterLive (res / 8) = true := hlive
  have hout' : (s.elapse dt).isOut res = false := hout
  simp [exec_dispatch, execDispatch, hres, hst, hout', hstop, hlive', hg, hp]

theorem exec_dispatch_none (hg : s.wick.guard = false) (hp : State.pickGo (s.elapse dt) res s.wick.items none = none) :
    exec (.dispatch dt res) s = .next (s.elapse dt) := by
  simp [exec_dispatch, execDispatch, hg, hp]

theorem exec_dispatch_engine (h : 128 ≤ res) (h' : res < 144) (hp : State.pickGo (s.elapse dt) res s.wick.items none = some it) :
    exec (.dispatch dt res) s = .next ((s.elapse dt).granted res it false) := by
  have hres : ¬ res < 128 := by omega
  simp [exec_dispatch, execDispatch, hres, h', hp, State.grant_engine h]

/-- Time passes and a cluster's guaranteed slice is taken and counted (R159). -/
def State.sliceTaken (s : State) (dt cl : Nat) : State :=
  ((s.elapse dt).onWick (fun w => { w with slices := w.slices.filter (· != cl) })).bump 0x50128 1

theorem State.sliceTaken_places (s : State) (dt cl : Nat) : SamePlaces s (s.sliceTaken dt cl) :=
  ⟨rfl, rfl, rfl, State.reg_bump_ne _ _ _ _ (by decide)⟩

theorem exec_dispatch_slice (ha : CoreAsks s dt res) (hg : s.wick.guard = true) (hs : s.wick.slices.contains (res / 8) = true)
    (ht : s.topCore (res / 8) = some res)
    (hp : s.wick.items.find? (fun i => i.vigil == some (res / 8) && !s.wick.quarantine.contains i.node) = some it) :
    exec (.dispatch dt res) s = .next ((s.sliceTaken dt (res / 8)).grant res it true) := by
  obtain ⟨hres, hst, hout, hstop, hlive⟩ := ha
  have hlive' : (s.elapse dt).clusterLive (res / 8) = true := hlive
  have hout' : (s.elapse dt).isOut res = false := hout
  have ht' : (s.elapse dt).topCore (res / 8) = some res := ht
  have hs' : res / 8 ∈ s.wick.slices := by simpa using hs
  simp only [List.contains_eq_mem] at hp
  simp [exec_dispatch, execDispatch, hres, hst, hout', hstop, hlive', hg, hs', ht', hp, State.sliceTaken]

end

/-- Settles O31: the item picked by induction on the ready list; each answer of DISPATCH by what a grant leaves. -/
theorem theBestItemIsDispatched : Obligations.TheBestItemIsDispatched := by
  refine ⟨fun s res l => State.pickGo_none, fun s dt res it arg p7 pc => ?_⟩
  intro u x asks kernel starts
  have hto : ∀ {t : State} {slice : Bool}, TaskStarts s res it arg p7 pc t slice → starts t slice := id
  refine ⟨fun ha hk hg hp => ?_, fun ha hk hg hs ht hp => ?_, exec_dispatch_none, fun h h' hp => ?_⟩
  · refine ⟨_, exec_dispatch_picked ha hg hp, hto (State.grant_starts (s := u) ha.1 hk), ?_, ?_⟩
    · exact RegsKept.trans (t := u) (.of_eq rfl) (State.grant_kept (by simp) (by simp))
    · exact (State.grant_does (by decide) (State.elapse_does (by decide) .refl)).frame
  · have hst : TaskStarts (s.sliceTaken dt (res / 8)) res it arg p7 pc ((s.sliceTaken dt (res / 8)).grant res it true) true :=
      State.grant_starts ha.1 (EntersAt.of_same (s.sliceTaken_places dt (res / 8)) hk)
    refine ⟨_, exec_dispatch_slice ha hg hs ht hp, hto (hst.of_same rfl rfl rfl ?_), ?_, ?_⟩
    · exact State.reg_bump_ne _ _ _ _ (by decide)
    · rw [State.grant_wick, State.granted_slices]
      rfl
    · rw [State.grant_kept (l := 0x50100 :: traceRegs) (by simp) (by simp) _ (by decide)]
      exact State.reg_bump _ _ _
  · refine ⟨_, exec_dispatch_engine h h' hp, State.granted_items, State.granted_tasks, State.granted_lan, ?_⟩
    exact RegsKept.trans (t := u) (.of_eq rfl) (State.granted_kept (by simp) (by simp))

end Sys2Proof.Machine
end

section
/-!
PROOF. The ready list (R146 to R149, R156, R158, R197, R198): how items expire and age, how the capacity of a level is written, and which
items a completion of an engine and a message make; O32 is assembled from these.
-/
namespace Sys2Proof.Machine

/-! ### Expiry (R147) -/

theorem State.up_zero (s : State) (off : Nat) : s.up off 0 = s.reg off := by
  rw [State.up, satU, Nat.add_zero, Nat.min_eq_left (by have := (s.reg off).isLt; omega), BitVec.ofNat_toNat, BitVec.setWidth_eq]

theorem State.up_succ {s t : State} {off : Nat} (h : t.reg off = s.up off 1) (n : Nat) : t.up off n = s.up off (n + 1) := by
  have hs := (s.reg off).isLt
  simp only [State.up, h, satU, BitVec.toNat_ofNat]
  congr 1
  omega

theorem State.joinsFree_wick (s : State) (g num : Nat) : ∃ js, (s.joinsFree g num).wick = { s.wick with joins := js } := by
  unfold State.joinsFree
  extract_lets more
  split
  · exact ⟨s.wick.joins, rfl⟩
  · exact ⟨_, rfl⟩

@[simp] theorem State.joinsFree_items (s : State) (g num : Nat) : (s.joinsFree g num).wick.items = s.wick.items := by
  obtain ⟨js, h⟩ := s.joinsFree_wick g num
  rw [h]
@[simp] theorem State.joinsFree_insts (s : State) (g num : Nat) : (s.joinsFree g num).wick.insts = s.wick.insts := by
  obtain ⟨js, h⟩ := s.joinsFree_wick g num
  rw [h]
@[simp] theorem State.joinsFree_tasks (s : State) (g num : Nat) : (s.joinsFree g num).wick.tasks = s.wick.tasks := by
  obtain ⟨js, h⟩ := s.joinsFree_wick g num
  rw [h]
@[simp] theorem State.joinsFree_full (s : State) (g num : Nat) : (s.joinsFree g num).wick.full = s.wick.full := by
  obtain ⟨js, h⟩ := s.joinsFree_wick g num
  rw [h]

theorem State.joinsFree_kept {l : List Nat} {s : State} {g num : Nat} : RegsKept l s (s.joinsFree g num) :=
  .of_does (State.joinsFree_does (ps := [.wick]) (by decide) .refl)

/-- An item that has left the list expires: it is counted and traced, and the join counters of its tick may free. -/
def State.itemGone (s : State) (it : WItem) : State := (s.expireItem it).joinsFree it.grid it.num

section
variable {s : State} {it : WItem}

@[simp] theorem State.itemGone_items : (s.itemGone it).wick.items = s.wick.items := by simp [State.itemGone, State.expireItem]
@[simp] theorem State.itemGone_insts : (s.itemGone it).wick.insts = s.wick.insts := by simp [State.itemGone, State.expireItem]
@[simp] theorem State.itemGone_tasks : (s.itemGone it).wick.tasks = s.wick.tasks := by simp [State.itemGone, State.expireItem]

theorem State.itemGone_kept : RegsKept (0x50120 :: traceRegs) s (s.itemGone it) :=
  ((State.bump_kept (by simp)).trans (State.trace_kept (by simp))).trans State.joinsFree_kept

theorem State.itemGone_count : (s.itemGone it).reg 0x50120 = s.up 0x50120 1 := by
  rw [State.itemGone, State.joinsFree_kept (l := []) _ (by simp), State.expireItem, State.trace_kept (fun _ h => h) _ (by decide),
    State.reg_bump, State.up]

theorem State.itemsGone_count {l : List WItem} : (l.foldl State.itemGone s).reg 0x50120 = s.up 0x50120 l.length := by
  induction l generalizing s with
  | nil => exact (s.up_zero _).symm
  | cons it l ih => exact ih.trans (State.up_succ State.itemGone_count l.length)

end

/-- The list without the items that go. -/
def State.without (s : State) (p : WItem → Bool) : State := s.onWick (fun w => { w with items := w.items.filter (fun i => !p i) })

theorem State.expireWhere_eq (s : State) (p : WItem → Bool) :
    s.expireWhere p = ((s.wick.items.filter p).foldl State.itemGone (s.without p)).levelSettle := rfl

section
variable {s : State} {p : WItem → Bool}

theorem State.expireWhere_items : (s.expireWhere p).wick.items = s.wick.items.filter (fun i => !p i) := by
  rw [State.expireWhere_eq, State.levelSettle_wick]
  exact State.foldl_keeps (fun s => s.wick.items) (fun _ _ => State.itemGone_items) _ _

theorem State.expireWhere_insts : (s.expireWhere p).wick.insts = s.wick.insts := by
  rw [State.expireWhere_eq, State.levelSettle_wick]
  exact State.foldl_keeps (fun s => s.wick.insts) (fun _ _ => State.itemGone_insts) _ _

theorem State.expireWhere_tasks : (s.expireWhere p).wick.tasks = s.wick.tasks := by
  rw [State.expireWhere_eq, State.levelSettle_wick]
  exact State.foldl_keeps (fun s => s.wick.tasks) (fun _ _ => State.itemGone_tasks) _ _

theorem State.expireWhere_count : (s.expireWhere p).reg 0x50120 = s.up 0x50120 (s.wick.items.filter p).length := by
  rw [State.expireWhere_eq, State.levelSettle_kept (l := traceRegs) (by decide) (by decide) _ (by decide), State.itemsGone_count]
  rfl

theorem State.expireWhere_kept : RegsKept (0x50120 :: traceRegs) s (s.expireWhere p) := by
  rw [State.expireWhere_eq]
  have h : RegsKept (0x50120 :: traceRegs) s ((s.wick.items.filter p).foldl State.itemGone (s.without p)) :=
    (RegsKept.of_eq (State.onWick_regs _ _)).trans (.foldl fun _ _ => State.itemGone_kept)
  exact h.trans (State.levelSettle_kept (by decide) (by decide))

end

/-! ### Aging (R158) -/

/-- An item as the aging scan leaves it: a level higher, where it has stood long enough below its ceiling. -/
def State.agedItem (s : State) (it : WItem) : WItem :=
  if s.classCeil (s.itemClass it) ≤ it.level ∨ s.now < it.tLvl + s.wckAge then it else { it with level := it.level + 1, tLvl := s.now }

/-- The registers the scan may write: the counts of raised items and of those at their ceiling, and those of the trace. -/
def agingRegs : List Nat := 0x50104 :: 0x50108 :: traceRegs

/-- The parts the scan writes. -/
def agingParts : List Part := [.free, .regs, .host, .rings, .wick, .sta]

theorem State.effReg_of_kept {s t : State} {l : List Nat} {off : Nat} (hr : RegsKept l s t) (hh : t.heldRegs = s.heldRegs) (ho : off ∉ l) :
    t.effReg off = s.effReg off := by
  rw [State.effReg, hh, hr off ho, State.effReg]

theorem State.itemClass_lt (s : State) (it : WItem) : s.itemClass it < 8 := by
  unfold State.itemClass
  split
  · decide
  · split
    · exact Nat.mod_lt _ (by decide)
    · decide

section
variable {s t : State}

theorem State.itemClass_of_imgs (h : t.imgs = s.imgs) : t.itemClass = s.itemClass := by
  funext it
  rw [State.itemClass, State.nodeOf_of_imgs h]
  rfl

theorem State.agedItem_of_same (hd : Does agingParts s t) (hr : RegsKept agingRegs s t) : t.agedItem = s.agedItem := by
  have hh : t.heldRegs = s.heldRegs := hd.frame .heldRegs (by decide)
  have hn : t.now = s.now := congrArg (·.acc / 2 ^ 32) (hd.frame .clock (by decide))
  have ha : t.wckAge = s.wckAge := by rw [State.wckAge, State.effReg_of_kept hr hh (by decide), State.wckAge]
  funext it
  have hc : t.classCeil (s.itemClass it) = s.classCeil (s.itemClass it) := by
    have := s.itemClass_lt it
    rw [State.classCeil, State.effReg_of_kept hr hh (by simp [agingRegs, traceRegs]; omega), State.classCeil]
  rw [State.agedItem, State.itemClass_of_imgs (hd.frame .imgs (by decide)), hc, ha, hn, State.agedItem]

/-- An item of no flow is raised: the raise is traced and counted, and so is its reaching the ceiling. -/
def State.raised (s : State) (i : Nat) (it : WItem) (ceil : Nat) : State :=
  let t := ((s.onWick (fun w => { w with items := w.items.set i it })).trace 0x03 it 0xFF false false).bump 0x50104 1
  if it.level = ceil then (t.bump 0x50108 1).fireOpen 49 else t

section
variable {i ceil : Nat} {it : WItem}

@[simp] theorem State.raised_items : (s.raised i it ceil).wick.items = s.wick.items.set i it := by
  unfold State.raised; split <;> simp
@[simp] theorem State.raised_tasks : (s.raised i it ceil).wick.tasks = s.wick.tasks := by
  unfold State.raised; split <;> simp
@[simp] theorem State.raised_joins : (s.raised i it ceil).wick.joins = s.wick.joins := by
  unfold State.raised; split <;> simp

theorem State.raised_kept : RegsKept agingRegs s (s.raised i it ceil) := by
  unfold State.raised
  extract_lets t
  have h : RegsKept agingRegs s t :=
    ((RegsKept.of_eq (State.onWick_regs _ _)).trans (State.trace_kept (by simp [agingRegs]))).trans (State.bump_kept (by decide))
  split
  · exact (h.trans (State.bump_kept (by decide))).trans (State.fireOpen_kept (by decide) (by decide))
  · exact h

end

theorem State.raiseEarlier_flowless (ready level : Nat) : s.raiseEarlier ready 0 level = s := if_pos rfl

/-- One item of no flow in the scan. -/
theorem State.ageOne_flowless {i : Nat} {it : WItem} (hi : s.wick.items[i]? = some it) (hf : it.flow = 0) :
    s.ageOne i = if s.classCeil (s.itemClass it) ≤ it.level ∨ s.now < it.tLvl + s.wckAge then s
      else s.raised i { it with level := it.level + 1, tLvl := s.now } (s.classCeil (s.itemClass it)) := by
  unfold State.ageOne
  rw [hi]
  dsimp only
  rw [hf, State.raiseEarlier_flowless]
  rfl

theorem getElem?_set_of_some {α : Type} {l : List α} {i : Nat} {a b : α} (h : l[i]? = some a) (j : Nat) :
    (l.set i b)[j]? = if j = i then some b else l[j]? := by
  have hi : i < l.length := List.getElem?_eq_some_iff.mp h |>.1
  split
  next hj => rw [hj, List.getElem?_set_self hi]
  next hj => exact List.getElem?_set_ne (Ne.symm hj)

/-- The scan at one place of the list: its item ages, and nothing else of the scheduler's work changes. -/
theorem State.ageOne_place {i : Nat} (hf : ∀ it, s.wick.items[i]? = some it → it.flow = 0) :
    (∀ j, (s.ageOne i).wick.items[j]? = if j = i then s.wick.items[j]?.map s.agedItem else s.wick.items[j]?) ∧
      (s.ageOne i).wick.tasks = s.wick.tasks ∧ (s.ageOne i).wick.joins = s.wick.joins ∧ RegsKept agingRegs s (s.ageOne i) := by
  cases hi : s.wick.items[i]? with
  | none =>
    have hs : s.ageOne i = s := by rw [State.ageOne, hi]
    rw [hs]
    refine ⟨fun j => ?_, rfl, rfl, .refl⟩
    split
    next hj => rw [hj, hi, Option.map_none]
    next => rfl
  | some it =>
    rw [State.ageOne_flowless hi (hf it hi)]
    split
    next h =>
      refine ⟨fun j => ?_, rfl, rfl, .refl⟩
      split
      next hj => rw [hj, hi, Option.map_some, State.agedItem, if_pos h]
      next => rfl
    next h =>
      refine ⟨fun j => ?_, State.raised_tasks, State.raised_joins, State.raised_kept⟩
      rw [State.raised_items, getElem?_set_of_some hi]
      split
      next hj => rw [hj, hi, Option.map_some, State.agedItem, if_neg h]
      next => rfl

/-- The scan has come to place `k` of the list: the items before it have aged, and the rest of the scheduler's work is as it was. -/
structure Scanned (s : State) (k : Nat) (t : State) : Prop where
  items : ∀ j, t.wick.items[j]? = if j < k then s.wick.items[j]?.map s.agedItem else s.wick.items[j]?
  tasks : t.wick.tasks = s.wick.tasks
  joins : t.wick.joins = s.wick.joins
  regs : RegsKept agingRegs s t
  does : Does agingParts s t

theorem Scanned.start (s : State) : Scanned s 0 s := ⟨by simp, rfl, rfl, .refl, .refl⟩

theorem Scanned.next {k : Nat} (h : Scanned s k t) (hf : ∀ it ∈ s.wick.items, it.flow = 0) : Scanned s (k + 1) (t.ageOne k) := by
  have hk : t.wick.items[k]? = s.wick.items[k]? := by rw [h.items, if_neg (Nat.lt_irrefl k)]
  obtain ⟨hi, ht, hj, hr⟩ := t.ageOne_place (i := k) fun it hit => hf it (List.mem_of_getElem? (hk ▸ hit))
  refine ⟨fun j => ?_, ht.trans h.tasks, hj.trans h.joins, h.regs.trans hr, State.ageOne_does (by decide) h.does⟩
  rw [hi, State.agedItem_of_same h.does h.regs, h.items]
  obtain hlt | rfl | hgt := Nat.lt_trichotomy j k
  · simp [hlt, Nat.lt_succ_of_lt hlt, Nat.ne_of_lt hlt]
  · simp
  · simp [Nat.not_lt_of_gt hgt, Nat.not_lt.mpr (Nat.succ_le_of_lt hgt), Nat.ne_of_gt hgt]

theorem Scanned.run (hf : ∀ it ∈ s.wick.items, it.flow = 0) (k : Nat) : Scanned s k ((List.range k).foldl State.ageOne s) := by
  induction k with
  | zero => exact .start s
  | succ k ih =>
    rw [List.range_succ, List.foldl_append]
    exact ih.next hf

theorem Scanned.all {k : Nat} (h : Scanned s k t) (hk : s.wick.items.length ≤ k) : t.wick.items = s.wick.items.map s.agedItem := by
  refine List.ext_getElem? fun j => ?_
  rw [h.items, List.getElem?_map]
  split
  · rfl
  · rw [List.getElem?_eq_none (by omega)]
    rfl

end

/-! ### The capacity of a level (R149) -/

section
variable {s : State} {l : Nat} {v : Word} {o : Origin}

/-- The capacities of the other levels together. -/
def State.otherCaps (s : State) (l : Nat) : Nat := (List.range 16).foldl (fun a k => if k = l then a else a + s.levelCap k) 0

/-- A capacity that R149 admits. -/
def CapAdmitted (s : State) (l cap : Nat) : Prop := s.anyRun = false ∧ 16 ≤ cap ∧ s.otherCaps l + cap ≤ 7680

theorem exec_levelCapWrite (hl : l < 16) : exec (.levelCapWrite l v o) s = .next (levelCapWrite s o l v) := by
  show Host.Outcome.next (if l < 16 then _ else _) = _
  rw [if_pos hl]

theorem exec_levelCapWrite_admitted (hl : l < 16) (hc : CapAdmitted s l (field v 12 0)) : exec (.levelCapWrite l v o) s =
    .next (s.loggedWrite o (0x50040 + 4 * l) (BitVec.ofNat 32 (field v 12 0))).levelSettle := by
  obtain ⟨hr, hlo, hhi⟩ := hc
  have h : ¬ (s.anyRun = true ∨ field v 12 0 < 16 ∨ 7680 < field v 12 0 ∨ 7680 < s.otherCaps l + field v 12 0) := by
    simp only [hr, Bool.false_eq_true, false_or]
    omega
  rw [exec_levelCapWrite hl]
  exact congrArg Host.Outcome.next (if_neg h)

theorem exec_levelCapWrite_rejected (hl : l < 16) (h : s.anyRun = true ∨ field v 12 0 < 16 ∨ 7680 < s.otherCaps l + field v 12 0) :
    exec (.levelCapWrite l v o) s = .next (s.setFlag 0x50000 18 true) := by
  rw [exec_levelCapWrite hl]
  exact congrArg Host.Outcome.next (if_pos (h.imp_right (Or.imp_right Or.inr)))

/-- A field of the low bits of a word that holds no more than it. -/
theorem field_ofNat_of_lt {n hi : Nat} (hhi : hi < 32) (h : n < 2 ^ (hi + 1)) : field (BitVec.ofNat 32 n) hi 0 = n := by
  have h32 : n < 2 ^ 32 := Nat.lt_of_lt_of_le h (Nat.pow_le_pow_right (by decide) hhi)
  rw [field, BitVec.toNat_ofNat, Nat.mod_eq_of_lt h32, Nat.shiftRight_zero, Nat.sub_zero, Nat.mod_eq_of_lt h]

theorem field_lt (w : Word) (hi lo : Nat) : field w hi lo < 2 ^ (hi + 1 - lo) := Nat.mod_lt _ (Nat.two_pow_pos _)

theorem State.capWritten (hl : l < 16) (hroom : s.auditRoom 1 = true) {cap : Nat} (hc : cap < 2 ^ 13) :
    let t := (s.loggedWrite o (0x50040 + 4 * l) (BitVec.ofNat 32 cap)).levelSettle
    t.levelCap l = cap ∧ Logged s t ∧ t.wick.items = s.wick.items ∧ RegsKept ((0x50040 + 4 * l) :: auditRegs) s t ∧
      Frame [.free, .regs, .host, .rings, .audit, .wick, .pwr, .sta] s t := by
  have ho : 0x50040 + 4 * l ∉ auditRegs := by simp [auditRegs]; omega
  have hset : ∀ {u : State}, RegsKept auditRegs u u.levelSettle := State.levelSettle_kept (by decide) (by decide)
  refine ⟨?_, ?_, ?_, ?_, ?_⟩
  · rw [State.levelCap, State.fld, hset _ ho, State.loggedWrite_reg hroom ho, field_ofNat_of_lt (by decide) hc]
  · refine (congrArg Audit.index (Does.frame (State.levelSettle_does (fun _ h => h) .refl) .audit (by decide))).trans ?_
    exact State.loggedWrite_index hroom
  · have hw : (s.loggedWrite o (0x50040 + 4 * l) (BitVec.ofNat 32 cap)).wick = s.wick :=
      (State.loggedWrite_does_log (fun _ h => h) .refl).frame .wick (by decide)
    rw [State.levelSettle_wick, ← hw]
  · exact (State.loggedWrite_kept hroom (by simp) (by simp)).trans (hset.mono (by simp))
  · exact (State.levelSettle_does (by decide) (State.loggedWrite_does (by decide) .refl)).frame

end

/-! ### An item enters the ready list (R151, R156) -/

section
variable {s : State} {it : WItem}

/-- Raising earlier items of a flow leaves an item that is not earlier. -/
theorem State.mem_raiseEarlier {ready flow level : Nat} (hm : it ∈ s.wick.items) (hr : ready ≤ it.ready) :
    it ∈ (s.raiseEarlier ready flow level).wick.items := by
  unfold State.raiseEarlier
  split
  · exact hm
  · generalize List.range _ = is
    induction is generalizing s with
    | nil => exact hm
    | cons i is ih =>
      refine ih ?_
      dsimp only
      split
      next e he =>
        split
        next h =>
          obtain ⟨-, -, hlt⟩ := h
          rw [State.trace_items, State.onWick_wick]
          obtain ⟨j, hj⟩ := List.mem_iff_getElem?.mp hm
          have hji : i ≠ j := by
            rintro rfl
            obtain rfl : e = it := Option.some.inj (he.symm.trans hj)
            omega
          exact List.mem_iff_getElem?.mpr ⟨j, (List.getElem?_set_ne hji).trans hj⟩
        next => exact hm
      next => exact hm

theorem State.raiseEarlier_tasks (ready flow level : Nat) : (s.raiseEarlier ready flow level).wick.tasks = s.wick.tasks := by
  unfold State.raiseEarlier
  split
  · rfl
  · refine State.foldl_keeps (fun s => s.wick.tasks) (fun u i => ?_) _ _
    dsimp only
    split
    · split
      · rw [State.trace_tasks, State.onWick_wick]
      · rfl
    · rfl

theorem State.mem_enterItem : it ∈ (s.enterItem it).wick.items := by
  rw [State.enterItem, State.levelSettle_wick]
  exact State.mem_raiseEarlier (by simp) (Nat.le_refl _)

@[simp] theorem State.enterItem_tasks : (s.enterItem it).wick.tasks = s.wick.tasks := by
  rw [State.enterItem, State.levelSettle_wick]
  exact State.raiseEarlier_tasks _ _ _

theorem State.enterItem_frame : Frame [.free, .regs, .host, .rings, .wick, .sta] s (s.enterItem it) :=
  (State.enterItem_does (fun _ h => h) .refl).frame

@[simp] theorem State.enterItem_lan : (s.enterItem it).lan = s.lan := State.enterItem_frame .lan (by decide)
@[simp] theorem State.enterItem_imgs : (s.enterItem it).imgs = s.imgs := State.enterItem_frame .imgs (by decide)
@[simp] theorem State.enterItem_clock : (s.enterItem it).clock = s.clock := State.enterItem_frame .clock (by decide)

theorem State.releaseItem_open (h : s.levelOpen it.level = true) : s.releaseItem it = s.enterItem it := if_pos h

end

/-! ### What decides whether an item is released, and which one -/

/-- The graphs, the instances, the clock, the levels and the ready list are the same in two states: both release the same items. -/
structure SameRelease (s t : State) : Prop where
  imgs : t.imgs = s.imgs
  mgt : t.mgt = s.mgt
  clock : t.clock = s.clock
  rate : t.reg 0xE0000 = s.reg 0xE0000
  insts : t.wick.insts = s.wick.insts
  full : t.wick.full = s.wick.full
  items : t.wick.items = s.wick.items

namespace SameRelease
variable {s t : State}

theorem nodeOf (h : SameRelease s t) : t.nodeOf = s.nodeOf := State.nodeOf_of_imgs h.imgs

theorem succOf (h : SameRelease s t) : t.succOf = s.succOf := by
  funext r
  rw [State.succOf, State.planeImages, h.imgs, State.succOf, State.planeImages]

theorem planeRuns (h : SameRelease s t) : t.planeRuns = s.planeRuns := by
  funext p
  rw [State.planeRuns, h.mgt, State.planeRuns]

theorem instOf (h : SameRelease s t) : t.instOf = s.instOf := by
  funext g num
  rw [State.instOf, h.insts, State.instOf]

theorem levelOpen (h : SameRelease s t) : t.levelOpen = s.levelOpen := by
  funext l
  rw [State.levelOpen, State.listRoom, State.reserveFill, h.full, h.items, State.levelOpen, State.listRoom, State.reserveFill]

theorem now (h : SameRelease s t) : t.now = s.now := by
  rw [State.now, h.clock, State.now]

theorem deadlineOf (h : SameRelease s t) : t.deadlineOf = s.deadlineOf := by
  have hg : t.gridNs = s.gridNs := by
    funext g
    rw [State.gridNs, State.samplesNs, State.renderRate, State.flag, State.fld, h.rate]
    rfl
  funext i r
  rw [State.deadlineOf, hg, State.deadlineOf]

theorem newItem (h : SameRelease s t) : t.newItem = s.newItem := by
  funext i r key data
  rw [State.newItem, h.now, h.deadlineOf, State.newItem]

end SameRelease

/-! ### A check-value job of an item of Wick (R374, R375): it reads DRAM, and writes only its own registers and its record -/

/-- The registers a job on a check-value engine may write: those of reads of DRAM, the engine's check value, and the counts of jobs and of
mismatches. -/
def jobRegs (engine : Nat) : List Nat :=
  [0x10114, 0x2000C, 0x40100, 0x40104, 0x110104 + 16 * engine, 0x110104 + 16 * engine + 4, 0x110224, 0x110228]

/-- The parts a job without a copy writes. -/
def jobParts : List Part := [.free, .regs, .host, .rings, .evs, .dram]

/-- From `s` to `t` a job on an engine has gone on. -/
structure JobRuns (engine : Nat) (s t : State) : Prop where
  does : Does jobParts s t
  regs : RegsKept (jobRegs engine) s t

section
variable {e : Nat} {s t : State}

theorem JobRuns.refl : JobRuns e s s := ⟨.refl, .refl⟩

theorem JobRuns.trans {u : State} (h : JobRuns e s t) (k : JobRuns e t u) : JobRuns e s u := ⟨h.does.trans k.does, h.regs.trans k.regs⟩

theorem State.dramTouch_kept {l : List Nat} {line : Nat} (h : 0x2000C ∈ l) (h2 : 0x10114 ∈ l) : RegsKept l s (s.dramTouch line) := by
  have hw : RegsKept l s (s.leaveSelfRefresh (lineChan line)) := by
    unfold State.leaveSelfRefresh
    split
    · exact (RegsKept.of_does (State.onChan_does (ps := [.dram]) (by decide) .refl)).trans (State.fire_kept h h2)
    · exact .refl
  exact hw.trans (.of_does (State.onChan_does (ps := [.dram]) (by decide) .refl))

theorem State.dramRead_job (addr n : Nat) : JobRuns e s (s.dramRead addr n) := by
  refine ⟨State.dramRead_does (by decide) .refl, ?_⟩
  refine RegsKept.foldl fun u l => ?_
  extract_lets v
  have h : RegsKept (jobRegs e) u v := State.dramTouch_kept (by simp [jobRegs]) (by simp [jobRegs])
  clear_value v
  split
  · exact h.trans (State.bump_kept (by simp [jobRegs]))
  · exact h.trans (State.bump_kept (by simp [jobRegs]))
  · exact h

theorem State.jobPieces_job (img : Option Image) (r src : List Byte) (k reg n : Nat) :
    JobRuns e s (State.jobPieces s img false r src k reg n).2 := by
  induction n generalizing s k reg with
  | zero => exact .refl
  | succ n ih =>
    unfold State.jobPieces
    extract_lets len bytes reg' dst s1 s2
    have h1 : JobRuns e s s1 := by
      show JobRuns e s (if _ then _ else _)
      split
      · exact .refl
      · exact State.dramRead_job _ _
    have h2 : s2 = s1 := if_pos (by decide)
    rw [h2]
    exact h1.trans (ih _ _)

theorem State.runJob_job (img : Option Image) (r src : List Byte) : JobRuns e s (s.runJob img e false r src).2 := by
  unfold State.runJob
  extract_lets p reg0 reg1
  split
  rename_i reg s1 e1
  have h1 : JobRuns e s s1 := by
    have h := State.jobPieces_job (e := e) (s := s) img r src 0 reg1 (jobCount r)
    rwa [e1] at h
  split
  rename_i value result s2 e2
  have h2 : JobRuns e s1 s2 := by
    split at e2
    · cases e2
      exact .refl
    · cases e2
      exact ⟨State.fresh_does (bound := 2 ^ 64) (by decide) (State.fresh_does (bound := 2 ^ 64) (by decide) .refl), .of_eq rfl⟩
  extract_lets cmp ok s3 s4
  have h3 : JobRuns e s2 s3 := ⟨State.bump_does (by decide) (State.setReg64_does (by decide) .refl),
    (State.setReg64_kept (by simp [jobRegs]) (by simp [jobRegs])).trans (State.bump_kept (by simp [jobRegs]))⟩
  have h4 : JobRuns e s3 s4 := by
    show JobRuns e s3 (if _ then _ else _)
    split
    · exact .refl
    · exact ⟨State.noteEvent_does (by decide) (State.bump_does (by decide) .refl),
        (State.bump_kept (by simp [jobRegs])).trans (.of_does (State.noteEvent_does (ps := [.evs]) (by decide) .refl))⟩
  exact h1.trans (h2.trans (h3.trans h4))

/-- The job of a task of Wick: it runs on the engine of the item's key, and writes its record into the tile memory. -/
theorem State.wickJob_cases (s : State) (k : WTask) : s.wickJob k = s ∨
    ∃ t f, JobRuns (k.item.key % 8) s t ∧ s.wickJob k = t.onLan f ∧ ∀ l, (f l).cores = l.cores := by
  unfold State.wickJob
  split
  next => exact .inl rfl
  next img nd _ =>
    extract_lets core
    split
    next => exact .inl rfl
    next a _ =>
      extract_lets r
      split
      next => exact .inl rfl
      next =>
        have h := State.runJob_job (e := k.item.key % 8) (s := s) (some img) r []
        generalize s.runJob (some img) (k.item.key % 8) false r [] = q at h ⊢
        obtain ⟨⟨value, result, cmp, ok⟩, t⟩ := q
        exact .inr ⟨t, _, h, rfl, fun _ => rfl⟩

theorem State.wickJob_rate (k : WTask) : (s.wickJob k).reg 0xE0000 = s.reg 0xE0000 := by
  obtain h | ⟨t, f, ht, h, -⟩ := s.wickJob_cases k
  · rw [h]
  · rw [h, State.onLan_reg]
    exact ht.regs _ (by simp [jobRegs]; omega)

theorem State.wickJob_cores (k : WTask) : (s.wickJob k).lan.cores = s.lan.cores := by
  obtain h | ⟨t, f, ht, h, hf⟩ := s.wickJob_cases k
  · rw [h]
  · rw [h]
    exact (hf t.lan).trans (congrArg Lantern.cores (ht.does.frame .lan (by decide)))

end

/-! ### The completion of an engine (R146, R156) -/

section
variable {s : State} {g num key n : Nat} {i : Image} {r : List Byte} {inst : WInst}

/-- One node waits for the completion, and its level is open: its item enters the list. -/
theorem State.engineRelease_one (hn : s.nodeOf n = some (i, r)) (hr : ndRelease r = 2) (hg : ndGrid r = g)
    (hp : s.planeRuns (ndPlane r) = true) (hl : s.levelOpen (ndLevel r) = true) (hi : s.instOf g num = some inst) :
    s.engineRelease g num [n] key = s.enterItem (s.newItem inst r key inst.num) := by
  have h : s.engineRelease g num [n] key = s.releaseItem (s.newItem inst r key inst.num) := by
    rw [State.engineRelease, List.foldl_cons, List.foldl_nil, hn, hi]
    exact if_pos ⟨hr, hg, hp⟩
  rw [h]
  exact State.releaseItem_open hl

/-- A node of another grid takes no item. -/
theorem State.engineRelease_otherGrid (hn : s.nodeOf n = some (i, r)) (hg : ndGrid r ≠ g) : s.engineRelease g num [n] key = s := by
  rw [State.engineRelease, List.foldl_cons, List.foldl_nil, hn]
  cases s.instOf g num with
  | none => rfl
  | some i => exact if_neg fun ⟨_, h, _⟩ => hg h

end

/-- The nodes that name an engine and take items of its completions. -/
def State.engineNodes (s : State) (e : Nat) : List Nat :=
  (s.liveNodes.filter (fun p => ndKind p.2 == 2 && ndTarget p.2 == e && ndRelease p.2 == 2)).map (fun p => ndNode p.2)

/-- The state after the work of a completed task, and after the task has left service. -/
def State.worked (s : State) (dt e : Nat) (k : WTask) : State := if e = 10 then (s.elapse dt).wickJob k else s.elapse dt

/-- A completion of an engine that no task holds releases items of the newest tick of a grid that lives. -/
def State.gridCompletes (nodes : List Nat) (key : Nat) (s : State) (g : Nat) : State :=
  match s.newestInst g with
  | some i => s.engineRelease g i.num nodes key
  | none => s

section
variable {s : State} {dt e key n : Nat} {k : WTask} {i i2 : Image} {r r2 : List Byte} {inst : WInst}

/-- A completed task leaves service. -/
def State.served (s : State) (t : WTask) : State :=
  ((s.onWick (fun w => { w with tasks := w.tasks.filter (fun x => !(x == t)) })).trace 0x02 t.item t.res false t.slice).joinsFree
    t.item.grid t.item.num

theorem State.taskEnds_completed (t : WTask) : s.taskEnds t false = s.served t := by simp [State.taskEnds, State.served]

@[simp] theorem State.served_items (t : WTask) : (s.served t).wick.items = s.wick.items := by simp [State.served]
@[simp] theorem State.served_insts (t : WTask) : (s.served t).wick.insts = s.wick.insts := by simp [State.served]
@[simp] theorem State.served_full (t : WTask) : (s.served t).wick.full = s.wick.full := by simp [State.served]
@[simp] theorem State.served_tasks (t : WTask) : (s.served t).wick.tasks = s.wick.tasks.filter (fun x => !(x == t)) := by
  simp [State.served]

theorem State.served_kept (t : WTask) : RegsKept traceRegs s (s.served t) :=
  ((RegsKept.of_eq (State.onWick_regs _ _)).trans (State.trace_kept (fun _ h => h))).trans State.joinsFree_kept

theorem State.served_does {ps : List Part} {s0 : State} {t : WTask} (hw : [.free, .regs, .host, .rings, .wick, .sta] ⊆ ps)
    (h : Does ps s0 s) : Does ps s0 (s.served t) := s.taskEnds_completed t ▸ State.taskEnds_does hw h

theorem State.worked_does : Does [.free, .regs, .host, .rings, .evs, .dram, .lan] (s.elapse dt) (s.worked dt e k) :=
  Does.ite (State.wickJob_does (by decide) .refl) .refl

theorem State.worked_rate : (s.worked dt e k).reg 0xE0000 = s.reg 0xE0000 := by
  unfold State.worked
  split
  · exact State.wickJob_rate k
  · rfl

theorem State.worked_cores : (s.worked dt e k).lan.cores = s.lan.cores := by
  unfold State.worked
  split
  · exact State.wickJob_cores k
  · rfl

theorem State.worked_lan (h : e ≠ 10) : (s.worked dt e k).lan = s.lan := by
  rw [State.worked, if_neg h, State.elapse_lan]

theorem State.worked_served_same : SameRelease (s.elapse dt) ((s.worked dt e k).served k) := by
  have hw : (s.worked dt e k).wick = s.wick := State.worked_does.frame .wick (by decide)
  have hd : Does [.free, .regs, .host, .rings, .evs, .dram, .lan, .wick, .sta] (s.elapse dt) ((s.worked dt e k).served k) :=
    State.served_does (by decide) (State.worked_does.weaken (by decide))
  refine ⟨hd.frame .imgs (by decide), hd.frame .mgt (by decide), hd.frame .clock (by decide), ?_, ?_, ?_, ?_⟩
  · exact (State.served_kept k _ (by decide)).trans State.worked_rate
  · rw [State.served_insts, hw, State.elapse_wick]
  · rw [State.served_full, hw, State.elapse_wick]
  · rw [State.served_items, hw, State.elapse_wick]

theorem State.served_lan (t : WTask) : (s.served t).lan = s.lan :=
  (State.served_does (ps := [.free, .regs, .host, .rings, .wick, .sta]) (by decide) .refl).frame .lan (by decide)

theorem State.not_mem_served (t : WTask) : t ∉ (s.served t).wick.tasks := by simp

theorem exec_engineCompletion_task (he : e < 16) (ht : s.taskOf (0x80 + e) = some k) (hn : s.nodeOf k.item.node = some (i, r))
    (hs : SameRelease (s.elapse dt) ((s.worked dt e k).served k)) : exec (.engineCompletion dt e key) s =
      .next (((s.worked dt e k).served k).engineRelease k.item.grid k.item.num (s.succOf r ++ s.engineNodes e).eraseDups key) := by
  have hn' : ((s.worked dt e k).served k).nodeOf k.item.node = some (i, r) := by rw [hs.nodeOf]; exact hn
  have hsucc : ((s.worked dt e k).served k).succOf r = s.succOf r := by rw [hs.succOf]; rfl
  have ht' : (s.elapse dt).taskOf (0x80 + e) = some k := ht
  rw [← State.taskEnds_completed, State.worked] at hn' hsucc ⊢
  show execEngineCompletion dt e key s = _
  unfold execEngineCompletion
  dsimp only
  rw [if_neg (by omega), ht']
  dsimp only
  rw [hn']
  dsimp only
  rw [hsucc]
  rfl

theorem exec_engineCompletion_free (he : e < 16) (ht : s.taskOf (0x80 + e) = none) : exec (.engineCompletion dt e key) s =
    .next ([0, 1].foldl (State.gridCompletes (s.engineNodes e) key) (s.elapse dt)) := by
  have ht' : (s.elapse dt).taskOf (0x80 + e) = none := ht
  show execEngineCompletion dt e key s = _
  unfold execEngineCompletion
  extract_lets v named
  rw [if_neg (by omega), ht']
  rfl

/-- One node names the engine: its item enters the list, and the nodes of the other grid take none. -/
theorem State.gridsComplete_one (hn : s.nodeOf n = some (i2, r2)) (hr : ndRelease r2 = 2) (hp : s.planeRuns (ndPlane r2) = true)
    (hl : s.levelOpen (ndLevel r2) = true) (hnew : s.newestInst (ndGrid r2) = some inst)
    (hi : s.instOf (ndGrid r2) inst.num = some inst) :
    [0, 1].foldl (State.gridCompletes [n] key) s = s.enterItem (s.newItem inst r2 key inst.num) := by
  have hmine : State.gridCompletes [n] key s (ndGrid r2) = s.enterItem (s.newItem inst r2 key inst.num) := by
    rw [State.gridCompletes, hnew]
    exact State.engineRelease_one hn hr rfl hp hl hi
  have hother : ∀ {u : State} {g : Nat}, u.imgs = s.imgs → ndGrid r2 ≠ g → State.gridCompletes [n] key u g = u := by
    intro u g hu hg
    unfold State.gridCompletes
    split
    · exact State.engineRelease_otherGrid (by rw [State.nodeOf_of_imgs hu, hn]) hg
    · rfl
  rw [List.foldl_cons, List.foldl_cons, List.foldl_nil]
  obtain h | h : ndGrid r2 = 0 ∨ ndGrid r2 = 1 := Nat.mod_two_eq_zero_or_one _
  · rw [h] at hmine
    rw [hmine, hother State.enterItem_imgs (by omega)]
  · rw [h] at hmine
    rw [hother rfl (by omega), hmine]

theorem State.gridsComplete_none : [0, 1].foldl (State.gridCompletes [] key) s = s := by
  have h : ∀ (u : State) (g : Nat), State.gridCompletes [] key u g = u := by
    intro u g
    unfold State.gridCompletes
    split <;> rfl
  rw [List.foldl_cons, List.foldl_cons, List.foldl_nil, h, h]

/-- An engine completes a task of Wick, and one node waits for that: the task leaves service and the node's item enters the list. -/
theorem exec_engineCompletion_taskMade (he : e < 16) (ht : s.taskOf (0x80 + e) = some k) (hk : s.nodeOf k.item.node = some (i, r))
    (hone : (s.succOf r ++ s.engineNodes e).eraseDups = [n]) (hn : s.nodeOf n = some (i2, r2)) (hr : ndRelease r2 = 2)
    (hg : ndGrid r2 = k.item.grid) (hp : s.planeRuns (ndPlane r2) = true) (hl : s.levelOpen (ndLevel r2) = true)
    (hi : s.instOf k.item.grid k.item.num = some inst) : exec (.engineCompletion dt e key) s =
      .next (((s.worked dt e k).served k).enterItem ((s.elapse dt).newItem inst r2 key inst.num)) := by
  have hs := State.worked_served_same (s := s) (dt := dt) (e := e) (k := k)
  rw [exec_engineCompletion_task he ht hk hs, hone, State.engineRelease_one (by rw [hs.nodeOf]; exact hn) hr hg
    (by rw [hs.planeRuns]; exact hp) (by rw [hs.levelOpen]; exact hl) (by rw [hs.instOf]; exact hi), hs.newItem]

/-- An engine at work for no task of Wick completes, and one node names it: the node's item enters the list. -/
theorem exec_engineCompletion_freeMade (he : e < 16) (ht : s.taskOf (0x80 + e) = none) (hone : s.engineNodes e = [n])
    (hn : s.nodeOf n = some (i2, r2)) (hr : ndRelease r2 = 2) (hp : s.planeRuns (ndPlane r2) = true)
    (hl : s.levelOpen (ndLevel r2) = true) (hnew : s.newestInst (ndGrid r2) = some inst)
    (hi : s.instOf (ndGrid r2) inst.num = some inst) : exec (.engineCompletion dt e key) s =
      .next ((s.elapse dt).enterItem ((s.elapse dt).newItem inst r2 key inst.num)) := by
  rw [exec_engineCompletion_free he ht, hone]
  exact congrArg Host.Outcome.next (State.gridsComplete_one (s := s.elapse dt) hn hr hp hl hnew hi)

end

/-! ### A message (R197, R198) -/

theorem mailboxRing_none {n : Nat} (h : 1024 ≤ n) : mailboxRing n = none := if_neg (by omega)

section
variable {s : State} {q : WPost} {i : Image} {rec_ : List Byte} {inst : WInst}

/-- A POST to a node of one input whose level is open, with its deadline ahead, becomes an item. -/
theorem State.tryPost_made (hm : mailboxRing q.target = none) (hn : s.nodeOf q.target = some (i, rec_))
    (hi : s.instOf q.grid q.num = some inst) (hd : s.pastDeadline (s.deadlineOf inst rec_) = false) (hc : ndInCount rec_ ≤ 1)
    (hl : s.levelOpen (ndLevel rec_) = true) : ∃ t, s.tryPost q false = (.done, t) ∧
      s.newItem inst rec_ q.key q.data ∈ t.wick.items ∧ t.lan = s.lan ∧ t.imgs = s.imgs ∧ t.now = s.now := by
  unfold State.tryPost
  rw [hm]
  dsimp only
  rw [hn, hi]
  dsimp only
  rw [if_neg (by rw [State.newItem]; simp [hd]), if_pos (by omega), if_pos (by rw [State.newItem]; simpa using hl)]
  exact ⟨_, rfl, State.mem_enterItem, State.enterItem_lan, State.enterItem_imgs, congrArg (·.acc / 2 ^ 32) State.enterItem_clock⟩

theorem State.aimPost_host (hc : q.core = none) (hnew : s.newestInst q.grid = some inst) : s.aimPost q = { q with num := inst.num } := by
  rw [State.aimPost, hc, hnew]
  rfl

theorem State.postLevel_node (hm : mailboxRing q.target = none) (hn : s.nodeOf q.target = some (i, rec_)) :
    s.postLevel q = some (ndLevel rec_) := by
  rw [State.postLevel, hm]
  dsimp only
  rw [hn]

/-- A message that has become an item completes with the number of its tick and its level (R198). -/
theorem State.postEnds_made (hc : q.core = none) (hm : mailboxRing q.target = none) (hn : s.nodeOf q.target = some (i, rec_)) :
    s.postEnds q 0 = s.finishAt q.ring q.index stOk 0 s.now (some (BitVec.ofNat 32 (q.num % 256 + 256 * ndLevel rec_))) := by
  rw [State.postEnds, hc]
  dsimp only
  rw [if_pos rfl, State.postLevel_node hm hn, Option.getD_some]

end

section
variable {s : State} {r : Nat} {d : Desc} {rec_ : List Byte} {i : Image} {inst : WInst}

/-- The node records a message may name: those in force, and those of images held or accepted. -/
def State.knownNodes (s : State) : List (List Byte) :=
  s.liveNodes.map (·.2) ++ ((s.imgs.held ++ s.imgs.staged).map (fun i => i.nodes)).flatten

/-- The record a message names. -/
def State.messageNode (s : State) (d : Desc) : Option (List Byte) := s.knownNodes.find? (fun x => ndNode x == field d.w0 27 16)

theorem State.messageNode_of_nodeOf (h : s.nodeOf (field d.w0 27 16) = some (i, rec_)) : s.messageNode d = some rec_ := by
  have hl : (s.liveNodes.map (·.2)).find? (fun x => ndNode x == field d.w0 27 16) = some rec_ := by
    rw [List.find?_map]
    exact congrArg (Option.map (·.2)) h
  rw [State.messageNode, State.knownNodes, List.find?_append, hl, Option.some_or]

/-- A message descriptor that meets the format, with none of its ring waiting before it. -/
structure MessageDue (s : State) (r : Nat) (d : Desc) : Prop where
  desc : s.nextDesc r 0x80 = some d
  free : s.wick.blocked.any (fun q => q.core.isNone && q.ring == r) = false
  zero : field d.w0 31 28 = 0
  flags : d.flags = 0
  high : field d.w1 31 16 = 0
  w3 : d.w3 = 0
  node : 1024 ≤ field d.w0 27 16

/-- The POST of a message. -/
def State.messagePost (s : State) (r : Nat) (d : Desc) (rec_ : List Byte) : WPost :=
  { core := none, ring := r, index := d.index, target := field d.w0 27 16, key := field d.w1 15 0, data := d.w2.toNat, src := 0
    grid := ndGrid rec_, num := 0, since := s.now }

/-- What a message comes to, once its format is right. -/
def State.messageOutcome (s : State) (r : Nat) (d : Desc) : Res :=
  match s.messageNode d with
  | none => .next (s.finish r d.index 0x0706)
  | some rec_ =>
    if ndRelease rec_ ≠ 0 then .next (s.finish r d.index 0x0706)
    else if ¬ s.planeRuns (ndPlane rec_) then .next (s.finish r d.index 0x0707)
    else
      match (s.setPhase r d.index .accepted).tryPost (s.aimPost (s.messagePost r d rec_)) false with
      | (.done, t) => .next (t.postEnds (s.aimPost (s.messagePost r d rec_)) 0)
      | (.expired, t) => .next (t.postEnds (s.aimPost (s.messagePost r d rec_)) 3)
      | (.block, t) => .next (t.blockPost (s.aimPost (s.messagePost r d rec_)))

theorem exec_mbxPost (h : MessageDue s r d) : exec (.mbxPost r) s = s.messageOutcome r d := by
  obtain ⟨hd, hfree, hzero, hflags, hhigh, hw3, hnode⟩ := h
  show execMbxPost r s = _
  unfold execMbxPost
  rw [hd]
  dsimp only
  rw [if_neg (by simp [hfree]), if_neg (by simpa [hzero, hflags, hhigh, hw3] using hnode)]
  rfl

theorem exec_mbxPost_unknown (h : MessageDue s r d) (hf : s.messageNode d = none) :
    exec (.mbxPost r) s = .next (s.finish r d.index 0x0706) := by
  rw [exec_mbxPost h, State.messageOutcome, hf]

theorem exec_mbxPost_notTaken (h : MessageDue s r d) (hf : s.messageNode d = some rec_) (hr : ndRelease rec_ ≠ 0) :
    exec (.mbxPost r) s = .next (s.finish r d.index 0x0706) := by
  rw [exec_mbxPost h, State.messageOutcome, hf]
  exact if_pos hr

theorem exec_mbxPost_stopped (h : MessageDue s r d) (hf : s.messageNode d = some rec_) (hr : ndRelease rec_ = 0)
    (hp : s.planeRuns (ndPlane rec_) = false) : exec (.mbxPost r) s = .next (s.finish r d.index 0x0707) := by
  rw [exec_mbxPost h, State.messageOutcome, hf]
  dsimp only
  rw [if_neg (by simp [hr]), if_pos (by simp [hp])]

theorem exec_mbxPost_made (h : MessageDue s r d) (hn : s.nodeOf (field d.w0 27 16) = some (i, rec_)) (hr : ndRelease rec_ = 0)
    (hp : s.planeRuns (ndPlane rec_) = true) (hnew : s.newestInst (ndGrid rec_) = some inst)
    (hi : s.instOf (ndGrid rec_) inst.num = some inst) (hd : s.pastDeadline (s.deadlineOf inst rec_) = false)
    (hc : ndInCount rec_ ≤ 1) (hl : s.levelOpen (ndLevel rec_) = true) :
    ∃ u : State, exec (.mbxPost r) s =
      .next (u.finishAt r d.index stOk 0 s.now (some (BitVec.ofNat 32 (inst.num % 256 + 256 * ndLevel rec_)))) ∧
      s.newItem inst rec_ (field d.w1 15 0) d.w2.toNat ∈ u.wick.items ∧ u.lan = s.lan := by
  have hm := mailboxRing_none h.node
  have hq : s.aimPost (s.messagePost r d rec_) = { s.messagePost r d rec_ with num := inst.num } := State.aimPost_host rfl hnew
  obtain ⟨u, hu, hitem, hlan, himgs, hnow⟩ := State.tryPost_made (s := s.setPhase r d.index .accepted)
    (q := { s.messagePost r d rec_ with num := inst.num }) hm hn hi hd hc hl
  have hn' : u.nodeOf (field d.w0 27 16) = some (i, rec_) := by rw [State.nodeOf_of_imgs himgs]; exact hn
  refine ⟨u, ?_, hitem, hlan⟩
  rw [exec_mbxPost h, State.messageOutcome, State.messageNode_of_nodeOf hn]
  dsimp only
  rw [if_neg (by simp [hr]), if_neg (by simp [hp]), hq, hu]
  dsimp only
  rw [State.postEnds_made rfl hm hn', hnow]
  rfl

end

/-- Settles O32: expiry, the aging scan, a write of CAP, a completion of an engine and a message, each by the lemma that says what its
command comes to. -/
theorem itemsAreMadeAndLeave : Obligations.ItemsAreMadeAndLeave := by
  refine ⟨fun s dt => ?_, fun s l v o => ?_, fun s dt e key n k i i2 r r2 inst => ?_, fun s r d rec_ i inst => ?_⟩
  · intro u gone
    refine ⟨⟨u.expireWhere gone, rfl, State.expireWhere_items, State.expireWhere_count, State.expireWhere_tasks, State.expireWhere_insts,
      RegsKept.trans (t := u) (.of_eq rfl) State.expireWhere_kept, ?_⟩, fun hf => ?_⟩
    · exact (State.expireWhere_does (by decide) (State.elapse_does (by decide) .refl)).frame
    · have hs := Scanned.run (s := u) hf u.wick.items.length
      refine ⟨_, rfl, ?_, ?_, ?_, ?_, ?_⟩
      · rw [State.levelSettle_wick]
        exact hs.all (Nat.le_refl _)
      · rw [State.levelSettle_wick]
        exact hs.tasks
      · rw [State.levelSettle_wick]
        exact hs.joins
      · exact (RegsKept.trans (t := u) (.of_eq rfl) hs.regs).trans (State.levelSettle_kept (by decide) (by decide))
      · exact (State.levelSettle_does (by decide) (((State.elapse_does (ps := [.clock]) (by decide) .refl).weaken (by decide)).trans
          (hs.does.weaken (by decide)))).frame
  · intro cap others hl
    refine ⟨fun hr hlo hhi hroom => ?_, fun h => ?_⟩
    · exact ⟨_, exec_levelCapWrite_admitted hl ⟨hr, hlo, hhi⟩, State.capWritten hl hroom (field_lt v 12 0)⟩
    · exact ⟨_, exec_levelCapWrite_rejected hl h, s.flag_setFlag 0x50000 (by decide), State.setFlag_kept (by simp),
        (State.setFlag_does (by decide) .refl).frame⟩
  · intro named he
    refine ⟨fun hn hr hp hl => ⟨fun ht hk hone hg hi => ?_, fun ht hone hnew hi => ?_⟩, fun ht hnone => ?_⟩
    · refine ⟨_, exec_engineCompletion_taskMade he ht hk hone hn hr hg hp hl hi, ?_, State.mem_enterItem, ?_, fun h10 => ?_⟩
      · rw [State.enterItem_tasks]
        exact State.not_mem_served k
      · rw [State.enterItem_lan, State.served_lan, State.worked_cores]
      · rw [State.enterItem_lan, State.served_lan, State.worked_lan h10]
    · exact ⟨_, exec_engineCompletion_freeMade he ht hone hn hr hp hl hnew hi, State.enterItem_tasks, State.mem_enterItem, State.enterItem_lan⟩
    · rw [exec_engineCompletion_free he ht, show s.engineNodes e = [] from hnone, State.gridsComplete_none]
  · intro node found hd hfree hzero hflags hhigh hw3 hnode
    have h : MessageDue s r d := ⟨hd, hfree, hzero, hflags, hhigh, hw3, hnode⟩
    exact ⟨fun hf => ⟨s, exec_mbxPost_unknown h hf, rfl⟩, fun hf hr => ⟨s, exec_mbxPost_notTaken h hf hr, rfl⟩,
      fun hf hr hp => ⟨s, exec_mbxPost_stopped h hf hr hp, rfl⟩, exec_mbxPost_made h⟩

end Sys2Proof.Machine
end

section
/-!
PROOF. What a bit field, a register field and an interrupt source read after they are written.
-/
namespace Sys2Proof.Machine

/-! ### Bit fields (R7) -/

/-- The word around a field of `k` bits that begins at bit `lo`: what is above, the new field, what is below. -/
theorem setField_split (x lo k v : Nat) :
    x - ((x >>> lo) % 2 ^ k) <<< lo + v <<< lo = 2 ^ lo * (2 ^ k * (x / 2 ^ lo / 2 ^ k) + v) + x % 2 ^ lo := by
  have hx : 2 ^ lo * (x / 2 ^ lo) + x % 2 ^ lo = x := Nat.div_add_mod x (2 ^ lo)
  have hf : 2 ^ k * (x / 2 ^ lo / 2 ^ k) + x / 2 ^ lo % 2 ^ k = x / 2 ^ lo := Nat.div_add_mod _ _
  rw [Nat.shiftRight_eq_div_pow, Nat.shiftLeft_eq, Nat.shiftLeft_eq, Nat.mul_comm _ (2 ^ lo), Nat.mul_comm v, Nat.mul_add]
  have hm := congrArg (2 ^ lo * ·) hf
  simp only [Nat.mul_add] at hm
  omega

/-- A word with a field replaced: the bits of the field are those of the value, all others stay. -/
theorem testBit_setField (w : Word) {hi lo : Nat} (hhi : hi < 32) (hlo : lo ≤ hi) (v n : Nat) :
    (setField w hi lo v).toNat.testBit n = if lo ≤ n ∧ n ≤ hi then v.testBit (n - lo) else w.toNat.testBit n := by
  rw [setField, field, setField_split, BitVec.toNat_ofNat, Nat.testBit_mod_two_pow,
    Nat.testBit_two_pow_mul_add _ (Nat.mod_lt _ (Nat.two_pow_pos _)),
    Nat.testBit_two_pow_mul_add _ (Nat.mod_lt _ (Nat.two_pow_pos _)), Nat.testBit_mod_two_pow, Nat.testBit_mod_two_pow,
    Nat.testBit_div_two_pow, Nat.testBit_div_two_pow]
  rcases Nat.lt_or_ge n 32 with h32 | h32
  · rcases Nat.lt_or_ge n lo with h | h
    · simp [h32, h, Nat.not_le.mpr h]
    · rcases Nat.lt_or_ge hi n with h' | h'
      · have e : n - lo - (hi + 1 - lo) + (hi + 1 - lo) + lo = n := by omega
        simp [h32, Nat.not_lt.mpr h, Nat.not_le.mpr h', e, show ¬ n - lo < hi + 1 - lo by omega]
      · simp [h32, h, h', Nat.not_lt.mpr h, show n - lo < hi + 1 - lo by omega]
  · have hw : w.toNat.testBit n = false := Nat.testBit_lt_two_pow (Nat.lt_of_lt_of_le w.isLt (Nat.pow_le_pow_right (by decide) h32))
    simp [Nat.not_lt.mpr h32, hw, show ¬ n ≤ hi by omega]

theorem testBit_field (w : Word) (hi lo n : Nat) : (field w hi lo).testBit n = (decide (n < hi + 1 - lo) && bitOf w (lo + n)) := by
  rw [field, Nat.testBit_mod_two_pow, Nat.testBit_shiftRight, bitOf]

theorem field_setField_self (w : Word) {hi lo v : Nat} (hhi : hi < 32) (hlo : lo ≤ hi) (hv : v < 2 ^ (hi + 1 - lo)) :
    field (setField w hi lo v) hi lo = v := by
  refine Nat.eq_of_testBit_eq fun n => ?_
  rw [testBit_field, bitOf, testBit_setField w hhi hlo]
  rcases Nat.lt_or_ge n (hi + 1 - lo) with h | h
  · simp [h, show lo + n ≤ hi by omega]
  · have hn : v.testBit n = false := Nat.testBit_lt_two_pow (Nat.lt_of_lt_of_le hv (Nat.pow_le_pow_right (by decide) h))
    simp [Nat.not_lt.mpr h, hn]

theorem bitOf_setField_out (w : Word) {hi lo n : Nat} (hhi : hi < 32) (hlo : lo ≤ hi) (v : Nat) (hn : n < lo ∨ hi < n) :
    bitOf (setField w hi lo v) n = bitOf w n := by
  rw [bitOf, testBit_setField w hhi hlo, if_neg (by omega), bitOf]

theorem bitOf_setBitOf (w : Word) {n : Nat} (hn : n < 32) (b : Bool) : bitOf (setBitOf w n b) n = b := by
  rw [setBitOf, bitOf, testBit_setField w hn (Nat.le_refl n), if_pos ⟨Nat.le_refl n, Nat.le_refl n⟩]
  cases b <;> simp

theorem bitOf_setBitOf_ne (w : Word) {n m : Nat} (hn : n < 32) (b : Bool) (h : m ≠ n) : bitOf (setBitOf w n b) m = bitOf w m :=
  bitOf_setField_out w hn (Nat.le_refl n) _ (by omega)

theorem field_setBitOf_out (w : Word) {hi lo n : Nat} (hn : n < 32) (b : Bool) (h : n < lo ∨ hi < n) :
    field (setBitOf w n b) hi lo = field w hi lo := by
  refine Nat.eq_of_testBit_eq fun m => ?_
  rw [testBit_field, testBit_field]
  rcases Nat.lt_or_ge m (hi + 1 - lo) with hm | hm
  · rw [bitOf_setBitOf_ne w hn b (by omega)]
  · simp [Nat.not_lt.mpr hm]

/-! ### Register fields -/

theorem State.fld_setFld (s : State) (off : Nat) {hi lo v : Nat} (hhi : hi < 32) (hlo : lo ≤ hi) (hv : v < 2 ^ (hi + 1 - lo)) :
    (s.setFld off hi lo v).fld off hi lo = v := by
  rw [State.fld, State.setFld, State.reg_setReg, field_setField_self _ hhi hlo hv]

theorem State.flag_setFld_out (s : State) (off : Nat) {hi lo n : Nat} (hhi : hi < 32) (hlo : lo ≤ hi) (v : Nat) (hn : n < lo ∨ hi < n) :
    (s.setFld off hi lo v).flag off n = s.flag off n := by
  rw [State.flag, State.setFld, State.reg_setReg, bitOf_setField_out _ hhi hlo v hn, State.flag]

theorem State.flag_setFlag_false (s : State) (off : Nat) {n : Nat} (hn : n < 32) : (s.setFlag off n false).flag off n = false := by
  rw [State.flag, State.setFlag, State.reg_setReg, bitOf_setBitOf _ hn]

theorem State.fld_setFlag_out (s : State) (off : Nat) {hi lo n : Nat} (hn : n < 32) (b : Bool) (h : n < lo ∨ hi < n) :
    (s.setFlag off n b).fld off hi lo = s.fld off hi lo := by
  rw [State.fld, State.setFlag, State.reg_setReg, field_setBitOf_out _ hn b h, State.fld]

theorem RegsKept.flag {l : List Nat} {s t : State} (h : RegsKept l s t) {off : Nat} (ho : off ∉ l) (n : Nat) : t.flag off n = s.flag off n := by
  rw [State.flag, h off ho, State.flag]

theorem RegsKept.fld {l : List Nat} {s t : State} (h : RegsKept l s t) {off : Nat} (ho : off ∉ l) (hi lo : Nat) :
    t.fld off hi lo = s.fld off hi lo := by
  rw [State.fld, h off ho, State.fld]

/-! ### Interrupt sources -/

theorem State.fire_frame (s : State) (v : Nat) (a b c : Word) : Frame [.regs, .host, .rings] s (s.fire v a b c) :=
  (State.fire_does (by decide) .refl).frame

/-- A source that fires sets its bit of INT_STATUS; the counter of lost ring 2 entries is another register (R441). -/
theorem State.fire_flag (s : State) (v : Nat) (a b c : Word) : (s.fire v a b c).flag (0x20008 + 4 * (v / 32)) (v % 32) = true := by
  have hm : v % 32 < 32 := Nat.mod_lt _ (by decide)
  have ho : 0x20008 + 4 * (v / 32) ∉ [0x10114] := by simp; omega
  unfold State.fire State.fireAt
  rw [State.flag, State.message_reg]
  refine (RegsKept.flag (State.writeOrDrop_kept (l := [0x10114]) (by simp)) ho _).trans ?_
  rw [State.firedFlags]
  exact s.flag_setFlag _ hm

end Sys2Proof.Machine
end

section
/-!
PROOF. The fast matrix and DRAM (R230, R232, R236 to R239, R255): a broken lock, how refreshes are owed and taken ahead, and the power states
of a channel; O19 is assembled from these.
-/
namespace Sys2Proof.Machine

/-! ### The first error of the fast matrix (R230, R232) -/

theorem State.reg64_setReg64 (s : State) (off v : Nat) : (s.setReg64 off v).reg64 off = v % 2 ^ 64 := by
  rw [State.reg64, State.setReg64, State.reg_setReg, State.reg_setReg_ne _ _ _ _ (by omega), State.reg_setReg, BitVec.toNat_ofNat,
    BitVec.toNat_ofNat]
  omega

section
variable {s : State} {kind master target addr : Nat}

theorem State.matrixError_kept : RegsKept [0x30008, 0x3000C, 0x30010] s (s.matrixError kind master target addr) := by
  unfold State.matrixError
  split
  · exact .refl
  · exact (State.setReg_kept (by simp)).trans (State.setReg64_kept (by simp) (by simp))

/-- An error that finds none recorded is recorded. -/
theorem State.matrixError_recorded (h : s.flag 0x30008 31 = false) (hk : kind < 4) :
    ((s.matrixError kind master target addr).reg 0x30008).toNat = 2 ^ 31 + kind * 2 ^ 16 + (target % 16) * 2 ^ 8 + master % 16 ∧
      (s.matrixError kind master target addr).reg64 0x3000C = addr % 2 ^ 64 := by
  rw [State.matrixError, if_neg (by simp [h])]
  refine ⟨?_, State.reg64_setReg64 _ _ _⟩
  rw [State.setReg64_kept (l := [0x3000C, 0x30010]) (by simp) (by simp) 0x30008 (by simp), State.reg_setReg, BitVec.toNat_ofNat]
  omega

theorem State.matrixError_later (h : s.flag 0x30008 31 = true) : s.matrixError kind master target addr = s := by
  rw [State.matrixError, if_pos h]

end

/-! ### One refresh of a channel (R236) -/

section
variable {c : DramChan}

theorem DramChan.refresh_postponed (hs : c.selfRefresh = false) (ha : c.ahead = 0) (ho : c.owed < 8) :
    c.refresh (.due true) = ({ c with owed := c.owed + 1 }, true) := by
  simp [DramChan.refresh, hs, ha, ho]

theorem DramChan.refresh_due {b : Bool} (hs : c.selfRefresh = false) (hb : b = false ∨ 0 < c.ahead) :
    c.refresh (.due b) = ({ c with ahead := c.ahead - 1 }, false) := by
  cases b with
  | false => simp [DramChan.refresh, hs]
  | true => simp [DramChan.refresh, hs, hb.resolve_left (by simp)]

theorem DramChan.refresh_early (hs : c.selfRefresh = false) (ho : c.owed = 0) (ha : c.ahead < 8) :
    c.refresh .early = ({ c with ahead := c.ahead + 1 }, false) := by
  simp [DramChan.refresh, hs, ho, ha]

/-- No more than 8 refreshes are owed, and no more than 8 taken ahead. -/
def DramChan.Bounded (c : DramChan) : Prop := c.owed ≤ 8 ∧ c.ahead ≤ 8

theorem DramChan.Bounded.less (h : c.Bounded) {a b : Nat} (ha : a ≤ c.owed) (hb : b ≤ c.ahead) :
    ({ c with owed := a, ahead := b } : DramChan).Bounded :=
  ⟨Nat.le_trans ha h.1, Nat.le_trans hb h.2⟩

theorem DramChan.Bounded.refresh (h : c.Bounded) (k : RefreshKind) : (c.refresh k).1.Bounded := by
  cases k with
  | insert => exact h.less (Nat.sub_le _ 1) (Nat.le_refl _)
  | early =>
    unfold DramChan.refresh
    dsimp only
    split
    next he => exact ⟨h.1, he.2.1⟩
    next => exact h
  | due burst =>
    unfold DramChan.refresh
    dsimp only
    split
    · exact h
    · split
      · split
        · exact h.less (Nat.le_refl _) (Nat.sub_le _ 1)
        · split
          next ho => exact ⟨ho, h.2⟩
          next => exact h
      · exact h.less (Nat.le_refl _) (Nat.sub_le _ 1)

end

/-! ### The commands of the controller -/

@[simp] theorem State.fire_dram (s : State) (v : Nat) (a b c : Word) : (s.fire v a b c).dram = s.dram := s.fire_frame v a b c .dram (by decide)

@[simp] theorem State.fire_chan (s : State) (v : Nat) (a b c : Word) (ch : Nat) : (s.fire v a b c).chan ch = s.chan ch := by
  rw [State.chan, State.fire_dram, State.chan]

/-- Time passes and a channel is left as `c`. -/
def State.dramBecomes (s : State) (dt ch : Nat) (c : DramChan) : State := (s.elapse dt).onChan ch (fun _ => c)

theorem State.dramBecomes_does (s : State) (dt ch : Nat) (c : DramChan) : Does [.clock, .dram] s (s.dramBecomes dt ch c) :=
  State.onChan_does (by decide) (State.elapse_does (by decide) .refl)

theorem State.chan_dramBecomes (s : State) (dt ch : Nat) (c : DramChan) : (s.dramBecomes dt ch c).chan ch = c :=
  State.chan_onChan _ ch _

/-- A counter that rises beside a channel. -/
theorem State.dramBecomes_counted (s : State) (dt ch off : Nat) (c : DramChan) :
    let t := (s.dramBecomes dt ch c).bump off 1
    t.chan ch = c ∧ t.reg off = s.up off 1 ∧ RegsKept [off] s t ∧ Frame [.clock, .regs, .dram] s t :=
  ⟨s.chan_dramBecomes dt ch c, State.reg_bump _ off 1, RegsKept.trans (t := s.dramBecomes dt ch c) (.of_eq rfl) (State.bump_kept (by simp)),
    (State.bump_does (by decide) ((s.dramBecomes_does dt ch c).weaken (by decide))).frame⟩

/-- The mask of channels to be refreshed at the quartered interval (R237). -/
def State.hotMask (s : State) (req : Nat) : Nat := if 1050 < s.caseTemp then 15 else req % 16

/-- The mask of the quartered interval is set. -/
def State.hotBecomes (s : State) (dt mask : Nat) : State := { s.elapse dt with dram := { s.dram with hot := mask } }

theorem State.hotBecomes_does (s : State) (dt mask : Nat) : Does [.clock, .dram] s (s.hotBecomes dt mask) :=
  .upd [.dram] (by decide) (State.elapse_does (dt := dt) (by decide) .refl)

section
variable {s : State} {dt ch : Nat}

theorem exec_lockBroken {master target addr : Nat} :
    exec (.lockBroken dt master target addr) s = .next (((s.elapse dt).bump 0x30104 1).matrixError 2 master target addr) := rfl

theorem exec_refresh_in (h : ch < 4) {kind : RefreshKind} {c : DramChan} (hr : (s.chan ch).refresh kind = (c, false)) :
    exec (.refresh dt ch kind) s = .next (s.dramBecomes dt ch c) := by
  simp [exec, execRefresh, Nat.not_le.mpr h, hr, State.dramBecomes]

theorem exec_refresh_postponed (h : ch < 4) {kind : RefreshKind} {c : DramChan} (hr : (s.chan ch).refresh kind = (c, true)) :
    exec (.refresh dt ch kind) s = .next ((s.dramBecomes dt ch c).bump 0x40108 1) := by
  simp [exec, execRefresh, Nat.not_le.mpr h, hr, State.dramBecomes]

theorem exec_forcedRefresh_due (h : ch < 4) (ho : (s.chan ch).owed = 8) :
    exec (.forcedRefresh dt ch) s = .next ((s.dramBecomes dt ch { s.chan ch with owed := 0 }).bump 0x4010C 1) :=
  if_pos ⟨h, ho⟩

theorem exec_powerDownEntry_due (h : ch < 4) (hi : s.fld 0x40000 15 0 ≠ 0) (hs : (s.chan ch).selfRefresh = false)
    (ht : 8 * (s.chan ch).lastReq + 15 * s.fld 0x40000 15 0 ≤ 8 * (s.elapse dt).now) :
    exec (.powerDownEntry dt ch) s = .next (s.dramBecomes dt ch { s.chan ch with powerDown := true }) :=
  if_pos ⟨h, hi, Bool.eq_false_iff.mp hs, ht⟩

/-- What a check of the refresh rate comes to: source 61 fires where the mask leaves or returns to zero. -/
theorem exec_refreshRateCheck (req : Nat) : ∃ w1 w2, exec (.refreshRateCheck dt req) s = .next
    (if (s.hotMask req ≠ 0 ∧ s.dram.hot = 0) ∨ (s.hotMask req = 0 ∧ s.dram.hot ≠ 0)
      then (s.hotBecomes dt (s.hotMask req)).fire 61 w1 w2 0 else s.hotBecomes dt (s.hotMask req)) := by
  have he : exec (.refreshRateCheck dt req) s = .next
      (let u := if s.hotMask req ≠ 0 ∧ s.dram.hot = 0 then (s.hotBecomes dt (s.hotMask req)).fire 61 (BitVec.ofNat 32 (s.hotMask req)) 3 0
          else s.hotBecomes dt (s.hotMask req)
        if s.hotMask req = 0 ∧ s.dram.hot ≠ 0 then u.fire 61 (BitVec.ofNat 32 s.dram.hot) 4 0 else u) := rfl
  rw [he]
  by_cases hm : s.hotMask req = 0
  · exact ⟨BitVec.ofNat 32 s.dram.hot, 4, by simp [hm]⟩
  · exact ⟨BitVec.ofNat 32 (s.hotMask req), 3, by simp [hm]⟩

section
variable (hm : s.mgt.modState = 5) (h : ch < 4) (hs : (s.chan ch).selfRefresh = false)
include hm h hs

theorem exec_selfRefreshEntry_enters : exec (.selfRefreshEntry dt ch false) s = .next ((s.elapse dt).enterSelfRefresh ch) := by
  simp [exec, execSelfRefreshEntry, hm, hs, Nat.not_le.mpr h]

theorem exec_selfRefreshEntry_arrives : exec (.selfRefreshEntry dt ch true) s = .next ((s.elapse dt).bump 0x40110 1) := by
  simp [exec, execSelfRefreshEntry, hm, hs, Nat.not_le.mpr h]

end

end

/-! ### No command lets a channel owe or take too many (R236) -/

/-- Every channel is within its bounds. -/
def State.ChansBounded (s : State) : Prop := ∀ k, (s.chan k).Bounded

section
variable {s t : State} {dt ch : Nat}

theorem State.ChansBounded.of_dram (h : s.ChansBounded) (hd : t.dram = s.dram) : t.ChansBounded := fun k => by
  rw [State.chan, hd]
  exact h k

theorem State.ChansBounded.of_chans (h : s.ChansBounded) (hd : t.dram.chans = s.dram.chans) : t.ChansBounded := fun k => by
  rw [State.chan, hd]
  exact h k

theorem State.ChansBounded.onChan (h : s.ChansBounded) {f : DramChan → DramChan} (hf : (f (s.chan ch)).Bounded) :
    (s.onChan ch f).ChansBounded := fun k => by
  by_cases hk : k = ch
  · rw [hk, State.chan_onChan]
    exact hf
  · rw [State.chan_onChan_ne _ _ _ _ hk]
    exact h k

theorem execRefresh_bounded {kind : RefreshKind} (h : s.ChansBounded) (he : execRefresh dt ch kind s = .next t) : t.ChansBounded := by
  have hb : ((s.elapse dt).onChan ch (fun _ => ((s.chan ch).refresh kind).1)).ChansBounded :=
    State.ChansBounded.onChan (h.of_dram (t := s.elapse dt) rfl) ((h ch).refresh kind)
  unfold execRefresh at he
  dsimp only at he
  split at he
  · cases he
    exact h.of_dram rfl
  · split at he <;> cases he
    · exact hb.of_dram rfl
    · exact hb

theorem execForcedRefresh_bounded (h : s.ChansBounded) (he : execForcedRefresh dt ch s = .next t) : t.ChansBounded := by
  unfold execForcedRefresh at he
  dsimp only at he
  split at he <;> cases he
  · exact State.ChansBounded.of_dram (s := (s.elapse dt).onChan ch fun c => { c with owed := 0 })
      (State.ChansBounded.onChan (h.of_dram (t := s.elapse dt) rfl) ((h ch).less (Nat.zero_le _) (Nat.le_refl _))) rfl
  · exact h.of_dram rfl

theorem execRefreshRateCheck_bounded {req : Nat} (h : s.ChansBounded) (he : execRefreshRateCheck dt req s = .next t) :
    t.ChansBounded := by
  obtain ⟨w1, w2, hx⟩ := exec_refreshRateCheck (s := s) (dt := dt) req
  cases hx.symm.trans he
  split
  · exact h.of_chans (by rw [State.fire_dram]; rfl)
  · exact h.of_chans rfl

theorem execPowerDownEntry_bounded (h : s.ChansBounded) (he : execPowerDownEntry dt ch s = .next t) : t.ChansBounded := by
  unfold execPowerDownEntry at he
  dsimp only at he
  split at he <;> cases he
  · exact State.ChansBounded.onChan (h.of_dram (t := s.elapse dt) rfl) (h ch)
  · exact h.of_dram rfl

theorem State.enterSelfRefresh_bounded (h : s.ChansBounded) : (s.enterSelfRefresh ch).ChansBounded :=
  State.ChansBounded.of_dram (h.onChan ((h ch).less (Nat.zero_le _) (Nat.zero_le _))) (State.fire_dram _ _ _ _ _)

theorem execSelfRefreshEntry_bounded {arrives : Bool} (h : s.ChansBounded) (he : execSelfRefreshEntry dt ch arrives s = .next t) :
    t.ChansBounded := by
  have hu : (s.elapse dt).ChansBounded := h.of_dram rfl
  unfold execSelfRefreshEntry at he
  dsimp only at he
  split at he
  · cases he
    exact hu
  · split at he <;> cases he
    · exact hu.of_dram rfl
    · exact State.enterSelfRefresh_bounded hu

end

/-- Settles O19: each command by the lemma that says what it comes to, then the bound over all of them. -/
theorem memoryIsRefreshed : Obligations.MemoryIsRefreshed := by
  refine ⟨fun s dt ch => ?_, fun s t i ch hb hi he => ?_⟩
  · intro c up
    refine ⟨fun master target addr => ?_, fun h hs ha ho => ?_, fun h hs b hb => ?_, fun h hs ho ha => ?_, fun h => ?_, fun h ho => ?_,
      fun req => ?_, fun h hi hs ht => ?_, fun hm h hs => ⟨?_, ?_⟩⟩
    · have hkept : RegsKept [0x30008, 0x3000C, 0x30010] ((s.elapse dt).bump 0x30104 1)
          (((s.elapse dt).bump 0x30104 1).matrixError 2 master target addr) := State.matrixError_kept
      have hbump : RegsKept [0x30104] s ((s.elapse dt).bump 0x30104 1) := RegsKept.trans (t := s.elapse dt) (.of_eq rfl) (State.bump_kept (by simp))
      have hflag : ((s.elapse dt).bump 0x30104 1).flag 0x30008 31 = s.flag 0x30008 31 := hbump.flag (by simp) 31
      refine ⟨_, exec_lockBroken, ?_, fun hf => ?_, fun hf => ?_, ?_, ?_⟩
      · rw [hkept 0x30104 (by simp), State.reg_bump]
        rfl
      · exact State.matrixError_recorded (hflag.trans hf) (by decide)
      · rw [State.matrixError_later (hflag.trans hf)]
        exact ⟨hbump _ (by simp), by rw [State.reg64, State.reg64, hbump 0x3000C (by simp), hbump (0x3000C + 4) (by simp)]⟩
      · exact (hbump.mono (by simp)).trans (hkept.mono (by simp))
      · exact (State.matrixError_does (by decide) (State.bump_does (by decide) (State.elapse_does (by decide) .refl))).frame
    · exact ⟨_, exec_refresh_postponed h (DramChan.refresh_postponed hs ha ho), s.dramBecomes_counted dt ch _ _⟩
    · exact ⟨_, exec_refresh_in h (DramChan.refresh_due hs hb), s.chan_dramBecomes dt ch _, (s.dramBecomes_does dt ch _).frame⟩
    · exact ⟨_, exec_refresh_in h (DramChan.refresh_early hs ho ha), s.chan_dramBecomes dt ch _, (s.dramBecomes_does dt ch _).frame⟩
    · exact ⟨_, exec_refresh_in h rfl, s.chan_dramBecomes dt ch _, (s.dramBecomes_does dt ch _).frame⟩
    · exact ⟨_, exec_forcedRefresh_due h ho, s.dramBecomes_counted dt ch _ _⟩
    · obtain ⟨w1, w2, he⟩ := exec_refreshRateCheck (s := s) (dt := dt) req
      have hd : Does [.clock, .regs, .host, .rings, .dram] s (s.hotBecomes dt (s.hotMask req)) := (s.hotBecomes_does dt _).weaken (by decide)
      have hk : RegsKept [0x2000C, 0x10114] s (s.hotBecomes dt (s.hotMask req)) := .of_eq rfl
      split at he
      next => exact ⟨_, he, by rw [State.fire_dram]; rfl, by rw [State.fire_dram]; rfl, fun _ => State.fire_flag _ 61 _ _ _,
        hk.trans (State.fire_kept (by decide) (by decide)), (State.fire_does (by decide) hd).frame⟩
      next hc => exact ⟨_, he, rfl, rfl, fun hc' => absurd hc' hc, hk, hd.frame⟩
    · exact ⟨_, exec_powerDownEntry_due h hi hs ht, s.chan_dramBecomes dt ch _, (s.dramBecomes_does dt ch _).frame⟩
    · refine ⟨_, exec_selfRefreshEntry_enters hm h hs, ?_, ?_, State.fire_flag _ 61 _ _ _, ?_,
        (State.enterSelfRefresh_does (by decide) (State.elapse_does (by decide) .refl)).frame⟩
      · rw [State.enterSelfRefresh, State.fire_chan, State.chan_onChan]
      · rw [State.enterSelfRefresh, State.fire_chan, State.chan_onChan]
      · exact RegsKept.trans (t := (s.elapse dt).onChan ch _) (.of_eq rfl) (State.fire_kept (by decide) (by decide))
    · exact ⟨_, exec_selfRefreshEntry_arrives hm h hs, State.reg_bump _ _ _,
        RegsKept.trans (t := s.elapse dt) (.of_eq rfl) (State.bump_kept (by simp)),
        (State.bump_does (by decide) (State.elapse_does (by decide) .refl)).frame⟩
  · obtain ⟨dt, k, kind, req, arrives, hi⟩ := hi
    simp only [List.mem_cons, List.not_mem_nil, or_false] at hi
    obtain rfl | rfl | rfl | rfl | rfl := hi
    · exact execRefresh_bounded hb he ch
    · exact execForcedRefresh_bounded hb he ch
    · exact execRefreshRateCheck_bounded hb he ch
    · exact execPowerDownEntry_bounded hb he ch
    · exact execSelfRefreshEntry_bounded hb he ch

end Sys2Proof.Machine
end

section
/-!
PROOF. Reads of an elastic queue (R249): what QUEUE_READ comes to, and the bit EMPTY of Q_STATUS; O22 is assembled from these.
-/
namespace Sys2Proof.Machine

/-! ### The table of queues -/

theorem State.queue_setQueue (s : State) (owner inst : Nat) (q : EQueue) : (s.setQueue owner inst q).queue owner inst = q :=
  Cells.get_put_self

theorem State.queue_setQueue_ne (s : State) (owner inst : Nat) (q : EQueue) {o i : Nat} (h : 256 * o + i ≠ 256 * owner + inst) :
    (s.setQueue owner inst q).queue o i = s.queue o i :=
  Cells.get_put_ne h

theorem State.setQueue_frame (s : State) (owner inst : Nat) (q : EQueue) : Frame [.queues] s (s.setQueue owner inst q) :=
  (State.setQueue_does (by decide) .refl).frame

theorem State.queue_of_queues {s t : State} (h : t.queues = s.queues) (owner inst : Nat) : t.queue owner inst = s.queue owner inst := by
  rw [State.queue, h, State.queue]

@[simp] theorem State.fire_queue (s : State) (v : Nat) (a b c : Word) (owner inst : Nat) :
    (s.fire v a b c).queue owner inst = s.queue owner inst :=
  State.queue_of_queues (s.fire_frame v a b c .queues (by decide)) owner inst

/-! ### The registers of a queue stand apart from those of the interrupts and of the audit log (R253) -/

theorem queueShape_base {owner inst : Nat} {sh : QShape} (h : queueShape owner inst = some sh) : 0xC1000 ≤ sh.base := by
  unfold queueShape at h
  repeat' split at h
  all_goals cases h
  all_goals dsimp only
  all_goals omega

/-! ### QUEUE_READ -/

section
variable {s : State} {owner inst : Nat} {sh : QShape} (hsh : queueShape owner inst = some sh)
include hsh

theorem exec_queueRead_word {w : QWord} {ws : List QWord} (hf : (s.queue owner inst).flushing = false)
    (hd : (s.queue owner inst).drain = w :: ws) :
    exec (.queueRead owner inst false) s =
      .next (s.setQueue owner inst { s.queue owner inst with drain := ws, lastRead := w.x }) := by
  simp [exec, execQueueRead, hsh, hf, hd]

theorem exec_queueRead_empty (hf : (s.queue owner inst).flushing = false) (hd : (s.queue owner inst).drain = []) :
    exec (.queueRead owner inst false) s = .next (s.queueUnderrun owner inst sh) := by
  simp [exec, execQueueRead, hsh, hf, hd]

theorem exec_queueRead_flushing (hf : (s.queue owner inst).flushing = true) : exec (.queueRead owner inst false) s = .next s := by
  simp [exec, execQueueRead, hsh, hf]

end

theorem State.queueUnderrun_again {s : State} {owner inst : Nat} {sh : QShape} (h : s.flag (sh.base + 4) 30 = true) :
    s.queueUnderrun owner inst sh = s := if_pos h

/-- The first underrun sets UNDERRUN and fires source 34. -/
theorem State.queueUnderrun_first {s : State} {owner inst : Nat} {sh : QShape} (hb : 0xC1000 ≤ sh.base)
    (h : s.flag (sh.base + 4) 30 = false) :
    let t := s.queueUnderrun owner inst sh
    t.queue owner inst = s.queue owner inst ∧ t.flag (sh.base + 4) 30 = true ∧ t.flag 0x2000C 2 = true ∧
      RegsKept [sh.base + 4, 0x2000C, 0x10114] s t ∧ Frame [.regs, .host, .rings] s t := by
  intro t
  have ht : t = (s.setFlag (sh.base + 4) 30 true).fire 34 (BitVec.ofNat 32 (256 * owner + inst)) 0 0 := if_neg (by simp [h])
  have hk : RegsKept [0x2000C, 0x10114] (s.setFlag (sh.base + 4) 30 true) t := ht ▸ State.fire_kept (by decide) (by decide)
  refine ⟨?_, ?_, ?_, (State.setFlag_kept (by simp)).trans (hk.mono (by simp)), ?_⟩
  · rw [ht, State.fire_queue, State.queue_of_queues (State.setFlag_queues s _ 30 true)]
  · rw [hk.flag (by simp; omega)]
    exact s.flag_setFlag _ (by decide)
  · rw [ht]
    exact State.fire_flag _ 34 _ _ _
  · rw [ht]
    exact (State.fire_does (by decide) (State.setFlag_does (by decide) .refl)).frame

/-- EMPTY stands above every other part of Q_STATUS. -/
theorem State.queueStatus_empty (s : State) (owner inst base : Nat) :
    bitOf (s.queueStatus owner inst base) 31 = true ↔ (s.queue owner inst).drain = [] := by
  have hlow : ∀ b : Bool, ∀ n, (if b then n else 0) ≤ n := fun b n => by cases b <;> simp
  have hu := hlow (s.flag (base + 4) 30) (2 ^ 30)
  have hf := hlow (s.queue owner inst).flushing (2 ^ 29)
  have hw := hlow (s.queue owner inst).fillFull (2 ^ 28)
  have hc : (s.queue owner inst).fillCount % 2 ^ 24 < 2 ^ 24 := Nat.mod_lt _ (by decide)
  rw [bitOf, State.queueStatus, BitVec.toNat_ofNat, Nat.testBit_eq_decide_div_mod_eq, decide_eq_true_eq]
  split
  next h => exact ⟨fun _ => h, fun _ => by omega⟩
  next h => exact ⟨fun hb => by omega, fun hd => absurd hd h⟩

/-- Settles O22: a read that finds a word, one that finds none, and one while a flush is in progress. -/
theorem queueReadsReturnWords : Obligations.QueueReadsReturnWords := by
  intro s owner inst base sh hsh q
  refine ⟨fun w ws hf hd => ?_, s.queueStatus_empty owner inst base, fun hf hd hu => ?_, fun hf hd hu => ?_,
    exec_queueRead_flushing hsh, rfl⟩
  · exact ⟨_, exec_queueRead_word hsh hf hd, s.queue_setQueue owner inst _, fun o i h => s.queue_setQueue_ne owner inst _ h,
      s.setQueue_frame owner inst _⟩
  · exact ⟨_, exec_queueRead_empty hsh hf hd, State.queueUnderrun_first (queueShape_base hsh) hu⟩
  · rw [exec_queueRead_empty hsh hf hd, State.queueUnderrun_again hu]

end Sys2Proof.Machine
end

section
/-!
PROOF. What enters an elastic queue (R246 to R251): a word of an item, a stray word, the swap of the banks, a flush, and an item pushed whole;
O21 is assembled from these.
-/
namespace Sys2Proof.Machine

/-! ### A word at the fill bank (R247) -/

/-- A word joins the fill bank. -/
def EQueue.joined (q : EQueue) (x : Nat) (last : Bool) : EQueue := { q with fill := q.fill ++ [{ x := x, last := last }] }

/-- The open item ends and leaves no word; `skip`: its further words are passed over. -/
def EQueue.dropped (q : EQueue) (skip : Bool) : EQueue := { q with fill := q.fill.take q.cm, opened := false, skip := skip }

/-- The open item is committed; `full`: the fill bank has no room for another. -/
def EQueue.committed (q : EQueue) (full : Bool) : EQueue := { q with cm := q.fill.length, opened := false, fillFull := full }

section
variable {sh : QShape} {q : EQueue} {o : QOut} {x : Nat} {eoi bad : Bool}

theorem EQueue.storeWord_noRoom (h : sh.bank ≤ q.fill.length) :
    q.storeWord sh o x eoi bad = (q.dropped (!eoi), { o with ovr := o.ovr + 1 }) := if_pos h

section
variable (h : q.fill.length < sh.bank)
include h

theorem EQueue.storeWord_stored : q.storeWord sh o x false bad = (q.joined x false, o) := if_neg (Nat.not_le.mpr h)

theorem EQueue.storeWord_ended :
    q.storeWord sh o x true true = ((q.joined x true).dropped q.skip, { o with bad := o.bad + 1 }) := if_neg (Nat.not_le.mpr h)

theorem EQueue.storeWord_committed :
    ∃ full, q.storeWord sh o x true false = ((q.joined x true).committed full, { o with commit := true }) :=
  ⟨_, if_neg (Nat.not_le.mpr h)⟩

end

/-- The queue takes a word as the next of an item, or as its first where `soi` marks it so: then no item is open and the banks do not
swap. -/
structure EQueue.Takes (q : EQueue) (soi : Bool) : Prop where
  skip : q.skip = false
  first : soi = true → q.opened = false ∧ q.canSwap = false
  next : soi = false → q.opened = true

/-- The item a word belongs to is open. -/
def EQueue.begun (q : EQueue) (soi : Bool) : EQueue := if soi then { q with opened := true, stray := false } else q

@[simp] theorem EQueue.begun_fill (q : EQueue) (soi : Bool) : (q.begun soi).fill = q.fill := by cases soi <;> rfl
@[simp] theorem EQueue.begun_cm (q : EQueue) (soi : Bool) : (q.begun soi).cm = q.cm := by cases soi <;> rfl
@[simp] theorem EQueue.begun_drain (q : EQueue) (soi : Bool) : (q.begun soi).drain = q.drain := by cases soi <;> rfl
@[simp] theorem EQueue.begun_fillFull (q : EQueue) (soi : Bool) : (q.begun soi).fillFull = q.fillFull := by cases soi <;> rfl
@[simp] theorem EQueue.begun_skip (q : EQueue) (soi : Bool) : (q.begun soi).skip = q.skip := by cases soi <;> rfl

theorem EQueue.Takes.begun_opened {soi : Bool} (h : q.Takes soi) : (q.begun soi).opened = true := by
  cases soi
  · exact h.next rfl
  · rfl

/-- After a word that is stored the queue takes the next of its item. -/
theorem EQueue.Takes.joined {soi : Bool} (h : q.Takes soi) (x : Nat) : ((q.begun soi).joined x false).Takes false :=
  ⟨(q.begun_skip soi).trans h.skip, by simp, fun _ => h.begun_opened⟩

theorem EQueue.word_ofItem {soi : Bool} (h : q.Takes soi) :
    q.word sh x soi eoi bad = (q.begun soi).storeWord sh QOut.none x eoi bad := by
  cases soi with
  | false => simp [EQueue.word, h.skip, h.next rfl, EQueue.begun]
  | true =>
    obtain ⟨ho, hs⟩ := h.first rfl
    simp [EQueue.word, h.skip, ho, hs, EQueue.begun]

/-- A word with no item open is counted, once. -/
theorem EQueue.word_stray (hk : q.skip = false) (ho : q.opened = false) (hs : q.stray = false) :
    q.word sh x false eoi bad = ({ q with stray := true }, { QOut.none with bad := 1 }) := by
  simp [EQueue.word, hk, ho, hs, QOut.none]

end

/-! ### What the word does beside the queue -/

section
variable {s : State} {owner inst before : Nat} {sh : QShape} {q : EQueue}

theorem State.queueEffects_quiet : s.queueEffects owner inst sh before q .none = s.setQueue owner inst q := by
  simp [State.queueEffects, QOut.none]

theorem State.queueEffects_bad :
    s.queueEffects owner inst sh before q { QOut.none with bad := 1 } = (s.setQueue owner inst q).bump (sh.base + 0xC) 1 := by
  simp [State.queueEffects, QOut.none]

theorem State.queueEffects_oversize :
    s.queueEffects owner inst sh before q { QOut.none with ovr := 1 } = (s.setQueue owner inst q).bump (sh.base + 0x10) 1 := by
  simp [State.queueEffects, QOut.none]

/-- A commit may cross the threshold of Q_LEVEL: source 33 (R250, R254). -/
theorem State.queueEffects_commit :
    let t := s.queueEffects owner inst sh before q { QOut.none with commit := true }
    t.queue owner inst = q ∧ RegsKept [0x2000C, 0x10114] s t := by
  have hk : RegsKept [0x2000C, 0x10114] s (s.setQueue owner inst q) := .of_eq rfl
  simp only [State.queueEffects, QOut.none, if_true, true_and]
  split
  · exact ⟨by rw [State.fire_queue, State.queue_setQueue], hk.trans (State.fire_kept (by decide) (by decide))⟩
  · exact ⟨State.queue_setQueue _ _ _ _, hk⟩

end

/-! ### A producer's word -/

section
variable {s : State} {owner inst x : Nat} {sh : QShape} {soi eoi bad : Bool}

theorem exec_queueWord (hsh : queueShape owner inst = some sh) :
    exec (.queueWord owner inst x soi eoi bad) s = .next (s.queuePush owner inst sh x soi eoi bad) := by
  simp [exec, execQueueWord, hsh]

theorem State.queuePush_eq {q : EQueue} {o : QOut} (h : (s.queue owner inst).word sh x soi eoi bad = (q, o)) :
    s.queuePush owner inst sh x soi eoi bad = s.queueEffects owner inst sh (s.queue owner inst).fillCount q o := by
  rw [State.queuePush, h]

theorem State.queuePush_frame : Frame [.regs, .host, .rings, .queues] s (s.queuePush owner inst sh x soi eoi bad) :=
  (State.queuePush_does (by decide) .refl).frame

theorem State.queuePush_stray (hk : (s.queue owner inst).skip = false) (ho : (s.queue owner inst).opened = false)
    (hs : (s.queue owner inst).stray = false) : s.queuePush owner inst sh x false eoi bad =
      (s.setQueue owner inst { s.queue owner inst with stray := true }).bump (sh.base + 0xC) 1 := by
  rw [State.queuePush_eq (EQueue.word_stray hk ho hs), State.queueEffects_bad]

section
variable (hq : (s.queue owner inst).Takes soi)
include hq

theorem State.queuePush_noRoom (h : sh.bank ≤ (s.queue owner inst).fill.length) : s.queuePush owner inst sh x soi eoi bad =
    (s.setQueue owner inst (((s.queue owner inst).begun soi).dropped (!eoi))).bump (sh.base + 0x10) 1 := by
  rw [State.queuePush_eq ((EQueue.word_ofItem hq).trans (EQueue.storeWord_noRoom (by simpa using h)))]
  exact State.queueEffects_oversize

section
variable (h : (s.queue owner inst).fill.length < sh.bank)
include h

theorem State.queuePush_stored : s.queuePush owner inst sh x soi false bad =
    s.setQueue owner inst (((s.queue owner inst).begun soi).joined x false) := by
  rw [State.queuePush_eq ((EQueue.word_ofItem hq).trans (EQueue.storeWord_stored (by simpa using h)))]
  exact State.queueEffects_quiet

theorem State.queuePush_ended : s.queuePush owner inst sh x soi true true =
    (s.setQueue owner inst ((((s.queue owner inst).begun soi).joined x true).dropped false)).bump (sh.base + 0xC) 1 := by
  rw [State.queuePush_eq ((EQueue.word_ofItem hq).trans (EQueue.storeWord_ended (by simpa using h))), EQueue.begun_skip, hq.skip]
  exact State.queueEffects_bad

theorem State.queuePush_committed : ∃ full,
    (s.queuePush owner inst sh x soi true false).queue owner inst = (((s.queue owner inst).begun soi).joined x true).committed full ∧
      RegsKept [0x2000C, 0x10114] s (s.queuePush owner inst sh x soi true false) := by
  obtain ⟨full, hw⟩ := EQueue.storeWord_committed (q := (s.queue owner inst).begun soi) (o := .none) (x := x) (by simpa using h)
  rw [State.queuePush_eq ((EQueue.word_ofItem hq).trans hw)]
  exact ⟨full, State.queueEffects_commit⟩

end

end

end

/-! ### The banks swap (R248) -/

theorem EQueue.trySwap_swaps {q : EQueue} (ho : q.opened = false) (hd : q.drain = []) (hc : 0 < q.cm) : q.trySwap = q.swapped := by
  simp [EQueue.trySwap, EQueue.canSwap, ho, hd, hc]

theorem EQueue.trySwap_waits {q : EQueue} (hf : q.fillFull = false) (hc : q.cm = 0) : q.trySwap = q := by
  simp [EQueue.trySwap, EQueue.canSwap, hf, hc]

theorem exec_queueSwap {s : State} {owner inst : Nat} {sh : QShape} (hsh : queueShape owner inst = some sh) :
    exec (.queueSwap owner inst) s = .next (s.setQueue owner inst (s.queue owner inst).trySwap) := by
  simp [exec, execQueueSwap, hsh]

/-! ### A flush (R251) -/

/-- Both banks are empty; a flush with an item open waits for its end. -/
def EQueue.flushed (q : EQueue) : EQueue :=
  { q with fill := [], cm := 0, drain := [], fillFull := false, opened := false, skip := q.opened || q.skip, flushTail := q.opened
           flushing := q.opened }

section
variable {s : State} {owner inst : Nat} {sh : QShape} {v : Word}

/-- The entry of a flush joins the audit log. -/
def State.flushLogged (s : State) (owner inst : Nat) (sh : QShape) (v : Word) : State :=
  s.auditNow 0 0 0x01 0 (BitVec.ofNat 32 (sh.base + 8)) (if (s.queue owner inst).flushing then 1 else 0) (v &&& 1)

theorem State.flushLogged_does : Does [.regs, .host, .rings, .audit, .pwr] s (s.flushLogged owner inst sh v) :=
  State.auditNow_does_log (fun _ h => h) .refl

theorem State.flushLogged_queue : (s.flushLogged owner inst sh v).queue owner inst = s.queue owner inst :=
  State.queue_of_queues (State.flushLogged_does.frame .queues (by decide)) owner inst

theorem State.flushLogged_kept : RegsKept auditRegs s (s.flushLogged owner inst sh v) := State.auditNow_kept (fun _ h => h)

theorem State.flushLogged_logged : Logged s (s.flushLogged owner inst sh v) := by
  rw [Logged, State.flushLogged, State.auditNow_index]

/-- A flush is logged, both banks empty, and their words are counted. -/
def State.flushes (s : State) (owner inst : Nat) (sh : QShape) (v : Word) : State :=
  ((s.flushLogged owner inst sh v).bump (sh.base + 0x14)
    ((s.queue owner inst).drain.length + (s.queue owner inst).fill.length)).setQueue owner inst (s.queue owner inst).flushed

section
variable (hsh : queueShape owner inst = some sh)
include hsh

theorem State.queueFlush_flushLogged (hf : (s.queue owner inst).flushing = false) :
    (s.flushLogged owner inst sh v).queueFlush owner inst = s.flushes owner inst sh v := by
  rw [State.queueFlush, hsh]
  dsimp only
  rw [State.flushLogged_queue, if_neg (by simp [hf])]
  rfl

theorem exec_flush_logged (hroom : s.auditRoom 1 = true) (hv : bitOf v 0 = true) (hf : (s.queue owner inst).flushing = false) :
    exec (.flush owner inst v) s = .next (s.flushes owner inst sh v) := by
  have he : exec (.flush owner inst v) s = .next ((s.flushLogged owner inst sh v).queueFlush owner inst) := by
    simp [exec, execFlush, State.flushWrite, hsh, State.pulseWrite, hroom, hv, State.flushLogged, originCode, originId]
  rw [he, State.queueFlush_flushLogged hsh hf]

theorem exec_flush_discarded (hroom : s.auditRoom 1 = false) : exec (.flush owner inst v) s = .next (s.bump 0x300 1) := by
  simp [exec, execFlush, State.flushWrite, hsh, State.pulseWrite, hroom]

theorem exec_flushDone : exec (.flushDone owner inst) s = .next (s.queueFlushDone owner inst) := by
  simp [exec, execFlushDone, hsh]

theorem State.flushes_count : (s.flushes owner inst sh v).reg (sh.base + 0x14) =
    s.up (sh.base + 0x14) ((s.queue owner inst).drain.length + (s.queue owner inst).fill.length) := by
  have ho : sh.base + 0x14 ∉ auditRegs := by
    have hb := queueShape_base hsh
    simp [auditRegs]
    omega
  rw [State.flushes, State.setQueue_reg, State.reg_bump, State.flushLogged_kept _ ho, State.up]

end

theorem State.flushes_logged : Logged s (s.flushes owner inst sh v) := by
  rw [Logged, State.flushes, State.setQueue_audit, State.bump_audit]
  exact State.flushLogged_logged

theorem State.flushes_kept : RegsKept ((sh.base + 0x14) :: auditRegs) s (s.flushes owner inst sh v) :=
  ((State.flushLogged_kept.mono (by simp)).trans (State.bump_kept (by simp))).trans (.of_eq (State.setQueue_regs _ _ _ _))

theorem State.flushes_frame : Frame [.regs, .host, .rings, .audit, .queues, .pwr] s (s.flushes owner inst sh v) :=
  (State.setQueue_does (by decide) (State.bump_does (by decide) (State.flushLogged_does.weaken (by decide)))).frame

end

/-! ### Whole items -/

/-- The words of an item as the fill bank holds them: the last is marked. -/
def itemWords : List Nat → List QWord
  | [] => []
  | [x] => [{ x := x, last := true }]
  | x :: y :: xs => { x := x, last := false } :: itemWords (y :: xs)

theorem length_itemWords : ∀ ws : List Nat, (itemWords ws).length = ws.length
  | [] => rfl
  | [_] => rfl
  | _ :: y :: xs => congrArg (· + 1) (length_itemWords (y :: xs))

/-- An item is read back whole, and nothing is left. -/
theorem takeItem_itemWords : ∀ {ws : List Nat}, ws ≠ [] → takeItem (itemWords ws) = (ws, [])
  | [_], _ => rfl
  | x :: y :: xs, _ => by
    have ih := takeItem_itemWords (ws := y :: xs) (by simp)
    simp [itemWords, takeItem, ih]

section
variable {owner inst : Nat} {sh : QShape}

/-- A word that does not end its item leaves the queue as it takes the next. -/
theorem State.queue_queuePush_stored {s : State} {x : Nat} {soi bad : Bool} (hq : (s.queue owner inst).Takes soi)
    (h : (s.queue owner inst).fill.length < sh.bank) :
    (s.queuePush owner inst sh x soi false bad).queue owner inst = ((s.queue owner inst).begun soi).joined x false := by
  rw [State.queuePush_stored hq h, State.queue_setQueue]

/-- What an item of words `ws` makes of a queue that takes it, its last word not marked bad. -/
def EQueue.Committed (q : EQueue) (ws : List Nat) (y : EQueue) : Prop :=
  y.fill = q.fill ++ itemWords ws ∧ y.cm = q.fill.length + ws.length ∧ y.opened = false ∧ y.drain = q.drain

/-- What it makes of the queue where its last word is marked bad. -/
def EQueue.Ended (q : EQueue) (ws : List Nat) (y : EQueue) : Prop :=
  y.fill = (q.fill ++ itemWords ws).take q.cm ∧ y.cm = q.cm ∧ y.fillFull = q.fillFull ∧ y.drain = q.drain

theorem EQueue.Committed.cons {q y : EQueue} {soi : Bool} {x z : Nat} {xs : List Nat}
    (h : ((q.begun soi).joined x false).Committed (z :: xs) y) : q.Committed (x :: z :: xs) y := by
  obtain ⟨hf, hc, ho, hd⟩ := h
  refine ⟨hf.trans ?_, hc.trans ?_, ho, hd.trans ?_⟩ <;> simp [EQueue.joined, itemWords]
  omega

theorem EQueue.Ended.cons {q y : EQueue} {soi : Bool} {x z : Nat} {xs : List Nat}
    (h : ((q.begun soi).joined x false).Ended (z :: xs) y) : q.Ended (x :: z :: xs) y := by
  obtain ⟨hf, hc, hu, hd⟩ := h
  refine ⟨hf.trans ?_, hc.trans ?_, hu.trans ?_, hd.trans ?_⟩ <;> simp [EQueue.joined, itemWords]

/-- The words of an item, its last not marked bad, are committed together. -/
theorem State.pushGo_committed {ws : List Nat} (hne : ws ≠ []) {s : State} {soi : Bool} (hq : (s.queue owner inst).Takes soi)
    (hl : (s.queue owner inst).fill.length + ws.length ≤ sh.bank) :
    (s.queue owner inst).Committed ws ((State.pushGo owner inst sh false soi ws s).queue owner inst) := by
  induction ws generalizing s soi with
  | nil => exact absurd rfl hne
  | cons x ws ih =>
    rw [List.length_cons] at hl
    cases ws with
    | nil =>
      obtain ⟨full, hy, -⟩ := State.queuePush_committed (x := x) hq hl
      rw [State.pushGo, hy]
      simp [EQueue.Committed, EQueue.committed, EQueue.joined, itemWords]
    | cons z xs =>
      have hw := State.queue_queuePush_stored (sh := sh) (x := x) (bad := false) hq (by omega)
      have hi := ih (by simp) (hw ▸ hq.joined x) (by rw [hw]; simpa [EQueue.joined, Nat.add_assoc, Nat.add_comm 1] using hl)
      rw [hw] at hi
      exact hi.cons

/-- An item whose last word is marked bad leaves what was committed before it, and is counted. -/
theorem State.pushGo_ended {ws : List Nat} (hne : ws ≠ []) {s : State} {soi : Bool} (hq : (s.queue owner inst).Takes soi)
    (hl : (s.queue owner inst).fill.length + ws.length ≤ sh.bank) :
    (s.queue owner inst).Ended ws ((State.pushGo owner inst sh true soi ws s).queue owner inst) ∧
      (State.pushGo owner inst sh true soi ws s).reg (sh.base + 0xC) = s.up (sh.base + 0xC) 1 := by
  induction ws generalizing s soi with
  | nil => exact absurd rfl hne
  | cons x ws ih =>
    rw [List.length_cons] at hl
    cases ws with
    | nil =>
      rw [State.pushGo, State.queuePush_ended (x := x) hq hl, State.reg_bump]
      refine ⟨?_, rfl⟩
      rw [State.queue_of_queues (State.bump_queues _ _ _), State.queue_setQueue]
      simp [EQueue.Ended, EQueue.dropped, EQueue.joined, itemWords]
    | cons z xs =>
      have hw := State.queue_queuePush_stored (sh := sh) (x := x) (bad := true) hq (by omega)
      obtain ⟨hi, hr⟩ := ih (by simp) (hw ▸ hq.joined x) (by rw [hw]; simpa [EQueue.joined, Nat.add_assoc, Nat.add_comm 1] using hl)
      rw [hw] at hi
      refine ⟨hi.cons, hr.trans ?_⟩
      rw [State.queuePush_stored hq (by omega), State.up, State.setQueue_reg, State.up]

end

theorem EQueue.empty_takes : EQueue.empty.Takes true := ⟨rfl, fun _ => ⟨rfl, rfl⟩, by simp⟩

section
variable {s : State} {owner inst : Nat} {sh : QShape} {ws : List Nat}
variable (hsh : queueShape owner inst = some sh) (he : s.queue owner inst = EQueue.empty) (hne : ws ≠ []) (hl : ws.length ≤ sh.bank)
include hsh

theorem State.pushItem_eq (bad : Bool) : s.pushItem owner inst ws bad =
    (State.pushGo owner inst sh bad true ws s).setQueue owner inst
      ((State.pushGo owner inst sh bad true ws s).queue owner inst).trySwap := by
  rw [State.pushItem, hsh]

include he hne hl

theorem State.pushItem_committed :
    let t := s.pushItem owner inst ws false
    (t.queue owner inst).drain = itemWords ws ∧ (t.queue owner inst).fill = [] := by
  obtain ⟨hf, hc, ho, hd⟩ := State.pushGo_committed (sh := sh) hne (he ▸ EQueue.empty_takes) (by rw [he]; simpa [EQueue.empty] using hl)
  rw [he] at hf hc hd
  simp only [EQueue.empty, List.nil_append, List.length_nil, Nat.zero_add] at hf hc hd
  intro t
  rw [show t = _ from State.pushItem_eq hsh false, State.queue_setQueue,
    EQueue.trySwap_swaps ho hd (hc ▸ List.length_pos_iff.mpr hne), EQueue.swapped, hf, hc]
  exact ⟨List.take_of_length_le (Nat.le_of_eq (length_itemWords ws)), rfl⟩

theorem State.pushItem_ended :
    let t := s.pushItem owner inst ws true
    (t.queue owner inst).drain = [] ∧ (t.queue owner inst).fill = [] ∧ t.reg (sh.base + 0xC) = s.up (sh.base + 0xC) 1 := by
  obtain ⟨⟨hf, hc, hfull, hd⟩, hr⟩ := State.pushGo_ended (sh := sh) hne (he ▸ EQueue.empty_takes) (by rw [he]; simpa [EQueue.empty] using hl)
  rw [he] at hf hc hfull hd
  intro t
  rw [show t = _ from State.pushItem_eq hsh true, State.queue_setQueue, State.setQueue_reg, EQueue.trySwap_waits hfull hc]
  exact ⟨hd, hf, hr⟩

end

/-- A counter of the queue beside the queue itself. -/
theorem State.setQueue_counted (s : State) (owner inst off : Nat) (q : EQueue) :
    let t := (s.setQueue owner inst q).bump off 1
    t.queue owner inst = q ∧ t.reg off = s.up off 1 ∧ RegsKept [off] s t := by
  refine ⟨?_, State.reg_bump _ _ _, RegsKept.trans (.of_eq (State.setQueue_regs _ _ _ _)) (State.bump_kept (by simp))⟩
  exact (State.queue_of_queues (State.bump_queues _ _ _) owner inst).trans (s.queue_setQueue owner inst q)

/-- Settles O21: each word, swap and flush by the lemma that says what it comes to; an item by induction on its words. -/
theorem queuesCarryItems : Obligations.QueuesCarryItems := by
  refine ⟨fun s owner inst x eoi bad sh hsh => ?_, fun s owner inst sh ws hsh he hne hl => ?_⟩
  · intro q w up parts
    refine ⟨fun soi hk hfirst hnext => ?_, fun hk ho hs => ?_, fun ho hd hc => ?_, fun v hroom hv hf => ?_, fun v hroom => ?_, ?_⟩
    · have hq : q.Takes soi := ⟨hk, hfirst, hnext⟩
      refine ⟨fun h he => ⟨_, exec_queueWord hsh, ?_⟩, fun h he hb => ⟨_, exec_queueWord hsh, ?_⟩, fun h he hb => ⟨_, exec_queueWord hsh, ?_⟩,
        fun h => ⟨_, exec_queueWord hsh, ?_⟩⟩
      · subst he
        have hy := State.queue_queuePush_stored (x := x) (bad := bad) hq h
        refine ⟨?_, ?_, ?_, ?_, ?_, State.queuePush_frame⟩
        · rw [hy]; simp [EQueue.joined, q, w]
        · rw [hy]; simp [EQueue.joined, q]
        · rw [hy]; exact hq.begun_opened
        · rw [hy]; simp [EQueue.joined, q]
        · rw [State.queuePush_stored hq h]; exact .of_eq (State.setQueue_regs _ _ _ _)
      · subst he hb
        obtain ⟨full, hy, hr⟩ := State.queuePush_committed (x := x) hq h
        refine ⟨?_, ?_, ?_, ?_, hr, State.queuePush_frame⟩ <;> rw [hy] <;> simp [EQueue.committed, EQueue.joined, q, w]
      · subst he hb
        have hu := State.queuePush_ended (x := x) hq h
        obtain ⟨hy, hc, hr⟩ := s.setQueue_counted owner inst (sh.base + 0xC) (((q.begun soi).joined x true).dropped false)
        rw [← hu] at hy hc hr
        refine ⟨?_, ?_, ?_, hc, hr, State.queuePush_frame⟩ <;> rw [hy] <;> simp [EQueue.dropped, EQueue.joined, q, w]
      · have hu := State.queuePush_noRoom (x := x) (eoi := eoi) (bad := bad) hq h
        obtain ⟨hy, hc, hr⟩ := s.setQueue_counted owner inst (sh.base + 0x10) ((q.begun soi).dropped (!eoi))
        rw [← hu] at hy hc hr
        refine ⟨?_, ?_, hc, hr, State.queuePush_frame⟩ <;> rw [hy] <;> simp [EQueue.dropped, q]
    · have hu := State.queuePush_stray (sh := sh) (x := x) (eoi := eoi) (bad := bad) hk ho hs
      obtain ⟨hy, hc, hr⟩ := s.setQueue_counted owner inst (sh.base + 0xC) { q with stray := true }
      rw [← hu] at hy hc hr
      exact ⟨_, exec_queueWord hsh, hy, hc, hr, State.queuePush_frame⟩
    · refine ⟨_, exec_queueSwap hsh, ?_, ?_, ?_, s.setQueue_frame owner inst _⟩ <;>
        rw [State.queue_setQueue, EQueue.trySwap_swaps ho hd hc] <;> rfl
    · refine ⟨_, exec_flush_logged hsh hroom hv hf, ?_, ?_, ?_, ?_, State.flushes_count hsh, State.flushes_logged, State.flushes_kept,
        State.flushes_frame⟩ <;> rw [State.flushes, State.queue_setQueue] <;> rfl
    · exact ⟨_, exec_flush_discarded hsh hroom, s.bump_counted 0x300 1⟩
    · exact ⟨_, exec_flushDone hsh, s.queue_setQueue owner inst _, s.setQueue_frame owner inst _⟩
  · intro t b
    obtain ⟨hd, hf⟩ := State.pushItem_committed hsh he hne hl
    have hw : itemWords ws ≠ [] := List.ne_nil_of_length_pos (by rw [length_itemWords]; exact List.length_pos_iff.mpr hne)
    refine ⟨?_, ?_, hf, State.pushItem_ended hsh he hne hl⟩
    · rw [EQueue.head, hd, if_neg hw, takeItem_itemWords hne]
    · rw [hd, length_itemWords]

end Sys2Proof.Machine
end

section
/-!
PROOF. The banks of the memories (R242 to R245): rotation and retirement of a tile's spare bank, by themselves and by command, and the count
of a scrub pass; O20 is assembled from these.
-/
namespace Sys2Proof.Machine

/-! ### Log entries of control actions (R449) -/

section
variable {ps : List Part} {s0 s : State} {i origin act t arg time : Nat}

theorem State.ownLog_does_log (hw : [.regs, .host, .rings, .audit, .pwr] ⊆ ps) (h : Does ps s0 s) :
    Does ps s0 (s.ownLog origin act t arg time) :=
  State.chainEntry_does_log hw (State.auditRelease_does (sub hw) h)

theorem State.ctlLog_index : (s.ctlLog i act t arg time).audit.index = s.audit.index + 1 := by
  rw [State.ctlLog, State.chainEntry_index, State.auditRelease_index]

theorem State.ctlLog_kept : RegsKept auditRegs s (s.ctlLog i act t arg time) :=
  State.auditRelease_kept.trans (State.chainEntry_kept (by decide))

theorem State.ctlLog_tile (c : Nat) : (s.ctlLog i act t arg time).tile c = s.tile c := by
  rw [State.tile, (State.ctlLog_does (fun _ h => h) .refl).frame .tiles (by decide), State.tile]

/-- Time alone writes no entry. -/
theorem Logged.of_elapse {dt : Nat} {u : State} (h : Logged (s.elapse dt) u) : Logged s u := h

/-- An action of firmware or Vigil reserves its entry and writes it. -/
def State.ownLogged (s : State) (act t arg time : Nat) : State := (s.auditReserve 1).ownLog 4 act t arg time

theorem State.ownLogged_does (hw : [.regs, .host, .rings, .audit, .pwr] ⊆ ps) (h : Does ps s0 s) :
    Does ps s0 (s.ownLogged act t arg time) :=
  State.ownLog_does_log hw (State.auditReserve_does (sub hw) h)

theorem State.ownLogged_index : (s.ownLogged act t arg time).audit.index = s.audit.index + 1 := by
  rw [State.ownLogged, State.ownLog, State.chainEntry_index, State.auditRelease_index, State.auditReserve_index]

theorem State.ownLogged_kept : RegsKept auditRegs s (s.ownLogged act t arg time) := by
  rw [State.ownLogged, State.ownLog]
  exact (State.auditReserve_kept (fun _ h => h)).trans (State.auditRelease_kept.trans (State.chainEntry_kept (by decide)))

theorem State.ownLogged_tile (c : Nat) : (s.ownLogged act t arg time).tile c = s.tile c := by
  rw [State.tile, (State.ownLogged_does (fun _ h => h) .refl).frame .tiles (by decide), State.tile]

end

/-! ### The registers of a tile -/

theorem regBankState_notin_audit (c : Nat) : regBankState c ∉ auditRegs := by
  simp [auditRegs, regBankState]
  omega

@[simp] theorem State.setTile_flag (s : State) (c : Nat) (x : Tile) (off n : Nat) : (s.setTile c x).flag off n = s.flag off n := rfl
@[simp] theorem State.setTile_spare (s : State) (c k : Nat) (x : Tile) : (s.setTile c x).spare k = s.spare k := rfl
@[simp] theorem State.setTile_bankRetired (s : State) (c k p : Nat) (x : Tile) : (s.setTile c x).bankRetired k p = s.bankRetired k p := rfl
@[simp] theorem State.setTile_clusterLive (s : State) (c k : Nat) (x : Tile) : (s.setTile c x).clusterLive k = s.clusterLive k := rfl

theorem sramBlock_cases (c : Nat) : sramBlock c = 0x60800 + 0x1000 * c ∨ sramBlock c = 0x88000 ∨ sramBlock c = 0xB8000 := by
  unfold sramBlock
  split
  · exact .inl rfl
  · split
    · exact .inr (.inl rfl)
    · exact .inr (.inr rfl)

/-- A physical bank of a tile is retired and no spare remains (R244). -/
def State.retiredWithoutSpare (s : State) (c p : Nat) : State := (s.retireBank c p).noSpare c

section
variable {s t : State} {c p : Nat}

theorem State.retiredWithoutSpare_does : Does [.regs] s (s.retiredWithoutSpare c p) :=
  State.noSpare_does (fun _ h => h) (State.retireBank_does (fun _ h => h) .refl)

theorem State.retiredWithoutSpare_gone (hp : p < 17) :
    (s.retiredWithoutSpare c p).bankRetired c p = true ∧ (s.retiredWithoutSpare c p).spare c = 31 := by
  have hb := sramBlock_cases c
  have h48 : regBankState c ∉ [sramBlock c + 0x48] := by simp [regBankState]; omega
  have h0 : regBankState c ∉ [sramBlock c] := by simp [regBankState]; omega
  constructor
  · rw [State.bankRetired, State.retiredWithoutSpare, State.noSpare, (State.setFlag_kept (by simp)).flag h0,
      State.flag_setFld_out _ _ (by decide) (by decide) _ (by omega), State.retireBank, (State.bump_kept (by simp)).flag h48,
      State.flag_setFlag _ _ (by omega)]
  · rw [State.spare, State.retiredWithoutSpare, State.noSpare, (State.setFlag_kept (by simp)).fld h0,
      State.fld_setFld _ _ (by decide) (by decide) (by decide)]

/-- What the register of a tile's banks says, where it is the same. -/
theorem RegsKept.bankRetired {l : List Nat} (h : RegsKept l s t) (ho : regBankState c ∉ l) : t.bankRetired c p = s.bankRetired c p :=
  h.flag ho _

theorem RegsKept.spare {l : List Nat} (h : RegsKept l s t) (ho : regBankState c ∉ l) : t.spare c = s.spare c := h.fld ho _ _

theorem State.spare_lt : s.spare c < 32 := field_lt _ 4 0

end

/-! ### A copy into the spare begins (R243, R244) -/

section
variable {s : State} {c victim : Nat} {retire : Bool} {cmd : Option Nat} {req : Req}

theorem State.startCopy_tile : (s.startCopy c victim retire cmd req).tile c =
    { s.tile c with phase := 2, victim := victim, retire := retire, cmd := cmd, req := req } := by
  rw [State.startCopy, State.setFlag_tile, State.tile_setTile]

theorem State.atPhase_startCopy (r i : Nat) (p : Phase) : (s.startCopy c victim retire cmd req).atPhase r i p = s.atPhase r i p := by
  rw [State.startCopy, State.atPhase, State.setFlag_ring, State.setTile_ring, State.atPhase]

theorem State.startCopy_flag : (s.startCopy c victim retire cmd req).flag (regBankState c) 8 = true :=
  State.flag_setFlag _ _ (by decide)

theorem State.startCopy_kept : RegsKept [regBankState c] s (s.startCopy c victim retire cmd req) :=
  RegsKept.trans (.of_eq (State.setTile_regs _ _ _)) (State.setFlag_kept (by simp))

end

/-! ### The march test of the spare ends (R243) -/

/-- A spare that failed its test is retired. -/
def State.spareRetired (s : State) (c : Nat) : State :=
  (s.retiredWithoutSpare c (s.spare c)).setTile c { s.tile c with phase := 0, cmd := none }

/-- Its retirement is logged and counted, and source 54 fires. -/
def State.spareFailed (s : State) (c : Nat) : State :=
  (((s.spareRetired c).ownLogged 4 (0xD0 + c) (s.spare c) (s.spareRetired c).now).bump 0x12011C 1).fire 54
    (BitVec.ofNat 32 (4 + 256 * c + 3 * 65536)) (BitVec.ofNat 32 (s.spare c)) 0

section
variable {s : State} {c dt : Nat}

theorem State.spareFails_alone (h : (s.tile c).cmd = none) : s.spareFails c = s.spareFailed c := by
  unfold State.spareFails
  dsimp only
  rw [h]
  rfl

theorem State.spareFails_asked {i : Nat} (h : (s.tile c).cmd = some i) :
    s.spareFails c = ((s.spareFailed c).ctlLog i 5 (0xD0 + c) 0 (s.spareFailed c).now).finish 0 i stOk := by
  unfold State.spareFails
  dsimp only
  rw [h]
  rfl

theorem State.spareRetired_does : Does [.regs, .tiles] s (s.spareRetired c) :=
  State.setTile_does (by decide) (State.retiredWithoutSpare_does.weaken (by decide))

theorem State.spareFailed_does : Does [.regs, .host, .rings, .audit, .tiles, .pwr] s (s.spareFailed c) :=
  State.fire_does (by decide) (State.bump_does (by decide) (State.ownLogged_does (by decide) (State.spareRetired_does.weaken (by decide))))

theorem State.spareFailed_flag : (s.spareFailed c).flag 0x2000C 22 = true := State.fire_flag _ 54 _ _ _

theorem State.spareFailed_kept : RegsKept (0x12011C :: auditRegs) (s.spareRetired c) (s.spareFailed c) :=
  ((State.ownLogged_kept.mono (by simp)).trans (State.bump_kept (by simp))).trans (State.fire_kept (by decide) (by decide))

theorem regBankState_notin_failed (c : Nat) : regBankState c ∉ 0x12011C :: auditRegs := by
  simp [auditRegs, regBankState]
  omega

theorem State.spareFailed_gone (h : s.spare c < 17) :
    (s.spareFailed c).bankRetired c (s.spare c) = true ∧ (s.spareFailed c).spare c = 31 := by
  have ho := regBankState_notin_failed c
  rw [State.spareFailed_kept.bankRetired ho, State.spareFailed_kept.spare ho, State.spareRetired, State.setTile_bankRetired, State.setTile_spare]
  exact State.retiredWithoutSpare_gone h

theorem State.spareFailed_phase : ((s.spareFailed c).tile c).phase = 0 := by
  have ht : (s.spareFailed c).tile c = ((s.spareRetired c).ownLogged 4 (0xD0 + c) (s.spare c) (s.spareRetired c).now).tile c := by
    rw [State.tile, State.spareFailed, State.fire_frame _ _ _ _ _ .tiles (by decide), State.bump_tiles, State.tile]
  rw [ht, State.ownLogged_tile, State.spareRetired, State.tile_setTile]

theorem State.spareFailed_count (hc : c < 16) : (s.spareFailed c).reg 0x12011C = s.up 0x12011C 1 := by
  have hb : sramBlock c = 0x60800 + 0x1000 * c := if_pos hc
  have hk : RegsKept [regBankState c, sramBlock c, sramBlock c + 0x48] s (s.spareRetired c) :=
    ((((State.setFlag_kept (by simp)).trans (State.bump_kept (by simp))).trans (State.setFld_kept (by simp))).trans
      (State.setFlag_kept (by simp))).trans (.of_eq (State.setTile_regs _ _ _))
  have hl : RegsKept auditRegs (s.spareRetired c) ((s.spareRetired c).ownLogged 4 (0xD0 + c) (s.spare c) (s.spareRetired c).now) := State.ownLogged_kept
  rw [State.spareFailed, State.fire_kept (l := [0x2000C, 0x10114]) (by decide) (by decide) _ (by decide), State.reg_bump, hl _ (by decide),
    hk _ (by simp [regBankState, hb]; omega), State.up]

theorem State.spareFailed_logged : Logged s (s.spareFailed c) := by
  have hs : (s.spareRetired c).audit = s.audit := State.spareRetired_does.frame .audit (by decide)
  rw [Logged, State.spareFailed, State.fire_frame _ _ _ _ _ .audit (by decide), State.bump_audit, State.ownLogged_index, hs]

section
variable (hc : c < 16) (hp : (s.tile c).phase = 1)
include hc hp

theorem exec_spareRotation_passes (hs : s.spare c ≠ 31) : exec (.spareRotation dt c true) s =
    .next ((s.elapse dt).startCopy c (s.nextBank c) false (s.tile c).cmd (s.tile c).req) := by
  have h1 : (s.elapse dt).tile c = s.tile c := rfl
  have h2 : (s.elapse dt).spare c = s.spare c := rfl
  have h3 : (s.elapse dt).nextBank c = s.nextBank c := rfl
  simp [exec, execSpareRotation, h1, h2, h3, hp, hs, Nat.not_le.mpr hc]

theorem exec_spareRotation_fails (hs : s.spare c < 17) (hroom : s.auditRoom 1 = true) : exec (.spareRotation dt c false) s =
    .next ((s.elapse dt).spareFails c) := by
  have h1 : (s.elapse dt).tile c = s.tile c := rfl
  have h2 : (s.elapse dt).spare c = s.spare c := rfl
  have h3 : (s.elapse dt).auditRoom 1 = s.auditRoom 1 := rfl
  have hne : s.spare c ≠ 31 := by omega
  simp [exec, execSpareRotation, h1, h2, h3, hp, hne, hroom, Nat.not_le.mpr hc]

end

end

/-! ### The exchange of a rotation (R243) -/

/-- The logical bank that the copied bank serves is served by the spare. -/
def State.spareServes (s : State) (c : Nat) : State :=
  match (List.range 16).find? (fun l => s.tileMap c l == (s.tile c).victim) with
  | some l => s.setTileMap c l (s.spare c)
  | none => s

/-- The copied bank is the spare from now on, and the tile is idle. -/
def State.rotated (s : State) (c : Nat) : State :=
  let u := (s.spareServes c).setFld (regBankState c) 4 0 (s.tile c).victim
  (u.setFlag (regBankState c) 8 false).setTile c { Tile.idle0 with last := u.now }

/-- The registers of a tile's bank map. -/
def mapRegs (c : Nat) : List Nat := [0x60810 + 0x1000 * c, 0x60814 + 0x1000 * c, 0x60818 + 0x1000 * c]

theorem mapReg_mem (c : Nat) {l : Nat} (hl : l < 16) : 0x60810 + 0x1000 * c + 4 * (l / 6) ∈ mapRegs c := by
  simp [mapRegs]
  omega

section
variable {s : State} {c dt : Nat}

theorem State.tileMap_setTileMap {l p : Nat} (hp : p < 32) : (s.setTileMap c l p).tileMap c l = p :=
  State.fld_setFld _ _ (by omega) (by omega) (by rwa [show 5 * (l % 6) + 4 + 1 - 5 * (l % 6) = 5 by omega])

theorem State.spareServes_does : Does [.regs] s (s.spareServes c) := by
  unfold State.spareServes
  split
  · exact State.setTileMap_does (fun _ h => h) .refl
  · exact .refl

theorem State.spareServes_kept : RegsKept (mapRegs c) s (s.spareServes c) := by
  unfold State.spareServes
  split
  next l hl => exact State.setFld_kept (mapReg_mem c (List.mem_range.mp (List.mem_of_find?_eq_some hl)))
  next => exact .refl

theorem State.spareServes_tileMap {l : Nat} (hl : l < 16) (h : s.tileMap c l = (s.tile c).victim)
    (hfirst : ∀ k < l, s.tileMap c k ≠ (s.tile c).victim) : (s.spareServes c).tileMap c l = s.spare c := by
  have hf : (List.range 16).find? (fun l => s.tileMap c l == (s.tile c).victim) = some l := by
    rw [List.find?_range_eq_some]
    exact ⟨by simp [h], List.mem_range.mpr hl, fun k hk => by simp [hfirst k hk]⟩
  rw [State.spareServes, hf]
  exact State.tileMap_setTileMap State.spare_lt

theorem State.rotated_tile : (s.rotated c).tile c = { Tile.idle0 with last := s.now } := by
  have hnow : (s.spareServes c).now = s.now := congrArg (·.acc / 2 ^ 32) (State.spareServes_does.frame .clock (by decide))
  rw [State.rotated, State.tile_setTile, State.setFld_now, hnow]

theorem State.rotated_does : Does [.regs, .tiles] s (s.rotated c) :=
  State.setTile_does (by decide) (State.setFlag_does (by decide) (State.setFld_does (by decide) (State.spareServes_does.weaken (by decide))))

theorem State.rotated_kept : RegsKept [regBankState c] (s.spareServes c) (s.rotated c) :=
  ((State.setFld_kept (by simp)).trans (State.setFlag_kept (by simp))).trans (.of_eq (State.setTile_regs _ _ _))

theorem State.rotated_spare (h : (s.tile c).victim < 17) : (s.rotated c).spare c = (s.tile c).victim := by
  rw [State.rotated, State.setTile_spare, State.spare, State.fld_setFlag_out _ _ (by decide) _ (by decide),
    State.fld_setFld _ _ (by decide) (by decide) (by omega)]

theorem State.rotated_flag : (s.rotated c).flag (regBankState c) 8 = false := by
  rw [State.rotated, State.setTile_flag, State.flag_setFlag_false _ _ (by decide)]

theorem State.rotated_tileMap {l : Nat} : (s.rotated c).tileMap c l = (s.spareServes c).tileMap c l := by
  refine State.rotated_kept.fld ?_ _ _
  simp [regBankState]
  omega

theorem mapReg_notin_audit (c l : Nat) : 0x60810 + 0x1000 * c + 4 * (l / 6) ∉ auditRegs := by
  simp [auditRegs]
  omega

/-- The exchange of a rotation, logged (R243). -/
def State.rotationLogged (s : State) (c time : Nat) : State := (s.rotated c).ownLogged 5 (0xD0 + c) (s.tile c).victim time

theorem State.tileExchange_rotates {time : Nat} (hcmd : (s.tile c).cmd = none) (hr : (s.tile c).retire = false)
    (hn : (s.tile c).next = none) :
    s.tileExchange c time = s.rotationLogged c time := by
  unfold State.tileExchange
  dsimp only
  rw [hcmd, hr, hn]
  rfl

theorem State.rotationLogged_does {time : Nat} : Does [.regs, .host, .rings, .audit, .tiles, .pwr] s (s.rotationLogged c time) :=
  State.ownLogged_does (by decide) (State.rotated_does.weaken (by decide))

theorem State.rotationLogged_logged {time : Nat} : Logged s (s.rotationLogged c time) := by
  rw [Logged, State.rotationLogged, State.ownLogged_index, State.rotated_does.frame .audit (by decide)]

theorem State.rotationLogged_bank {time : Nat} (h : (s.tile c).victim < 17) :
    (s.rotationLogged c time).spare c = (s.tile c).victim ∧ (s.rotationLogged c time).tile c = { Tile.idle0 with last := s.now } ∧
      (s.rotationLogged c time).flag (regBankState c) 8 = false := by
  have hk := regBankState_notin_audit c
  refine ⟨?_, ?_, ?_⟩
  · rw [State.rotationLogged, State.ownLogged_kept.spare hk, State.rotated_spare h]
  · rw [State.rotationLogged, State.ownLogged_tile, State.rotated_tile]
  · rw [State.rotationLogged, State.ownLogged_kept.flag hk, State.rotated_flag]

theorem State.rotationLogged_tileMap {time l : Nat} (hl : l < 16) (h : s.tileMap c l = (s.tile c).victim)
    (hfirst : ∀ k < l, s.tileMap c k ≠ (s.tile c).victim) : (s.rotationLogged c time).tileMap c l = s.spare c := by
  rw [State.tileMap, State.rotationLogged, State.ownLogged_kept.fld (mapReg_notin_audit c l)]
  exact State.rotated_tileMap.trans (State.spareServes_tileMap hl h hfirst)

section
variable (hc : c < 16) (hp : (s.tile c).phase = 2)
include hc hp

theorem exec_bankCopyDone_waits (hl : s.clusterLive c = true) (hcmd : (s.tile c).cmd.isSome = true) :
    exec (.bankCopyDone dt c) s = .next ((s.elapse dt).setTile c { s.tile c with phase := 3 }) := by
  have h1 : (s.elapse dt).tile c = s.tile c := rfl
  have h2 : (s.elapse dt).clusterLive c = s.clusterLive c := rfl
  simp [exec, execBankCopyDone, h1, h2, hp, hl, hcmd, Nat.not_le.mpr hc]

theorem exec_bankCopyDone_exchanges (hl : s.clusterLive c = false) (hroom : s.auditRoom 1 = true) :
    exec (.bankCopyDone dt c) s = .next ((s.elapse dt).tileExchange c (s.elapse dt).now) := by
  have h1 : (s.elapse dt).tile c = s.tile c := rfl
  have h2 : (s.elapse dt).clusterLive c = s.clusterLive c := rfl
  have h3 : (s.elapse dt).auditRoom 1 = s.auditRoom 1 := rfl
  simp [exec, execBankCopyDone, h1, h2, h3, hp, hl, hroom, Nat.not_le.mpr hc]

end

/-! ### A serving bank is copied to be retired (R244) -/

theorem exec_bankRetire_copies {b l : Nat} {failed : Bool} (hc : c < 16) (hl : l < 16) (hb : s.tileMap c l = b) (hs : s.spare c ≠ 31)
    (hp : (s.tile c).phase = 0) (hcmd : (s.tile c).cmd = none)
    (hdue : failed = true ∨ max 1 (s.fld (sramBlock c + 8) 19 16) ≤ s.failingWords c b) :
    exec (.bankRetire dt c b failed) s = .next (((s.elapse dt).setTile c { s.tile c with phase := 0, cmd := none }).startCopy c b true none
      ((s.elapse dt).request 0 0)) := by
  have hserving : (List.range 16).any (fun l => (s.elapse dt).tileMap c l == b) = true :=
    List.any_eq_true.mpr ⟨l, List.mem_range.mpr hl, beq_iff_eq.mpr hb⟩
  have hdue' : (failed || decide (max 1 ((s.elapse dt).fld (sramBlock c + 8) 19 16) ≤ (s.elapse dt).failingWords c b)) = true := by
    rw [Bool.or_eq_true, decide_eq_true_eq]
    exact hdue
  show execBankRetire dt c b failed s = _
  unfold execBankRetire
  dsimp only
  rw [hserving, hdue', if_neg (by simp [Nat.not_le.mpr hc]), if_neg (show ¬ (s.elapse dt).spare c = 31 from hs),
    if_neg (show ¬ 2 ≤ ((s.elapse dt).tile c).phase from by rw [show (s.elapse dt).tile c = s.tile c from rfl, hp]; decide),
    show (s.elapse dt).tile c = s.tile c from rfl, hcmd]

end

/-! ### A scrub pass (R245) -/

/-- Steps that each count one event count as many as they are. -/
theorem State.foldl_counts {α : Type} {f : State → α → State} {off : Nat} (hf : ∀ s a, (f s a).reg off = s.up off 1) (as : List α) (s : State) :
    (as.foldl f s).reg off = s.up off as.length := by
  induction as generalizing s with
  | nil => exact (s.up_zero off).symm
  | cons a as ih => exact (ih (f s a)).trans (State.up_succ (hf s a) as.length)

section
variable {s : State} {mem o : Nat}

/-- The first failing word of an SRAM since its record was cleared is recorded. -/
def State.failRecorded (s : State) (mem o : Nat) : State :=
  if s.flag (sramBlock mem) 31 then s
  else (s.setReg (sramBlock mem) (BitVec.ofNat 32 (2 ^ 31 + (if s.flag (sramBlock mem) 30 then 2 ^ 30 else 0) + s.sramBank mem o % 64 * 2 ^ 24))).setReg
    (sramBlock mem + 4) (BitVec.ofNat 32 (o % 2 ^ 24))

theorem State.failRecorded_kept : RegsKept [sramBlock mem, sramBlock mem + 4] s (s.failRecorded mem o) := by
  unfold State.failRecorded
  split
  · exact .refl
  · exact (State.setReg_kept (by simp)).trans (State.setReg_kept (by simp))

/-- A failing word is counted for its memory and for the module; nothing later touches a register. -/
theorem State.sramFail_regs : (s.sramFail mem o).regs = (((s.bump (sramBlock mem + 0x40) 1).failRecorded mem o).bump 0x110208 1).regs := by
  have he : s.sramFail mem o =
      let u := (((s.bump (sramBlock mem + 0x40) 1).failRecorded mem o).bump 0x110208 1).noteEvent 42 mem o 0
      if mem < 16 ∧ ¬ u.parWords.contains (mem, o / 16) then { u with parWords := u.parWords ++ [(mem, o / 16)] } else u := rfl
  rw [he]
  dsimp only
  split <;> rfl

theorem State.sramFail_reg (off : Nat) :
    (s.sramFail mem o).reg off = (((s.bump (sramBlock mem + 0x40) 1).failRecorded mem o).bump 0x110208 1).reg off :=
  congrArg (Cells.get regReset · off) State.sramFail_regs

theorem sramBlock_lt (mem : Nat) : sramBlock mem < 0xB8001 := by
  unfold sramBlock
  split
  · omega
  · split <;> decide

theorem State.sramFail_counts :
    (s.sramFail mem o).reg (sramBlock mem + 0x40) = s.up (sramBlock mem + 0x40) 1 ∧ (s.sramFail mem o).reg 0x110208 = s.up 0x110208 1 := by
  have hb := sramBlock_lt mem
  rw [State.sramFail_reg, State.sramFail_reg]
  constructor
  · rw [State.reg_bump_ne _ _ _ _ (by omega), State.failRecorded_kept _ (by simp), State.reg_bump, State.up]
  · rw [State.reg_bump, State.failRecorded_kept _ (by simp; omega), State.reg_bump_ne _ _ _ _ (by omega), State.up]

theorem State.sramFail_kept : RegsKept [sramBlock mem, sramBlock mem + 4, sramBlock mem + 0x40, 0x110208] s (s.sramFail mem o) :=
  (((State.bump_kept (by simp)).trans (State.failRecorded_kept.mono (by simp))).trans (State.bump_kept (by simp))).trans
    (.of_eq State.sramFail_regs)

/-- The counters of a scrub pass that found the words `fails` (R245). -/
theorem State.scrub_counts {fails : List Nat} :
    let t := (fails.foldl (fun s o => s.sramFail mem o) s).bump (sramBlock mem + 0x44) 1
    t.reg (sramBlock mem + 0x40) = s.up (sramBlock mem + 0x40) fails.length ∧ t.reg (sramBlock mem + 0x44) = s.up (sramBlock mem + 0x44) 1 ∧
      t.reg 0x110208 = s.up 0x110208 fails.length := by
  have hb := sramBlock_lt mem
  have hk : RegsKept _ s (fails.foldl (fun s o => s.sramFail mem o) s) := RegsKept.foldl fun _ _ => State.sramFail_kept
  refine ⟨?_, ?_, ?_⟩
  · rw [State.reg_bump_ne _ _ _ _ (by omega), State.foldl_counts fun _ _ => State.sramFail_counts.1]
  · rw [State.reg_bump, hk _ (by simp; omega), State.up]
  · rw [State.reg_bump_ne _ _ _ _ (by omega), State.foldl_counts fun _ _ => State.sramFail_counts.2]

theorem exec_scrubPass {dt : Nat} {fails : List Nat} (hm : mem < 16 ∨ mem = 0x40 ∨ mem = 0x41) (hf : s.fld (sramBlock mem + 8) 15 0 ≠ 0) :
    exec (.scrubPass dt mem fails) s =
      .next ((fails.foldl (fun s o => s.sramFail mem o) (s.elapse dt)).bump (sramBlock mem + 0x44) 1) := by
  have hk : RegsKept _ (s.elapse dt) (fails.foldl (fun s o => s.sramFail mem o) (s.elapse dt)) := RegsKept.foldl fun _ _ => State.sramFail_kept
  have hf' : (fails.foldl (fun s o => s.sramFail mem o) (s.elapse dt)).fld (sramBlock mem + 8) 15 0 ≠ 0 := by
    have hb := sramBlock_lt mem
    rwa [hk.fld (by simp; omega)]
  show execScrubPass dt mem fails s = _
  unfold execScrubPass
  dsimp only
  rw [if_neg (not_not_intro hm), if_neg hf']

end

/-! ### ROTATE and RETIRE_BANK (R243, R244, R25) -/

section
variable {s : State} {index c : Nat}

theorem State.acceptLogged_frame : Frame [.regs, .host, .rings, .audit] s (s.acceptLogged 0 index) :=
  (State.auditReserve_does (by decide) (State.setPhase_does (by decide) .refl)).frame

theorem State.acceptLogged_tile : (s.acceptLogged 0 index).tile c = s.tile c := by
  rw [State.tile, State.acceptLogged_frame .tiles (by decide), State.tile]

theorem State.acceptLogged_kept : RegsKept auditRegs s (s.acceptLogged 0 index) :=
  State.setPhase_kept.trans (State.auditReserve_kept (fun _ h => h))

theorem State.acceptLogged_spare : (s.acceptLogged 0 index).spare c = s.spare c := State.acceptLogged_kept.spare (regBankState_notin_audit c)

theorem State.acceptLogged_clusterLive : (s.acceptLogged 0 index).clusterLive c = s.clusterLive c := by
  have hm : (s.acceptLogged 0 index).mgt = s.mgt := State.acceptLogged_frame .mgt (by decide)
  rw [State.clusterLive, State.clusterPlane, hm, State.clusterLive, State.clusterPlane]

theorem State.acceptLogged_request {time : Nat} : (s.acceptLogged 0 index).request index time = s.request index time := by
  rw [State.auditReserve_request, State.setPhase_request]

theorem State.acceptLogged_atPhase : (s.acceptLogged 0 index).atPhase 0 index .accepted :=
  State.atPhase_auditReserve 1 (State.atPhase_setPhase s 0 index .accepted)

theorem State.acceptLogged_reserved : (s.acceptLogged 0 index).audit.reserved = s.audit.reserved + 1 :=
  State.auditReserve_reserved _ 1

theorem State.acceptLogged_index : (s.acceptLogged 0 index).audit.index = s.audit.index := State.auditReserve_index

theorem State.atPhase_setTile (s : State) (x : Tile) (r : Nat) (p : Phase) : (s.setTile c x).atPhase r index p = s.atPhase r index p := rfl

/-- A command is accepted and its tile becomes `x`. -/
theorem State.tileBecomes (s : State) (index c : Nat) (x : Tile) :
    let t := (s.acceptLogged 0 index).setTile c x
    t.tile c = x ∧ t.atPhase 0 index .accepted ∧ t.audit.reserved = s.audit.reserved + 1 ∧
      Frame [.regs, .host, .rings, .audit, .tiles] s t :=
  ⟨State.tile_setTile _ c x, by rw [State.atPhase_setTile]; exact State.acceptLogged_atPhase,
    by rw [State.setTile_audit, State.acceptLogged_reserved],
    (State.setTile_does (by decide) (State.auditReserve_does (by decide) (State.setPhase_does (by decide) .refl))).frame⟩

end

section
variable {s : State} {c bank i : Nat} {q : Req}

/-- The tile forgets the march test it waited for. -/
def State.tileCleared (s : State) (c : Nat) : State := s.setTile c { s.tile c with phase := 0, cmd := none, next := none }

theorem State.tileCleared_tile : (s.tileCleared c).tile c = { s.tile c with phase := 0, cmd := none, next := none } :=
  State.tile_setTile _ c _

section
variable (hcmd : (s.tile c).cmd = none)
include hcmd

/-- A retirement that no march test has to end for: the outcome by what the bank is and whether the cluster carries live data. -/
theorem State.retireStart_eq : s.retireStart c bank i q = if bank = (s.tileCleared c).spare c then
      if (s.tileCleared c).clusterLive c then (s.tileCleared c).setTile c
        { (s.tileCleared c).tile c with phase := 3, victim := bank, retire := true, cmd := some i, req := q }
      else (s.tileCleared c).retireSpare c i
    else (s.tileCleared c).startCopy c bank true (some i) q := by
  unfold State.retireStart
  dsimp only
  rw [hcmd]
  rfl

theorem State.retireStart_copies (hb : bank ≠ s.spare c) :
    s.retireStart c bank i q = (s.tileCleared c).startCopy c bank true (some i) q := by
  rw [State.retireStart_eq hcmd, State.tileCleared, State.setTile_spare, if_neg hb]

theorem State.retireStart_waits (hb : bank = s.spare c) (hl : s.clusterLive c = true) : s.retireStart c bank i q =
    (s.tileCleared c).setTile c
      { (s.tileCleared c).tile c with phase := 3, victim := bank, retire := true, cmd := some i, req := q } := by
  rw [State.retireStart_eq hcmd, State.tileCleared, State.setTile_spare, State.setTile_clusterLive, if_pos hb, if_pos hl]

theorem State.retireStart_atOnce (hb : bank = s.spare c) (hl : s.clusterLive c = false) :
    s.retireStart c bank i q = (s.tileCleared c).retireSpare c i := by
  rw [State.retireStart_eq hcmd, State.tileCleared, State.setTile_spare, State.setTile_clusterLive, if_pos hb, if_neg (Bool.eq_false_iff.mp hl)]

end

/-- A retirement accepted with nothing copied yet: its tile copies the bank, and the descriptor waits. -/
theorem State.acceptLogged_copies (s : State) (i c bank : Nat) (q : Req) :
    let t := ((s.acceptLogged 0 i).tileCleared c).startCopy c bank true (some i) q
    t.tile c = { s.tile c with phase := 2, victim := bank, retire := true, cmd := some i, req := q, next := none } ∧
      t.flag (regBankState c) 8 = true ∧ t.atPhase 0 i .accepted ∧ Frame [.regs, .host, .rings, .audit, .tiles] s t := by
  refine ⟨?_, State.startCopy_flag, ?_, ?_⟩
  · rw [State.startCopy_tile, State.tileCleared_tile, State.acceptLogged_tile]
  · rw [State.atPhase_startCopy, State.tileCleared, State.atPhase_setTile]
    exact State.acceptLogged_atPhase
  · exact (State.startCopy_does (by decide) (State.setTile_does (by decide) (State.auditReserve_does (by decide)
      (State.setPhase_does (by decide) .refl)))).frame

/-- A retirement of the spare that waits for its boundary (R244). -/
theorem State.acceptLogged_waits (s : State) (i c bank : Nat) (q : Req) :
    let u := (s.acceptLogged 0 i).tileCleared c
    let t := u.setTile c { u.tile c with phase := 3, victim := bank, retire := true, cmd := some i, req := q }
    t.tile c = { s.tile c with phase := 3, victim := bank, retire := true, cmd := some i, req := q, next := none } ∧
      t.atPhase 0 i .accepted ∧ Frame [.regs, .host, .rings, .audit, .tiles] s t := by
  refine ⟨?_, ?_, ?_⟩
  · rw [State.tile_setTile, State.tileCleared_tile, State.acceptLogged_tile]
  · rw [State.atPhase_setTile, State.tileCleared, State.atPhase_setTile]
    exact State.acceptLogged_atPhase
  · exact (State.setTile_does (by decide) (State.setTile_does (by decide) (State.auditReserve_does (by decide)
      (State.setPhase_does (by decide) .refl)))).frame

/-- The spare is retired with its entry in the log (R244). -/
def State.spareGone (s : State) (c i : Nat) : State :=
  (s.retiredWithoutSpare c (s.spare c)).ctlLog i 4 (0xD0 + c) (s.spare c) (s.retiredWithoutSpare c (s.spare c)).now

theorem State.retireSpare_eq (s : State) (c i : Nat) : s.retireSpare c i = (s.spareGone c i).finish 0 i stOk := rfl

theorem State.spareGone_retired (h : s.spare c < 17) :
    (s.spareGone c i).bankRetired c (s.spare c) = true ∧ (s.spareGone c i).spare c = 31 ∧ Logged s (s.spareGone c i) := by
  have hk := regBankState_notin_audit c
  obtain ⟨hgone, hnone⟩ := State.retiredWithoutSpare_gone (s := s) (c := c) h
  refine ⟨?_, ?_, ?_⟩
  · rw [State.spareGone, State.ctlLog_kept.bankRetired hk, hgone]
  · rw [State.spareGone, State.ctlLog_kept.spare hk, hnone]
  · rw [Logged, State.spareGone, State.ctlLog_index, State.retiredWithoutSpare_does.frame .audit (by decide)]

/-- The spare of a tile without live data is retired as its command is accepted. -/
theorem State.acceptLogged_spareGone (h : s.spare c < 17) :
    let u := ((s.acceptLogged 0 i).tileCleared c).spareGone c i
    u.bankRetired c (s.spare c) = true ∧ u.spare c = 31 ∧ Logged s u := by
  have hs : ((s.acceptLogged 0 i).tileCleared c).spare c = s.spare c := by
    rw [State.tileCleared, State.setTile_spare, State.acceptLogged_spare]
  have hi : ((s.acceptLogged 0 i).tileCleared c).audit.index = s.audit.index := by
    rw [State.tileCleared, State.setTile_audit, State.acceptLogged_index]
  obtain ⟨hgone, hnone, hlog⟩ := State.spareGone_retired (s := (s.acceptLogged 0 i).tileCleared c) (c := c) (i := i) (by rwa [hs])
  rw [hs] at hgone
  rw [Logged, hi] at hlog
  exact ⟨hgone, hnone, hlog⟩

end

section
variable {s : State} {d : Desc} (hd : s.nextDesc 0 0x92 = some d) (hck : s.ctlCheck d = none) (hroom : s.auditRoom 1 = true)
include hd hck hroom

theorem exec_rotate (ha : field d.w0 31 24 = 5) : exec .rotate s = .next ((s.acceptLogged 0 d.index).setTile (field d.w0 23 16 - 0xD0)
    { s.tile (field d.w0 23 16 - 0xD0) with phase := 1, cmd := some d.index, req := s.request d.index d.time }) := by
  have he : exec .rotate s = .next (s.tileAccept d) := by
    simp [exec, execRotate, ctlCmd, hd, ha, hck, hroom]
  rw [he, State.tileAccept]
  dsimp only
  rw [if_pos ha, State.acceptLogged_request, State.acceptLogged_tile]

section
variable (ha : field d.w0 31 24 = 4)
include ha

theorem exec_retireBank : exec .retireBank s = .next (s.tileAccept d) := by
  simp [exec, execRetireBank, ctlCmd, hd, ha, hck, hroom]

theorem exec_retireBank_queued {c : Nat} (hc : field d.w0 23 16 - 0xD0 = c) (hp : 2 ≤ (s.tile c).phase) :
    exec .retireBank s = .next ((s.acceptLogged 0 d.index).setTile c
      { s.tile c with next := some (d.w1.toNat, d.index, s.request d.index d.time) }) := by
  rw [exec_retireBank hd hck hroom ha, State.tileAccept]
  dsimp only
  rw [if_neg (by rw [ha]; decide), State.acceptLogged_request, hc, State.acceptLogged_tile, if_pos hp]

section
variable {c : Nat} (hc : field d.w0 23 16 - 0xD0 = c) (hp : (s.tile c).phase < 2) (hcmd : (s.tile c).cmd = none)
include hc hp

theorem exec_retireBank_starts : exec .retireBank s =
    .next ((s.acceptLogged 0 d.index).retireStart c d.w1.toNat d.index (s.request d.index d.time)) := by
  rw [exec_retireBank hd hck hroom ha, State.tileAccept]
  rw [if_neg (by rw [ha]; decide), State.acceptLogged_request, hc, State.acceptLogged_tile, if_neg (Nat.not_le.mpr hp)]

include hcmd

theorem exec_retireBank_copies (hb : d.w1.toNat ≠ s.spare c) : exec .retireBank s =
    .next (((s.acceptLogged 0 d.index).tileCleared c).startCopy c d.w1.toNat true (some d.index) (s.request d.index d.time)) := by
  rw [exec_retireBank_starts hd hck hroom ha hc hp, State.retireStart_copies (by rwa [State.acceptLogged_tile])
    (by rwa [State.acceptLogged_spare])]

theorem exec_retireBank_waits (hb : d.w1.toNat = s.spare c) (hl : s.clusterLive c = true) : exec .retireBank s =
    .next (((s.acceptLogged 0 d.index).tileCleared c).setTile c { ((s.acceptLogged 0 d.index).tileCleared c).tile c with
      phase := 3, victim := d.w1.toNat, retire := true, cmd := some d.index, req := s.request d.index d.time }) := by
  rw [exec_retireBank_starts hd hck hroom ha hc hp, State.retireStart_waits (by rwa [State.acceptLogged_tile])
    (by rwa [State.acceptLogged_spare]) (by rwa [State.acceptLogged_clusterLive])]

theorem exec_retireBank_atOnce (hb : d.w1.toNat = s.spare c) (hl : s.clusterLive c = false) : exec .retireBank s =
    .next ((((s.acceptLogged 0 d.index).tileCleared c).spareGone c d.index).finish 0 d.index stOk) := by
  rw [exec_retireBank_starts hd hck hroom ha hc hp, State.retireStart_atOnce (by rwa [State.acceptLogged_tile])
    (by rwa [State.acceptLogged_spare]) (by rwa [State.acceptLogged_clusterLive]), State.retireSpare_eq]

end

end

end

/-- RETIRE_BANK that passes its checks names one of the 17 banks (R25). -/
theorem State.ctlCheck_bank {s : State} {d : Desc} (hck : s.ctlCheck d = none) (ha : field d.w0 31 24 = 4) : d.w1.toNat < 17 := by
  unfold State.ctlCheck at hck
  simp only [ha, if_true] at hck
  refine Nat.lt_of_not_le fun hlt => ?_
  rw [if_pos (show decide (16 < d.w1.toNat) = true from decide_eq_true hlt)] at hck
  repeat' split at hck
  all_goals cases hck

/-- Settles O20: each step of a rotation or retirement, each pass and each command by the lemma that says what it comes to. -/
theorem spareBanksRotateAndRetire : Obligations.SpareBanksRotateAndRetire := by
  refine ⟨fun s dt c => ?_, fun s d => ?_⟩
  · intro u x up
    have hu : Does [.clock] s u := State.elapse_does (fun _ h => h) .refl
    refine ⟨fun hc hs hp => ?_, fun hc hs hp hcmd hroom => ?_, fun i hc hs hp hcmd hroom => ?_, fun hc hp hl hcmd => ?_,
      fun hc hp hl hcmd hr hn hroom hv => ?_, fun b l hc hl hb hs hp hcmd failed hdue => ?_, fun mem fails hm hf => ?_⟩
    · exact ⟨_, exec_spareRotation_passes hc hp hs, State.startCopy_tile, State.startCopy_flag,
        RegsKept.trans (t := u) (.of_eq rfl) State.startCopy_kept, (State.startCopy_does (by decide) (hu.weaken (by decide))).frame⟩
    · have he := exec_spareRotation_fails (dt := dt) hc hp hs hroom
      rw [State.spareFails_alone (s := s.elapse dt) hcmd] at he
      obtain ⟨hgone, hnone⟩ := State.spareFailed_gone (s := s.elapse dt) hs
      have hlog := (State.spareFailed_logged (s := s.elapse dt) (c := c)).of_elapse
      exact ⟨_, he, hgone, hnone, State.spareFailed_phase, State.spareFailed_count (s := s.elapse dt) hc, State.spareFailed_flag, hlog,
        ((hu.weaken (by decide)).trans (State.spareFailed_does.weaken (by decide))).frame⟩
    · have he := exec_spareRotation_fails (dt := dt) hc hp hs hroom
      rw [State.spareFails_asked (s := s.elapse dt) hcmd] at he
      have hk := regBankState_notin_audit c
      obtain ⟨hgone, hnone⟩ := State.spareFailed_gone (s := s.elapse dt) hs
      refine ⟨_, he, ?_, ?_, ?_⟩
      · rw [State.ctlLog_kept.bankRetired hk]
        exact hgone
      · rw [State.ctlLog_kept.spare hk]
        exact hnone
      · rw [State.ctlLog_tile]
        exact State.spareFailed_phase
    · exact ⟨_, exec_bankCopyDone_waits hc hp hl hcmd, State.tile_setTile _ c _, (State.setTile_does (by decide) (hu.weaken (by decide))).frame⟩
    · have he := exec_bankCopyDone_exchanges (dt := dt) hc hp hl hroom
      rw [State.tileExchange_rotates (s := s.elapse dt) hcmd hr hn] at he
      obtain ⟨hspare, htile, hflag⟩ := State.rotationLogged_bank (s := s.elapse dt) (time := u.now) hv
      have hlog := (State.rotationLogged_logged (s := s.elapse dt) (c := c) (time := u.now)).of_elapse
      exact ⟨_, he, hspare, htile, hlog, hflag, fun l hl hm hfirst => State.rotationLogged_tileMap (s := s.elapse dt) hl hm hfirst,
        ((hu.weaken (by decide)).trans (State.rotationLogged_does.weaken (by decide))).frame⟩
    · refine ⟨_, exec_bankRetire_copies hc hl hb hs hp hcmd hdue, ?_, ?_, ?_, State.startCopy_flag, ?_, ?_⟩
      · rw [State.startCopy_tile]
      · rw [State.startCopy_tile]
      · rw [State.startCopy_tile]
      · exact RegsKept.trans (t := u.setTile c _) (.of_eq (State.setTile_regs u c _)) State.startCopy_kept
      · exact (State.startCopy_does (by decide) (State.setTile_does (by decide) (hu.weaken (by decide)))).frame
    · obtain ⟨h40, h44, h208⟩ := State.scrub_counts (s := u) (mem := mem) (fails := fails)
      exact ⟨_, exec_scrubPass hm hf, h40, h44, h208,
        (State.bump_does (by decide) (Does.foldl (hu.weaken (by decide)) fun _ _ h => State.sramFail_does (by decide) h)).frame⟩
  · intro c q x hd hck hroom
    refine ⟨fun ha => ⟨_, exec_rotate hd hck hroom ha, s.tileBecomes d.index c _⟩, fun ha hp => ?_, fun ha hp hcmd hb => ?_,
      fun ha hp hcmd hb hl => ?_, fun ha hp hcmd hb hl => ?_⟩
    · exact ⟨_, exec_retireBank_queued hd hck hroom ha rfl hp, s.tileBecomes d.index c _⟩
    · exact ⟨_, exec_retireBank_copies hd hck hroom ha rfl hp hcmd hb, s.acceptLogged_copies d.index c _ _⟩
    · exact ⟨_, exec_retireBank_waits hd hck hroom ha rfl hp hcmd hb hl, s.acceptLogged_waits d.index c _ _⟩
    · exact ⟨_, exec_retireBank_atOnce hd hck hroom ha rfl hp hcmd hb hl, State.acceptLogged_spareGone (hb ▸ State.ctlCheck_bank hck ha)⟩

end Sys2Proof.Machine
end
